-- ==== Sys2Proof/Word.lean ====
section
/-! DEFINITION. Words, bytes, and the one sparse table form (`Map`) in which the model keeps every array of the
block: registers, memories, tables, queues of slots. -/

namespace Sys2Proof

/-- One byte. -/
abbrev Byte := BitVec 8
/-- A 32-bit word (configuration words, status words, token counters). -/
abbrev Word := BitVec 32
/-- A 64-bit word (A and D registers, S, L, X and W slot words, counters). -/
abbrev DWord := BitVec 64

/-- A sparse table: keys strictly rising, and no entry equal to what an unlisted key reads as. -/
abbrev Map (α : Type) := List (Nat × α)

variable {α : Type}

/-- What the table holds at `k`, where an unlisted key reads as `d`. -/
def Map.get (d : α) : Map α → Nat → α
  | [], _ => d
  | (k', v) :: m, k => if k = k' then v else Map.get d m k

/-- The table with `k` removed. -/
def Map.erase : Map α → Nat → Map α
  | [], _ => []
  | (k', v) :: m, k => if k = k' then m else (k', v) :: Map.erase m k

/-- The table with the pair put in its place in key order, replacing a pair of the same key. -/
def Map.insert : Map α → Nat → α → Map α
  | [], k, v => [(k, v)]
  | (k', v') :: m, k, v =>
    if k < k' then (k, v) :: (k', v') :: m
    else if k = k' then (k, v) :: m
    else (k', v') :: Map.insert m k v

/-- The table with `v` at `k`: writing what an unlisted key reads as removes the entry. -/
def Map.set [DecidableEq α] (d : α) (m : Map α) (k : Nat) (v : α) : Map α :=
  if v = d then Map.erase m k else Map.insert m k v

/-- Every key of the table is above `lo`, rising, and no value is `d`. -/
def Map.wfFrom [DecidableEq α] (d : α) : Nat → Map α → Bool
  | _, [] => true
  | lo, (k, v) :: m => decide (lo ≤ k) && decide (v ≠ d) && Map.wfFrom d (k + 1) m

/-- The canonical form: keys strictly rising, no entry equal to what an unlisted key reads as. -/
def Map.wf [DecidableEq α] (d : α) (m : Map α) : Bool := Map.wfFrom d 0 m

/-- The table with `f` applied to what it holds at `k`. -/
def Map.modify [DecidableEq α] (d : α) (m : Map α) (k : Nat) (f : α → α) : Map α :=
  Map.set d m k (f (Map.get d m k))

/-- The values written at successive keys from `k`. -/
def Map.setList [DecidableEq α] (d : α) (m : Map α) (k : Nat) : List α → Map α
  | [] => m
  | v :: vs => Map.setList d (Map.set d m k v) (k + 1) vs

/-- The `n` values at successive keys from `k`. -/
def Map.getList (d : α) (m : Map α) (k : Nat) : Nat → List α
  | 0 => []
  | n + 1 => Map.get d m k :: Map.getList d m (k + 1) n

/-- The `n` values at successive keys from `k`, where an unlisted key reads as `d` gives. -/
def Map.read (d : Nat → α) (m : Map (Option α)) (k n : Nat) : List α :=
  (List.range n).map fun i => (Map.get none m (k + i)).getD (d (k + i))

/-- The values written at successive keys from `k` of a table whose unlisted keys have no value of their own. -/
def Map.write [DecidableEq α] (m : Map (Option α)) (k : Nat) (l : List α) : Map (Option α) :=
  Map.setList none m k (l.map some)

/-- The table without its keys in `lo ≤ key < hi`. -/
def Map.eraseRange (m : Map α) (lo hi : Nat) : Map α :=
  m.filter (fun e => !(decide (lo ≤ e.1) && decide (e.1 < hi)))

/-- The keys the table lists. -/
def Map.keys (m : Map α) : List Nat := m.map Prod.fst

/-- The list with `v` at position `k` (unchanged where the list is shorter). -/
def setNth (l : List α) (k : Nat) (v : α) : List α := l.set k v

/-- The element at `k`, or `d` past the end. -/
def nth (d : α) (l : List α) (k : Nat) : α := (l[k]?).getD d

/-- Exactly `n` elements: the list cut, or padded with `d`. -/
def fit (d : α) (n : Nat) (l : List α) : List α := (l ++ List.replicate n d).take n

end Sys2Proof
end

