-- ==== Sys2Proof/Syntax.lean ====
section
/-! DEFINITION. The commands of the block: one constructor of `Instr` per row of spec/opcode_table.json, and the
operand types the rows carry. -/

namespace Sys2Proof

/-- Where a slot issues: the partition whose stream runs, the lane (0 to 63 an engine lane, 255 the shared lane), and
the 32-bit header of the lane word that carries the slot (R69). -/
structure Issue where
  part : Nat
  lane : Nat
  hdr : BitVec 32
  deriving DecidableEq, Repr

/-- How a stored line reads back under its error-correcting code (R105, R153). -/
inductive Ecc where
  | clean
  | corrected
  | uncorrectable
  deriving DecidableEq, Repr

/-- How a host unit's tag compares with the device's record: equal, equal to its complement, or neither (R219, R412). -/
inductive TagCheck where
  | match
  | complement
  | fail
  deriving DecidableEq, Repr

/-- A Huveip frame as it arrives (R128, R129): the link word, the header, the payload, and what the CRC and the tag
say of it. -/
structure RxFrame where
  seq : Nat
  ack : Nat
  ackv : Bool
  nak : Bool
  vc : Nat
  dst : Nat
  src : Nat
  first : Bool
  last : Bool
  winId : Nat
  gen : Nat
  flags : Nat
  lineOff : Nat
  tctr : Nat
  tamt : Nat
  wtag : Nat
  hops : Nat
  payload : List Byte
  crcOk : Bool
  crcInverted : Bool
  tagOk : Bool
  deriving DecidableEq, Repr

/-- What a peer's REPORT message shows when Lantern checks it (R402). -/
structure PeerReport where
  certOk : Bool
  signatureOk : Bool
  nonceOk : Bool
  fabricId : Nat
  lifecycle : Nat
  debugOpen : Bool
  owner : List Byte
  deriving DecidableEq, Repr

/-- An Ethernet frame as received (R242). -/
structure EthFrame where
  bytes : List Byte
  fcsOk : Bool
  stamp : Nat
  deriving DecidableEq, Repr

/-- A REKEY message as received (R403): the frame number from which frames received carry the new key, and its key or ciphertext. -/
structure RekeyMessage where
  switchRx : Nat
  bytes : List Byte
  deriving DecidableEq, Repr

/-- What a write of BAR0 carries (R317): 64 bits where `wide`, otherwise 32. -/
structure BarValue where
  wide : Bool
  value : Nat
  deriving DecidableEq, Repr

/-- A CAN frame as received, error-free (R306). -/
structure CanFrame where
  ident : Nat
  extended : Bool
  fd : Bool
  data : List Byte
  deriving DecidableEq, Repr

/-- What resets the PCIe endpoint (R315, R324). -/
inductive EndpointReset where
  | perst
  | hotReset
  | flr
  | d3hotExit
  deriving DecidableEq, Repr

/-- A submission entry (R319); `reserved` is its reserved bytes and flag bits. -/
structure Entry where
  opcode : Nat
  cid : Nat
  flags : Nat
  partition : Nat
  reserved : Nat
  argAddr : Nat
  argLen : Nat
  dataLen : Nat
  dataAddr : Nat
  inline : List Byte
  deriving DecidableEq, Repr

/-- A PCIe read completion for command number `cmd` of queue `q` (R315): `what` is 0 the argument block, 1 the length
table, 2 the token list, 3 host data of a program transfer. -/
structure HostRead where
  q : Nat
  cmd : Nat
  what : Nat
  bytes : List Byte
  poisoned : Bool
  deriving DecidableEq, Repr

/-- A block that the canary scan found in need (R369). -/
structure CanaryFinding where
  die : Nat
  block : Nat
  deriving DecidableEq, Repr

/-- Which part of Cupola's memory an uncorrectable error hit (R421). -/
inductive CupolaPart where
  | ingestRing
  | groupData
  | config
  deriving DecidableEq, Repr

/-- Which part of Steeple's memory an uncorrectable error hit (R422). -/
inductive SteeplePart where
  | queue
  | buffer
  | mesh
  deriving DecidableEq, Repr

/-- The commands. -/
inductive Instr where
  /-- S_NOP (R69). S-slot NOP: the S slot does nothing in the lane word's step. -/
  | sNop (i : Issue) (w : BitVec 64)
  /-- S_ALU (R64). S-slot ADD, SUB, AND, OR or XOR writes the wrapped 64-bit result to RD. -/
  | sAlu (i : Issue) (w : BitVec 64)
  /-- S_SHIFT (R64). S-slot SHL, SHR or SAR shifts RS1 by source 2 [5:0]. -/
  | sShift (i : Issue) (w : BitVec 64)
  /-- S_MUL (R64). S-slot MUL writes the low 64 bits of the product. -/
  | sMul (i : Issue) (w : BitVec 64)
  /-- S_COMPARE (R64). S-slot SLT, SLTU or SEQ writes 1 or 0 to RD. -/
  | sCompare (i : Issue) (w : BitVec 64)
  /-- MOVI (R64). Sets RD to IMM32, sign-extended. -/
  | movi (i : Issue) (w : BitVec 64)
  /-- MOVHI (R64). Sets RD[63:32] to IMM32 and keeps RD[31:0]. -/
  | movhi (i : Issue) (w : BitVec 64)
  /-- SETSTR (R70). Sets the auto-increment stride of an A register from the next issue onward. -/
  | setstr (i : Issue) (w : BitVec 64)
  /-- SLD (R74). Scalar load from the scratchpad through the gather buffer, with alignment and region checks. -/
  | sld (i : Issue) (w : BitVec 64)
  /-- SST (R74). Scalar store to the scratchpad through the gather buffer. -/
  | sst (i : Issue) (w : BitVec 64)
  /-- BR (R66). Unconditional branch of the lane, costing the fetch latency when the target is not queued. -/
  | br (i : Issue) (w : BitVec 64)
  /-- BRZ_BRNZ (R66). Branches when RS1 is zero or non-zero. -/
  | brzBrnz (i : Issue) (w : BitVec 64)
  /-- LOOP (R69). Arms a hardware loop register with a count and a body. -/
  | loopArm (i : Issue) (w : BitVec 64)
  /-- RDST (R76). Reads the ASW, the LSW, a lane counter or a token counter into RD. -/
  | rdst (i : Issue) (w : BitVec 64)
  /-- CLRST (R60). W1C write of source 2 to the ASW or the LSW. -/
  | clrst (i : Issue) (w : BitVec 64)
  /-- RAGGED (R213). Ragged dispatch: expands the length table into work items and runs the body once per item. -/
  | ragged (i : Issue) (w : BitVec 64)
  /-- END (R79). Stops the lane. -/
  | laneEnd (i : Issue) (w : BitVec 64)
  /-- LDT (R96). Loads array tiles from the scratchpad into operand slots. -/
  | ldt (i : Issue) (second : Bool) (w : BitVec 64)
  /-- LDL (R96). Loads 64-byte units into the line buffer. -/
  | ldl (i : Issue) (second : Bool) (w : BitVec 64)
  /-- LDV (R96). Loads 256 bytes into each of a run of vector registers. -/
  | ldv (i : Issue) (second : Bool) (w : BitVec 64)
  /-- MVT (R69). Copies operand slots within the tile, one slot per tile cycle. -/
  | mvt (i : Issue) (second : Bool) (w : BitVec 64)
  /-- MATMUL (R44). Matrix operation across the 16 arrays into accumulator rows, optionally through the Winograd stage. -/
  | matmul (i : Issue) (w : BitVec 96)
  /-- WINO_OUT (R56). F(4x4,3x3) output transform from 36 position rows to 16 output rows. -/
  | winoOut (i : Issue) (w : BitVec 96)
  /-- V_NOP (R58). V-slot NOP. -/
  | vNop (i : Issue) (w : BitVec 96)
  /-- V_FMA (R58). Vector fused multiply-add VS1 x VS2 + VS3. -/
  | vFma (i : Issue) (w : BitVec 96)
  /-- V_ADD (R58). Vector add. -/
  | vAdd (i : Issue) (w : BitVec 96)
  /-- V_SUB (R58). Vector subtract. -/
  | vSub (i : Issue) (w : BitVec 96)
  /-- V_MUL (R58). Vector multiply. -/
  | vMul (i : Issue) (w : BitVec 96)
  /-- V_MAX (R58). Vector maximum. -/
  | vMax (i : Issue) (w : BitVec 96)
  /-- V_MIN (R58). Vector minimum. -/
  | vMin (i : Issue) (w : BitVec 96)
  /-- CMPLT (R58). Vector compare less-than, giving 1 or 0 per lane. -/
  | cmplt (i : Issue) (w : BitVec 96)
  /-- CMPEQ (R58). Vector compare equal. -/
  | cmpeq (i : Issue) (w : BitVec 96)
  /-- SEL (R58). Vector select: VS3 non-zero ? VS1 : VS2. -/
  | sel (i : Issue) (w : BitVec 96)
  /-- V_LOGIC (R58). Vector AND, OR or XOR selected by IMM32 [1:0]. -/
  | vLogic (i : Issue) (w : BitVec 96)
  /-- V_SHL (R58). Vector shift left. -/
  | vShl (i : Issue) (w : BitVec 96)
  /-- V_SHR (R58). Vector shift right, arithmetic for signed types. -/
  | vShr (i : Issue) (w : BitVec 96)
  /-- EXP2 (R59). Vector base-2 exponential on 16 lanes per step. -/
  | exp2 (i : Issue) (w : BitVec 96)
  /-- LOG2 (R59). Vector base-2 logarithm. -/
  | log2 (i : Issue) (w : BitVec 96)
  /-- RCP (R59). Vector reciprocal. -/
  | rcp (i : Issue) (w : BitVec 96)
  /-- RSQ (R59). Vector reciprocal square root. -/
  | rsq (i : Issue) (w : BitVec 96)
  /-- CVT (R58). Vector format conversion, block-scaled per R53 where the target needs it. -/
  | cvt (i : Issue) (w : BitVec 96)
  /-- QBLK (R53). Block-quantises rows, with their scale bytes, into an array tile being assembled. -/
  | qblk (i : Issue) (w : BitVec 96)
  /-- RSUM (R58). Cross-lane sum over 64 lanes. -/
  | rsum (i : Issue) (w : BitVec 96)
  /-- RMAX (R58). Cross-lane maximum over 64 lanes. -/
  | rmax (i : Issue) (w : BitVec 96)
  /-- V_MOV (R58). Vector move. -/
  | vMov (i : Issue) (w : BitVec 96)
  /-- VST (R58). Vector store to a tile memory. -/
  | vst (i : Issue) (w : BitVec 96)
  /-- PUT (R123). Writes source units into a window, with a token increment behind the data. -/
  | put (i : Issue) (w : BitVec 64)
  /-- SIGNAL (R122). Sends an increment with no data through a window. -/
  | signal (i : Issue) (w : BitVec 64)
  /-- HALO (R122). Writes line-buffer units into another lane's line buffer, with an increment. -/
  | halo (i : Issue) (w : BitVec 64)
  /-- TINC (R73). Adds TAMT to one of the lane's own counters. -/
  | tinc (i : Issue) (w : BitVec 64)
  /-- TSET (R73). Sets one of the lane's own counters. -/
  | tset (i : Issue) (w : BitVec 64)
  /-- XFENCE (R125). Stalls the lane until every write it issued has returned its completion. -/
  | xfence (i : Issue) (w : BitVec 64)
  /-- WB (R190). W-slot write-back to the scratchpad, with optional pooling. -/
  | wb (i : Issue) (w : BitVec 64)
  /-- WBW (R190). W-slot write-back to a window, with optional pooling and an increment. -/
  | wbw (i : Issue) (w : BitVec 64)
  /-- DMA_DDR5_TO_SCRATCHPAD (R162). Shared-lane L post of a descriptor chain from DDR5 or KV pages to the scratchpad. -/
  | dmaDdr5ToScratchpad (i : Issue) (second : Bool) (w : BitVec 64)
  /-- DMA_SCRATCHPAD_TO_DDR5 (R162). Shared-lane L post of a descriptor chain from the scratchpad to DDR5 or KV pages. -/
  | dmaScratchpadToDdr5 (i : Issue) (second : Bool) (w : BitVec 64)
  /-- DMA_NAND_TO_SCRATCHPAD (R180). Shared-lane L post reading a data object from NAND into the scratchpad. -/
  | dmaNandToScratchpad (i : Issue) (second : Bool) (w : BitVec 64)
  /-- DMA_HOST_TO_SCRATCHPAD (R218). Shared-lane L post reading host swap units, decrypted, into the scratchpad. -/
  | dmaHostToScratchpad (i : Issue) (second : Bool) (w : BitVec 64)
  /-- DMA_SCRATCHPAD_TO_HOST (R218). Shared-lane L post writing scratchpad data, encrypted, to host swap units. -/
  | dmaScratchpadToHost (i : Issue) (second : Bool) (w : BitVec 64)
  /-- HUVEIP_DMA (R164). Shared-lane L post sending descriptors as successive window writes over Huveip. -/
  | huveipDma (i : Issue) (second : Bool) (w : BitVec 64)
  /-- FLOAM_POST (R174). Shared-lane M post of a Floam chain to a decompressor. -/
  | floamPost (i : Issue) (w : BitVec 96)
  /-- STEM_COMMAND_POST (R193). Shared-lane V post of a stem-engine command record. -/
  | stemCommandPost (i : Issue) (w : BitVec 96)
  /-- UNIT_RECORD_POST (R75). Shared-lane W post writing a record to a Cupola, Steeple or Campanile window. -/
  | unitRecordPost (i : Issue) (w : BitVec 64)
  /-- WAIT_SATISFIED (R73). A waiting lane's counter reaches AMOUNT; the counter is consumed if asked and the lane word issues. -/
  | waitSatisfied (i : Issue)
  /-- LANE_FETCH_RETURN (R66). Lane code arrives in the tile's fetch queue, releasing a lane held by fetch. -/
  | laneFetchReturn (part lane : Nat)
  /-- SCRATCHPAD_READ_RETURN (R96). Lines of a scratchpad read arrive at the requester, releasing interlocks. -/
  | scratchpadReadReturn (id : Nat)
  /-- SCRATCHPAD_WRITE_COMPLETE (R96). A scratchpad write's completion returns to its requester. -/
  | scratchpadWriteComplete (id : Nat)
  /-- ACCUMULATOR_WRITE (R45). A matrix operation writes accumulator rows, releasing reads waiting on them. -/
  | accumulatorWrite (part lane : Nat)
  /-- VECTOR_RESULT_READY (R58). A vector operation's result is written after its latency, releasing register interlocks. -/
  | vectorResultReady (part lane : Nat)
  /-- INCREMENT_APPLY (R123). Once every line of a write is acknowledged, its tracker applies the increment at the counter or unit. -/
  | incrementApply (id : Nat)
  /-- WRITE_COMPLETION (R125). A write's completion or fault status returns to the issuing lane, setting LSW flags where needed. -/
  | writeCompletion (id : Nat)
  /-- WRITE_TRACKER_TIMEOUT (R125). No device has reported a remote write within 100 ms; it completes with ST_LINK_DOWN. -/
  | writeTrackerTimeout (id : Nat)
  /-- REMOTE_WRITE_ABANDON (R123). A remote write's next frame has not arrived within 10 ms; the write is abandoned without its increment. -/
  | remoteWriteAbandon (id : Nat)
  /-- WINDOW_WRITE_ARRIVAL (R119). An on-device write, or a remote write's first frame, is checked at the window's home entry. -/
  | windowWriteArrival (id : Nat)
  /-- JOB_START (R78). A context takes a job: counters, LSWs and strides cleared, pages allocated, then READY. -/
  | jobStart (part ctx : Nat)
  /-- SWAP_OUT_COMPLETE (R217). A victim's pages have been written to KV swap units; they are freed, zero-filled and given to the waiting job. -/
  | swapOutComplete (part slot : Nat)
  /-- SWAP_IN_COMPLETE (R219). A swap unit is read back and checked against its record; a failing unit arrives poisoned. -/
  | swapInComplete (part unit : Nat) (tag : TagCheck) (data : List Byte)
  /-- JOB_COMPLETE (R79). Every lane has issued END and every write is visible; the CP records statistics and posts the completion. -/
  | jobComplete (part ctx : Nat)
  /-- PREEMPT_REQUEST (R227). The CP requests pre-emption of the RUNNING context and raises it to its lanes and sequencer. -/
  | preemptRequest (part : Nat)
  /-- QUANTUM_EXPIRY (R227). The running context has run QUANTUM_US; pre-emption is requested if an equal-priority context waits. -/
  | quantumExpiry (part : Nat)
  /-- WAIT_SWITCH_EXPIRY (R227). Every lane has waited WAIT_SWITCH_US on an external counter at a yield point; pre-emption is requested. -/
  | waitSwitchExpiry (part : Nat)
  /-- YIELD_STOP (R80). A lane with a pending pre-emption reaches its yield point and stops without consuming its wait. -/
  | yieldStop (part lane : Nat)
  /-- CONTEXT_SAVE (R230). All lanes stopped and writes completed: state saved, live regions spilled, the next context restored and released. -/
  | contextSave (part : Nat)
  /-- PREEMPT_TIMEOUT (R230). PREEMPT_TIMEOUT_US expires; the job ends with ST_YIELD_TIMEOUT, nothing saved. -/
  | preemptTimeout (part : Nat)
  /-- JOB_TIMEOUT (R229). The job timeout expires; lanes stop and the job ends with ST_JOB_TIMEOUT. -/
  | jobTimeout (part ctx : Nat)
  /-- REBIND (R224). A fenced tile's engine is rebound to the spare, counters moved, DST rebuilt and R85 applied. -/
  | rebind (part : Nat)
  /-- GATHER_ENTRY_ISSUE (R99). A gather-buffer entry issues as one read-modify-write of its line. -/
  | gatherEntryIssue (group line : Nat)
  /-- ARBITER_GRANT (R234). An arbiter makes a grant decision by class, round robin or rotating rank. -/
  | arbiterGrant (ty inst : Nat) (pending : List Nat) (emergency : Bool)
  /-- STARVATION_PROMOTION (R235). A requester's wait count reaches G; its effective class rises by one. -/
  | starvationPromotion (ty inst req : Nat)
  /-- SIDEBAND_MASK (R238). A requester's power or reset sideband masks or unmasks it at its arbiters. -/
  | sidebandMask (ty inst req : Nat) (masked : Bool)
  /-- PATROL_SCRUB (R105). Patrol scrub reads a scratchpad line and writes back corrected data. -/
  | patrolScrub (bank line granule : Nat) (ecc : Ecc)
  /-- BANK_RETIREMENT (R106). A bank meeting a retirement trigger is copied to a spare, replaced in its region and retired. -/
  | bankRetirement (bank : Nat)
  /-- HOT_WINDOW_END (R110). At the end of each hot window the bank sets or clears HOT and the CP may post a hot-bank notice. -/
  | hotWindowEnd (bank grants waits : Nat)
  /-- RETENTION_WAKE (R443). An access wakes a retention bank, which then serves it. -/
  | retentionWake (bank : Nat)
  /-- RETENTION_RETURN (R443). A woken bank returns to retention after 1 ms with no access. -/
  | retentionReturn (bank : Nat)
  /-- HUVEIP_WRITE_FRAME (R130). A WRITE frame arrives: sequence, CRC and tag checked, then landed, forwarded or dropped by route. -/
  | huveipWriteFrame (port : Nat) (rx : RxFrame)
  /-- HUVEIP_SIGNAL_FRAME (R129). A SIGNAL frame arrives and is handled as a write without data. -/
  | huveipSignalFrame (port : Nat) (rx : RxFrame)
  /-- COMPLETION_FRAME (R136). A COMPLETION frame arrives on channel C and is sunk by the tracker or forwarded. -/
  | completionFrame (port : Nat) (rx : RxFrame)
  /-- PACE_NOTICE_RECEIVE (R144). A PACE frame arrives; it is forwarded while RADIUS allows and limits the steps of following partitions. -/
  | paceNoticeReceive (port : Nat) (rx : RxFrame)
  /-- LINK_CREDITS (R131). A LINK frame of KIND 0 returns credits for the three channels. -/
  | linkCredits (port : Nat) (rx : RxFrame)
  /-- BRINGUP (R134). LINK BRINGUP message exchanging device IDs, lane count and buffer slots. -/
  | linkBringup (port peerId lanes slots : Nat)
  /-- HELLO (R401). LINK HELLO message with device ID, nonce and, from the initiator, an encapsulation key. -/
  | linkHello (port peerId : Nat) (nonce key : List Byte)
  /-- ENCAP (R401). LINK ENCAP message carrying the ML-KEM ciphertext. -/
  | linkEncap (port : Nat) (ciphertext : List Byte)
  /-- REPORT (R402). LINK REPORT message with certificate and attestation report, checked for admission. -/
  | linkReport (port : Nat) (v : PeerReport)
  /-- FINISH (R401). LINK FINISH message confirming the transcript; the session comes up. -/
  | linkFinish (port : Nat) (confirmed : Bool)
  /-- REKEY (R403). LINK REKEY message exchange switching keys at switch frame numbers. -/
  | linkRekey (port switchTx : Nat) (rx : RekeyMessage)
  /-- ABORT (R401). LINK ABORT message ending a failed bring-up. -/
  | linkAbort (port reason : Nat)
  /-- REPLAY_TIMEOUT (R130). No acknowledgement for 2 µs; the sender replays from the frame after ACK. -/
  | replayTimeout (port : Nat)
  /-- CREDIT_RETURN_TIMER (R131). 100 ns pass with credits owed; the receiver sends a LINK credit frame. -/
  | creditReturnTimer (port : Nat)
  /-- LANE_LOCK_LOSS (R133). A Huveip lane loses lock and the port retrains at a lower lane count. -/
  | laneLockLoss (port lane : Nat)
  /-- FEC_RATE_CHECK (R133). Over 1 s a lane's corrected-symbol ratio exceeds 1e-5; the port degrades. -/
  | fecRateCheck (port lane corrected received : Nat)
  /-- PORT_RETRAIN (R134). The port repeats equalisation and alignment, keeping the session. -/
  | portRetrain (port : Nat) (succeeded : Bool)
  /-- REKEY_START (R403). 2^32 frames or 24 h reached; the initiator starts a rekey. -/
  | rekeyStart (port : Nat)
  /-- REKEY_TIMEOUT (R403). A rekey not completed within 100 ms ends the session. -/
  | rekeyTimeout (port : Nat)
  /-- BRINGUP_RETRY (R401). 10 s after a failed bring-up the port returns to step 1. -/
  | bringupRetry (port : Nat)
  /-- PACE_REPEAT (R143). Every 50 ms while a die stays held, the pace notice is repeated. -/
  | paceRepeat
  /-- PACE_HOLD_EXPIRY (R144). HOLD_MS passes with no further notice; the CP lifts the pace limit. -/
  | paceHoldExpiry (source : Nat)
  /-- REFRESH_DUE (R157). tREFI expires and a DDR5 refresh is requested, turning urgent at the fifth postponement. -/
  | refreshDue (sub : Nat)
  /-- DDR5_TEMP_READ (R158). Every 16 ms a channel reads its devices' temperature and sets its throttling. -/
  | ddr5TempRead (ch : Nat) (deciC : Int)
  /-- DDR5_PATROL_SCRUB (R155). DDR5 patrol scrub reads a line, correcting or poisoning it. -/
  | ddr5PatrolScrub (line : Nat) (ecc : Ecc)
  /-- DDR5_PAGE_RETIREMENT (R156). A DDR5 page meeting a trigger is copied to a spare and remapped, or fenced when none is left. -/
  | ddr5PageRetirement (page : Nat)
  /-- SUBCHANNEL_RETRAIN (R419). A sub-channel with too many errors is retrained, and fenced after three retrains in an hour. -/
  | subchannelRetrain (sub cause : Nat)
  /-- DDR5_WRITE_ACK (R474). A DDR5 line enters the controller's write buffer and is acknowledged to its tracker. -/
  | ddr5WriteAck (id : Nat)
  /-- DDR5_READ_RETURN (R474). A DDR5 line is read, decrypted and corrected, and written at its destination. -/
  | ddr5ReadReturn (id : Nat) (ecc : Ecc)
  /-- DMA_POST_COMPLETE (R160). Every byte of a DMA post is visible; its shared-counter increment is applied. -/
  | dmaPostComplete (id : Nat)
  /-- FLOAM_BLOCK_EXPAND (R172). A decompressor checks and expands a Floam block into array tiles, poisoning bad ones. -/
  | floamBlockExpand (id : Nat)
  /-- FLOAM_ENTRY_COMPLETE (R174). A Floam chain's data are visible; the post's increment is applied. -/
  | floamEntryComplete (id : Nat)
  /-- MODEL_STAGE_COPY_DONE (R165). The copy of a DDR5-staged model completes and model.stage completes. -/
  | modelStageCopyDone (part : Nat) (modelId : Nat)
  /-- STEM_LINE_START (R196). The input lines an output line needs are present; the stem engine computes and writes the line. -/
  | stemLineStart (id : Nat)
  /-- CSI_FRAME_START (R245). A CSI-2 frame start short packet advances the camera's ingest sequence number. -/
  | csiFrameStart (port vc frame : Nat)
  /-- CSI_FRAME_END (R245). A CSI-2 frame end completes the last line and the image. -/
  | csiFrameEnd (port vc : Nat)
  /-- CSI_LONG_PACKET (R244). A CSI-2 line is converted into components and stored in the ingest ring, or dropped. -/
  | csiLongPacket (port vc dataType : Nat) (headerErrors : Nat) (crcOk : Bool) (pixels : List Nat)
  /-- ETH_FRAME_RECEIVE (R242). An Ethernet frame is stamped and accepted into a parser queue, or dropped and counted. -/
  | ethFrameReceive (port : Nat) (f : EthFrame)
  /-- LIDAR_PACKET_PARSE (R248). A lidar packet is matched and parsed into timed points with dust tests. -/
  | lidarPacketParse (port : Nat)
  /-- TRIGGER_PULSE (R247). The Cupola cycle counter modulo PERIOD meets PHASE and a TRG pulse train starts. -/
  | triggerPulse (trg : Nat)
  /-- STB_EDGE (R254). A strobe edge is latched on the anchor counter and paired into the sensor's fit, and may trigger a loop. -/
  | stbEdge (stb : Nat) (rising : Bool) (cycles : Nat) (latches : List (Nat × Nat))
  /-- STROBE_MISSED (R255). No edge within 1.5 periods of the prediction; the strobe counts as missed. -/
  | strobeMissed (sensor : Nat)
  /-- ANCHOR_COUNT_UPDATE (R252). Every 16 anchor ticks the anchor port sends its count to Cupola. -/
  | anchorCountUpdate (group count : Nat)
  /-- FRAME_INSTANT (R257). An anchor event at a FRAME_DIV multiple sets instant t_k and begins frame assembly. -/
  | frameInstant (group t : Nat)
  /-- FRAME_DEADLINE (R257). The anchor counter reaches t_k + DEADLINE; incomplete members are marked late. -/
  | frameDeadline (group : Nat)
  /-- FRAME_ASSEMBLY (R257). De-skew, registration, quarantine checks, projection, grid, boxes and level for one frame. -/
  | frameAssembly (group : Nat)
  /-- FRAME_HEADER_WRITE (R264). Once a frame's data writes complete, the header is written with the increment. -/
  | frameHeaderWrite (group : Nat)
  /-- RELEASE_SIGNAL (R264). A SIGNAL to the release window releases output slots. -/
  | releaseSignal (group amount : Nat)
  /-- TIME_BREAK (R262). The anchor leaves ALIGNED or its port loses clock; one F4 TIME_BREAK frame is issued. -/
  | timeBreak (group : Nat)
  /-- PORT_LOCK_REGAIN (R416). A sensor port regains lock and its sensors return. -/
  | portLockRegain (port : Nat)
  /-- BOX_SET_TAKE (R279). Steeple takes a group's box set, updates the pose and replaces the group's boxes. -/
  | boxSetTake (group : Nat)
  /-- PUBLICATION (R277). The building buffer becomes published with the next epoch and the roles rotate. -/
  | publication
  /-- QUERY_POST (R283). A query record is taken into a query slot, or refused with ST_PLAN_BUSY. -/
  | queryPost (id : Nat)
  /-- QUERY_START (R283). The running query ends; the next queued query starts and pins the published epoch. -/
  | queryStart
  /-- QUERY_EXPANSION (R284). One node is expanded and its candidates swept against the pinned world. -/
  | queryExpansion (elapsedUs : Nat)
  /-- QUERY_BUDGET_EXPIRY (R286). TIME_BUDGET_US passes; the query ends with ST_BUDGET_EXHAUSTED. -/
  | queryBudgetExpiry (elapsedUs : Nat)
  /-- QUERY_RESULT_WRITE (R287). A finished query's path is forwarded, its result written and its increment applied. -/
  | queryResultWrite
  /-- CAN_FRAME_RECEIVE (R306). An error-free CAN frame is stored per identifier and may trigger a loop. -/
  | canFrameReceive (port : Nat) (f : CanFrame) (cycles : Nat)
  /-- DRDY_EDGE (R303). A DRDY edge triggers a loop, subject to rate and overrun checks. -/
  | drdyEdge (pin : Nat) (rising : Bool) (cycles : Nat)
  /-- DIVIDER_EXPIRY (R303). The loop's divider of DIVIDER cycles expires and triggers a run. -/
  | dividerExpiry (loop cycles : Nat)
  /-- SPI_READ_DONE (R305). The loop's SPI reads finish; samples and shadows are latched and the run starts. -/
  | spiReadDone (loop : Nat) (frames : List Nat) (cycles : Nat)
  /-- C_NOP (R297). Campanile NOP. -/
  | cNop (loop : Nat)
  /-- C_ADD (R295). Campanile wrapping add. -/
  | cAdd (loop : Nat)
  /-- C_SUB (R295). Campanile wrapping subtract. -/
  | cSub (loop : Nat)
  /-- C_MUL (R295). Campanile multiply by a coefficient with its shift. -/
  | cMul (loop : Nat)
  /-- MAC (R295). Campanile multiply-accumulate with a coefficient. -/
  | mac (loop : Nat)
  /-- MULZ (R297). Campanile register product shifted by IMM. -/
  | mulz (loop : Nat)
  /-- C_SAR (R297). Campanile arithmetic shift right. -/
  | cSar (loop : Nat)
  /-- C_SHL (R297). Campanile wrapping shift left. -/
  | cShl (loop : Nat)
  /-- C_MIN (R297). Campanile signed minimum. -/
  | cMin (loop : Nat)
  /-- C_MAX (R297). Campanile signed maximum. -/
  | cMax (loop : Nat)
  /-- C_AND (R297). Campanile bitwise AND. -/
  | cAnd (loop : Nat)
  /-- LDI (R297). Loads an immediate into a register. -/
  | ldi (loop : Nat)
  /-- LDSMP (R306). Loads one of the run's latched samples. -/
  | ldsmp (loop : Nat)
  /-- LDS (R307). Loads a word of a setpoint window from the run's latched shadow. -/
  | lds (loop : Nat)
  /-- OUT (R308). Stages a register for one output. -/
  | loopOut (loop : Nat)
  /-- SKN (R297). Suppresses the next instruction when ZA < 0. -/
  | skn (loop : Nat)
  /-- SKZ (R297). Suppresses the next instruction when ZA = 0. -/
  | skz (loop : Nat)
  /-- RUN_COMMIT (R308). A completed run commits registers, hands outputs to ports and writes its report. -/
  | runCommit (loop cycles : Nat)
  /-- RUN_DEADLINE (R309). A run not committed by its deadline is abandoned and MISSED is set. -/
  | runDeadline (loop cycles : Nat)
  /-- SHADOW_SWITCH (R307). A setpoint shadow copy completes with no write in flight and becomes current, or is repeated. -/
  | shadowSwitch (sp cycles : Nat)
  /-- CAN_TRANSMIT_DONE (R308). A CAN frame completes transmission and the next buffered frame follows. -/
  | canTransmitDone (port : Nat)
  /-- CAN_BUS_OFF_RECOVERY (R302). A bus-off port recovers after 128 occurrences of 11 recessive bits. -/
  | canBusOffRecovery (port : Nat)
  /-- SPI_TRANSACTION_DONE (R308). An SPI transaction completes and the master's next queued one starts. -/
  | spiTransactionDone (master : Nat)
  /-- PWM_PERIOD_BOUNDARY (R308). A PWM period starts, taking the new duty and any new period. -/
  | pwmPeriodBoundary (pwm : Nat)
  /-- LOOP_FENCE (R313). An uncorrectable error in a loop's memory fences it: one safe run, SAFE_LINES dropped, FAULT set. -/
  | loopFence (loop : Nat)
  /-- SQ_TAIL (R318). Write of a new SQ tail; entries become ready, or a bad tail faults the queue. -/
  | sqTail (q v : Nat)
  /-- CQ_HEAD (R318). Write of a new CQ head, freeing completion slots and re-arming the vector message. -/
  | cqHead (q v : Nat)
  /-- NOTICE_HEAD (R322). Write of a new notice-ring head, freeing notice entries. -/
  | noticeHead (v : Nat)
  /-- ADMIN_ENABLE_SET (R317). Setting ADMIN_ENABLE starts Q00 and the notice ring, or sets ADMIN_FAULT. -/
  | adminEnableSet
  /-- ADMIN_ENABLE_CLEAR (R324). Clearing ADMIN_ENABLE stops the admin rings and detaches the session. -/
  | adminEnableClear
  /-- REGISTER_WRITE (R317). Write to a BAR0 register with no behaviour of its own. -/
  | registerWrite (offset : Nat) (v : BarValue)
  /-- MSIX_UNMASK (R321). Unmasking a vector with its PBA bit set sends the pending message. -/
  | msixUnmask (vector : Nat)
  /-- ENDPOINT_RESET (R324). PERST_N, hot reset, FLR or D3hot exit resets the endpoint and detaches the session. -/
  | endpointReset (kind : EndpointReset)
  /-- COMMAND_FETCH (R318). The CP fetches an SQ entry once a CQ slot can be reserved and makes the common checks. -/
  | commandFetch (q : Nat) (e : Entry)
  /-- COMPLETION_POST (R325). A completion is posted in SQ order, followed by the vector message. -/
  | completionPost (q : Nat)
  /-- DEVICE_IDENTIFY (R330). Returns the 64-byte identity record. -/
  | deviceIdentify (q : Nat)
  /-- SESSION_OPEN (R323). Attaches a new session, with DISCARD ending a detached session's queues and jobs. -/
  | sessionOpen (q : Nat)
  /-- SESSION_RESUME (R324). Reattaches a detached session, restarting its queues and posting held completions. -/
  | sessionResume (q : Nat)
  /-- QUEUE_CREATE (R323). Creates a queue pair from a queue record. -/
  | queueCreate (q : Nat)
  /-- QUEUE_DESTROY (R323). Destroys an idle, unbound queue. -/
  | queueDestroy (q : Nat)
  /-- QUEUE_RESTART (R326). Restarts a stopped queue and returns the first SQ index executed. -/
  | queueRestart (q : Nat)
  /-- QUEUE_FENCE (R328). Holds its queue until every command fetched earlier from the target queue completes. -/
  | queueFence (q : Nat)
  /-- DEVICE_ARBITER_CONFIGURE (R239). Sets the configuration word of one or every arbiter of a type. -/
  | deviceArbiterConfigure (q : Nat)
  /-- PARTITION_CONFIGURE (R221). Sets a partition's configuration record. -/
  | partitionConfigure (q : Nat)
  /-- PARTITION_ENABLE (R332). Runs the consistency check, binds a sequencer, builds the DST and enables the partition. -/
  | partitionEnable (q : Nat)
  /-- PARTITION_DISABLE (R222). Disables an idle partition, putting it into A2. -/
  | partitionDisable (q : Nat)
  /-- PARTITION_RESET (R441). Stops, closes, zeroes and unloads a partition, ending its jobs with ST_PARTITION_RESET. -/
  | partitionReset (q : Nat)
  /-- PARTITION_POLICY_SET (R233). Sets the page-event policy table. -/
  | partitionPolicySet (q : Nat)
  /-- PARTITION_DST (R476). Returns the partition's device size table. -/
  | partitionDst (q : Nat)
  /-- PROGRAM_LOAD (R86). Checks a Crawyn image, copies its code, opens its windows and loads it into a context. -/
  | programLoad (q : Nat)
  /-- PROGRAM_UNLOAD (R225). Unloads a context's image and closes its windows. -/
  | programUnload (q : Nat)
  /-- MODEL_STAGE_DDR5 (R165). Stages a model by copying its stream into the partition's DDR5 model area. -/
  | modelStageDdr5 (q : Nat)
  /-- MODEL_STAGE_NAND_DIRECT (R165). Stages a model for reading straight from the image store. -/
  | modelStageNandDirect (q : Nat)
  /-- MODEL_UNSTAGE (R168). Removes a staged model, its cache entries and its model area. -/
  | modelUnstage (q : Nat)
  /-- MODEL_EVICT (R178). Drops the cache entries of one or all models of a partition. -/
  | modelEvict (q : Nat)
  /-- MODEL_LIST (R330). Returns the partition's staged models. -/
  | modelList (q : Nat)
  /-- JOB_SUBMIT (R331). Checks a job block and places the job in its context's queue. -/
  | jobSubmit (q : Nat)
  /-- JOB_PREEMPT (R330). Requests pre-emption of a context and completes once it is SAVED. -/
  | jobPreempt (q : Nat)
  /-- JOB_ABORT (R330). Ends a context's job with ST_ABORTED. -/
  | jobAbort (q : Nat)
  /-- REGION_DEFINE (R91). Defines a region of banks with its placement mode. -/
  | regionDefine (q : Nat)
  /-- REGION_RELEASE (R92). Zero-fills a region's banks and returns them to the free pool. -/
  | regionRelease (q : Nat)
  /-- REGION_RESEED (R95). Zero-fills a spread region and installs a new hash seed. -/
  | regionReseed (q : Nat)
  /-- MEM_FILL (R103). Fills a range of a region with a 32-bit constant on port B. -/
  | memFill (q : Nat)
  /-- MEM_COPY (R103). Copies a range between regions of a partition, carrying poison. -/
  | memCopy (q : Nat)
  /-- MEM_BANK_STATS (R109). Returns a bank's statistics record. -/
  | memBankStats (q : Nat)
  /-- MEM_DDR5_STATS (R159). Returns a sub-channel's grants per partition. -/
  | memDdr5Stats (q : Nat)
  /-- MEM_CACHE_STATS (R178). Returns a partition's model-cache counts. -/
  | memCacheStats (q : Nat)
  /-- MEM_HOST_REGISTER (R218). Registers host memory as a partition's host swap area. -/
  | memHostRegister (q : Nat)
  /-- WINDOW_OPEN (R114). Opens a window and returns its handle. -/
  | windowOpen (q : Nat)
  /-- WINDOW_CLOSE (R117). Closes a window, raises its generation and frees the ID once writes have landed. -/
  | windowClose (q : Nat)
  /-- FABRIC_SET_ID (R135). Sets the device ID while every port is down. -/
  | fabricSetId (q : Nat)
  /-- FABRIC_ROUTE (R137). Writes route table entries from a checked list. -/
  | fabricRoute (q : Nat)
  /-- FABRIC_RETRAIN (R133). Orders a port retrain, returning degraded lanes. -/
  | fabricRetrain (q : Nat)
  /-- FABRIC_PORT_STATS (R140). Returns a port's statistics record. -/
  | fabricPortStats (q : Nat)
  /-- KV_POOL_CONFIGURE (R198). Sets the partition's KV pool. -/
  | kvPoolConfigure (q : Nat)
  /-- KV_SEQ_OPEN (R206). Opens a sequence slot, records token IDs and maps the longest matching prefix. -/
  | kvSeqOpen (q : Nat)
  /-- KV_SEQ_EXTEND (R206). Records further token IDs of a sequence. -/
  | kvSeqExtend (q : Nat)
  /-- KV_SEQ_FORK (R206). Opens a child sequence sharing the parent's read-only pages. -/
  | kvSeqFork (q : Nat)
  /-- KV_SEQ_TRUNCATE (R206). Shortens a sequence, copying a shared last page if needed. -/
  | kvSeqTruncate (q : Nat)
  /-- KV_SEQ_CLOSE (R206). Closes a sequence and frees what it held alone. -/
  | kvSeqClose (q : Nat)
  /-- KV_SEQ_SWAP_OUT (R206). Swaps an idle resident sequence out to host swap units. -/
  | kvSeqSwapOut (q : Nat)
  /-- KV_DOMAIN_CREATE (R206). Creates a sharing domain and its key. -/
  | kvDomainCreate (q : Nat)
  /-- KV_DOMAIN_DESTROY (R206). Drops a domain's nodes and destroys its key. -/
  | kvDomainDestroy (q : Nat)
  /-- KV_STATS (R220). Returns a partition's KV statistics record. -/
  | kvStats (q : Nat)
  /-- SENSOR_CONFIGURE (R243). Configures a sensor from its descriptor. -/
  | sensorConfigure (q : Nat)
  /-- SENSOR_RELEASE (R243). sensor.configure with KIND 0xFF releases the sensor and its ring. -/
  | sensorRelease (q : Nat)
  /-- SENSOR_CALIBRATE (R259). Sets a sensor's calibration from the next instant. -/
  | sensorCalibrate (q : Nat)
  /-- SENSOR_PARSE_TABLE (R248). Sets a lidar parse table. -/
  | sensorParseTable (q : Nat)
  /-- SENSOR_TRIGGER (R247). Sets a TRG output's record from the next period boundary. -/
  | sensorTrigger (q : Nat)
  /-- SENSOR_ETH_SEND (R242). Transmits one host-supplied Ethernet frame. -/
  | sensorEthSend (q : Nat)
  /-- SENSOR_STATS (R268). Returns a sensor's counters. -/
  | sensorStats (q : Nat)
  /-- GROUP_CONFIGURE (R256). Configures a fusion group and returns its release-window handle. -/
  | groupConfigure (q : Nat)
  /-- GROUP_START (R256). Starts a group, moving every member out of IDLE. -/
  | groupStart (q : Nat)
  /-- GROUP_STOP (R256). Issues the frame in progress and stops the group. -/
  | groupStop (q : Nat)
  /-- WORLD_CONFIGURE (R275). Sets the index and group modes, empties dynamic primitives and publishes. -/
  | worldConfigure (q : Nat)
  /-- WORLD_EDIT (R273). Applies a list of PUT, REMOVE, CLEAR_GROUP and SET_POSE records whole. -/
  | worldEdit (q : Nat)
  /-- WORLD_PUBLISH (R277). Triggers a publication and returns the epoch. -/
  | worldPublish (q : Nat)
  /-- WORLD_LOAD (R274). Checks a world image and installs its mesh, then publishes. -/
  | worldLoad (q : Nat)
  /-- WORLD_UNLOAD (R274). Removes the mesh and publishes. -/
  | worldUnload (q : Nat)
  /-- PLAN_MACHINE (R280). Sets a machine model of spheres. -/
  | planMachine (q : Nat)
  /-- PLAN_LATTICE (R281). Sets a lattice of motion primitives. -/
  | planLattice (q : Nat)
  /-- PLAN_QUERY_WINDOW (R282). Opens a partition's Steeple query window. -/
  | planQueryWindow (q : Nat)
  /-- PLAN_STATS (R291). Returns the Steeple statistics record. -/
  | planStats (q : Nat)
  /-- LOOP_CONFIGURE (R301). Configures a loop from its descriptor. -/
  | loopConfigure (q : Nat)
  /-- LOOP_PROGRAM (R298). Writes instructions into loop program memory. -/
  | loopProgram (q : Nat)
  /-- LOOP_COEFFS (R299). Installs a loop's coefficient table whole between runs. -/
  | loopCoeffs (q : Nat)
  /-- LOOP_START (R301). Starts a configured loop with zero registers. -/
  | loopStart (q : Nat)
  /-- LOOP_STOP (R301). Lets the current run finish, hands SAFE_VALUE once and stops the loop. -/
  | loopStop (q : Nat)
  /-- LOOP_CLEAR (R314). W1C clear of loop status bits. -/
  | loopClear (q : Nat)
  /-- LOOP_WINDOW_OPEN (R307). Opens a setpoint window slot. -/
  | loopWindowOpen (q : Nat)
  /-- LOOP_WINDOW_CLOSE (R307). Closes a setpoint window slot. -/
  | loopWindowClose (q : Nat)
  /-- LOOP_SAFE_RELEASE (R312). Raises SAFE_A and SAFE_B when no loop holds a drop. -/
  | loopSafeRelease (q : Nat)
  /-- LOOP_STATS (R314). Returns a loop's status word and counts. -/
  | loopStats (q : Nat)
  /-- LOOP_PORT_CONFIGURE_CAN (R302). Configures a CAN port's bit timing and FD mode. -/
  | loopPortConfigureCan (q : Nat)
  /-- LOOP_PORT_CONFIGURE_SPI (R302). Configures an SPI chip select. -/
  | loopPortConfigureSpi (q : Nat)
  /-- LOOP_PORT_CONFIGURE_PWM (R302). Configures a PWM output's period. -/
  | loopPortConfigurePwm (q : Nat)
  /-- LOOP_PORT_RELEASE (R302). Releases a CAN port, SPI chip select or PWM output. -/
  | loopPortRelease (q : Nat)
  /-- POWER_CAP_SET (R337). Sets the module cap. -/
  | powerCapSet (q : Nat)
  /-- POWER_BUDGET_SET (R347). Sets a partition's power budget. -/
  | powerBudgetSet (q : Nat)
  /-- POWER_PACE_FOLLOW (R144). Turns pace following on or off for a partition. -/
  | powerPaceFollow (q : Nat)
  /-- POWER_READ (R356). Returns the power record. -/
  | powerRead (q : Nat)
  /-- STORE_SLOT_WRITE (R373). Writes data sequentially into an image slot. -/
  | storeSlotWrite (q : Nat)
  /-- SLOT_SEAL (R374). A FINAL write reads the slot back, checks its signature and seals it or erases it. -/
  | slotSeal (q : Nat)
  /-- STORE_SLOT_ERASE (R375). Returns a slot to EMPTY and releases its charge. -/
  | storeSlotErase (q : Nat)
  /-- STORE_SLOT_LIST (R375). Returns entries for every slot that is not EMPTY. -/
  | storeSlotList (q : Nat)
  /-- STORE_OBJ_PUT (R376). Stores or atomically replaces a named owner object. -/
  | storeObjPut (q : Nat)
  /-- STORE_OBJ_GET (R376). Returns a named object. -/
  | storeObjGet (q : Nat)
  /-- STORE_OBJ_DELETE (R376). Deletes a named object. -/
  | storeObjDelete (q : Nat)
  /-- STORE_DEFAULTS_SET (R377). Snapshots the selected setting classes as stored defaults. -/
  | storeDefaultsSet (q : Nat)
  /-- STORE_STATS (R378). Returns the storage record. -/
  | storeStats (q : Nat)
  /-- SEC_ATTEST (R399). Returns a signed attestation report over the caller's nonce. -/
  | secAttest (q : Nat)
  /-- SEC_UPDATE (R405). Checks a firmware image, writes the inactive copy and switches to it. -/
  | secUpdate (q : Nat)
  /-- UPDATE_COMMIT (R405). New firmware passes its self-test; it is marked active and the floor raised, or the old copy restored. -/
  | updateCommit (passed : Bool)
  /-- MICROCODE_SWITCH (R407). A unit takes new microcode at its next frame, query or trigger. -/
  | microcodeSwitch (unit : Nat)
  /-- SEC_KEY_ENROL_SIGNING (R395). Enrols an owner signing key into a slot. -/
  | secKeyEnrolSigning (q : Nat)
  /-- SEC_KEY_ENROL_ROOT (R395). Replaces the owner root key. -/
  | secKeyEnrolRoot (q : Nat)
  /-- SEC_KEY_ENROL_POLICY (R395). Sets the owner policy flags and MIN_SVN values. -/
  | secKeyEnrolPolicy (q : Nat)
  /-- SEC_KEY_REVOKE (R396). Revokes an owner signing key slot. -/
  | secKeyRevoke (q : Nat)
  /-- SEC_LIFECYCLE (R390). Performs a signed life-cycle transition with its wipes and reset. -/
  | secLifecycle (q : Nat)
  /-- SEC_DEBUG_UNLOCK (R408). sec.lifecycle TYPE 1 wipes as a transition and opens the debug port in SERVICE. -/
  | secDebugUnlock (q : Nat)
  /-- SEC_ROTATE (R386). Installs a new key of a class and starts the re-encryption walk. -/
  | secRotate (q : Nat)
  /-- ROTATION_WALK_END (R386). A rotation walk ends and the old key is destroyed. -/
  | rotationWalkEnd (cls part : Nat)
  /-- LOG_READ (R429). Returns log records from FIRST in record order. -/
  | logRead (q : Nat)
  /-- LOG_STATS (R430). Returns the health record. -/
  | logStats (q : Nat)
  /-- LOG_RECORD_WRITE (R428). Lantern writes a queued record to the log ring, chained and stamped. -/
  | logRecordWrite
  /-- BYPASS (R408). JTAG BYPASS instruction. -/
  | bypass
  /-- IDCODE (R408). JTAG IDCODE instruction. -/
  | idcode
  /-- SAMPLE_PRELOAD (R408). JTAG SAMPLE/PRELOAD, acting as BYPASS unless the state allows it. -/
  | samplePreload
  /-- EXTEST (R408). JTAG EXTEST, acting as BYPASS unless the state allows it. -/
  | extest
  /-- INTERNAL_SCAN (R408). JTAG internal scan and memory access, acting as BYPASS unless allowed. -/
  | internalScan
  /-- RAIL_REPORT (R341). Every 100 µs a rail report arrives; an over-limit rail sets or releases a forced ceiling. -/
  | railReport (rail mv ma : Nat)
  /-- CAP_EVALUATION (R338). Every 50 µs Lantern lowers or raises a die's cap ceiling against the cap. What it goes by stands in the
  state, and its two operands hold nothing. -/
  | capEvaluation (first second : Unit)
  /-- INPUT_CLAMP (R340). Input power above 450 W forces every compute die two steps lower in hardware. -/
  | inputClamp
  /-- STEP_CHANGE (R343). A die's step changes: frequency and voltage are sequenced glitch-free. -/
  | stepChange (die : Nat)
  /-- DROOP_TRIP (R345). A droop detector trips and forces the die two steps lower in frequency. -/
  | droopTrip (die detector : Nat)
  /-- DROOP_RELEASE (R345). No detector of the die has tripped for 1 µs; the die returns to its step. -/
  | droopRelease (die : Nat)
  /-- ESTIMATE_INTERVAL (R346). Every 1 ms the CP estimates partition power, advances energy counters and applies budgets. -/
  | estimateInterval (estimates : List Nat) (device : Nat)
  /-- THERMAL_READ (R349). Every 100 µs Lantern reads junction sensors and adjusts thermal ceilings. -/
  | thermalRead (hottest : List Int)
  /-- M1_TRIP (R350). A sensor at 115 °C switches off the compute-die regulators and the module enters M1. -/
  | m1Trip
  /-- FLOW_LOSS (R351). FLOW_OK deasserted for 10 ms engages the coolant interlock. -/
  | flowLoss
  /-- INTERLOCK_RELEASE (R351). FLOW_OK asserted for 1 s releases the coolant interlock. -/
  | interlockRelease
  /-- COOLANT_READ (R352). Every 100 ms Lantern reads coolant temperatures and humidity and posts events. -/
  | coolantRead (inlet outlet : Int) (humidity : Nat)
  /-- BROWN_OUT_ENTRY (R353). MAIN below 34.0 V forces every compute die to PS7. -/
  | brownOutEntry
  /-- BROWN_OUT_EXIT (R353). MAIN at or above 36.0 V for 10 ms lifts the brown-out ceiling. -/
  | brownOutExit
  /-- NAND_READ (R363). A codeword is read, decoded with retries, reconstructed or delivered poisoned. -/
  | nandRead (id stepReached : Nat)
  /-- GROWN_BAD_BLOCK (R365). A failed program, erase or reconstruction replaces a block from reserve or retires a stripe. -/
  | grownBadBlock (die block : Nat)
  /-- DIE_FENCE (R366). A failing NAND die is fenced and its stripes rewritten 15 wide. -/
  | dieFence (die : Nat)
  /-- STATIC_WEAR_MOVE (R368). An erase-count spread above 1,000 moves the least-erased stripe. -/
  | staticWearMove (die : Nat)
  /-- CANARY_SCAN (R369). Every 24 h canary pages of every block are read and blocks marked for refresh. -/
  | canaryScan (found : List CanaryFinding)
  /-- BLOCK_REFRESH (R369). A marked block's data are rewritten into a fresh block. -/
  | blockRefresh (die block : Nat)
  /-- BLOCK_RELOCATION (R370). A block reaching 10,000,000 reads is relocated. -/
  | blockRelocation (die block : Nat)
  /-- TILE_FENCE (R417). A tile error or corrected-error limit fences the tile and ends its running job. -/
  | tileFence (tile cause : Nat) (lost : List Nat)
  /-- SEQUENCER_ERROR (R418). An uncorrectable sequencer error resets the partition and rebinds a fresh sequencer. -/
  | sequencerError (part : Nat)
  /-- CUPOLA_MEMORY_ERROR (R421). An uncorrectable Cupola memory error is contained to one image, frame or configuration. -/
  | cupolaMemoryError (part : CupolaPart) (index line : Nat)
  /-- STEEPLE_MEMORY_ERROR (R422). An uncorrectable Steeple memory error ends the query and rebuilds or reloads the damaged part. -/
  | steepleMemoryError (part : SteeplePart) (index : Nat)
  /-- CP_HEARTBEAT_TIMEOUT (R423). No CP heartbeat for 10 ms causes a CP restart. -/
  | cpHeartbeatTimeout
  /-- CP_RESTART (R424). The CP restarts and replays its journal, keeping order. -/
  | cpRestart (cause : Nat)
  /-- LANTERN_WATCHDOG_EXPIRY (R424). 100 ms without a Lantern heartbeat restarts Lantern. -/
  | lanternWatchdogExpiry
  /-- LANTERN_RESTART (R382). Lantern restarts on lockstep mismatch or test failure, holding ceilings and sessions. -/
  | lanternRestart (cause : Nat)
  /-- ENTROPY_TIMEOUT (R380). An entropy source unrecovered for 10 s causes a Lantern restart. -/
  | entropyTimeout
  /-- POR (R431). AUX rises through 8.5 V and the whole module starts. -/
  | por
  /-- AUX_LOSS (R431). AUX below 8.5 V for 100 µs switches off every regulator: the module goes OFF. -/
  | auxLoss
  /-- MAIN_LOSS (R434). MAIN below 30 V for 100 µs stops the loops and powers down all but Lantern: M2. -/
  | mainLoss
  /-- MAIN_RETURN (R434). MAIN at or above 36 V for 10 ms ends M2 and the start begins. -/
  | mainReturn
  /-- M1_EXIT (R435). Junctions cool and flow is present; Lantern ends M1 and the start begins. -/
  | m1Exit
  /-- MRST_N_ASSERT (R433). MRST_N asserted holds the module in reset with outputs safe. -/
  | mrstNAssert
  /-- MRST_N_RELEASE (R433). MRST_N released begins the start of the module. -/
  | mrstNRelease
  /-- START (R436). The module boots, trains and fills memory, applies defaults and sets CP_READY. -/
  | moduleStart
  /-- A1_ENTRY (R442). 100 µs with no active context gates an enabled partition's tiles into A1. -/
  | a1Entry (part : Nat)
  /-- SENSOR_PORT_LOCK_LOSS (R416). A CSI or Ethernet sensor port loses lock or clock, stopping the sensors of that port and logging event 0x0701. -/
  | sensorPortLockLoss (port : Nat)
  /-- HUVEIP_TRAINING_DONE (R134). A Huveip port's lanes reach bit lock, alignment and FEC lock, and the port moves on to the LINK bring-up exchange. -/
  | huveipTrainingDone (port lanes : Nat)
  /-- INPUT_CLAMP_RELEASE (R340). The hardware 450 W clamp ends once it has held at least 100 µs and Lantern's cap ceilings have taken over. -/
  | inputClampRelease
  /-- BUILDING_COPY_DONE (R277). The copy of the new published buffer into the building buffer completes; waiting edits and box sets are applied and the publication's triggers complete. -/
  | buildingCopyDone
  /-- HOST_READ_RETURN (R315). A PCIe read completion from host memory arrives for an argument block, length table, token list or host transfer; a poisoned TLP ends the issuing command with ST_HOST_READ_FAULT. -/
  | hostReadReturn (r : HostRead)
  deriving DecidableEq, Repr

end Sys2Proof
end

