-- ==== Sys2Proof/Config.lean ====
section
/-! DEFINITION. What the implementation fixes and the spec leaves open: the free values (constants without a body,
which no proof can see into), and the uninterpreted cryptographic functions. Log entries 2, 3 and 9 to 12. -/

namespace Sys2Proof.Config

/-- A free 64-bit value: the k-th value the spec leaves open in a run. -/
opaque freeWord : Nat → BitVec 64

/-- A free natural number, the k-th left open in a run. -/
opaque freeNat : Nat → Nat

/-- The byte a DDR5 line holds that no write of the partition has reached since its key pair was created (R154),
by key generation and address. -/
opaque ddrUnwritten : Nat → Nat → Byte

/-- Bits kept below the leading bit when the products of a BF16 or FP16 pass are aligned (R48: at least 32). -/
opaque alignBits : Nat

/-- exp2 of a finite FP32 bit pattern where R59 states no value (R61 bounds it). -/
opaque exp2 : BitVec 32 → BitVec 32
/-- log2 of a finite FP32 bit pattern where R59 states no value. -/
opaque log2 : BitVec 32 → BitVec 32
/-- Reciprocal of a finite FP32 bit pattern where R59 states no value. -/
opaque rcp : BitVec 32 → BitVec 32
/-- Reciprocal square root of a finite FP32 bit pattern where R59 states no value. -/
opaque rsq : BitVec 32 → BitVec 32

/-- Whether a cross-lane sum of BF16 or FP16 lanes keeps its partial sums in FP32 (else each is rounded to the lanes' type):
R58 states neither. -/
opaque wideSum : Bool

/-- The order in which a cross-lane or adder-tree sum combines its terms: a tree over term numbers (R62 allows any). -/
inductive SumTree where
  | leaf (i : Nat)
  | node (l r : SumTree)
  deriving DecidableEq, Repr, Inhabited

/-- The adder tree of the n-term sums the unit numbered `k` forms. -/
opaque sumTree : Nat → Nat → SumTree

/-- The keys that Lantern draws or agrees on, by key number: bytes 0 to 31, and from byte 32 on the salt that goes with the
key. -/
opaque keyByte : Nat → Nat → Byte

/-- ML-KEM-1024: the encapsulation key of the pair drawn with free value `k`; the ciphertext that encapsulation to a key with free
value `k` gives, and its shared secret; and the secret that decapsulation of a ciphertext gives (uninterpreted). -/
opaque mlkemKey : Nat → Vector Byte 1568
opaque mlkemCipher : List Byte → Nat → Vector Byte 1568
opaque mlkemShared : List Byte → Nat → Vector Byte 32
opaque mlkemDecap : Nat → List Byte → Vector Byte 32

/-- Falcon-1024 verification of a message under a public key (uninterpreted). -/
opaque falconOk : List Byte → List Byte → List Byte → Bool

/-- A Falcon-1024 signature made under a device key (uninterpreted): key id, message. -/
opaque falconSign : Nat → List Byte → Vector Byte 1280

/-- The vendor root and device identity constants Lantern's fuses hold (R383): index, byte. -/
opaque fuse : Nat → Nat → Byte

/-- What the Winograd stage and the numeric units leave open inside their accuracy bounds: unit number, operand
digest. -/
opaque unitValue : Nat → Nat → Nat

end Sys2Proof.Config
end

