-- ==== Sys2Proof/Machine/Bytes.lean ====
section
/-! DEFINITION. Little-endian readers and writers over byte lists, bit fields and sign extension: the layout rules
of R9 and R10 in one place. Every record of the spec is little-endian. -/

namespace Sys2Proof.Machine

/-- Byte `o` of a record (0 past its end). -/
def u8 (l : List Byte) (o : Nat) : Nat := (nth 0 l o).toNat

/-- The `n`-byte little-endian number at the head of the list. -/
def leNat : Nat → List Byte → Nat
  | 0, _ => 0
  | _ + 1, [] => 0
  | n + 1, b :: bs => b.toNat + 256 * leNat n bs

/-- The `n`-byte little-endian number at offset `o`. -/
def uN (n : Nat) (l : List Byte) (o : Nat) : Nat := leNat n (l.drop o)

/-- The 16-bit field at offset `o`. -/
def u16 (l : List Byte) (o : Nat) : Nat := uN 2 l o
/-- The 32-bit field at offset `o`. -/
def u32 (l : List Byte) (o : Nat) : Nat := uN 4 l o
/-- The 64-bit field at offset `o`. -/
def u64 (l : List Byte) (o : Nat) : Nat := uN 8 l o

/-- The `n` low bytes of a number, lowest first. -/
def leBytes : Nat → Nat → List Byte
  | 0, _ => []
  | n + 1, v => BitVec.ofNat 8 v :: leBytes n (v / 256)

/-- `n` zero bytes. -/
def zeros (n : Nat) : List Byte := List.replicate n 0

/-- The `n` bytes at offset `o`, zero past the end. -/
def slice (l : List Byte) (o n : Nat) : List Byte := fit 0 n (l.drop o)

/-- Every byte of the `n` at offset `o` is zero: the check of a reserved field (R8). -/
def allZero (l : List Byte) (o n : Nat) : Bool := (slice l o n).all (· == 0)

/-- The bytes of `l` with those of `b` written from offset `o`. -/
def patch (l : List Byte) (o : Nat) (b : List Byte) : List Byte :=
  l.take o ++ b ++ l.drop (o + b.length)

/-- Bits `[hi:lo]` of a number. -/
def bits (v hi lo : Nat) : Nat := (v >>> lo) % 2 ^ (hi + 1 - lo)

/-- Bit `i` of a number. -/
def bitAt (v i : Nat) : Bool := v.testBit i

/-- The two's complement value of the low `w` bits. -/
def sext (w v : Nat) : Int :=
  let u := v % 2 ^ w
  if u < 2 ^ (w - 1) then (u : Int) else (u : Int) - (2 ^ w : Nat)

/-- The low `w` bits of an integer, as a number (two's complement). -/
def wrapI (w : Nat) (i : Int) : Nat := (i % ((2 ^ w : Nat) : Int)).toNat

/-- Addition that stops at `top` (saturating counters). -/
def satAdd (top a b : Nat) : Nat := min top (a + b)

/-- The code of the first check that fails, in the order given. -/
def firstFail : List (Bool × Nat) → Option Nat
  | [] => none
  | (b, c) :: rest => if b then some c else firstFail rest

/-- Removes duplicates, keeping first occurrences. -/
def dedup : List Nat → List Nat
  | [] => []
  | x :: xs => x :: (dedup xs).filter (· != x)

/-- Whether a list holds a repeated element. -/
def hasDup : List Nat → Bool
  | [] => false
  | x :: xs => xs.contains x || hasDup xs

/-- Insertion into a list kept rising. -/
def insertSorted (x : Nat) : List Nat → List Nat
  | [] => [x]
  | y :: ys => if x ≤ y then x :: y :: ys else y :: insertSorted x ys

/-- A list in rising order. -/
def sortNat : List Nat → List Nat
  | [] => []
  | x :: xs => insertSorted x (sortNat xs)

/-- The positions `0 .. n-1` whose bit of `m` is 1. -/
def bitList (m n : Nat) : List Nat := (List.range n).filter (m.testBit ·)

/-- The sum of a list. -/
def sumNat (l : List Nat) : Nat := l.foldl (· + ·) 0

/-- The number rounded up to a multiple of `m`. -/
def roundUp (m n : Nat) : Nat := (n + m - 1) / m * m

/-- The number divided by `m`, rounded up. -/
def ceilDiv (n m : Nat) : Nat := (n + m - 1) / m

end Sys2Proof.Machine
end

