-- ==== Sys2Proof/Machine/Codes.lean ====
section
/-! DEFINITION. Reason codes (R333), status codes (R334) and notice types (R322), by the spec's names. -/

namespace Sys2Proof.Machine

def rcPartitionMalformed : Nat := 0x0101
def rcPartitionBusy : Nat := 0x0102
def rcPartitionReserved : Nat := 0x0103
def rcContextBusy : Nat := 0x0104
def rcNoTile : Nat := 0x0105
def rcArbiterMalformed : Nat := 0x0106
def rcPartitionState : Nat := 0x0107
def rcEngineConflict : Nat := 0x0108
def rcQueueConflict : Nat := 0x0109
def rcNoSequencer : Nat := 0x010A
def rcImageMalformed : Nat := 0x0201
def rcReservedOpcode : Nat := 0x0202
def rcOperandPair : Nat := 0x0203
def rcAccRange : Nat := 0x0204
def rcMxPairing : Nat := 0x0205
def rcSlotField : Nat := 0x0206
def rcRepeatControl : Nat := 0x0207
def rcWaitNotYield : Nat := 0x0208
def rcYieldUnproven : Nat := 0x0209
def rcEngineCount : Nat := 0x020A
def rcDistanceClass : Nat := 0x020B
def rcPeer : Nat := 0x020C
def rcYieldInterval : Nat := 0x020D
def rcNoImage : Nat := 0x020E
def rcZeroSize : Nat := 0x0301
def rcRegion : Nat := 0x0302
def rcQuotaScratchpad : Nat := 0x0303
def rcQuotaDdr5 : Nat := 0x0304
def rcQuotaKv : Nat := 0x0305
def rcQuotaNand : Nat := 0x0306
def rcQuotaHostSwap : Nat := 0x0307
def rcBankInUse : Nat := 0x0308
def rcBankNotInService : Nat := 0x0309
def rcNearShape : Nat := 0x030A
def rcRegionMalformed : Nat := 0x030B
def rcRegionBusy : Nat := 0x030C
def rcCopyOverlap : Nat := 0x030D
def rcRange : Nat := 0x030E
def rcModelNotStaged : Nat := 0x030F
def rcModelBusy : Nat := 0x0311
def rcModelMismatch : Nat := 0x0312
def rcModelTier : Nat := 0x0313
def rcHostArea : Nat := 0x0314
def rcModelLimit : Nat := 0x0315
def rcKvPool : Nat := 0x0318
def rcKvSeq : Nat := 0x0319
def rcKvDomain : Nat := 0x031A
def rcKvExhausted : Nat := 0x031B
def rcLengthTable : Nat := 0x031C
def rcKvTableFull : Nat := 0x031D
def rcTokenBudget : Nat := 0x0401
def rcWindowBudget : Nat := 0x0402
def rcTokenExternal : Nat := 0x0403
def rcWindowBacking : Nat := 0x0404
def rcTokenRange : Nat := 0x0405
def rcWindowMalformed : Nat := 0x0406
def rcWindowStale : Nat := 0x0407
def rcDeviceId : Nat := 0x0409
def rcRouteMalformed : Nat := 0x040A
def rcSensorMalformed : Nat := 0x0501
def rcSensorBusy : Nat := 0x0502
def rcSensorPort : Nat := 0x0503
def rcIngestSpace : Nat := 0x0504
def rcParseTable : Nat := 0x0505
def rcGroupMalformed : Nat := 0x0506
def rcGroupBusy : Nat := 0x0507
def rcAnchor : Nat := 0x0508
def rcGroupWindow : Nat := 0x0509
def rcEthFrame : Nat := 0x050A
def rcPlanMalformed : Nat := 0x0601
def rcWorldImage : Nat := 0x0602
def rcWorldFull : Nat := 0x0603
def rcPlanBusy : Nat := 0x0604
def rcLoopMalformed : Nat := 0x0701
def rcLoopBusy : Nat := 0x0702
def rcLoopProgram : Nat := 0x0703
def rcLoopSource : Nat := 0x0704
def rcLoopOutput : Nat := 0x0705
def rcLoopWindow : Nat := 0x0706
def rcLoopSafe : Nat := 0x0707
def rcLoopPort : Nat := 0x0708
def rcPowerMalformed : Nat := 0x0801
def rcPowerCap : Nat := 0x0802
def rcPowerBudget : Nat := 0x0803
def rcStoreMalformed : Nat := 0x0901
def rcSlotBusy : Nat := 0x0902
def rcStoreFull : Nat := 0x0903
def rcObjectAbsent : Nat := 0x0904
def rcSlotEmpty : Nat := 0x0905
def rcSignature : Nat := 0x0A01
def rcKeyUnknown : Nat := 0x0A02
def rcRollback : Nat := 0x0A03
def rcCosignRequired : Nat := 0x0A04
def rcLifecycle : Nat := 0x0A05
def rcSecurityMalformed : Nat := 0x0A06
def rcImageKind : Nat := 0x0A07
def rcEntryMalformed : Nat := 0x0B01
def rcUnknownCommand : Nat := 0x0B02
def rcNoSession : Nat := 0x0B03
def rcSession : Nat := 0x0B04
def rcQueueMalformed : Nat := 0x0B05
def rcQueueBusy : Nat := 0x0B06
def rcNotBound : Nat := 0x0B07
def rcDataShort : Nat := 0x0B08
def rcAdminOnly : Nat := 0x0B09

def stOk : Nat := 0x0000
def stOkEmpty : Nat := 0x0001
def stRefused : Nat := 0x0002
def stPoisonConsumed : Nat := 0x0003
def stNoTile : Nat := 0x0105
def stTileFenced : Nat := 0x0106
def stPartitionReset : Nat := 0x0107
def stYieldTimeout : Nat := 0x0210
def stRaggedOverflow : Nat := 0x0211
def stJobTimeout : Nat := 0x0212
def stImageUnloaded : Nat := 0x0213
def stAddressFault : Nat := 0x0310
def stKvSeqState : Nat := 0x0319
def stKvExhausted : Nat := 0x031B
def stWindowClosed : Nat := 0x0401
def stWindowRange : Nat := 0x0402
def stWindowDenied : Nat := 0x0403
def stTokenRange : Nat := 0x0404
def stNoRoute : Nat := 0x0405
def stHopLimit : Nat := 0x0406
def stLinkDown : Nat := 0x0407
def stPeerLost : Nat := 0x0408
def stFrameOverrun : Nat := 0x0520
def stSensorAbsent : Nat := 0x0521
def stPathFound : Nat := 0x0601
def stNoPath : Nat := 0x0602
def stBudgetExhausted : Nat := 0x0603
def stStartInCollision : Nat := 0x0604
def stGoalInCollision : Nat := 0x0605
def stStaleWorld : Nat := 0x0606
def stPlanBusy : Nat := 0x0607
def stQueryMalformed : Nat := 0x0608
def stWorkspaceFault : Nat := 0x0609
def stMediaError : Nat := 0x0901
def stAbortedByPredecessor : Nat := 0x0B01
def stAborted : Nat := 0x0B02
def stHostReset : Nat := 0x0B03
def stHostReadFault : Nat := 0x0B04

def noticeHotBank : Nat := 0x01
def noticePageEvent : Nat := 0x02
def noticeTileFenced : Nat := 0x03
def noticeBankRetired : Nat := 0x04
def noticeDdrPage : Nat := 0x05
def noticePort : Nat := 0x06
def noticePace : Nat := 0x07
def noticeCpRestarted : Nat := 0x08
def noticeQueueFaulted : Nat := 0x09
def noticePower : Nat := 0x0A

end Sys2Proof.Machine
end

