-- ==== Sys2Proof/Machine/TCampanile.lean ====
section
/-! DEFINITION. State of Campanile: chapter 12. -/

namespace Sys2Proof.Machine

/-- A run in progress (R305): its trigger instant and RUNS number, whether its SPI reads are awaited, the next instruction,
the register copy, samples, staged outputs, suppression of the next instruction, the latched shadow of each slot (buffer
plus one), and its course (0 normal, 1 hold, 2 safe; R311). -/
structure Run where
  trigger : Nat := 0
  number : Nat := 0
  waitingSpi : Bool := false
  index : Nat := 0
  z : Map Word := []
  samples : List Word := []
  staged : Map (Option Word) := []
  skip : Bool := false
  latched : Map Nat := []
  course : Nat := 0
  deriving DecidableEq, Repr

/-- A loop's counts (R314), in its order. -/
structure LoopCounts where
  runs : DWord := 0
  misses : DWord := 0
  overruns : DWord := 0
  rateDrops : DWord := 0
  timeoutRuns : DWord := 0
  implausible : DWord := 0
  txReplaced : DWord := 0
  shortFrames : DWord := 0
  reportFaults : DWord := 0
  deriving DecidableEq, Repr

/-- The supervisor's memory (R310): feedback samples of the last two runs that had one, values handed at the last two
commits, both latest first; committed runs; and the current run of residuals. -/
structure SupState where
  ys : List Word := []
  us : List Word := []
  committed : Nat := 0
  run : Nat := 0
  deriving DecidableEq, Repr

/-- A loop's status bits (R314) that are stored. -/
structure LoopStatus where
  started : Bool := false
  missed : Bool := false
  overrun : Bool := false
  timedOut : Bool := false
  implausible : Bool := false
  fault : Bool := false
  deriving DecidableEq, Repr

/-- A Campanile loop; its descriptor (R300) is empty while it is not configured. -/
structure CLoop where
  cfg : List Byte := []
  status : LoopStatus := {}
  z : Map Word := []
  coeff : Map Word := []
  shift : Map Nat := []
  /-- Tables waiting for the end of the run, with the command that completes then: queue, fetch number (R299). -/
  newTable : List (List Byte × Nat × Nat) := []
  run : Option Run := none
  /-- loop.stop commands issued during a run. -/
  stopping : List (Nat × Nat) := []
  /-- Fenced during a run: the safe course follows it (R313, R425). -/
  fencing : Bool := false
  /-- CYCLES at loop.start: the divider counts from it (R303). -/
  startedAt : Nat := 0
  lastTrigger : Option Nat := none
  prev : Map Word := []
  /-- Lines it holds a drop on: timeout course, supervisor, fault. -/
  dropTimeout : Nat := 0
  dropSup : Nat := 0
  dropFault : Nat := 0
  sup : SupState := {}
  counts : LoopCounts := {}
  deriving DecidableEq, Repr

/-- A setpoint slot (R307): its window, timeout, three shadow buffers, the current one with the instant of its switch, the
buffer of the copy under way and whether a write was in flight during it, and a copy that waits for a buffer. -/
structure SpSlot where
  isOpen : Bool := false
  win : Nat := 0
  part : Nat := 0
  len : Nat := 0
  timeoutUs : Nat := 0
  bufs : Map (List Byte) := []
  current : Option Nat := none
  refresh : Nat := 0
  copying : Option Nat := none
  dirty : Bool := false
  want : Bool := false
  deriving DecidableEq, Repr

/-- A CAN frame to be sent: loop, identifier (bit 29: extended), FD, DLC code, payload. -/
structure CanTx where
  loop : Nat
  ident : Nat
  fd : Bool
  dlc : Nat
  payload : List Byte
  deriving DecidableEq, Repr

/-- A CAN port (R302, R306, R308): its record, the latest frame of each identifier (bit 29 of the key: extended) with the
instant of receipt, frames waiting, the frame under transmission, and bus-off. -/
structure CanPort where
  record : List Byte := []
  latest : Map (Option (Nat × List Byte)) := []
  waiting : List CanTx := []
  sending : Option CanTx := none
  busOff : Bool := false
  deriving DecidableEq, Repr

/-- An SPI transaction: loop, chip select, whether it is a source read, and the bits sent. -/
structure SpiTx where
  loop : Nat
  cs : Nat
  read : Bool
  bits : Nat
  deriving DecidableEq, Repr

/-- A PWM output: period and duty in force, and what takes effect at the next period; period 0 while unconfigured. -/
structure PwmOut where
  period : Nat := 0
  duty : Nat := 0
  nextPeriod : Nat := 0
  nextDuty : Nat := 0
  deriving DecidableEq, Repr

/-- Campanile: chip selects at 4 master + cs as their records, transactions by master (the first is under way). -/
structure Campanile where
  cycles : DWord := 0
  loops : Map CLoop := []
  prog : Map DWord := []
  can : Map CanPort := []
  spiCs : Map (List Byte) := []
  spi : Map (List SpiTx) := []
  pwm : Map PwmOut := []
  slots : Map SpSlot := []
  safeA : Bool := false
  safeB : Bool := false
  deriving DecidableEq, Repr

end Sys2Proof.Machine
end

