-- ==== Sys2Proof/Machine/THost.lean ====
section
/-! DEFINITION. State of the host interface: BAR0, rings, sessions, commands, notices, MSI-X; chapter 13. -/

namespace Sys2Proof.Machine

/-- How far a fetched command has come. -/
inductive CmdPhase where
  | waiting
  | running
  | done
  deriving DecidableEq, Repr

/-- A fetched command, from its fetch to the posting of its completion (R318 to R326). -/
structure Cmd where
  no : Nat
  entry : Entry
  phase : CmdPhase := .waiting
  block : Option (List Byte) := none
  table : Option (List Byte) := none
  tokens : Option (List Byte) := none
  /-- Fences it waits behind: target queue and the fetch number below which commands must be complete (R328). -/
  fence : Option (Nat × Nat) := none
  status : Nat := 0
  reason : Nat := 0
  result : Nat := 0
  aux : Nat := 0
  time : Nat := 0
  /-- job.preempt: the partition and context it waits for. -/
  await : Option (Nat × Nat) := none
  /-- A command of the Q00 rings that were running before the session was detached (R324). -/
  held : Bool := false
  deriving DecidableEq, Repr

/-- A queue pair (R318, R323, R326). Queue 0 is the admin queue. -/
structure Queue where
  live : Bool := false
  faulted : Bool := false
  stopped : Bool := false
  /-- POLICY 1: continue. -/
  cont : Bool := true
  vector : Nat := 0
  sqSize : Nat := 0
  cqSize : Nat := 0
  sqBase : Nat := 0
  cqBase : Nat := 0
  sqHead : Nat := 0
  sqTail : Nat := 0
  cqTail : Nat := 0
  cqHead : Nat := 0
  /-- Completion entries that the host has not consumed (R318). -/
  unconsumed : Nat := 0
  phase : Bool := true
  /-- A message has been sent and CQ_HEAD not written since (R321). -/
  signalled : Bool := false
  fetched : Nat := 0
  cmds : List Cmd := []
  deriving DecidableEq, Repr

/-- BAR0 registers that the host writes (R317). -/
structure Bar0 where
  adminSqBase : Nat := 0
  adminCqBase : Nat := 0
  adminSize : Nat := 0
  noticeSize : Nat := 0
  noticeBase : Nat := 0
  adminEnable : Bool := false
  adminUp : Bool := false
  adminFault : Bool := false
  cpReady : Bool := false
  cpRestarting : Bool := false
  msixTable : Map Word := []
  msixMasked : Map Bool := []
  pba : Map Bool := []
  /-- The high half that the last read of a low half latched: its offset and value (R317). -/
  latch : Option (Nat × Nat) := none
  deriving DecidableEq, Repr

/-- The notice ring (R322). -/
structure NoticeRing where
  head : Nat := 0
  /-- Notices that the host has not consumed. -/
  count : Nat := 0
  tail : Nat := 0
  phase : Bool := true
  dropped : Nat := 0
  deriving DecidableEq, Repr

/-- The host interface. -/
structure HostIf where
  bar : Bar0 := {}
  queues : Map Queue := []
  notices : NoticeRing := {}
  session : Option Nat := none
  /-- A detached session's id (R324). -/
  detached : Option Nat := none
  /-- Swap transfers pause while no session is attached (R324). -/
  swapPaused : Bool := false
  deriving DecidableEq, Repr

/-- What the block sends out (R1): a completion entry, an MSI-X message, a notice, bytes written to host memory, a
Huveip frame, and the outputs of the sensor and control ports. -/
inductive Output where
  | completion (q cid sqHead status reason result time aux : Nat) (phase : Bool)
  | msix (vector : Nat)
  | notice (ty part : Nat) (data : List Byte) (time dropped : Nat) (phase : Bool)
  | hostWrite (addr : Nat) (bytes : List Byte)
  | frame (port ty : Nat) (f : RxFrame) (wire : List Byte)
  | link (port kind : Nat) (args : List Nat)
  | eth (port : Nat) (bytes : List Byte)
  /-- A CAN frame: its port, identifier (bit 29: extended), FD, BRS, DLC code and payload (R300, R302). -/
  | can (port ident : Nat) (fd brs : Bool) (dlc : Nat) (bytes : List Byte)
  | spi (master cs : Nat) (frames : List Nat)
  | pwm (pwm duty period : Nat)
  /-- A pulse train (R247): output, the Cupola cycle count it starts at, COUNT, WIDTH, SPACING and POLARITY. -/
  | trigger (trg cycle count width spacing polarity : Nat)
  | safe (a b : Bool)
  | alert (asserted : Bool)
  | regulators (on : Bool)
  | tdo (bits : List Nat)
  deriving DecidableEq, Repr

end Sys2Proof.Machine
end

