-- ==== Sys2Proof/Machine/THuv.lean ====
section
/-! DEFINITION. State of the Huveip ports, routes and pace notices: R127 to R144, R400 to R403. -/

namespace Sys2Proof.Machine

/-- Port states (R140). -/
inductive PortState where
  | down
  | training
  | attesting
  | up
  | retraining
  deriving DecidableEq, Repr

/-- A frame held in the replay buffer or waiting for a credit: its TYPE and contents; its 64-bit number on the hop, its
key and salt, once it has gone out in a session; and, for a forwarded frame, the port and channel whose receive buffer holds it. -/
structure TxFrame where
  ty : Nat
  f : RxFrame
  no : Nat := 0
  key : List Byte := []
  source : Option (Nat × Nat) := none
  deriving DecidableEq, Repr

/-- Where the LINK exchange of R134 step 3 and R401 stands. -/
inductive LinkStep where
  | idle
  | bringup
  | hello
  | encap
  | report
  | finish
  | done
  deriving DecidableEq, Repr

/-- A port's session and its bring-up (R132, R401, R403). -/
structure Session where
  step : LinkStep := .idle
  initiator : Bool := false
  /-- This side's nonce, and the free value its encapsulation key pair is drawn with. -/
  nonce : List Byte := []
  seed : Nat := 0
  peerNonce : List Byte := []
  peerKey : List Byte := []
  /-- The HELLO and ENCAP messages, in order. -/
  transcript : List Byte := []
  /-- The 104 bytes of R403 of the session's keys, those before a rekey, and the frame numbers before which frames still use
  these. -/
  material : List Byte := []
  oldMaterial : List Byte := []
  /-- The number under which Lantern holds the key; 0 for none. -/
  key : Nat := 0
  frames : Nat := 0
  tagFails : Nat := 0
  rekeying : Bool := false
  switchTx : Nat := 0
  switchRx : Nat := 0
  refused : Bool := false
  deriving DecidableEq, Repr

/-- Port statistics (R140). -/
structure PortStats where
  framesTx : DWord := 0
  framesRx : DWord := 0
  fecCorrected : DWord := 0
  fecUncorrectable : Nat := 0
  crcFail : Nat := 0
  tagFail : Nat := 0
  replays : Nat := 0
  retrains : Nat := 0
  degrades : Nat := 0
  dropped : Nat := 0
  deriving DecidableEq, Repr

/-- Credits by channel: write channel 0, write channel 1, channel C (R131). -/
structure Credits where
  c0 : Nat := 0
  c1 : Nat := 0
  cc : Nat := 0
  deriving DecidableEq, Repr

/-- A Huveip port. -/
structure Port where
  state : PortState := .down
  lanes : Nat := 0
  laneMask : Nat := 0
  /-- Lanes not dropped since the last ordered retrain or start (R133). -/
  usable : Nat := 0xFF
  peerId : Nat := 0xFFFF
  peerSlots : Nat := 0
  txNext : Nat := 0
  rxNext : Nat := 0
  replay : List TxFrame := []
  waiting : List TxFrame := []
  replayRuns : Nat := 0
  failedRetrains : Nat := 0
  credits : Credits := {}
  owed : Credits := {}
  session : Session := {}
  stats : PortStats := {}
  deriving DecidableEq, Repr

/-- A frame of a new write held back at a port until a route change takes effect (R137). -/
structure HeldFrame where
  table : Nat
  ty : Nat
  f : RxFrame
  deriving DecidableEq, Repr

/-- The Huveip link of the module: device ID, ports, route tables at 65536 table + DST_ID (table numbers as R137),
pace notices seen and sent (R143, R144). -/
structure Huveip where
  devId : Nat := 0xFFFF
  ports : Map Port := []
  routes : Map Nat := []
  /-- Changes held back until writes to the destination have passed (R137): table 65536 + DST_ID, entry. -/
  heldRoutes : List (Nat × Nat) := []
  /-- Writes being forwarded whose last frame has not passed: table key, source, write tag; and frames held back. -/
  forwarding : List (Nat × Nat × Nat) := []
  heldFrames : List HeldFrame := []
  paceSeen : List (Nat × Nat) := []
  paceSeq : Nat := 0
  /-- CAUSE of the notice last sent; 0 when released. -/
  paceCause : Nat := 0
  /-- CP time of the last notice of a change. -/
  paceAt : Option Nat := none
  deriving DecidableEq, Repr

end Sys2Proof.Machine
end

