-- ==== Sys2Proof/Machine/TLane.lean ====
section
/-! DEFINITION. State of the engine tiles and lanes: R35, R47, R60, R69, R70, R74, R76, R77, R80. -/

namespace Sys2Proof.Machine

/-- A hardware loop register LC0 to LC3: a LOOP's count, or a RAGGED's cursor (R74, R213, R214). -/
structure Loop where
  active : Bool := false
  start : Nat := 0
  len : Nat := 0
  left : Nat := 0
  ragged : Bool := false
  entry : Nat := 0
  lo : Nat := 0
  hi : Nat := 0
  tot : Nat := 0
  items : Nat := 0
  reg : Nat := 0
  mode : Nat := 0
  gran : Nat := 0
  split : Nat := 0
  parts : Nat := 0
  table : DWord := 0
  deriving DecidableEq, Repr

/-- The five lane counters of R77, in RDST order. -/
structure LaneCounters where
  issued : DWord := 0
  wait : DWord := 0
  interlock : DWord := 0
  fetch : DWord := 0
  xfence : DWord := 0
  deriving DecidableEq, Repr

/-- What R47, R76 and R77 save and restore of a lane: registers 0 to 15 are A0 to A15 and 16 to 31 are D0 to D15,
vector register r lane k at 64 r + k. -/
structure LaneArch where
  x : Map DWord := []
  stride : Map DWord := []
  v : Map (Option Word) := []
  /-- Lost at a power-down (R443): free values from this number on, where nothing has been written since. -/
  fill : Option Nat := none
  vPoison : Map Bool := []
  asw : Word := 0
  lsw : Word := 0
  cnt : LaneCounters := {}
  loops : Map Loop := []
  pc : Nat := 0
  deriving DecidableEq, Repr

/-- A result of the vector unit not yet written: to a register, or to a tile memory (R58). -/
inductive VecRes where
  | reg (r : Nat) (words : List Word) (poison : Bool)
  | mem (kind idx : Nat) (pieces : List (Nat × List Byte)) (poison : Bool) (int32 : Bool)
  deriving DecidableEq, Repr

/-- The step under issue: the lane word's issues done, the slots of this issue that have acted, the registers as they
stood before the step (R64), and what R70's exceptions need. -/
structure LaneIssue where
  /-- The 2 KiB fetch queue (R66): it holds the lane's code from this scratchpad address up to the next. -/
  qLo : Nat := 0
  qHi : Nat := 0
  /-- The lane word the lane stands at is in the queue. -/
  fetched : Bool := false
  granted : Bool := false
  iter : Nat := 0
  done : Nat := 0
  x0 : Map DWord := []
  stride0 : Map DWord := []
  wroteA : List Nat := []
  target : Option Nat := none
  ending : Bool := false
  /-- Scalar registers awaiting a load; those of the present step apart. -/
  xBusy : List Nat := []
  xNew : List Nat := []
  /-- Vector results not yet written, in issue order; register results and LDV reads of the present step apart. -/
  vPend : List VecRes := []
  vNew : List VecRes := []
  rNew : List Nat := []
  /-- Standing at an unsatisfied external wait of a yield point since this CP time (R227). -/
  waitSince : Option Nat := none
  deriving DecidableEq, Repr

/-- Where a lane stands: released and issuing, stopped at a yield point (R80), ended (R79), or not released. -/
inductive LaneRun where
  | idle
  | running
  | stopped
  | ended
  deriving DecidableEq, Repr

/-- A lane: what the context saves, the step under issue, and its run state; `faults` are the first 16 fault
statuses (R120). -/
structure Lane where
  arch : LaneArch := {}
  iss : LaneIssue := {}
  run : LaneRun := .idle
  faults : List Nat := []
  deriving DecidableEq, Repr

/-- One accumulator row a matrix operation will write (R45, R46). -/
structure AccRow where
  row : Nat
  words : List Word
  int32 : Bool
  poison : Bool
  deriving DecidableEq, Repr

/-- A tile's memories (R35): operand slot byte at 272 slot + i, accumulator word at 16 row + j, line-buffer byte at
64 unit + i; poison per slot, row and unit (R37); rows last written as INT32 (R191); rows with a write in flight. What was lost at a power-down is free from `fill` on. -/
structure Tile where
  slots : Map (Option Byte) := []
  acc : Map (Option Word) := []
  line : Map (Option Byte) := []
  fill : Option Nat := none
  slotPoison : Map Bool := []
  accPoison : Map Bool := []
  linePoison : Map Bool := []
  accInt : Map Bool := []
  accPend : List AccRow := []
  /-- The slot state of R35 beside poison: the valid bit (written since the slot was lost), the in-flight bit (a write on its
  way), and how many issued operations have not finished reading the slot (R46). -/
  slotValid : Map Bool := []
  slotFlight : Map Bool := []
  slotReaders : Map Nat := []
  /-- Line-buffer units that issued operations have not finished reading (R46). -/
  unitReaders : Map Nat := []
  deriving DecidableEq, Repr

end Sys2Proof.Machine
end

