-- ==== Sys2Proof/Machine/TMem.lean ====
section
/-! DEFINITION. State of the scratchpad, the windows and trackers, DDR5 and the DMA posts: chapters 4 to 6. -/

namespace Sys2Proof.Machine

/-- R88: a bank is always in exactly one of four states. -/
inductive BankState where
  | inService
  | spare
  | retired
  | fenced
  deriving DecidableEq, Repr

/-- A bank's state and statistics (R88, R109), and its corrected-error history (R105). -/
structure Bank where
  state : BankState := .inService
  hot : Bool := false
  retention : Bool := false
  awake : Bool := true
  grants : DWord := 0
  waitCycles : DWord := 0
  corrected : Nat := 0
  uncorrectable : Nat := 0
  windowGrants : Nat := 0
  /-- Grants of the hot window that runs, and how many have ended (R110). -/
  windowNow : Nat := 0
  windows : Nat := 0
  /-- 64-bit granules (8 line + granule) corrected, with the CP time, and the times of the past hour's corrections. -/
  scrubbed : List (Nat × Nat) := []
  recent : List Nat := []
  /-- A retirement trigger of R105 has been met: by corrected errors, by an uncorrectable one. -/
  ceTrigger : Bool := false
  ueTrigger : Bool := false
  deriving DecidableEq, Repr

/-- A region of a partition (R90): its mode (0 near, 1 spread), near width, seed, and its banks in placement order;
retirement puts a spare in the retired bank's place (R106). -/
structure Region where
  defined : Bool := false
  mode : Nat := 0
  nearWidth : Nat := 0
  seed : Nat := 0
  banks : List Nat := []
  deriving DecidableEq, Repr

/-- One narrow access in a gather entry (R99): a lane's SLD (with its destination) or SST. -/
structure GAccess where
  part : Nat
  lane : Nat
  store : Bool
  off : Nat
  width : Nat
  signed : Bool
  rd : Nat
  data : DWord
  deriving DecidableEq, Repr

/-- A gather-buffer entry: a line (8192 bank + line) and its accesses in arrival order (R99). -/
structure GEntry where
  line : Nat
  accs : List GAccess
  deriving DecidableEq, Repr

/-- The scratchpad: bytes at 524288 bank + offset, poisoned lines at 8192 bank + line, banks, gather buffers by bank
group, and CE_RETIRE (R105): no command of R330 or class of R377 programs it, so it stays at its default (DESIGN CHOICE, log
entry 167). -/
structure Scratch where
  mem : Map Byte := []
  poison : Map Bool := []
  banks : Map Bank := []
  gather : Map (List GEntry) := []
  ceRetire : Nat := 16
  /-- CP time of the last hot-bank notice of region 16 partition + region (R110). -/
  hotNotice : Map Nat := []
  deriving DecidableEq, Repr

/-- Who receives a window's increments (R112): the partition's counters, or the unit that owns the window. -/
inductive WinKind where
  | partition
  | release (group : Nat)
  | query (part : Nat)
  | setpoint (sp : Nat)
  deriving DecidableEq, Repr

/-- A window ID's entry in the window table (R112 to R118). -/
structure Win where
  isOpen : Bool := false
  /-- Closed, not yet freed: accepted writes still landing (R117 step 2). -/
  closing : Bool := false
  gen : Nat := 0
  /-- Retired until the next start: its generation reached 0xFFFF (R118). -/
  retired : Bool := false
  kind : WinKind := .partition
  part : Nat := 0
  ddr5 : Bool := false
  region : Nat := 0
  /-- Bit 0 WRITE, bit 1 SIGNAL, bit 2 FOREIGN. -/
  flags : Nat := 0
  off : Nat := 0
  len : Nat := 0
  target : Nat := 0
  tokFirst : Nat := 0
  tokCount : Nat := 0
  late : Nat := 0
  lateLogged : Option Nat := none
  /-- The window.close command that waits for it to be freed: queue, fetch number (R117 step 3). -/
  closer : Option (Nat × Nat) := none
  /-- Context whose image opened it, 8 when the driver did. -/
  ctx : Nat := 8
  deriving DecidableEq, Repr

/-- What a write does. -/
inductive WOp where
  | put
  | signal
  | halo
  | wb
  | wbw
  | record
  | dma
  | unit
  deriving DecidableEq, Repr

/-- Who issued a write: a lane, a DMA or record post, a unit (Cupola group g is g, Steeple 100), or a peer device. -/
inductive WSrc where
  | lane (part lane : Nat)
  | post (part post : Nat)
  | unit (n : Nat)
  | peer (dev wtag : Nat)
  deriving DecidableEq, Repr

/-- A write's progress: issued; checked and accepted at its home entry; landed whole; increment applied; finished
with a fault, its completion not yet returned. -/
inductive WPhase where
  | issued
  | accepted
  | landed
  | applied
  | faulted
  | sent
  deriving DecidableEq, Repr

/-- An outstanding write and its tracker (R123, R125). -/
structure Write where
  id : Nat
  src : WSrc
  op : WOp
  phase : WPhase := .issued
  part : Nat := 0
  /-- HALO: the destination lane. WB: the destination address. -/
  dst : Nat := 0
  handle : DWord := 0
  off : Nat := 0
  data : List Byte := []
  poison : List Bool := []
  tctr : Nat := 0
  tamt : Nat := 0
  status : Nat := 0
  /-- Lines acknowledged by DDR5 so far. -/
  acked : Nat := 0
  /-- Remote, arriving: lines still to come, and whether its last frame has come. -/
  missing : Nat := 0
  /-- Remote, sent: its write tag (R129). -/
  tag : Nat := 0
  deriving DecidableEq, Repr

/-- What a scratchpad read is for. -/
inductive RKind where
  | ldt
  | ldl
  | ldv
  deriving DecidableEq, Repr

/-- An outstanding L-slot read (R96). -/
structure Read where
  id : Nat
  kind : RKind
  part : Nat
  lane : Nat
  addr : DWord
  dst : Nat
  count : Nat
  /-- LDV: registers that a later slot of the same lane word writes, whose result stands (R46, R64). -/
  skip : List Nat := []
  deriving DecidableEq, Repr

/-- Which post slot. -/
inductive PQueue where
  | l0
  | l1
  | floam
  | stem
  | record
  deriving DecidableEq, Repr

/-- An outstanding shared-lane post (R75, R160 to R164, R174, R193): its chain address, the index and the bytes of the
descriptor in work, the bytes of that descriptor moved, and what has been decided of it. -/
structure Post where
  id : Nat
  queue : PQueue
  part : Nat
  op : Nat := 0
  addr : DWord := 0
  tctr : Nat := 0
  tamt : Nat := 0
  sel : Nat := 0
  desc : Nat := 0
  cur : List Byte := []
  moved : Nat := 0
  /-- Every descriptor has been processed. -/
  drained : Bool := false
  /-- The image's data area base and length at issue (R162). -/
  base : Nat := 0
  span : Nat := 0
  /-- Floam: tiles of the entry written. -/
  tiles : Nat := 0
  /-- Floam: source lines of the block in work that have been read. -/
  got : Nat := 0
  /-- A codeword of the block in work could not be delivered. -/
  bad : Bool := false
  /-- A tile of the entry was written poisoned. -/
  entryBad : Bool := false
  /-- Huveip DMA: its write under way. -/
  write : Option Nat := none
  /-- Context that issued it. -/
  ctx : Nat := 0
  deriving DecidableEq, Repr

/-- Windows, outstanding writes and reads, and the order in which window IDs were closed, longest closed first. -/
structure Fabric where
  wins : Map Win := []
  closedOrder : List Nat := []
  writes : List Write := []
  reads : List Read := []
  posts : List Post := []
  deriving DecidableEq, Repr

/-- One DDR5 sub-channel (R157, R159, R419): refreshes owed, the times of its retrains within the hour, grants per
partition. -/
structure SubChannel where
  owed : Nat := 0
  fenced : Bool := false
  retrains : List Nat := []
  grants : Map DWord := []
  deriving DecidableEq, Repr

/-- One DDR5 channel's heat (R158): the refresh interval in hundredths of a microsecond and the slot divisor. -/
structure Channel where
  deciC : Int := 0
  interval : Nat := 390
  divisor : Nat := 1
  alert : Bool := false
  deriving DecidableEq, Repr

/-- A 4 KiB physical page: corrected beats in the day, remapped to a spare, or fenced (R156). -/
structure DPage where
  /-- When its corrected beats of the last 24 hours came. -/
  corrected : List Nat := []
  /-- An uncorrectable beat was met in it. -/
  bad : Bool := false
  spare : Option Nat := none
  fenced : Bool := false
  deriving DecidableEq, Repr

/-- DDR5: the bytes a partition has written since its key pair was created, at 2^44 partition + offset, where an
unlisted byte is unwritten; poisoned lines at 2^38 partition + line; sub-channels, channels, pages; spare pages used
and segments withdrawn (R151 to R159). -/
structure Ddr where
  mem : Map (Option Byte) := []
  poison : Map Bool := []
  subs : Map SubChannel := []
  chans : Map Channel := []
  pages : Map DPage := []
  sparesUsed : Nat := 0
  withdrawn : List Nat := []
  /-- Key generation of each partition's DDR5 key pair, 0 for none (R154). -/
  keyGen : Map Nat := []
  nextKey : Nat := 1
  /-- The number of the key pair in force for each partition, at 16 the device's, which rotation replaces (R154, R386). -/
  pairs : Map Nat := []
  deriving DecidableEq, Repr

end Sys2Proof.Machine
end

