-- ==== Sys2Proof/Machine/TPart.lean ====
section
/-! DEFINITION. State of partitions, images, job contexts, models and KV pools: chapters 3, 6, 8 and 9. -/

namespace Sys2Proof.Machine

/-- R222. -/
inductive PState where
  | free
  | disabled
  | enabled
  deriving DecidableEq, Repr

/-- The partition configuration record (R221). -/
structure PartCfg where
  reserved : Bool := false
  tiers : Nat := 0
  quantumUs : Nat := 0
  engineMask : Nat := 0
  preemptTimeoutUs : Nat := 0
  jobTimeoutMs : Nat := 0
  waitSwitchUs : Nat := 0
  yieldLimit : Nat := 0
  windowBudget : Nat := 0
  arbClass : Nat := 0
  scratchBytes : Nat := 0
  scratchWeightBytes : Nat := 0
  ddr5Bytes : Nat := 0
  kvPages : Nat := 0
  nandBytes : Nat := 0
  hostSwapBytes : Nat := 0
  queueMask : Nat := 0
  deriving DecidableEq, Repr

/-- A lane's code in an image: offset, size in granules, wait table (R69, R72, R475). -/
structure LaneCode where
  off : Nat
  granules : Nat
  wct : List Word
  deriving DecidableEq, Repr

/-- A yield table entry (R475). -/
structure YieldEntry where
  lane : Nat
  word : Nat
  first : Nat
  count : Nat
  deriving DecidableEq, Repr

/-- A live range (R475). -/
structure LiveRange where
  region : Nat
  off : Nat
  len : Nat
  deriving DecidableEq, Repr

/-- A model table entry (R166). -/
structure ModelRef where
  id : List Byte
  bytes : Nat
  nandOk : Bool
  deriving DecidableEq, Repr

/-- A LOOP or RAGGED of an image's lane code: where it stands, its loop register, count and body (R74, R212). -/
structure LoopSite where
  lane : Nat
  word : Nat
  lc : Nat
  count : Nat
  body : Nat
  deriving DecidableEq, Repr

/-- The needs an image's header declares. -/
structure ImageNeeds where
  lanes : Nat := 0
  yieldInterval : Nat := 0
  raggedMax : Nat := 0
  scratch : Nat := 0
  ddr5 : Nat := 0
  kvPages : Nat := 0
  nand : Nat := 0
  hostSwap : Nat := 0
  liveMax : Nat := 0
  engineTokens : Nat := 0
  sharedTokens : Nat := 0
  peers : Nat := 0
  windows : Nat := 0
  codeDst : Nat := 0
  handleTable : Nat := 0
  deriving DecidableEq, Repr

/-- A loaded Crawyn image. -/
structure Image where
  slot : Nat := 0
  needs : ImageNeeds := {}
  codeLow : Nat := 0
  codeSize : Nat := 0
  code : List LaneCode := []
  loops : List LoopSite := []
  yields : List YieldEntry := []
  live : List LiveRange := []
  dst : List Byte := []
  models : List ModelRef := []
  /-- External-counter maps: one number per engine lane, then the shared lane's (R81). -/
  external : List Nat := []
  /-- Base of the image's data area in the partition's DDR5 space (R151). -/
  dataBase : Nat := 0
  /-- Its windows: ID and generation (R115). -/
  wins : List (Nat × Nat) := []
  deriving DecidableEq, Repr

/-- An entry of a job's length table (R210). -/
structure LtEntry where
  ctxLen : Nat
  new : Nat
  seq : Nat
  deriving DecidableEq, Repr

/-- A job (R225, R331): the command that submitted it, its block, and what it has gathered. -/
structure Job where
  /-- Submission entry it completes: queue and fetch number; none once its queue is gone. -/
  cmd : Option (Nat × Nat)
  queue : Nat := 0
  prio : Nat
  hasLt : Bool := false
  lt : List LtEntry := []
  ltBytes : List Byte := []
  ltDst : Nat := 0
  argsDst : Nat := 0
  args : List Byte := []
  statsAddr : Nat := 0
  start : Nat := 0
  preempts : Nat := 0
  energyUj : Nat := 0
  poisonMark : Bool := false
  tokenSat : Bool := false
  /-- Staged-model slots bound to the image's model table (R166). -/
  bound : List Nat := []
  deriving DecidableEq, Repr

/-- Context states (R225). -/
inductive CState where
  | empty
  | loaded
  | starting
  | ready
  | running
  | stopping
  | saved
  deriving DecidableEq, Repr

/-- A job context. -/
structure Ctx where
  state : CState := .empty
  image : Option Image := none
  job : Option Job := none
  waiting : List Job := []
  saved : Map Lane := []
  everRun : Bool := false
  engBase : Nat := 0
  shBase : Nat := 0
  /-- CP time its lanes were last released, and since which its quantum runs (R227). -/
  releasedAt : Nat := 0
  /-- CP time the job entered STARTING (R229). -/
  startedAt : Nat := 0
  /-- CP time a pre-emption was requested; none when none is under way. -/
  preemptAt : Option Nat := none
  /-- Its live lines spilled at the save: scratchpad line (region, offset) contents (R231). -/
  spill : List (Nat × Nat × List Byte × Bool) := []
  /-- The check that unloaded its image (R85), 0 for none: a later job.submit is refused with it. -/
  refuse : Nat := 0
  deriving DecidableEq, Repr

/-- A staged model (R165). -/
structure Staged where
  used : Bool := false
  id : List Byte := []
  slot : Nat := 0
  nandDirect : Bool := false
  bytes : Nat := 0
  /-- The copy of a DDR5-staged model is complete. -/
  ready : Bool := false
  deriving DecidableEq, Repr

/-- A residency-table entry of the model cache (R175). -/
structure CacheEnt where
  model : Nat
  off : Nat
  bytes : Nat
  dst : Nat
  tiles : Nat
  deriving DecidableEq, Repr

/-- The staged models, and the model cache with its counts (R165, R175, R178). -/
structure Models where
  staged : Map Staged := []
  cache : List CacheEnt := []
  hits : DWord := 0
  misses : DWord := 0
  fullMisses : DWord := 0
  deriving DecidableEq, Repr

/-- Where a page of a sequence is (R216 to R219). -/
inductive PRef where
  | none
  | resident (page : Nat)
  | swapped (unit : Nat)
  deriving DecidableEq, Repr

/-- A sequence slot (R205): its page table at (layer 256 + head) 65536 + page index. -/
structure Seq where
  isOpen : Bool := false
  domain : Nat := 0
  prio : Nat := 0
  model : List Byte := []
  ids : List Nat := []
  length : Nat := 0
  opened : Nat := 0
  busy : Option Nat := none
  swapped : Bool := false
  /-- A waiting command needs its swapped pages back (R206). -/
  backWanted : Bool := false
  table : Map PRef := []
  deriving DecidableEq, Repr

/-- An allocated page: references and read-only mark (R199, R204). -/
structure KvPage where
  refs : Nat := 0
  tree : Nat := 0
  readOnly : Bool := false
  deriving DecidableEq, Repr

/-- A node of the prefix tree (R208). -/
structure Node where
  id : Nat
  domain : Nat
  digest : BitVec 64
  parent : Nat
  ids : List Nat
  pages : List Nat
  matched : Nat
  deriving DecidableEq, Repr

/-- The KV pool descriptor (R198). -/
structure KvPool where
  configured : Bool := false
  format : Nat := 0
  layers : Nat := 0
  heads : Nat := 0
  maxSeq : Nat := 0
  swapUnits : Nat := 0
  deriving DecidableEq, Repr

/-- A host swap unit's record (R218, R412): written or not, generation, the 12-byte tag, and whether it holds carried poison
(the tag is then the complement of the true one); for a KV unit in use, the sequence slot and table key it holds. -/
structure SwapUnit where
  written : Bool := false
  gen : Nat := 0
  tag : List Byte := []
  carried : Bool := false
  used : Bool := false
  seq : Nat := 0
  key : Nat := 0
  deriving DecidableEq, Repr

/-- KV statistics that are counters (R220). -/
structure KvStats where
  pageEvents : DWord := 0
  swapOut : DWord := 0
  swapIn : DWord := 0
  tagFailures : Nat := 0
  prefixBlocks : Nat := 0
  deriving DecidableEq, Repr

/-- A partition's KV state. -/
structure Kv where
  pool : KvPool := {}
  seqs : Map Seq := []
  pages : Map KvPage := []
  segs : Nat := 0
  nodes : List Node := []
  domains : List Nat := []
  /-- Key number of each domain created (R207). -/
  keys : Map Nat := []
  nextOpen : Nat := 0
  nextNode : Nat := 1
  clock : Nat := 0
  stats : KvStats := {}
  /-- The sequence being swapped out by a page event or kv.seq_swap_out. -/
  victim : Option Nat := none
  deriving DecidableEq, Repr

/-- The registered host swap area (R218). -/
structure HostArea where
  base : Nat := 0
  bytes : Nat := 0
  units : Map SwapUnit := []
  /-- Epoch of the swap key, and its number, 0 while HOST_SWAP_BYTES is not granted (R218). -/
  epoch : Nat := 0
  key : Nat := 0
  deriving DecidableEq, Repr

/-- What power and pace do to a partition (R144, R346 to R348). -/
structure PartPower where
  budgetW : Nat := 0
  paceFollow : Bool := true
  /-- Step limits of pace notices: SOURCE_ID and step. -/
  pace : List (Nat × Nat) := []
  /-- Step limit the CP sets to hold the budget (R348). -/
  cpLimit : Nat := 0
  /-- The shares of the last ten intervals of 1 ms, in µJ, newest first; their mean is the estimate in mW. -/
  shares : List Nat := []
  /-- Intervals in a row below 90 % of the budget. -/
  underMs : Nat := 0
  energyUj : DWord := 0
  deriving DecidableEq, Repr

/-- Low-power standing of a partition (R442, R443). -/
inductive Low where
  | a0
  | a1
  | a2
  deriving DecidableEq, Repr

/-- A partition. -/
structure Part where
  state : PState := .free
  cfg : PartCfg := {}
  sequencer : Option Nat := none
  regions : Map Region := []
  ctxs : Map Ctx := []
  lastRun : Option Nat := none
  lanes : Map Lane := []
  policy : Nat := 0xF4
  models : Models := {}
  kv : Kv := {}
  host : HostArea := {}
  power : PartPower := {}
  low : Low := .a0
  deriving DecidableEq, Repr

end Sys2Proof.Machine
end

