-- ==== Sys2Proof/Machine/TPower.lean ====
section
/-! DEFINITION. State of power, droop and heat: chapter 14. -/

namespace Sys2Proof.Machine

/-- Ceilings and step of one compute die (R338 to R345, R349): a larger number is a stricter step. -/
structure DiePower where
  step : Nat := 7
  cap : Nat := 0
  thermal : Nat := 0
  /-- A droop detector's trip holds the frequency two steps lower; the detectors that have tripped. -/
  drooped : Bool := false
  tripped : List Nat := []
  trips : Nat := 0
  /-- CP times of the last 1,001 trips, newest first. -/
  tripsAt : List Nat := []
  /-- S[d] of R338, in mW. -/
  saved : Nat := 2000
  /-- 100 µs readings in a row at or below 92 °C since the last adjustment, and readings for which the ceiling is not lowered
  again. -/
  coolReads : Nat := 0
  hotWait : Nat := 0
  deriving DecidableEq, Repr

/-- One rail's last report and its standing under R341; `force` is the forced ceiling of each die it holds. -/
structure Rail where
  mv : Nat := 0
  ma : Nat := 0
  high : Nat := 0
  under : Nat := 0
  force : List Nat := []
  deriving DecidableEq, Repr

/-- Power and heat of the module. -/
structure Power where
  capW : Nat := 400
  droopMv : Nat := 45
  dies : Map DiePower := []
  rails : Map Rail := []
  mainMv : Nat := 0
  /-- Reports of input power in mW, newest first; those of the last 1 ms are kept. -/
  inputs : List Nat := []
  auxMw : Nat := 0
  /-- The die lowered last and the input power before it, until the next report of input power; 50 µs evaluations since; and
  evaluations in a row that would allow a raise. -/
  lowered : Option (Nat × Nat) := none
  sinceLower : Nat := 2
  calm : Nat := 0
  clamp : Bool := false
  interlock : Bool := true
  /-- The interlock follows a loss of flow, not a start (R354). -/
  flowLost : Bool := false
  flowOk : Bool := false
  brownOut : Bool := false
  tj : List Int := [0, 0, 0, 0, 0, 0]
  junctionAlert : Bool := false
  inlet : Int := 0
  outlet : Int := 0
  humidity : Nat := 0
  deviceUj : DWord := 0
  queueUj : Map DWord := []
  /-- CP time each event code was last posted, plus one (R355). -/
  posted : Map Nat := []
  deriving DecidableEq, Repr

end Sys2Proof.Machine
end

