-- ==== Sys2Proof/Machine/TCupola.lean ====
section
/-! DEFINITION. State of Cupola and of the stem engine: chapters 7 and 10. -/

namespace Sys2Proof.Machine

/-- Three whole numbers: a point or a vector in fixed point, its unit said where it is used. -/
structure V3 where
  x : Int
  y : Int
  z : Int
  deriving DecidableEq, Repr

/-- The stem engine's command under way for a post (R193 to R196): the record's bytes, output lines written so far,
and whether its data could not be had any more. -/
structure StemCmd where
  post : Nat
  part : Nat
  ctx : Nat := 0
  record : List Byte
  lines : Nat := 0
  deriving DecidableEq, Repr

/-- A stored ingest-ring line (R244, R245): the frame and line it holds, its samples by component, and whether it is
complete in every component. -/
structure RingLine where
  frame : Nat := 0
  y : Nat := 0
  comps : Map (List Nat) := []
  complete : Bool := false
  deriving DecidableEq, Repr

/-- Timing states (R255). -/
inductive Timing where
  | idle
  | unaligned
  | aligned
  | arrival
  deriving DecidableEq, Repr

/-- A return kept for a frame (R248, R250, R258): its anchor time, echo index and count, reflectivity, ring, the flags
LATE and ARRIVAL, the square of its range in units of 2^-596 m², its place in the sensor's frame in units of 2^-80 m, and
whether it was read in Cartesian form. -/
structure Pt where
  time : Int
  echo : Nat
  echoes : Nat
  refl : Nat
  ring : Nat
  late : Bool
  arrival : Bool
  range2 : Nat
  pos : V3 := ⟨0, 0, 0⟩
  cart : Bool := false
  /-- The echoes of its beam behind it: reflectivity and squared range. -/
  behind : List (Nat × Nat)
  deriving DecidableEq, Repr

/-- The counters of R268, in its order. -/
structure SensorStats where
  lines : DWord := 0
  lineDrops : DWord := 0
  damaged : DWord := 0
  packets : DWord := 0
  failed : DWord := 0
  parseOverrun : DWord := 0
  points : DWord := 0
  rejected : DWord := 0
  unalignedDrops : DWord := 0
  lateUsed : DWord := 0
  lateDiscarded : DWord := 0
  slips : DWord := 0
  quarantines : DWord := 0
  deriving DecidableEq, Repr

/-- How a sensor stands in time (R253 to R255): the last pairs (sensor time, anchor count), the run of consistent
strobes, strobes missed in a row, and the time of its latest sample. -/
structure SensorTime where
  state : Timing := .idle
  pairs : List (Int × Int) := []
  run : Nat := 0
  missed : Nat := 0
  sample : Int := 0
  deriving DecidableEq, Repr

/-- A whole camera image: its anchor time, whether it came late, and its ingest sequence number. -/
structure Img where
  time : Int
  late : Bool
  seq : Nat
  deriving DecidableEq, Repr

/-- What a member has gathered for its group's next frames (R257, R258, R262, R263). -/
structure Member where
  points : List Pt := []
  /-- Whole camera images not yet used. -/
  images : List Img := []
  /-- It has sent something since the last frame; frames in a row for which it has not. -/
  sent : Bool := false
  quiet : Nat := 0
  quarantined : Bool := false
  quarRun : Nat := 0
  residual : Nat := 0
  deriving DecidableEq, Repr

/-- A sensor; its descriptor (R243) is empty while it is not configured. -/
structure Sensor where
  cfg : List Byte := []
  stopped : Bool := false
  calib : Option (List Byte) := none
  calibNext : Option (List Byte) := none
  /-- Calibrations that take effect from an instant whose frame is not yet assembled (R259). -/
  calibDue : List (Int × List Byte) := []
  time : SensorTime := {}
  member : Member := {}
  /-- Ingest sequence number: none before the first frame start (R245). -/
  seqNo : Option Nat := none
  /-- Lines of the image received, per gate. -/
  lineNo : Map Nat := []
  /-- Raw samples of the last lines of a Bayer image, latest first, and whether the line's CRC held. -/
  raws : List (Bool × List Nat) := []
  imageTime : Int := 0
  /-- An image is under way: from the frame start of its virtual channel VC until every gate's frame end (R245). -/
  inImage : Bool := false
  /-- The gates whose frame end has come. -/
  gatesEnded : List Nat := []
  /-- The side of SWEEP_AZ on which the latest point lay: true past it (R257). -/
  sweepPast : Option Bool := none
  damaged : Bool := false
  /-- Its latest image was damaged. -/
  lastDamaged : Bool := false
  ring : Map RingLine := []
  stats : SensorStats := {}
  deriving DecidableEq, Repr

/-- A box of R267: columns i0 to i1, rows j0 to j1, and top. -/
structure GBox where
  i0 : Nat
  i1 : Nat
  j0 : Nat
  j1 : Nat
  top : Nat
  deriving DecidableEq, Repr

/-- The frame whose instant has come (R257): its instant, the members marked late once its deadline has passed, and, once
it is assembled, its header, slot, the data writes still to complete, and the header's own write. -/
structure Frame where
  t : Int
  closed : Bool := false
  lateMask : Nat := 0
  assembled : Bool := false
  header : List Byte := []
  slot : Nat := 0
  writes : List Nat := []
  failed : Bool := false
  /-- A memory error has hit the group's data: the frame gets no header, and the map goes with it (R421). -/
  lost : Bool := false
  headerWrite : Option Nat := none
  deriving DecidableEq, Repr

/-- The last measured motion of a group (R261): T in units of 2^-80 m, ω in units of 2^-80 rad, the covariance, and the
interval it spanned. -/
structure Motion where
  trans : V3 := ⟨0, 0, 0⟩
  rot : V3 := ⟨0, 0, 0⟩
  cov : List Word := []
  span : Int := 0
  deriving DecidableEq, Repr

/-- A fusion group: its descriptor (R256), Cupola's copy of its anchor counter (R252), and the course of its frames. -/
structure Group where
  configured : Bool := false
  started : Bool := false
  /-- group.stop waits for the frame in progress: queue and fetch number. -/
  stopping : Option (Nat × Nat) := none
  cfg : List Byte := []
  window : Nat := 0
  count : Nat := 0
  /-- Anchor events timed since group.start, and those among them, every FRAME_DIV-th, that are instants to come (R257). -/
  events : Nat := 0
  due : List Int := []
  /-- Instants not yet taken up, and the frame in progress. -/
  instants : List Int := []
  frame : Option Frame := none
  tLast : Int := 0
  hasPrev : Bool := false
  motion : Option Motion := none
  /-- The previous frame's map: its final de-skewed points at its own instant, in units of 2^-80 m (R260). -/
  map : List V3 := []
  hold : Nat := 0
  sequence : Nat := 0
  written : Nat := 0
  released : Nat := 0
  /-- A time break is owed its frame (R262). -/
  broken : Bool := false
  /-- The set for Steeple (R267, R279): boxes, motion, urgency, and whether it waits to be taken. -/
  boxes : List GBox := []
  boxMotion : Option (V3 × V3) := none
  boxTime : Int := 0
  boxesReady : Bool := false
  urgent : Bool := false
  occupied : List (Nat × Nat) := []
  blocked : DWord := 0
  fault : DWord := 0
  faultLogged : Option Nat := none
  deriving DecidableEq, Repr

/-- A trigger output's record (R247). -/
structure Trigger where
  mode : Nat := 0
  count : Nat := 0
  polarity : Nat := 0
  period : Nat := 0
  phase : Nat := 0
  width : Nat := 0
  spacing : Nat := 0
  /-- The record that takes effect at the next period boundary, and the count of that boundary. -/
  next : Option (List Byte) := none
  nextAt : Nat := 0
  /-- The count at which its latest pulse train started. -/
  last : Option Nat := none
  deriving DecidableEq, Repr

/-- Cupola: sensors, parse tables (raw), triggers, groups, its cycle counter, parser queues of the Ethernet ports,
sensor ports out of lock, the next packet number, and STB times of the last edge. -/
structure Cupola where
  cycles : DWord := 0
  sensors : Map Sensor := []
  tables : Map (List Byte) := []
  triggers : Map Trigger := []
  groups : Map Group := []
  queues : Map (List EthFrame) := []
  portsDown : List Nat := []
  etherDropped : Map DWord := []
  /-- Groups whose frame has ended step 2, in the order in which it ended (R257). -/
  ready : List Nat := []
  deriving DecidableEq, Repr

end Sys2Proof.Machine
end

