-- ==== Sys2Proof/Machine/TSteeple.lean ====
section
/-! DEFINITION. State of Steeple: chapter 11. -/

namespace Sys2Proof.Machine

/-- A group's pose in the world: the bits of its position (FP32 x, y, z) and of its quaternion (R270). -/
structure Pose where
  pos : List Word := [0, 0, 0]
  quat : List Word := [0x3F800000, 0, 0, 0]
  deriving DecidableEq, Repr

/-- What Cupola writes with a box set (R267): T_FRAME, the frame's motion where it carries one, and the urgency. -/
structure SetHead where
  time : Int := 0
  motion : Option (V3 × V3) := none
  urgent : Bool := false
  deriving DecidableEq, Repr

/-- One primitive buffer: host primitives by ID as 32-byte records, each group's boxes as 32-byte records with what came with
the set, its grid index (R275: the primitives listed in each cell, by HIT_ID, and those on the overflow list), and whether an error
has marked it bad (R271, R272, R422). -/
structure Buffer where
  host : Map (List Byte) := []
  sets : Map (List (List Byte)) := []
  heads : Map SetHead := []
  cells : Map (List Nat) := []
  overflow : List Nat := []
  bad : Bool := false
  deriving DecidableEq, Repr

/-- Something that waits for the building buffer while a publication is under way: an edit list's records, or a
group's box set (R277). -/
inductive BuildOp where
  | edit (queue cmd : Nat) (records : List (List Byte))
  | boxes (group : Nat) (set : List GBox) (motion : Option (V3 × V3)) (time : Int) (urgent : Bool)
  deriving DecidableEq, Repr

/-- A lattice's header fields and its primitives as 256-byte records (R281). -/
structure Lattice where
  set : Bool := false
  headings : Nat := 0
  res : Nat := 0
  header : List Byte := []
  prims : List (List Byte) := []
  deriving DecidableEq, Repr

/-- A query taken into a slot (R282, R283). -/
structure Query where
  part : Nat
  post : Nat
  reserved : Bool
  record : List Byte
  deriving DecidableEq, Repr

/-- A search node (R284). -/
structure SNode where
  x : Int
  y : Int
  h : Nat
  g : Nat
  parent : Nat
  prim : Nat
  dir : Nat
  deriving DecidableEq, Repr

/-- An entry of the priority queue: key and node; entries stand in insertion order. -/
structure PqEnt where
  key : Nat
  node : Nat
  deriving DecidableEq, Repr

/-- The running query: pinned epoch and buffer, nodes, priority queue, best g per state, and counts. -/
structure Running where
  query : Query
  epoch : Nat
  buffer : Nat
  nodes : List SNode := []
  pq : List PqEnt := []
  best : List ((Int × Int × Nat) × Nat) := []
  expansions : Nat := 0
  pushed : Nat := 0
  full : Bool := false
  capacity : Nat := 0
  /-- An urgent publication has made its epoch obsolete (R278). -/
  stale : Bool := false
  /-- A memory error has hit its priority queue or slot (R422). -/
  lost : Bool := false
  deriving DecidableEq, Repr

/-- A query that has ended and whose result is still to be written (R287, R288): its outcome, path (x, y, heading, primitive,
direction, g per segment), FLAGS, and the write under way (the forwarded record's, then the result's). -/
structure Ended where
  query : Query
  status : Nat
  epoch : Nat := 0
  path : List (Int × Int × Nat × Nat × Nat × Nat) := []
  expansions : Nat := 0
  pushed : Nat := 0
  cost : Nat := 0
  elapsed : Nat := 0
  hit : Nat := 0xFFFFFFFF
  clear : Nat := 0
  flags : Nat := 0
  forwarded : Bool := false
  write : Option Nat := none
  deriving DecidableEq, Repr

/-- Steeple's statistics (R291). -/
structure SteepleStats where
  boxOverflow : Nat := 0
  expansions : DWord := 0
  tests : DWord := 0
  boxSets : Nat := 0
  publishes : Nat := 0
  outcomes : Map Nat := []
  deriving DecidableEq, Repr

/-- Steeple. `published` and `building` number two of the three buffers; the third is the retained one. -/
structure Steeple where
  cell : Nat := 2000
  origin : List Word := [0, 0]
  modes : Nat := 0
  poses : Map Pose := []
  buffers : Map Buffer := []
  published : Nat := 0
  building : Nat := 1
  epoch : Nat := 0
  /-- A publication is pending (steps 1 and 2 of R277); its triggers: queue and command. -/
  pubPending : Bool := false
  pubUrgent : Bool := false
  pubWaiters : List (Nat × Nat) := []
  /-- Step 4 is under way. -/
  copying : Bool := false
  waitingOps : List BuildOp := []
  mesh : Option (List Byte) := none
  meshSlot : Nat := 0
  machines : Map (List Byte) := []
  lattices : Map Lattice := []
  queue : List Query := []
  running : Option Running := none
  ended : List Ended := []
  stats : SteepleStats := {}
  deriving DecidableEq, Repr

end Sys2Proof.Machine
end

