-- ==== Sys2Proof/Machine/TStore.lean ====
section
/-! DEFINITION. State of the storage manager (chapter 15), of Lantern (chapter 16), of the module's resets and
clocks (chapters 17 and 18) and of the arbiters (chapter 9). -/

namespace Sys2Proof.Machine

/-- An image slot (R372, R373): state 0 EMPTY, 1 WRITING, 2 SEALED; owner 0 to 15, or 0xFF for the device. -/
structure Slot where
  state : Nat := 0
  kind : Nat := 0
  owner : Nat := 0
  total : Nat := 0
  data : List Byte := []
  deriving DecidableEq, Repr

/-- A block (R369, R370, R378): page reads since its last erase but for canaries, the number of canary scans at that erase,
erase count, and whether it is marked for refresh. -/
structure Block where
  reads : Nat := 0
  scans : Nat := 0
  erases : Nat := 0
  refresh : Bool := false
  deriving DecidableEq, Repr

/-- A NAND die (R359, R366): reserve left, fenced. -/
structure Die where
  reserve : Nat := 96
  fenced : Bool := false
  deriving DecidableEq, Repr

/-- Storage statistics that are counters (R378). -/
structure StoreStats where
  factoryBad : Nat := 0
  grownBad : Nat := 0
  programmed : Nat := 0
  refreshes : Nat := 0
  relocations : Nat := 0
  reconstructed : Nat := 0
  mediaErrors : Nat := 0
  deriving DecidableEq, Repr

/-- One setting of a stored class, as the command that restores it (R377, R438): its opcode, inline arguments, argument block,
and, where it opens a window, the WINDOW_ID. -/
structure DefaultCmd where
  opcode : Nat
  inline : List Byte := []
  block : List Byte := []
  win : Option Nat := none
  deriving DecidableEq, Repr

/-- Storage: slots, owner objects by name, stored defaults by class, dies, blocks at 2816 die + block, stripes retired
(R365). -/
structure Store where
  slots : Map Slot := []
  objects : List (List Byte × List Byte) := []
  defaults : Map (List DefaultCmd) := []
  dies : Map Die := []
  blocks : Map Block := []
  retiredStripes : Nat := 0
  /-- Canary scans made (R369). -/
  canaries : Nat := 0
  /-- Slots of which a codeword read for a command was delivered poisoned (R363); 4096 is the owner store, 4097 and 4098 the vault copies in firmware regions A and B,
  and from 4099 on the copies of firmware target k in region r, at 4099 + 2 k + r. -/
  mediaBad : List Nat := []
  stats : StoreStats := {}
  deriving DecidableEq, Repr

/-- Life-cycle states, in the encoding of DEV_STATUS (R317, R387). -/
inductive Life where
  | blank
  | provisioned
  | owned
  | service
  | retired
  deriving DecidableEq, Repr

/-- LIFECYCLE code (R317, R387). -/
def Life.code : Life → Nat
  | .blank => 0
  | .provisioned => 1
  | .owned => 2
  | .service => 3
  | .retired => 4

/-- An owner signing key slot (R384, R395). -/
structure KeySlot where
  used : Bool := false
  kinds : Nat := 0
  parts : Nat := 0
  key : List Byte := []
  deriving DecidableEq, Repr

/-- A copy of a firmware target (R404): its SVN and digest. -/
structure FwCopy where
  svn : Nat := 0
  digest : List Byte := []
  deriving DecidableEq, Repr

/-- A firmware target (R404 to R406): SVN of the active copy, fused floor, digest of the active copy; the region that holds the
active copy (0 A, 1 B), and the other region's copy. -/
structure Target where
  svn : Nat := 0
  floor : Nat := 0
  digest : List Byte := []
  region : Nat := 0
  other : FwCopy := {}
  deriving DecidableEq, Repr

/-- A firmware update under way (R405): slot, target, SVN, digest, and its command. -/
structure Update where
  slot : Nat
  target : Nat
  svn : Nat
  digest : List Byte
  queue : Nat
  cmd : Nat
  deriving DecidableEq, Repr

/-- A rotation walk (R386), and the number of the key that it replaces, destroyed at its end. -/
structure Walk where
  cls : Nat
  part : Nat
  oldKey : Nat := 0
  deriving DecidableEq, Repr

/-- A log record (R426, R428), as queued: INSTANCE, EVENT, PARTITION, DATA and AUX. -/
structure LogRec where
  inst : Nat
  event : Nat
  part : Nat
  data : List Byte
  aux : Nat
  /-- The CP's counter when the event was posted. -/
  time : Nat
  /-- Lantern's counter on arrival at the queue (R428). -/
  stamp : Nat
  deriving DecidableEq, Repr

/-- A record in the log ring: its number, the dropped count it carries, and the record. -/
structure LogEnt where
  number : Nat
  dropped : Nat
  entry : LogRec
  /-- CHAIN (R426). -/
  chain : List Byte
  deriving DecidableEq, Repr

/-- Corrected errors of one instance under R427: whether one was logged, when, when the last summary went, and how many
wait for the next. -/
structure Gather where
  seen : Bool := false
  hour : Nat := 0
  minute : Nat := 0
  count : Nat := 0
  deriving DecidableEq, Repr

/-- The log (R381, R428, R430). -/
structure Log where
  queue : List LogRec := []
  dropped : Nat := 0
  totalDropped : Nat := 0
  ring : List LogEnt := []
  next : Nat := 0
  corrected : Map Nat := []
  uncorrectable : Map Nat := []
  /-- R427, at 65536 event + instance. -/
  gathers : Map Gather := []
  jobsPoisoned : Nat := 0
  jobsFenced : Nat := 0
  deriving DecidableEq, Repr

/-- Owner policy (R395). -/
structure Policy where
  cosign : Bool := false
  minSvn : List Nat := [0, 0, 0]
  deriving DecidableEq, Repr

/-- The debug port (R408). -/
structure Debug where
  unlocked : Nat := 0
  deriving DecidableEq, Repr

/-- The persistent secrets that the vault holds (R384, R385, R390): life cycle, a PENDING transition, the owner's keys and
policy, and the NAND region keys by number (0 the owner store, 1 to 16 the partitions' image slots, 17 the device's). -/
structure Secrets where
  life : Life := .provisioned
  pending : Option (Life × List Byte × Nat) := none
  root : List Byte := []
  keys : Map KeySlot := []
  policy : Policy := {}
  seq : Nat := 0
  storeKeys : Map Nat := []
  deriving DecidableEq, Repr

/-- A copy of the vault: its write generation and what it holds (R385). -/
structure VaultCopy where
  gen : Nat := 0
  secrets : Secrets := {}
  deriving DecidableEq, Repr

/-- Lantern. -/
structure Lantern where
  life : Life := .provisioned
  /-- A transition recorded as PENDING (R390): target, new root. -/
  pending : Option (Life × List Byte × Nat) := none
  lcCount : Nat := 0
  boots : Nat := 0
  restarts : Nat := 0
  romHold : Bool := false
  failedTests : Nat := 0
  monotonic : DWord := 0
  root : List Byte := []
  keys : Map KeySlot := []
  revokedFw : Nat := 0
  policy : Policy := {}
  seq : Nat := 0
  targets : Map Target := []
  update : Option Update := none
  /-- Units (0 Cupola, 1 Steeple, 2 to 17 the loops) still to take new microcode (R407). -/
  microcode : List Nat := []
  mrs : Map (List Byte) := []
  walks : List Walk := []
  log : Log := {}
  debugPort : Debug := {}
  nextKey : Nat := 1
  storeKeys : Map Nat := []
  /-- The vault's copies in firmware regions A and B (R385). -/
  vaultA : VaultCopy := {}
  vaultB : VaultCopy := {}
  deriving DecidableEq, Repr

/-- What the module as a whole is doing (R431 to R436). -/
inductive ModState where
  | off
  | held
  | m1
  | m2
  | starting
  | running
  deriving DecidableEq, Repr

/-- What the start under way follows (R436). -/
inductive StartCause where
  | por
  | mrst
  | m2
  | m1
  deriving DecidableEq, Repr

/-- The module's power and reset standing; fenced tiles and lost sequencers are permanent (R439). -/
structure Module where
  state : ModState := .starting
  cause : StartCause := .por
  /-- Lantern's counter at the ends of M1 within the last hour, and whether M1 now holds until MRST_N or POR (R435). -/
  m1Exits : List Nat := []
  m1Held : Bool := false
  /-- MRST_N stands asserted (R433). -/
  mrst : Bool := false
  wake : Bool := false
  alert : Bool := false
  fencedTiles : List Nat := []
  /-- The levels at SLOT_ID0 (bit 0) and SLOT_ID1 (bit 1), a pin left open reading 1, and what was last sampled of them (R457). -/
  slotPins : Nat := 3
  slotId : Nat := 3
  lostSequencers : List Nat := []
  cpRestarts : Nat := 0
  deriving DecidableEq, Repr

/-- An arbiter (R234 to R239): programmed word if changed, wait counts and promotions by requester, the requester last
granted in each class, ranking in rotating mode, and masked requesters. -/
structure Arbiter where
  word : Option Word := none
  waits : Map Nat := []
  promo : Map Nat := []
  last : Map Nat := []
  rank : List Nat := []
  masked : List Nat := []
  /-- Requester whose grant is under way, and one whose grant the emergency requester has interrupted. -/
  holder : Option Nat := none
  interrupted : Option Nat := none
  deriving DecidableEq, Repr

/-- Local times and the model's own counters (log entries 4 and 5). -/
structure Clocks where
  /-- The CP's 1 µs counter (R17). -/
  cp : Nat := 0
  /-- Free values taken so far. -/
  free : Nat := 0
  /-- Next identifier of a write, read or post. -/
  nextId : Nat := 0
  deriving DecidableEq, Repr

end Sys2Proof.Machine
end

