-- ==== Sys2Proof/Machine/State.lean ====
section
/-! DEFINITION. The state of the block, its reset, its faults and refusals. -/

namespace Sys2Proof.Machine

/-- The state of the module. Tables are keyed by the spec's own numbers: partitions, engines, tiles, banks, ports. -/
structure State where
  /-- Commands waiting, first in, first out (the model's own field). -/
  pending : List Instr := []
  /-- What the block has sent out, oldest first (the model's own field). -/
  out : List Output := []
  clk : Clocks := {}
  module : Module := {}
  host : HostIf := {}
  parts : Map Part := []
  /-- Engine map (R223): engine to tile plus one where it differs from the shipped binding; 0 there, 69 for no tile. -/
  engineMap : Map Nat := []
  /-- Token counters (R121): an engine's at 512 engine + counter, a partition's shared ones at
  32768 + 512 partition + counter. -/
  tok : Map Word := []
  /-- Poisoned token counters, numbered as those (R414). -/
  tokBad : Map Bool := []
  tiles : Map Tile := []
  sp : Scratch := {}
  fab : Fabric := {}
  ddr : Ddr := {}
  huv : Huveip := {}
  stem : List StemCmd := []
  cup : Cupola := {}
  stp : Steeple := {}
  cmp : Campanile := {}
  pwr : Power := {}
  store : Store := {}
  lan : Lantern := {}
  /-- Arbiters at 65536 type + instance (R237). -/
  arbs : Map Arbiter := []
  deriving DecidableEq, Repr

/-- Why the machine stops. No command of this block stops it. -/
inductive Fault where
  /-- Raised by nothing: kept so that the type has a name to give (safe). -/
  | none
  deriving DecidableEq, Repr

/-- Why a command has no meaning. -/
inductive Refusal where
  /-- Raised by an arm of `exec` whose command has no meaning yet (safe). -/
  | notModelled (mnemonic : String)
  /-- Raised by a slot command whose operand word does not carry the opcode of its row: the operands spell another
  command, or none (safe). -/
  | malformedCommand (mnemonic : String)
  deriving DecidableEq, Repr

/-- The spare banks at shipment (R22). -/
def spareBanks : List Nat :=
  (List.range 8).map (128 + ·) ++ (List.range 8).map (264 + ·) ++ (List.range 8).map (400 + ·) ++ (List.range 8).map (536 + ·)

/-- The banks at shipment: 512 in service, the 32 of R22 spare. -/
def shippedBanks : Map Bank := spareBanks.map (fun b => (b, { state := .spare }))

/-- The state right after reset: POR of a module as shipped, its start about to run (R431, R436, R440). -/
def State.reset : State := { sp := { banks := shippedBanks } }

end Sys2Proof.Machine
end

