-- ==== Sys2Proof/Machine/Ops.lean ====
section
/-! DEFINITION. The named operations over the state that every family shares: table accessors, free values, the
outputs, notices, the event log, token counters, region addressing and scratchpad lines. -/

namespace Sys2Proof.Machine

/-- What a meaning answers. -/
abbrev Res := Host.Outcome State Fault Refusal

/-- Partition `p`. -/
def State.part (s : State) (p : Nat) : Part := Map.get {} s.parts p
def State.setPart (s : State) (p : Nat) (v : Part) : State := { s with parts := Map.set {} s.parts p v }
def State.modPart (s : State) (p : Nat) (f : Part → Part) : State := s.setPart p (f (s.part p))

/-- Tile `t`. -/
def State.tile (s : State) (t : Nat) : Tile := Map.get {} s.tiles t
def State.setTile (s : State) (t : Nat) (v : Tile) : State := { s with tiles := Map.set {} s.tiles t v }

/-- Context `c` of partition `p`. -/
def State.ctx (s : State) (p c : Nat) : Ctx := Map.get {} (s.part p).ctxs c
def State.setCtx (s : State) (p c : Nat) (v : Ctx) : State :=
  s.modPart p fun q => { q with ctxs := Map.set {} q.ctxs c v }
def State.modCtx (s : State) (p c : Nat) (f : Ctx → Ctx) : State := s.setCtx p c (f (s.ctx p c))

/-- Lane `l` of the resident stream of partition `p`: 0 to 63 an engine lane, 255 the shared lane. -/
def State.lane (s : State) (p l : Nat) : Lane := Map.get {} (s.part p).lanes l
def State.setLane (s : State) (p l : Nat) (v : Lane) : State :=
  s.modPart p fun q => { q with lanes := Map.set {} q.lanes l v }
def State.modLane (s : State) (p l : Nat) (f : Lane → Lane) : State := s.setLane p l (f (s.lane p l))

/-- Queue `q`. -/
def State.queue (s : State) (q : Nat) : Queue := Map.get {} s.host.queues q
def State.setQueue (s : State) (q : Nat) (v : Queue) : State :=
  { s with host := { s.host with queues := Map.set {} s.host.queues q v } }

/-- Window ID `w`. -/
def State.win (s : State) (w : Nat) : Win := Map.get {} s.fab.wins w
def State.setWin (s : State) (w : Nat) (v : Win) : State :=
  { s with fab := { s.fab with wins := Map.set {} s.fab.wins w v } }

/-- Bank `b`. -/
def State.bank (s : State) (b : Nat) : Bank := Map.get {} s.sp.banks b
def State.setBank (s : State) (b : Nat) (v : Bank) : State :=
  { s with sp := { s.sp with banks := Map.set {} s.sp.banks b v } }

/-- Huveip port `h`. -/
def State.port (s : State) (h : Nat) : Port := Map.get {} s.huv.ports h
def State.setPort (s : State) (h : Nat) (v : Port) : State :=
  { s with huv := { s.huv with ports := Map.set {} s.huv.ports h v } }

/-- The next `n` free values are taken: the index of the first, and the state that has passed them. -/
def State.take (s : State) (n : Nat) : Nat × State :=
  (s.clk.free, { s with clk := { s.clk with free := s.clk.free + n } })

/-- A fresh identifier of a write, read or post. -/
def State.newId (s : State) : Nat × State :=
  (s.clk.nextId, { s with clk := { s.clk with nextId := s.clk.nextId + 1 } })

/-- An output leaves the block. -/
def State.emit (s : State) (o : Output) : State := { s with out := s.out ++ [o] }

/-- CP_TIME (R17). -/
def State.now (s : State) : Nat := s.clk.cp

/-- Events that count as uncorrectable errors in their domain (R410, R426, R430). -/
def eventUncorrectable (event : Nat) : Bool :=
  [0x0102, 0x0103, 0x0204, 0x0302, 0x0402, 0x0503, 0x0804, 0x0901, 0x0A01].contains event

/-- Something posts a record to Lantern's 64 KiB queue of 128-byte records; a full queue counts and drops (R381). The high
byte of EVENT is the domain. -/
def State.log (s : State) (inst event part : Nat) (data : List Byte) (aux : Nat := 0) : State :=
  let g := s.lan.log
  let r : LogRec := ⟨inst, event, part, data, aux, s.now, s.lan.monotonic.toNat⟩
  let g1 := if g.queue.length < 512 then { g with queue := g.queue ++ [r] }
            else { g with dropped := satAdd 0xFFFFFFFF g.dropped 1, totalDropped := g.totalDropped + 1 }
  let bad := if eventUncorrectable event then Map.modify 0 g.uncorrectable (event / 256) (satAdd 0xFFFFFFFF 1) else g.uncorrectable
  { s with lan := { s.lan with log := { g1 with uncorrectable := bad } } }

/-- A corrected error of an instance (R410, R427): counted in its domain; the first within an hour is logged at once, later
ones at most once a minute with their number. -/
def State.logCorrected (s : State) (inst event part : Nat) (data : Nat → List Byte) : State :=
  let g := s.lan.log
  let k := 65536 * event + inst
  let x := Map.get {} g.gathers k
  let fresh := !x.seen || decide (x.hour + 3600000000 ≤ s.now)
  let due := fresh || decide (x.minute + 60000000 ≤ s.now)
  let y : Gather :=
    { seen := true
      hour := if fresh then s.now else x.hour
      minute := if due then s.now else x.minute
      count := if due then 0 else x.count + 1 }
  let g1 := { g with
    corrected := Map.modify 0 g.corrected (event / 256) (satAdd 0xFFFFFFFF 1)
    gathers := Map.set {} g.gathers k y }
  let s1 := { s with lan := { s.lan with log := g1 } }
  if due then s1.log inst event part (data (if fresh then 1 else x.count + 1)) else s1

/-- Notice ring occupancy and posting (R322): a notice never waits; a full ring drops it and the next carries the
count. Vector 0 is the ring's (R321). -/
def State.notice (s : State) (ty part : Nat) (data : List Byte) : State :=
  let r := s.host.notices
  let n := s.host.bar.noticeSize
  if !s.host.bar.adminUp then s
  else if n ≤ r.count then
    { s with host := { s.host with notices := { r with dropped := satAdd 0xFFFF r.dropped 1 } } }
  else
    let s1 := { s with host := { s.host with notices :=
      { r with tail := (r.tail + 1) % n, count := r.count + 1, dropped := 0, phase := if r.tail + 1 = n then !r.phase else r.phase } } }
    let s2 := s1.emit (.notice ty part (fit 0 16 data) s.now r.dropped r.phase)
    if Map.get true s.host.bar.msixMasked 0 then
      { s2 with host := { s2.host with bar := { s2.host.bar with pba := Map.set false s2.host.bar.pba 0 true } } }
    else s2.emit (.msix 0)

/-! ### Local counters (R17) -/

/-- Whether the base dies' clocks run. -/
def State.clocked (s : State) : Bool := s.module.state == .running || s.module.state == .starting

/-- What passes while no command waits (log entry 3): 1 µs on the CP's counter and open numbers of cycles on Cupola's and
Campanile's while the base dies run, and on Lantern's of R381 while the module has power. No two of them stand in a fixed
relation (R17, R28). -/
def State.tick (s : State) : State :=
  let (k, s1) := s.take 3
  let open_ := fun i => BitVec.ofNat 64 (Config.freeNat (k + i))
  let t := if s.clocked then { s1 with
      clk := { s1.clk with cp := s1.clk.cp + 1 }
      cup := { s1.cup with cycles := s1.cup.cycles + open_ 0 }
      cmp := { s1.cmp with cycles := s1.cmp.cycles + open_ 1 } }
    else s1
  if s.module.state = .off then t else { t with lan := { t.lan with monotonic := t.lan.monotonic + open_ 2 } }

/-- An event of Campanile's domain at a count of CYCLES (R294): the counter has come to it, and never goes back; the instant
is what the counter then holds. -/
def State.atCycles (s : State) (cycles : Nat) : Nat × State :=
  let t := max s.cmp.cycles.toNat (cycles % 2 ^ 64)
  (t, { s with cmp := { s.cmp with cycles := BitVec.ofNat 64 t } })

/-! ### Engines and tiles (R223) -/

/-- The tile an engine is bound to; 69 and above mean none. -/
def State.tileOf (s : State) (e : Nat) : Nat :=
  match Map.get 0 s.engineMap e with
  | 0 => 17 * (e / 16) + e % 16
  | k + 1 => k

/-- Whether engine `e` has a tile (R224). -/
def State.hasTile (s : State) (e : Nat) : Bool := s.tileOf e < 68

/-- The engines of a partition, in ascending number: engine lane i drives the i-th (R63). -/
def PartCfg.engines (c : PartCfg) : List Nat := bitList c.engineMask 64

/-- The engine a lane of partition `p` drives. -/
def State.engineOf (s : State) (p l : Nat) : Nat := nth 64 (s.part p).cfg.engines l

/-- The tile a lane of partition `p` drives. -/
def State.laneTile (s : State) (p l : Nat) : Nat := s.tileOf (s.engineOf p l)

/-- The engine that a tile carries, if any. -/
def State.engineOn (s : State) (t : Nat) : Option Nat := (List.range 64).find? (fun e => s.tileOf e == t)

/-- The tile's compute die and base die (R20, R21). -/
def dieOf (t : Nat) : Nat := t / 17
def baseOfBank (b : Nat) : Nat := if b < 272 then 0 else 1
def baseOfDie (d : Nat) : Nat := d / 2

/-- Distance class of a bank from a tile (R96). -/
def distance (t b : Nat) : Nat :=
  let g := b / 8
  if g = t then 0 else if dieOf g = dieOf t then 1 else if baseOfDie (dieOf g) = baseOfDie (dieOf t) then 2 else 3

/-! ### Token counters (R121, R122) -/

/-- The number of the counter a write or wait names: an engine's, or the partition's shared one. -/
def State.tokKey (s : State) (p lane c : Nat) : Nat :=
  if lane = 255 then 32768 + 512 * p + c else 512 * s.engineOf p lane + c

/-- A counter's value. -/
def State.counter (s : State) (p lane c : Nat) : Word := Map.get 0 s.tok (s.tokKey p lane c)

def State.setCounter (s : State) (p lane c : Nat) (v : Word) : State :=
  { s with tok := Map.set 0 s.tok (s.tokKey p lane c) v }

/-- An increment adds and saturates at 0xFFFF_FFFF. -/
def incWord (v : Word) (amt : Nat) : Word := BitVec.ofNat 32 (min 0xFFFFFFFF (v.toNat + amt))

/-- The context on the engines. -/
def Part.running (q : Part) : Option Nat :=
  (List.range 8).find? fun c =>
    let k := Map.get {} q.ctxs c
    k.state == .running || k.state == .stopping

/-- The context whose run of counters holds counter `c` of a lane (R72). -/
def Part.counterOwner (q : Part) (lane c : Nat) : Option Nat :=
  (List.range 8).find? fun k =>
    let x := Map.get {} q.ctxs k
    match x.image with
    | none => false
    | some im =>
      if lane = 255 then decide (x.shBase ≤ c) && decide (c < x.shBase + im.needs.sharedTokens)
      else decide (x.engBase ≤ c) && decide (c < x.engBase + im.needs.engineTokens)

/-- An increment is applied at a counter; a saturation is recorded once per job, in the job of the context whose run the
counter belongs to (R121). -/
def State.increment (s : State) (p lane c amt : Nat) : State :=
  let v := s.counter p lane c
  let s1 := s.setCounter p lane c (incWord v amt)
  if 0xFFFFFFFF < v.toNat + amt then
    match (s.part p).counterOwner lane c with
    | some k => s1.modCtx p k fun x => { x with job := x.job.map fun j => { j with tokenSat := true } }
    | none => s1
  else s1

/-! ### Regions and scratchpad lines (R89, R93, R94, R97) -/

/-- A region's size in bytes. -/
def Region.size (r : Region) : Nat := r.banks.length * 524288

/-- Region `i` of a partition. -/
def Part.region (q : Part) (i : Nat) : Region := Map.get {} q.regions i

/-- Near placement (R93): the bank and the byte within it. -/
def nearAt (r : Region) (off : Nat) : Nat × Nat :=
  let w := r.nearWidth
  let seg := off / (w * 524288)
  let loff := off % (w * 524288)
  let line := loff / 64
  (nth 0 r.banks (seg * w + line % w), (line / w) * 64 + off % 64)

/-- Spread placement (R94), on unsigned 32-bit values that wrap. -/
def spreadAt (r : Region) (off : Nat) : Nat × Nat :=
  let n := r.banks.length
  let line := off / 64
  let row := line / n
  let col := line % n
  let h := (Nat.xor row r.seed * 0x9E3779B1) % 2 ^ 32
  let h := Nat.xor h (h / 2 ^ 15)
  (nth 0 r.banks (((col + h) % 2 ^ 32) % n), row * 64 + off % 64)

/-- The bank and byte of a region's byte. -/
def Region.place (r : Region) (off : Nat) : Nat × Nat := if r.mode = 0 then nearAt r off else spreadAt r off

/-- Whether the `n` bytes from a partition scratchpad address lie within one defined region (R89). -/
def Part.inRegion (q : Part) (addr : Nat) (n : Nat) : Bool :=
  let r := q.region (bits addr 31 28)
  decide (addr < 2 ^ 32) && r.defined && decide (addr % 2 ^ 28 + n ≤ r.size)

/-- The line number (8192 bank + line) of a partition address, and the bank. -/
def Part.line (q : Part) (addr : Nat) : Nat :=
  let (b, at_) := (q.region (bits addr 31 28)).place (addr % 2 ^ 28)
  8192 * b + at_ / 64

/-- Whether reads of the line give poison: the line is poisoned, or its bank is fenced (R107). -/
def State.linePoison (s : State) (ln : Nat) : Bool :=
  Map.get false s.sp.poison ln || (s.bank (ln / 8192)).state == .fenced

/-- The 64 bytes of a line. -/
def State.readLine (s : State) (ln : Nat) : List Byte := Map.getList 0 s.sp.mem (64 * ln) 64

/-- Bytes are written within a line from offset `o`: a whole-line write sets its poison to the data's, a partial one
leaves a poisoned line poisoned (R97, R411); writes to a fenced bank are discarded (R107). -/
def State.writeLine (s : State) (ln o : Nat) (b : List Byte) (poison : Bool) : State :=
  if (s.bank (ln / 8192)).state == .fenced then s
  else
    let p := if b.length = 64 then poison else poison || Map.get false s.sp.poison ln
    { s with sp := { s.sp with
        mem := Map.setList 0 s.sp.mem (64 * ln + o) b
        poison := Map.set false s.sp.poison ln p } }

/-- The byte at a partition scratchpad address: the model's read of one byte. -/
def State.readByte (s : State) (p addr : Nat) : Byte :=
  nth 0 (s.readLine ((s.part p).line addr)) (addr % 64)

/-- The `n` bytes at a partition scratchpad address. -/
def State.readBytes (s : State) (p addr : Nat) : Nat → List Byte
  | 0 => []
  | n + 1 => s.readByte p addr :: s.readBytes p (addr + 1) n

/-- `n` whole lines from a 64-byte aligned address: their bytes and poison. -/
def State.readLines (s : State) (p addr : Nat) : Nat → List (List Byte × Bool)
  | 0 => []
  | n + 1 =>
    let ln := (s.part p).line addr
    (s.readLine ln, s.linePoison ln) :: s.readLines p (addr + 64) n

/-- Whether any line the `n` bytes from `addr` touch is poisoned. -/
def State.anyPoison (s : State) (p addr n : Nat) : Bool :=
  (List.range (ceilDiv (addr % 64 + n) 64)).any fun i => s.linePoison ((s.part p).line (addr / 64 * 64 + 64 * i))

/-- Bytes written at a partition address, line by line; `fuel` bounds the lines. -/
def State.writeBytesFuel : Nat → State → Nat → Nat → List Byte → Bool → State
  | 0, s, _, _, _, _ => s
  | _ + 1, s, _, _, [], _ => s
  | k + 1, s, p, addr, b, poison =>
    let room := 64 - addr % 64
    let s1 := s.writeLine ((s.part p).line addr) (addr % 64) (b.take room) poison
    State.writeBytesFuel k s1 p (addr + room) (b.drop room) poison

/-- Bytes written at a partition scratchpad address. -/
def State.writeBytes (s : State) (p addr : Nat) (b : List Byte) (poison : Bool := false) : State :=
  State.writeBytesFuel (b.length / 64 + 2) s p addr b poison

/-- A line written at an aligned partition address; what lies outside the partition's regions is no line, and no write to it
takes place (R89). -/
def State.writeAt (s : State) (p addr : Nat) (b : List Byte) (poison : Bool) : State :=
  if (s.part p).inRegion addr 64 then s.writeLine ((s.part p).line addr) 0 b poison else s

/-- Whole lines with their poison, written from a 64-byte aligned address. -/
def State.writeLines (s : State) (p addr : Nat) : List (List Byte × Bool) → State
  | [] => s
  | (b, poison) :: rest => (s.writeAt p addr b poison).writeLines p (addr + 64) rest

/-- A bank zero-filled, its poison cleared; open gather entries of its lines have issued ahead of the fill (R92, R99, R103). -/
def State.zeroBank (s : State) (b : Nat) : State :=
  { s with sp := { s.sp with
      mem := Map.eraseRange s.sp.mem (524288 * b) (524288 * (b + 1))
      poison := Map.eraseRange s.sp.poison (8192 * b) (8192 * (b + 1))
      gather := s.sp.gather.map fun e => (e.1, e.2.filter fun g => g.line / 8192 != b) } }

/-- Every bank of a list zero-filled. -/
def State.zeroBanks (s : State) (bs : List Nat) : State := bs.foldl State.zeroBank s

/-- The poison mark of the job resident in partition `p` is set (R414). -/
def State.markPoison (s : State) (p : Nat) : State :=
  match (s.part p).running with
  | some k => s.modCtx p k fun x => { x with job := x.job.map fun j => { j with poisonMark := true } }
  | none => s

end Sys2Proof.Machine
end

