-- ==== Sys2Proof/Machine/DdrLines.lean ====
section
/-! DEFINITION. DDR5 as the partitions see it: lines, poison, fences (R149 to R156, R419, R474). Lines are numbered by
partition space: 2^38 partition + address / 64, the data areas below offset 2^40, the KV pages from 2^41, the model areas
from 2^43 (log entry 28); the reserved gigabyte's from 2^42 (log entry 171). -/

namespace Sys2Proof.Machine

/-- The number of the line at address `a` of partition `p`'s DDR5 space. -/
def ddrLine (p a : Nat) : Nat := (2 ^ 44 * p + a) / 64

/-- The line at offset `off` of the model area of staged model `k` (R165). -/
def modelLine (p k off : Nat) : Nat := ddrLine p (2 ^ 43 + 2 ^ 37 * k + off)

/-- The first line of the reserved area. -/
def reservedLine : Nat := 2 ^ 42

/-- The physical address of a line: the segment that the CP's table gives the line's 64 MiB is left open (R151); the reserved
area stands above the 2,032 segments. -/
def physOf (line : Nat) : Nat :=
  let a := line * 64
  if reservedLine ≤ line then 2032 * 2 ^ 26 + (a - 64 * reservedLine) % 2 ^ 30
  else (Config.unitValue 16 (a / 2 ^ 26)) % 2032 * 2 ^ 26 + a % 2 ^ 26

/-- The sub-channel of a line (R152). -/
def subOf (line : Nat) : Nat :=
  let l := physOf line / 64
  Nat.xor (Nat.xor (l % 8) (l / 2 ^ 9 % 8)) (Nat.xor (l / 2 ^ 18 % 8) (l / 2 ^ 27 % 8))

/-- Whether the line lies in a fenced page or sub-channel: reads are poisoned and writes discarded (R156, R419). -/
def State.ddrFenced (s : State) (line : Nat) : Bool :=
  (Map.get {} s.ddr.pages (line / 64)).fenced || s.ddr.subs.any fun e => e.2.fenced && subOf line == e.1

/-- Whether reads of a line are poisoned. -/
def State.ddrBad (s : State) (line : Nat) : Bool := Map.get false s.ddr.poison line || s.ddrFenced line

/-- A line's bytes: what the partition wrote since its key pair was created, or an unspecified value (R154). -/
def State.ddrRead (s : State) (line : Nat) : List Byte :=
  (List.range 64).map fun i => match Map.get none s.ddr.mem (64 * line + i) with
    | some b => b
    | none => Config.ddrUnwritten (Map.get 0 s.ddr.keyGen (line / 2 ^ 38)) (64 * line + i)

/-- A whole line is written with its poison. -/
def State.ddrWrite (s : State) (line : Nat) (b : List Byte) (poison : Bool) : State :=
  if s.ddrFenced line then s
  else { s with ddr := { s.ddr with
    mem := Map.setList none s.ddr.mem (64 * line) ((fit 0 64 b).map some)
    poison := Map.set false s.ddr.poison line poison } }

/-- Consecutive lines from `line` on are written. -/
def State.ddrFill (s : State) (line : Nat) (b : List Byte) : State :=
  (List.range (ceilDiv b.length 64)).foldl (fun (t : State) (i : Nat) => t.ddrWrite (line + i) (slice b (64 * i) 64) false) s

/-- Bytes `off` to `off + n` of what stands from `line` on. -/
def State.ddrBytes (s : State) (line off n : Nat) : List Byte :=
  slice ((List.range (ceilDiv (off % 64 + n) 64)).flatMap fun i => s.ddrRead (line + off / 64 + i)) (off % 64) n

/-- Whether a line that holds bytes `off` to `off + n` of what stands from `line` on is poisoned. -/
def State.ddrAnyBad (s : State) (line off n : Nat) : Bool :=
  (List.range (ceilDiv (off % 64 + n) 64)).any fun i => s.ddrBad (line + off / 64 + i)

/-! ### The CP's own records (R420) -/

/-- A record that the CP keeps in the reserved area: an entry of a sequence's page table, a context's save, a partition's
model-cache directory, a held completion of a queue. -/
inductive CpRecord where
  | pageEntry (p seq key : Nat)
  | contextSave (p c : Nat)
  | cacheDir (p : Nat)
  | held (q no : Nat)
  deriving DecidableEq, Repr

/-- The record's number among all records. -/
def cpRecordNo : CpRecord → Nat
  | .pageEntry p q k => 4 * ((k * 4096 + q) * 16 + p)
  | .contextSave p c => 4 * (8 * p + c) + 1
  | .cacheDir p => 4 * p + 2
  | .held q n => 4 * (64 * n + q) + 3

/-- The line of the reserved area that holds a record: its place there is open (log entry 171). -/
def cpRecordLine (r : CpRecord) : Nat := reservedLine + Config.unitValue 31 (cpRecordNo r) % 2 ^ 24

/-- Whether a record reads back poisoned. -/
def State.recBad (s : State) (r : CpRecord) : Bool := s.ddrBad (cpRecordLine r)

/-- A record is lost: it reads back poisoned from now on. -/
def State.recPoison (s : State) (r : CpRecord) : State :=
  { s with ddr := { s.ddr with poison := Map.set false s.ddr.poison (cpRecordLine r) true } }

/-- The CP writes a record anew: its line is sound. -/
def State.recWrite (s : State) (r : CpRecord) : State :=
  if s.ddrFenced (cpRecordLine r) then s
  else { s with ddr := { s.ddr with poison := Map.set false s.ddr.poison (cpRecordLine r) false } }

end Sys2Proof.Machine
end

