-- ==== Sys2Proof/Machine/Complete.lean ====
section
/-! DEFINITION. Finishing a command (R320, R325): its status, reason, result and time are recorded at its own place
in its queue; COMPLETION_POST posts them in order. -/

namespace Sys2Proof.Machine

/-- Commands with number `no` of a queue changed by `f`. -/
def Queue.modCmd (q : Queue) (no : Nat) (f : Cmd → Cmd) : Queue :=
  { q with cmds := q.cmds.map fun c => if c.no = no then f c else c }

/-- Command number `no` of queue `q`. -/
def State.cmd (s : State) (q no : Nat) : Option Cmd := (s.queue q).cmds.find? (·.no == no)

def State.modCmd (s : State) (q no : Nat) (f : Cmd → Cmd) : State := s.setQueue q ((s.queue q).modCmd no f)

/-- While no session is attached, a completion is held in the reserved area (R324 step 3). -/
def State.holdRecord (s : State) (q no : Nat) : State :=
  if s.host.session.isNone then s.recWrite (.held q no) else s

/-- A command finishes inside the device (R320). -/
def State.finish (s : State) (q no status reason result aux : Nat) : State :=
  (s.modCmd q no fun c =>
    { c with phase := .done, status := status, reason := reason, result := result, aux := aux, time := s.now }).holdRecord q no

/-- A waiting command finishes with ST_OK and a result. -/
def State.finishOk (s : State) (q no : Nat) (result : Nat := 0) : State := s.finish q no stOk 0 result 0

/-- Each of the commands listed finishes with ST_OK and a result. -/
def State.finishAll (s : State) (l : List (Nat × Nat)) (result : Nat) : State :=
  l.foldl (fun t c => t.finishOk c.1 c.2 result) s

/-- A command that waits for the context to be SAVED or for its job to end finishes. -/
def Cmd.release (x : Cmd) (p c status time : Nat) : Cmd :=
  if x.await == some (p, c) && x.phase == .running then
    { x with phase := .done, status := status, time := time, await := none }
  else x

/-- Commands that wait for a context to be SAVED or for its job to end (job.preempt, R330) finish. -/
def State.finishAwait (s : State) (p c status : Nat) : State :=
  (s.host.queues.map Prod.fst).foldl (fun t q =>
    let l := (t.queue q).cmds.filter fun x => x.await == some (p, c) && x.phase == .running
    let cs := (t.queue q).cmds.map fun x => x.release p c status t.now
    l.foldl (fun (u : State) x => u.holdRecord q x.no) (t.setQueue q { t.queue q with cmds := cs })) s

/-- Data that a command returns are written to host memory before its completion is posted (R316), while the endpoint
serves a session. -/
def State.hostWrite (s : State) (addr : Nat) (b : List Byte) : State :=
  if s.host.bar.adminUp then s.emit (.hostWrite addr b) else s

end Sys2Proof.Machine
end

