-- ==== Sys2Proof/Machine/Crypto.lean ====
section
/-! DEFINITION. The published algorithms that the spec names: the CRCs of R128 and R169, SHAKE256 (FIPS 202; R165, R380 and
others), KMAC128 (SP 800-185; R207), AES-256 in Galois/Counter Mode (FIPS 197, SP 800-38D; R132, R218). Log entry 12. -/

namespace Sys2Proof.Machine

/-! ### CRCs, bits reflected -/

/-- One byte into a reflected CRC of polynomial `poly`, bit by bit; `fuel` is the bits left. -/
def crcBits (poly : Nat) : Nat → Nat → Nat
  | 0, c => c
  | n + 1, c => crcBits poly n (if c % 2 = 1 then Nat.xor (c / 2) poly else c / 2)

/-- A reflected 32-bit CRC of bytes, of all ones at the start and inverted at the end. -/
def crcOf (poly : Nat) (b : List Byte) : Nat :=
  Nat.xor 0xFFFFFFFF (b.foldl (fun c x => crcBits poly 8 (Nat.xor c x.toNat)) 0xFFFFFFFF)

/-- CRC-32C (Castagnoli). -/
def crc32c (b : List Byte) : Nat := crcOf 0x82F63B78 b

/-- CRC-32 of IEEE 802.3: the polynomial 0x04C11DB7 of R128, bits reflected. -/
def crc32 (b : List Byte) : Nat := crcOf 0xEDB88320 b

/-! ### Keccak -/

/-- The rotation offsets of step rho, lane x + 5 y. -/
def keccakRot : List Nat := [0, 1, 62, 28, 27, 36, 44, 6, 55, 20, 3, 10, 43, 25, 39, 41, 45, 15, 21, 8, 18, 2, 61, 56, 14]

/-- The constants of step iota. -/
def keccakRc : List DWord :=
  [0x0000000000000001, 0x0000000000008082, 0x800000000000808A, 0x8000000080008000, 0x000000000000808B, 0x0000000080000001,
   0x8000000080008081, 0x8000000000008009, 0x000000000000008A, 0x0000000000000088, 0x0000000080008009, 0x000000008000000A,
   0x000000008000808B, 0x800000000000008B, 0x8000000000008089, 0x8000000000008003, 0x8000000000008002, 0x8000000000000080,
   0x000000000000800A, 0x800000008000000A, 0x8000000080008081, 0x8000000000008080, 0x0000000080000001, 0x8000000080008008]

/-- One round on the 25 lanes. -/
def keccakRound (a : List DWord) (rc : DWord) : List DWord :=
  let at_ := fun (l : List DWord) (x y : Nat) => nth 0 l (x % 5 + 5 * (y % 5))
  let c := (List.range 5).map fun x => at_ a x 0 ^^^ at_ a x 1 ^^^ at_ a x 2 ^^^ at_ a x 3 ^^^ at_ a x 4
  let d := (List.range 5).map fun x => nth 0 c ((x + 4) % 5) ^^^ (nth 0 c ((x + 1) % 5)).rotateLeft 1
  let t := (List.range 25).map fun i => nth 0 a i ^^^ nth 0 d (i % 5)
  let b := (List.range 25).map fun i =>
    let j := (i % 5 + 3 * (i / 5)) % 5 + 5 * (i % 5)
    (nth 0 t j).rotateLeft (nth 0 keccakRot j)
  let e := (List.range 25).map fun i =>
    let x := i % 5
    let y := i / 5
    nth 0 b i ^^^ (~~~at_ b (x + 1) y &&& at_ b (x + 2) y)
  match e with
  | [] => []
  | z :: zs => (z ^^^ rc) :: zs

/-- Keccak-f[1600]. -/
@[irreducible] def keccakF (a : List DWord) : List DWord := keccakRc.foldl keccakRound a

/-- The lanes that a block of bytes spells, the rest 0. -/
def lanesOf (b : List Byte) : List DWord := (List.range 25).map fun i => BitVec.ofNat 64 (u64 b (8 * i))

/-- Blocks of `rate` bytes are absorbed; `fuel` bounds them. -/
def absorb (rate : Nat) : Nat → List DWord → List Byte → List DWord
  | 0, a, _ => a
  | fuel + 1, a, b =>
    if b.isEmpty then a
    else absorb rate fuel (keccakF ((a.zip (lanesOf (b.take rate))).map fun e => e.1 ^^^ e.2)) (b.drop rate)

/-- Output blocks are squeezed; `fuel` bounds them. -/
def squeeze (rate : Nat) : Nat → List DWord → List Byte
  | 0, _ => []
  | fuel + 1, a => (a.flatMap fun w => leBytes 8 w.toNat).take rate ++ squeeze rate fuel (keccakF a)

/-- The sponge of `rate` bytes with the domain byte `ds`: `n` bytes of output. -/
def sponge (rate ds n : Nat) (b : List Byte) : List Byte :=
  let pad := rate - b.length % rate
  let tail := if pad = 1 then [BitVec.ofNat 8 (ds + 0x80)] else BitVec.ofNat 8 ds :: (zeros (pad - 2) ++ [0x80])
  fit 0 n (squeeze rate (ceilDiv n rate) (absorb rate (b.length / rate + 1) (List.replicate 25 0) (b ++ tail)))

/-- SHAKE256: `n` bytes. -/
def shake256 (n : Nat) (b : List Byte) : List Byte := sponge 136 0x1F n b

/-- A number in big-endian bytes, one at least; `fuel` bounds them. -/
def beBytes : Nat → Nat → List Byte
  | 0, _ => []
  | fuel + 1, n => if n < 256 then [BitVec.ofNat 8 n] else beBytes fuel (n / 256) ++ [BitVec.ofNat 8 n]

def leftEncode (n : Nat) : List Byte := BitVec.ofNat 8 (beBytes 8 n).length :: beBytes 8 n
def rightEncode (n : Nat) : List Byte := beBytes 8 n ++ [BitVec.ofNat 8 (beBytes 8 n).length]
def encodeString (b : List Byte) : List Byte := leftEncode (8 * b.length) ++ b
def bytepad (w : Nat) (b : List Byte) : List Byte :=
  let x := leftEncode w ++ b
  x ++ zeros (roundUp w x.length - x.length)

/-- KMAC128 of a message under a key and a customization string: `n` bytes. -/
def kmac128 (n : Nat) (key s msg : List Byte) : List Byte :=
  sponge 168 0x04 n (bytepad 168 (encodeString [0x4B, 0x4D, 0x41, 0x43] ++ encodeString s) ++ bytepad 168 (encodeString key) ++
    msg ++ rightEncode (8 * n))

/-! ### AES-256 -/

/-- The 32 bytes of a key, and the `n` bytes of its salt. -/
def keyBytes (k : Nat) : List Byte := (List.range 32).map (Config.keyByte k)
def keySalt (k n : Nat) : List Byte := (List.range n).map fun i => Config.keyByte k (32 + i)

/-- Multiplication by x in the field of AES. -/
def xtime (a : Nat) : Nat := if a < 128 then 2 * a else Nat.xor (2 * a - 256) 0x1B

/-- Multiplication in that field; `fuel` is the bits of `b` left. -/
def gfMul : Nat → Nat → Nat → Nat
  | 0, _, _ => 0
  | fuel + 1, a, b => Nat.xor (if b % 2 = 1 then a else 0) (gfMul fuel (xtime a) (b / 2))

/-- The inverse in that field: the power 254; 0 of 0. -/
def gfInv (a : Nat) : Nat :=
  let m := gfMul 8
  let a2 := m a a
  let a4 := m a2 a2
  let a8 := m a4 a4
  let a16 := m a8 a8
  let a32 := m a16 a16
  let a64 := m a32 a32
  let a128 := m a64 a64
  m a2 (m a4 (m a8 (m a16 (m a32 (m a64 a128)))))

/-- The S-box. -/
def sBox (a : Byte) : Byte :=
  let b : Byte := BitVec.ofNat 8 (gfInv a.toNat)
  b ^^^ b.rotateLeft 1 ^^^ b.rotateLeft 2 ^^^ b.rotateLeft 3 ^^^ b.rotateLeft 4 ^^^ 0x63

def xorBytes (a b : List Byte) : List Byte := (a.zip b).map fun e => e.1 ^^^ e.2

/-- The words of the key schedule behind the last eight, newest first; `fuel` words from number `i` on. -/
def aesExpand : Nat → Nat → Byte → List (List Byte) → List (List Byte)
  | 0, _, _, ws => ws
  | fuel + 1, i, rc, ws =>
    let t := nth [] ws 0
    let k := if i % 8 = 0 then xorBytes ((t.drop 1 ++ t.take 1).map sBox) [rc, 0, 0, 0] else if i % 8 = 4 then t.map sBox else t
    let rc' := if i % 8 = 0 then BitVec.ofNat 8 (xtime rc.toNat) else rc
    aesExpand fuel (i + 1) rc' (xorBytes (nth [] ws 7) k :: ws)

/-- The fifteen round keys of a 32-byte key. -/
def aesKeys (key : List Byte) : List (List Byte) :=
  let ws := ((List.range 8).map fun i => slice key (4 * i) 4).reverse
  let all := (aesExpand 52 8 1 ws).reverse
  (List.range 15).map fun r => ((all.drop (4 * r)).take 4).flatten

/-- The state with its rows shifted, byte `r + 4 c`. -/
def shiftRows (b : List Byte) : List Byte := (List.range 16).map fun i => nth 0 b ((i + 4 * (i % 4)) % 16)

/-- The state with its columns mixed. -/
def mixColumns (b : List Byte) : List Byte :=
  (List.range 16).map fun i =>
    let c := 4 * (i / 4)
    let v := fun (k : Nat) => (nth 0 b (c + (i + k) % 4)).toNat
    BitVec.ofNat 8 (Nat.xor (Nat.xor (gfMul 8 (v 0) 2) (gfMul 8 (v 1) 3)) (Nat.xor (v 2) (v 3)))

/-- AES-256 of one block. -/
@[irreducible] def aes256 (key block : List Byte) : List Byte :=
  let ks := aesKeys key
  let mid := (List.range 13).foldl (fun b r => xorBytes (mixColumns (shiftRows (b.map sBox))) (nth [] ks (r + 1)))
    (xorBytes (fit 0 16 block) (nth [] ks 0))
  xorBytes (shiftRows (mid.map sBox)) (nth [] ks 14)

/-! ### Galois/Counter Mode with a 96-bit nonce -/

/-- Block `i` of the key stream; block 1 masks the tag. -/
def gcmBlock (key nonce : List Byte) (i : Nat) : List Byte := aes256 key (fit 0 12 nonce ++ (leBytes 4 i).reverse)

/-- What the key stream makes of bytes: the ciphertext of the plaintext, and the reverse. -/
def gcmCrypt (key nonce b : List Byte) : List Byte :=
  xorBytes b ((List.range (ceilDiv b.length 16)).flatMap fun i => gcmBlock key nonce (i + 2))

/-- A block as a number, its first bit the most significant. -/
def beNat (b : List Byte) : Nat := b.foldl (fun n x => 256 * n + x.toNat) 0

/-- Multiplication in the field of GHASH; `fuel` is the bits of `x` left, most significant first. -/
def ghashMul (x : Nat) : Nat → Nat → Nat
  | 0, _ => 0
  | fuel + 1, v =>
    Nat.xor (if x.testBit fuel then v else 0)
      (ghashMul x fuel (if v % 2 = 1 then Nat.xor (v / 2) (0xE1 * 2 ^ 120) else v / 2))

/-- Bytes filled with zeros to whole blocks, as numbers. -/
def ghashBlocks (b : List Byte) : List Nat := (List.range (ceilDiv b.length 16)).map fun i => beNat (slice b (16 * i) 16)

/-- The tag of additional data and ciphertext: `n` bytes. -/
def gcmTag (n : Nat) (key nonce aad ct : List Byte) : List Byte :=
  let h := beNat (aes256 key (zeros 16))
  let lens := 8 * aad.length * 2 ^ 64 + 8 * ct.length
  let y := (ghashBlocks aad ++ ghashBlocks ct ++ [lens]).foldl (fun a x => ghashMul (Nat.xor a x) 128 h) 0
  (xorBytes (leBytes 16 y).reverse (gcmBlock key nonce 1)).take n

end Sys2Proof.Machine
end

