-- ==== Sys2Proof/Machine/Kv.lean ====
section
/-! DEFINITION. The KV pool: pages, sequences, the prefix tree, allocation, page events and swap; chapter 8. -/

namespace Sys2Proof.Machine

/-- Pages that `t` tokens take in each layer and head (R213). -/
def pagesOf (t : Nat) : Nat := ceilDiv t 16

/-- Sequence slot `q` of a partition. -/
def Kv.seq (k : Kv) (q : Nat) : Seq := Map.get {} k.seqs q
def Kv.setSeq (k : Kv) (q : Nat) (v : Seq) : Kv := { k with seqs := Map.set {} k.seqs q v }

/-- Page table key of a layer, head and page index. -/
def pageKey (layer head page : Nat) : Nat := (layer * 256 + head) * 65536 + page

/-- The (layer, head) pairs of a pool. -/
def KvPool.heads2 (p : KvPool) : List (Nat × Nat) :=
  (List.range p.layers).flatMap fun l => (List.range p.heads).map fun h => (l, h)

/-- Pages allocated, counted against KV_PAGES (R199). -/
def Kv.allocated (k : Kv) : Nat := k.pages.length

/-- Page-table entries in use over all partitions (R203). -/
def State.tableEntries (s : State) : Nat :=
  sumNat (s.parts.map fun e => sumNat (e.2.kv.seqs.map fun q => q.2.table.length))

/-- What the partition holds of DDR5 (R149): model areas, data areas, spill areas, KV segments. -/
def Part.ddr5Held (q : Part) : Nat :=
  let models := sumNat (q.models.staged.map fun m => if m.2.nandDirect then 0 else roundUp 65536 m.2.bytes)
  let imgs := q.ctxs.filterMap fun c => c.2.image
  let data := sumNat (imgs.map fun i => i.needs.ddr5)
  let spill := if q.cfg.reserved then 0 else sumNat (imgs.map fun i => i.needs.liveMax)
  models + data + spill + q.kv.segs * 67108864

/-- The lowest page number not allocated in the held segments. -/
def Kv.freePage (k : Kv) : Option Nat := (List.range (k.segs * 8192)).find? fun n => Map.get {} k.pages n == ({} : KvPage)

/-- DDR5 address of a page: pages stand above the data areas of the partition's space (log entry 14). -/
def pageAddr (p page : Nat) : Nat := 2 ^ 44 * p + 2 ^ 41 + 8192 * page

/-- The page filled with zeros, unpoisoned (R199). -/
def State.zeroPage (s : State) (p page : Nat) : State :=
  let a := pageAddr p page
  { s with ddr := { s.ddr with
      mem := Map.setList none (Map.eraseRange s.ddr.mem a (a + 8192)) a (List.replicate 8192 (some 0))
      poison := Map.eraseRange s.ddr.poison (a / 64) ((a + 8192) / 64) } }

/-- A reference to a page is dropped; a page nothing references is freed. -/
def Kv.dropRef (k : Kv) (page : Nat) : Kv :=
  let v := Map.get {} k.pages page
  if v.refs ≤ 1 then { k with pages := Map.erase k.pages page }
  else { k with pages := Map.set {} k.pages page { v with refs := v.refs - 1 } }

/-- A reference to a page is added: a page referenced more than once is read-only (R204). -/
def Kv.addRef (k : Kv) (page : Nat) : Kv :=
  let v := Map.get {} k.pages page
  { k with pages := Map.set {} k.pages page { v with refs := v.refs + 1, readOnly := true } }

/-- A tree-only node: its pages are referenced by the tree alone (R209). -/
def Kv.treeOnly (k : Kv) (n : Node) : Bool :=
  n.pages.all fun g => (Map.get {} k.pages g).refs == (Map.get {} k.pages g).tree

/-- The least recently matched tree-only node that no node names as its parent, else any tree-only node. -/
def Kv.lruNode (k : Kv) (dom : Option Nat) : Option Node :=
  let c := k.nodes.filter fun n => k.treeOnly n && (dom == none || dom == some n.domain)
  c.foldl (fun b n => match b with
    | none => some n
    | some m => if n.matched < m.matched then some n else some m) none

/-- A node is dropped with the tree's references. -/
def Kv.dropNode (k : Kv) (n : Node) : Kv :=
  let k1 := n.pages.foldl (fun k g =>
    let v := Map.get {} k.pages g
    { k with pages := Map.set {} k.pages g { v with tree := v.tree - 1 } }) k
  let k2 := n.pages.foldl Kv.dropRef k1
  { k2 with nodes := k2.nodes.filter (·.id != n.id) }

/-- One page is drawn in the order of R216: free pages, then the pages of tree-only nodes. -/
def State.drawPage (s : State) (p : Nat) : Option (Nat × State) :=
  let q := s.part p
  let k := q.kv
  if k.allocated < q.cfg.kvPages then
    match k.freePage with
    | some g =>
      let k1 := { k with pages := Map.set {} k.pages g { refs := 1 } }
      some (g, (s.setPart p { q with kv := k1 }).zeroPage p g)
    | none =>
      if q.ddr5Held + 67108864 ≤ q.cfg.ddr5Bytes then
        let g := k.segs * 8192
        let k1 := { k with segs := k.segs + 1, pages := Map.set {} k.pages g { refs := 1 } }
        some (g, (s.setPart p { q with kv := k1 }).zeroPage p g)
      else none
  else none

/-- A page drawn, dropping tree-only nodes as long as that is needed; `fuel` bounds the nodes dropped. -/
def State.drawPageFuel : Nat → State → Nat → Option (Nat × State)
  | 0, s, p => s.drawPage p
  | n + 1, s, p =>
    match s.drawPage p with
    | some r => some r
    | none =>
      match (s.part p).kv.lruNode none with
      | some nd => State.drawPageFuel n (s.modPart p fun q => { q with kv := q.kv.dropNode nd }) p
      | none => none

/-- A page for the allocator's caller (R216). -/
def State.allocPage (s : State) (p : Nat) : Option (Nat × State) :=
  State.drawPageFuel (s.part p).kv.nodes.length s p

/-- The CP writes the page-table entries of a sequence at the keys listed. -/
def State.entriesWritten (s : State) (p q : Nat) (keys : List Nat) : State := keys.foldl (fun t k => t.recWrite (.pageEntry p q k)) s

/-- A new private page is put at each table key listed; none when pages run short. -/
def State.allocKeys (s : State) (p q : Nat) : List Nat → Option State
  | [] => some s
  | key :: rest =>
    match s.allocPage p with
    | none => none
    | some (g, s1) =>
      ((s1.modPart p fun x =>
        let sq := { x.kv.seq q with table := Map.set .none (x.kv.seq q).table key (.resident g) }
        { x with kv := x.kv.setSeq q sq }).recWrite (.pageEntry p q key)).allocKeys p q rest

/-- Table keys that a sequence of `t` tokens needs and does not have. -/
def Kv.missing (k : Kv) (q t : Nat) : List Nat :=
  let sq := k.seq q
  k.pool.heads2.flatMap fun lh => ((List.range (pagesOf t)).map (pageKey lh.1 lh.2)).filter
    fun key => Map.get .none sq.table key == .none

/-- The pages a sequence holds alone: resident and referenced once. -/
def Kv.alone (k : Kv) (q : Nat) : List (Nat × Nat) :=
  (k.seq q).table.filterMap fun e => match e.2 with
    | .resident g => if (Map.get {} k.pages g).refs = 1 then some (e.1, g) else none
    | _ => none

/-- Whether a sequence has pages in host swap units. -/
def Kv.hasSwapped (k : Kv) (q : Nat) : Bool :=
  (k.seq q).table.any fun e => match e.2 with
    | .swapped _ => true
    | _ => false

/-- The KV swap units: those at the top of the registered area (R198). -/
def Part.kvUnits (q : Part) : List Nat :=
  let total := q.host.bytes / 8192
  let n := min q.kv.pool.swapUnits total
  (List.range n).map (total - n + ·)

/-- The lowest KV swap units neither in use nor retired: a unit whose generation would wrap is retired (R218). -/
def Part.freeUnits (q : Part) (n : Nat) : Option (List Nat) :=
  let l := q.kvUnits.filter fun u => !(Map.get {} q.host.units u).used && decide ((Map.get {} q.host.units u).gen < 2 ^ 32 - 1)
  if n ≤ l.length then some (l.take n) else none

/-- The KV address of a table entry (R201). -/
def kvAddr (seq key : Nat) : Nat :=
  key % 65536 + key / 65536 % 256 * 2 ^ 16 + key / 2 ^ 24 % 256 * 2 ^ 24 + seq * 2 ^ 32 + 2 ^ 62

/-- A unit's 8,192 bytes go to the host as AES-256-GCM ciphertext under the partition's swap key, and its record takes the next
generation and the tag, complemented where a line was poisoned (R147, R218, R412). -/
def State.unitOut (s : State) (p u addr : Nat) (b : List Byte) (bad : Bool) : State :=
  let h := (s.part p).host
  let r := Map.get {} h.units u
  let gen := r.gen + 1
  let nonce := leBytes 4 h.epoch ++ leBytes 4 u ++ leBytes 4 gen
  let aad := leBytes 4 p ++ leBytes 4 u ++ leBytes 4 gen ++ leBytes 8 addr
  let ct := gcmCrypt (keyBytes h.key) nonce b
  let tag := gcmTag 12 (keyBytes h.key) nonce aad ct
  (s.emit (.hostWrite (h.base + 8192 * u) ct)).modPart p fun q => { q with host := { q.host with
    units := Map.set {} q.host.units u
      { r with written := true, gen := gen, carried := bad, tag := if bad then tag.map (~~~ ·) else tag } } }

/-- The bytes of a page, and whether a line of it is poisoned. -/
def State.pageBytes (s : State) (p page : Nat) : List Byte := s.ddrBytes (pageAddr p page / 64) 0 8192
def State.pageBad (s : State) (p page : Nat) : Bool := s.ddrAnyBad (pageAddr p page / 64) 0 8192

/-- The token whose slot a byte of a page lies in (R200). -/
def tokenOf (format i : Nat) : Nat :=
  if format = 0 then (if i < 4096 then i % 512 / 32 else i % 32 / 2) else (if i < 4096 then i % 256 / 16 else i % 16)

/-- A page's bytes with zeros in the token slots from `keep` on. -/
def keepTokens (format keep : Nat) (b : List Byte) : List Byte :=
  b.zipIdx.map fun e => if tokenOf format e.2 < keep then e.1 else 0

/-- A page is copied to another with its poison; token slots from `keep` on are zero. -/
def State.copyPage (s : State) (p src dst keep : Nat) : State :=
  let b := keepTokens (s.part p).kv.pool.format keep (s.pageBytes p src)
  (List.range 128).foldl (fun (t : State) (i : Nat) =>
    t.ddrWrite (pageAddr p dst / 64 + i) (slice b (64 * i) 64) (s.ddrBad (pageAddr p src / 64 + i))) s

/-- Token slots past a sequence's length read as zero (R200): what a job wrote there goes when it ends without ST_OK. -/
def State.trimSeq (s : State) (p q : Nat) : State :=
  let sq := (s.part p).kv.seq q
  sq.table.foldl (fun (t : State) (e : Nat × PRef) => match e.2 with
    | .resident g => if sq.length < 16 * (e.1 % 65536 + 1) && !(Map.get {} (t.part p).kv.pages g).readOnly then
        t.copyPage p g g (sq.length - 16 * (e.1 % 65536)) else t
    | _ => t) s

/-- Every page a sequence holds alone is written to a KV swap unit and freed (R217 steps 4 and 5). -/
def State.swapOut (s : State) (p q : Nat) : Option State :=
  let x := s.part p
  let al := x.kv.alone q
  match x.freeUnits al.length with
  | none => none
  | some us =>
    let pairs := al.zip us
    some <| pairs.foldl (fun t e =>
      let g := e.1.2
      let key := e.1.1
      let u := e.2
      let t1 := t.unitOut p u (kvAddr q key) (t.pageBytes p g) (t.pageBad p g || t.recBad (.pageEntry p q key))
      t1.modPart p fun y =>
        let ur := Map.get {} y.host.units u
        let sq := y.kv.seq q
        let ur' := { ur with used := true, seq := q, key := key }
        let sq' := { sq with swapped := true, table := Map.set .none sq.table key (.swapped u) }
        let kv' := (y.kv.dropRef g).setSeq q sq'
        { y with
          host := { y.host with units := Map.set {} y.host.units u ur' }
          kv := { kv' with stats := { y.kv.stats with swapOut := y.kv.stats.swapOut + 1 } } }) s

/-- Policy keys in order (R233): 2 bits each from bits [1:0] up, 0b11 ending the list. -/
def policyKeys (v : Nat) : List Nat :=
  ((List.range 4).map fun i => bits v (2 * i + 1) (2 * i)).takeWhile (· != 3)

/-- Whether candidate `a` goes before `b` under a policy; ties go to the lower slot number. -/
def Kv.before (k : Kv) (keys : List Nat) (a b : Nat) : Bool :=
  match keys with
  | [] => decide (a < b)
  | key :: rest =>
    let va := if key = 0 then (k.seq a).prio else if key = 1 then k.nextOpen - (k.seq a).opened
              else 2 ^ 32 - (k.alone a).length
    let vb := if key = 0 then (k.seq b).prio else if key = 1 then k.nextOpen - (k.seq b).opened
              else 2 ^ 32 - (k.alone b).length
    if va < vb then true else if vb < va then false else Kv.before k rest a b

/-- The victim of a page event (R217), among those that the free swap units can take (log entry 32): `named` are the requesting job's sequences, `prio` the highest among them. -/
def Part.victim (x : Part) (named : List Nat) (prio : Nat) : Option Nat :=
  let k := x.kv
  let c := (k.seqs.filter fun e =>
    e.2.isOpen && !named.contains e.1 && !e.2.swapped && !(x.cfg.reserved && e.2.busy.isSome) &&
    !(k.alone e.1).isEmpty && decide (e.2.prio ≤ prio) && (x.freeUnits (k.alone e.1).length).isSome).map Prod.fst
  c.foldl (fun b q => match b with
    | none => some q
    | some m => if k.before (policyKeys x.policy) q m then some q else some m) none

/-- A page event is raised: counted, and a notice posted with the pages needed and the victim (R217, R322). -/
def State.pageEvent (s : State) (p need : Nat) (victim : Option Nat) : State :=
  let s1 := s.modPart p fun q => { q with kv := { q.kv with
    victim := victim, stats := { q.kv.stats with pageEvents := q.kv.stats.pageEvents + 1 } } }
  s1.notice noticePageEvent p (leBytes 4 need ++ leBytes 2 (victim.getD 0xFFFF))

/-- The customisation string of block digests: "A640 KV PREFIX". -/
def kvPrefix : List Byte := [0x41, 0x36, 0x34, 0x30, 0x20, 0x4B, 0x56, 0x20, 0x50, 0x52, 0x45, 0x46, 0x49, 0x58]

/-- The digest of a block (R207): KMAC128 of MODEL_ID, the parent's digest (zero for block 0) and 16 IDs under the domain's
256-bit key. -/
def blockDigest (key : Nat) (model : List Byte) (parent : BitVec 64) (ids : List Nat) : BitVec 64 :=
  BitVec.ofNat 64 (u64 (kmac128 8 (keyBytes key) kvPrefix (model ++ leBytes 8 parent.toNat ++ ids.flatMap (leBytes 4))) 0)

/-- The node that matches a block: digest, parent and all 16 IDs equal (R208). -/
def Kv.lookup (k : Kv) (dom parent : Nat) (digest : BitVec 64) (ids : List Nat) : Option Node :=
  k.nodes.find? fun n => n.domain == dom && n.parent == parent && n.digest == digest && n.ids == ids

/-- The nodes of the longest matching prefix (R208): blocks looked up in order from block 0; `fuel` bounds them. -/
def Kv.matchPrefix (k : Kv) (dom : Nat) (model : List Byte) : Nat → Nat → BitVec 64 → List Nat → List Node
  | 0, _, _, _ => []
  | fuel + 1, parent, pd, ids =>
    let blk := ids.take 16
    if blk.length < 16 then []
    else
      let d := blockDigest (Map.get 0 k.keys dom) model pd blk
      match k.lookup dom parent d blk with
      | none => []
      | some n => n :: Kv.matchPrefix k dom model fuel n.id d (ids.drop 16)

/-- One block of a sequence is inserted into the tree at a job's ST_OK completion (R209). -/
def Kv.insertBlock (k : Kv) (q : Nat) (parent : Nat) (pd : BitVec 64) (j : Nat) : Kv × Nat × BitVec 64 × Bool :=
  let sq := k.seq q
  let ids := (sq.ids.drop (16 * j)).take 16
  let d := blockDigest (Map.get 0 k.keys sq.domain) sq.model pd ids
  match k.lookup sq.domain parent d ids with
  | some n => (k, n.id, d, true)
  | none =>
    let room := (k.nodes.filter (·.domain == sq.domain)).length < 65536
    let k1 := if room then some k else (k.lruNode (some sq.domain)).map k.dropNode
    match k1 with
    | none => (k, parent, d, false)
    | some k2 =>
      let pages := k2.pool.heads2.filterMap fun lh =>
        match Map.get .none sq.table (pageKey lh.1 lh.2 j) with
        | .resident g => some g
        | _ => none
      let k3 := pages.foldl (fun k g =>
        let v := Map.get {} k.pages g
        { k with pages := Map.set {} k.pages g { v with refs := v.refs + 1, tree := v.tree + 1, readOnly := true } }) k2
      ({ k3 with nodes := k3.nodes ++ [⟨k3.nextNode, sq.domain, d, parent, ids, pages, k3.clock⟩],
                 nextNode := k3.nextNode + 1 }, k3.nextNode, d, true)

/-- Full recorded blocks of a sequence inserted in order, from block `j`; `fuel` bounds them (R209). -/
def Kv.insertBlocks : Nat → Kv → Nat → Nat → BitVec 64 → Nat → Kv
  | 0, k, _, _, _, _ => k
  | fuel + 1, k, q, parent, pd, j =>
    let sq := k.seq q
    if 16 * (j + 1) ≤ sq.length ∧ 16 * (j + 1) ≤ sq.ids.length then
      let (k1, id, d, ok) := k.insertBlock q parent pd j
      if ok then Kv.insertBlocks fuel k1 q id d (j + 1) else k1
    else k

/-- Every resident page that is full of the sequence's tokens is marked read-only (R204). -/
def Kv.markFull (k : Kv) (q : Nat) : Kv :=
  let sq := k.seq q
  (k.pool.heads2.flatMap fun lh => (List.range (sq.length / 16)).map (pageKey lh.1 lh.2)).foldl (fun k key =>
    match Map.get .none sq.table key with
    | .resident g =>
      let v := Map.get {} k.pages g
      { k with pages := Map.set {} k.pages g { v with readOnly := true } }
    | _ => k) k

/-- What a job's end does to its sequences (R209, R211): busy marks go; on ST_OK lengths advance by NEW, full pages
become read-only and full recorded blocks enter the tree. -/
def Kv.jobEnd (k : Kv) (c : Nat) (lt : List LtEntry) (ok : Bool) : Kv :=
  let k1 := { k with seqs := k.seqs.map fun e =>
    (e.1, if e.2.busy = some c then { e.2 with busy := none } else e.2) }
  if ok then
    (lt.filter (0 < ·.new)).foldl (fun k e =>
      let sq := k.seq e.seq
      let k2 := (k.setSeq e.seq { sq with length := sq.length + e.new }).markFull e.seq
      if sq.domain = 0 then k2 else Kv.insertBlocks 65536 k2 e.seq 0 0 0) k1
  else k1

/-- The sequences a job names with NEW above zero. -/
def ltNamed (lt : List LtEntry) : List Nat := (lt.filter (0 < ·.new)).map (·.seq)

end Sys2Proof.Machine
end

