-- ==== Sys2Proof/Machine/Jobs.lean ====
section
/-! DEFINITION. Job contexts: the choice of the next context, the release of its lanes, and the end of a job
(R78 to R80, R225 to R232, R331). -/

namespace Sys2Proof.Machine

/-- The lanes of an image's stream: its engine lanes, then the shared lane (R63). -/
def Image.laneIds (im : Image) : List Nat := List.range im.needs.lanes ++ [255]

/-- The lanes of a context's image. -/
def Ctx.laneIds (x : Ctx) : List Nat := (x.image.map Image.laneIds).getD []

/-- The staged models of a partition that are complete: slot and model. -/
def Models.list (m : Models) : List (Nat × Staged) := m.staged.filter fun e => e.2.used && e.2.ready

/-- The staged model of an identifier. -/
def Models.find (m : Models) (id : List Byte) : Option Nat := (m.list.find? fun e => e.2.id == id).map Prod.fst

/-- The staged models that an image's table binds, entry by entry; 64 for none (R166). -/
def Models.bind (m : Models) (l : List ModelRef) : List Nat := l.map fun r => (m.find r.id).getD 64

/-- Whether a context is on the engines. -/
def Ctx.resident (x : Ctx) : Bool := x.state == .running || x.state == .stopping

/-- Whether a context's state lets it be run. -/
def Ctx.runnable (x : Ctx) : Bool := x.state == .ready || x.state == .saved

/-- The priority of a context's job. -/
def Ctx.prio (x : Ctx) : Nat := (x.job.map (·.prio)).getD 0

/-- The contexts in the cyclic order of R226, from the one after the last run. -/
def Part.cycle (q : Part) : List Nat :=
  let from_ := match q.lastRun with
    | none => 0
    | some c => c + 1
  (List.range 8).map fun i => (from_ + i) % 8

/-- Whether a candidate goes before the best found so far (R226): higher priority, or equal and never run before one
that has run. -/
def Ctx.better (a b : Ctx) : Bool :=
  decide (b.prio < a.prio) || (a.prio == b.prio && !a.everRun && b.everRun)

/-- Whether a context may be run: READY or SAVED, and every page of its job's sequences in place; none of them is the victim of
a page event or swapped out (R216, R217). -/
def Part.canRun (q : Part) (c : Nat) : Bool :=
  (Map.get {} q.ctxs c).runnable &&
  q.kv.seqs.all fun e => e.2.busy != some c || (!q.kv.hasSwapped e.1 && q.kv.victim != some e.1)

/-- The context the CP chooses among those that may run (R226). -/
def Part.choose (q : Part) : Option Nat :=
  q.cycle.foldl (fun b c =>
    let x := Map.get {} q.ctxs c
    if q.canRun c then
      match b with
      | none => some c
      | some d => if x.better (Map.get {} q.ctxs d) then some c else b
    else b) none

/-- A lane of a job that starts: its counters, LSW, strides and loops cleared, its registers as they stand, at its
first lane word with an empty fetch queue (R66, R78). -/
def Lane.start (l : Lane) : Lane :=
  { arch := { l.arch with stride := [], lsw := 0, cnt := {}, loops := [], pc := 0 }, iss := {}, run := .running, faults := [] }

/-- A stopped lane of a SAVED context resumes: RESUMED is set and its fetch queue is empty (R66, R80, R232). -/
def Lane.resume (l : Lane) : Lane :=
  if l.run == .stopped then
    { l with arch := { l.arch with lsw := l.arch.lsw ||| 8 }, iss := {}, run := .running }
  else l

/-- A lane no longer on the engines keeps its registers. -/
def Lane.rest (l : Lane) : Lane := { arch := l.arch }

/-- A context's lanes are released: a READY one starts, a SAVED one has its state and spilled lines restored and
resumes (R78, R230 steps 6 and 7). A gated partition wakes (R442). -/
def State.release (s : State) (p c : Nat) : State :=
  let q := s.part p
  let x := s.ctx p c
  let lanes := x.laneIds.foldl (fun m l =>
    let old := if x.state == .saved then Map.get {} x.saved l else Map.get {} m l
    Map.set {} m l (if x.state == .saved then old.resume else old.start)) q.lanes
  let s1 := s.setPart p { q with lanes := lanes, lastRun := some c, low := .a0 }
  let s2 := x.spill.foldl (fun t e => t.writeLine (((t.part p).region e.1).place e.2.1 |> fun b => 8192 * b.1 + b.2 / 64) 0
    e.2.2.1 e.2.2.2) s1
  s2.setCtx p c { x with state := .running, everRun := true, releasedAt := s.now, saved := [], spill := [], preemptAt := none }

/-- Whether every engine of a partition has a tile. -/
def State.allTiles (s : State) (p : Nat) : Bool := (s.part p).cfg.engines.all s.hasTile

/-- One lane's entry of the statistics record (R331). -/
def Lane.statsBytes (l : Lane) (shared : Bool) : List Byte :=
  let c := l.arch.cnt
  [c.issued, c.wait, c.interlock, c.fetch, c.xfence].flatMap (fun v => leBytes 8 v.toNat) ++
  leBytes 4 l.arch.lsw.toNat ++ leBytes 4 (if shared then 0 else l.arch.asw.toNat) ++
  fit 0 32 (l.faults.flatMap (leBytes 2)) ++ zeros 16

/-- The job statistics record (R331). -/
def statsRecord (im : Image) (j : Job) (lanes : Map Lane) (status now : Nat) : List Byte :=
  [BitVec.ofNat 8 im.needs.lanes, BitVec.ofNat 8 j.tokenSat.toNat] ++ leBytes 2 status ++ leBytes 4 j.preempts ++
  leBytes 8 j.start ++ leBytes 8 now ++ leBytes 8 j.energyUj ++ zeros 32 ++
  im.laneIds.flatMap fun l => (Map.get {} lanes l).statsBytes (l == 255)

/-- The OR over the lanes of the ASWs in bits [31:0] and of the LSWs in bits [63:32]: RESULT of job.submit. -/
def jobResult (im : Image) (lanes : Map Lane) : Nat :=
  let asw := im.laneIds.foldl (fun a l => a ||| (Map.get {} lanes l).arch.asw) (0 : Word)
  let lsw := im.laneIds.foldl (fun a l => a ||| (Map.get {} lanes l).arch.lsw) (0 : Word)
  asw.toNat + 2 ^ 32 * lsw.toNat

/-- Whether a write was issued by a lane or post of partition `p`. -/
def WSrc.ofPart (p : Nat) : WSrc → Bool
  | .lane q _ => q == p
  | .post q _ => q == p
  | _ => false

/-- The stores of a gather entry take place in their order (R99); a line belongs to one partition, and its lanes await no load
any more. -/
def State.issueStores (s : State) (e : GEntry) : State :=
  e.accs.foldl (fun t a => if a.store then t.writeLine e.line a.off (leBytes a.width a.data.toNat) false else t) s

/-- The entries that hold accesses of partition `p`, in every bank group. -/
def Scratch.entriesOf (x : Scratch) (p : Nat) : List GEntry :=
  x.gather.flatMap fun e => e.2.filter fun g => g.accs.any (·.part == p)

/-- The engines are taken from partition `p`: its open gather entries issue, its lanes rest, their reads, posts and stem
commands are dropped with the slots' in-flight bits, and completions of their writes reach no one (unit 255; log entry 21). -/
def State.clearEngines (s0 : State) (p : Nat) : State :=
  let s := (s0.sp.entriesOf p).foldl State.issueStores s0
  let q := s.part p
  let s1 := (List.range q.cfg.engines.length).foldl (fun t l =>
    t.setTile (t.laneTile p l) { t.tile (t.laneTile p l) with slotFlight := [] })
    (s.setPart p { q with lanes := q.lanes.map fun e => (e.1, e.2.rest) })
  { s1 with
    fab := { s1.fab with
      reads := s1.fab.reads.filter (·.part != p)
      posts := s1.fab.posts.filter (·.part != p)
      writes := s1.fab.writes.map fun w => if w.src.ofPart p then { w with src := .unit 255 } else w }
    sp := { s1.sp with gather := s1.sp.gather.map fun e =>
      (e.1, (e.2.map fun g => { g with accs := g.accs.filter (·.part != p) }).filter fun g => !g.accs.isEmpty) }
    stem := s1.stem.filter (·.part != p) }

/-- The status a job ends with: its poison mark replaces ST_OK (R414). -/
def Job.endStatus (j : Job) (status : Nat) : Nat :=
  if status = stOk && j.poisonMark then stPoisonConsumed else status

/-- A job ended by containment is logged and counted (R426, R430). -/
def State.contain (s : State) (p st : Nat) (j : Job) : State :=
  let g := s.lan.log
  if st = stPoisonConsumed || st = stTileFenced || st = stPartitionReset then
    let cid := match j.cmd with
      | some (q, n) => ((s.cmd q n).map (·.entry.cid)).getD 0
      | none => 0
    let s1 := s.log 0xFFFF 0x0202 p (leBytes 1 j.queue ++ leBytes 2 cid ++ leBytes 2 st)
    { s1 with lan := { s1.lan with log := { s1.lan.log with
        jobsPoisoned := if st = stPoisonConsumed then satAdd 0xFFFFFFFF g.jobsPoisoned 1 else g.jobsPoisoned
        jobsFenced := if st = stPoisonConsumed then g.jobsFenced else satAdd 0xFFFFFFFF g.jobsFenced 1 } } }
  else s

/-- A job ends (R225, R229, R331): its statistics are written, its submission completes with AUX the pre-emptions
suffered, its sequences are released, and its context returns to LOADED. -/
def State.closeJob (s : State) (p c status : Nat) : State :=
  let x := s.ctx p c
  match x.job, x.image with
  | some j, some im =>
    let st := j.endStatus status
    let lanes := if x.resident then (s.part p).lanes else x.saved
    let s0 := s.contain p st j
    let s1 := if j.statsAddr = 0 then s0 else s0.hostWrite j.statsAddr (statsRecord im j lanes st s.now)
    let s2 := match j.cmd with
      | some (q, n) => s1.finish q n st 0 (jobResult im lanes) j.preempts
      | none => s1
    let s3 := if x.resident then s2.clearEngines p else s2
    let s4 := s3.modPart p fun q => { q with kv := q.kv.jobEnd c j.lt (st == stOk) }
    let s5 := (if st = stOk then s4 else (ltNamed j.lt).foldl (fun (t : State) (n : Nat) => t.trimSeq p n) s4).setCtx p c
      { x with state := .loaded, job := none, saved := [], spill := [], preemptAt := none }
    s5.finishAwait p c stOkEmpty
  | _, _ => s

/-- When no context of an enabled partition is on the engines, the CP runs the one it chooses (R226), if every engine has its
tile (R224). A chosen SAVED context whose save reads back poisoned ends its job, and the next is chosen (R420). -/
def State.scheduleFuel : Nat → State → Nat → State
  | 0, s, _ => s
  | fuel + 1, s, p =>
    let q := s.part p
    if q.state == .enabled && q.running.isNone && s.allTiles p then
      match q.choose with
      | some c =>
        if (s.ctx p c).state == .saved && s.recBad (.contextSave p c) then
          State.scheduleFuel fuel (s.closeJob p c stPoisonConsumed) p
        else s.release p c
      | none => s
    else s

/-- At most eight contexts can fail so. -/
def State.schedule (s : State) (p : Nat) : State := State.scheduleFuel 9 s p

/-- A job ends, and the engines pass to the next context. -/
def State.endJob (s : State) (p c status : Nat) : State :=
  if (s.ctx p c).job.isSome && (s.ctx p c).image.isSome then (s.closeJob p c status).schedule p else s

/-- The resident job of partition `p` ends at once with a status (R74, R163, R414). -/
def State.endResident (s : State) (p status : Nat) : State :=
  match (s.part p).running with
  | some c => s.endJob p c status
  | none => s

/-- A job waiting in a context's queue is ended before it starts. -/
def State.endWaiting (s : State) (p c status : Nat) : State :=
  (s.ctx p c).waiting.foldl (fun t j =>
    (t.modCtx p c fun x => { x with job := some j, waiting := x.waiting.drop 1 }).endJob p c status) s

/-- Every job of a context ends with a status. -/
def State.endAll (s : State) (p c status : Nat) : State := (s.endJob p c status).endWaiting p c status

end Sys2Proof.Machine
end

