-- ==== Sys2Proof/Machine/Lane.lean ====
section
/-! DEFINITION. How a lane issues: the step gate, waits, interlocks, narrow accesses, loops and the ragged dispatcher
(R64 to R83, R99, R212 to R214). -/

namespace Sys2Proof

/-- A field of the lane word header (R69). -/
def Issue.field (i : Issue) (hi lo : Nat) : Nat := Machine.bits i.hdr.toNat hi lo
/-- SLOT_MASK. -/
def Issue.mask (i : Issue) : Nat := i.field 6 0
/-- REPEAT: the issue count minus one (R15). -/
def Issue.rep (i : Issue) : Nat := i.field 14 7
/-- WAIT_TAG. -/
def Issue.tag (i : Issue) : Nat := i.field 22 15
/-- YIELD. -/
def Issue.isYield (i : Issue) : Bool := i.hdr.getLsbD 23

/-- Whether `slot` is the next slot of the lane word to act: present, not yet done, and every present slot before it
done (R65, R69). -/
def Issue.next (i : Issue) (done slot : Nat) : Bool :=
  i.mask.testBit slot && !done.testBit slot && (List.range slot).all fun k => !i.mask.testBit k || done.testBit k

/-- A lane word with an empty mask carries no slot: its step does nothing (R69). -/
def Issue.isEmpty (i : Issue) : Bool := i.mask == 0

end Sys2Proof

namespace Sys2Proof.Machine

/-- The context on the engines of partition `p`, or an empty one. -/
def State.onEngines (s : State) (p : Nat) : Ctx :=
  match (s.part p).running with
  | some c => s.ctx p c
  | none => {}

/-- A lane's place in the lane table: engine lanes in order, then the shared lane. -/
def Image.laneIndex (im : Image) (l : Nat) : Nat := if l = 255 then im.needs.lanes else l

/-- The wait table entry that the lane word names (R72); the tag is not 0. -/
def State.waitEntry (s : State) (i : Issue) : Nat :=
  match (s.onEngines i.part).image with
  | none => 0
  | some im => (nth 0 (nth ⟨0, 0, []⟩ im.code (im.laneIndex i.lane)).wct (i.tag - 1)).toNat

/-- The base of the resident context's counters in a lane's counters (R72). -/
def State.tokBase (s : State) (p lane : Nat) : Nat :=
  let x := s.onEngines p
  if lane = 255 then x.shBase else x.engBase

/-- Whether the named counter is external in the image (R81). -/
def State.isExternal (s : State) (i : Issue) : Bool :=
  match (s.onEngines i.part).image with
  | none => false
  | some im => (nth 0 im.external (im.laneIndex i.lane)).testBit (bits (s.waitEntry i) 7 0)

/-- Whether the present issue evaluates its wait (R73). -/
def State.waits (s : State) (i : Issue) : Bool :=
  let l := s.lane i.part i.lane
  i.tag != 0 && !l.iss.granted && (l.iss.iter == 0 || (s.waitEntry i).testBit 9)

/-- Whether the lane is released on the engines of an enabled partition; in ROM hold no engine has power (R397). -/
def State.laneOn (s : State) (p l : Nat) : Bool :=
  (!s.lan.romHold || l == 255) && (s.part p).state == .enabled && (s.onEngines p).resident && (s.lane p l).run == .running

/-- Whether the counter that the present wait names is poisoned (R414). -/
def State.waitBad (s : State) (i : Issue) : Bool :=
  Map.get false s.tokBad (s.tokKey i.part i.lane (s.tokBase i.part i.lane + bits (s.waitEntry i) 7 0))

/-- Whether the present wait is satisfied: its counter is at least AMOUNT (R73). -/
def State.waitMet (s : State) (i : Issue) : Bool :=
  decide (bits (s.waitEntry i) 31 16 + 1 ≤ (s.counter i.part i.lane (s.tokBase i.part i.lane + bits (s.waitEntry i) 7 0)).toNat)

/-- A satisfied wait is passed: AMOUNT is subtracted where the entry consumes, and the lane word may issue (R73). -/
def State.passWait (s : State) (i : Issue) : State :=
  let e := s.waitEntry i
  let c := s.tokBase i.part i.lane + bits e 7 0
  let s1 := if e.testBit 8 then
      s.setCounter i.part i.lane c (s.counter i.part i.lane c - BitVec.ofNat 32 (bits e 31 16 + 1)) else s
  s1.modLane i.part i.lane fun x => { x with iss := { x.iss with granted := true, waitSince := none } }

/-- Whether the lane stands at the step boundary of a yield point with a pre-emption pending (R80). -/
def State.mustStop (s : State) (i : Issue) (isEnd : Bool) : Bool :=
  let l := s.lane i.part i.lane
  (s.onEngines i.part).state == .stopping && l.iss.iter == 0 && l.iss.done == 0 && !l.iss.granted &&
  (i.isYield || l.arch.pc == 0 || isEnd)

/-- One more cycle on a lane counter (R77). -/
def State.countWait (s : State) (p l : Nat) : State :=
  s.modLane p l fun x => { x with arch := { x.arch with cnt := { x.arch.cnt with wait := x.arch.cnt.wait + 1 } } }
def State.countInterlock (s : State) (p l : Nat) : State :=
  s.modLane p l fun x => { x with arch := { x.arch with cnt := { x.arch.cnt with interlock := x.arch.cnt.interlock + 1 } } }
def State.countFetch (s : State) (p l : Nat) : State :=
  s.modLane p l fun x => { x with arch := { x.arch with cnt := { x.arch.cnt with fetch := x.arch.cnt.fetch + 1 } } }
def State.countXfence (s : State) (p l : Nat) : State :=
  s.modLane p l fun x => { x with arch := { x.arch with cnt := { x.arch.cnt with xfence := x.arch.cnt.xfence + 1 } } }

/-- What holds a slot back, or the state in which it acts. -/
inductive Gate where
  /-- The slot does not issue here: not its turn, or nothing runs. -/
  | idle
  /-- The lane is held for a cycle. -/
  | held (s : State)
  | go (s : State)

/-- An A register with a stride whose value is still awaited holds the step's first slot. -/
def Lane.strideBusy (l : Lane) : Bool :=
  l.arch.stride.any fun e => l.iss.xBusy.contains e.1

/-- A step opens (R64): a stride added to a register still awaited holds it, and otherwise its slots read the registers as
they stand. -/
def State.openStep (s : State) (i : Issue) : Gate :=
  if (s.lane i.part i.lane).strideBusy then .held (s.countInterlock i.part i.lane)
  else .go (s.modLane i.part i.lane fun x => { x with iss := { x.iss with x0 := x.arch.x, stride0 := x.arch.stride } })

/-- A cycle held by an unsatisfied wait (R77); one at an external counter of a yield point counts for R227. -/
def State.holdWait (s : State) (i : Issue) : State :=
  let s1 := s.countWait i.part i.lane
  if i.isYield && s.isExternal i && (s.lane i.part i.lane).iss.waitSince.isNone then
    s1.modLane i.part i.lane fun x => { x with iss := { x.iss with waitSince := some s.now } }
  else s1

/-- The step boundary before an issue, with its code in the queue (R73, R80): a pre-emption stops at a yield point; a wait is
evaluated, and a poisoned counter ends the job (R414). -/
def State.boundary (s : State) (i : Issue) (isEnd : Bool) : Gate :=
  if s.mustStop i isEnd then .idle
  else if s.waits i then
    if s.waitBad i then .held (s.endResident i.part stPoisonConsumed)
    else if s.waitMet i then (s.passWait i).openStep i
    else .held (s.holdWait i)
  else s.openStep i

/-- The gate of a slot whose turn it is (R64, R66, R67, R73, R80). -/
def State.gate (s : State) (i : Issue) (slot : Nat) (isEnd : Bool := false) : Gate :=
  let l := s.lane i.part i.lane
  if !s.laneOn i.part i.lane || !i.next l.iss.done slot then .idle
  else if !l.iss.fetched then .held (s.countFetch i.part i.lane)
  else if l.iss.done = 0 then s.boundary i isEnd
  else .go s

/-- A scalar register as it stood before the step: 0 to 15 A, 16 to 31 D. -/
def State.lx (s : State) (i : Issue) (r : Nat) : DWord := Map.get 0 (s.lane i.part i.lane).iss.x0 r

/-- A slot writes a scalar register (R64, R70). -/
def State.setX (s : State) (i : Issue) (r : Nat) (v : DWord) : State :=
  s.modLane i.part i.lane fun x =>
    { x with arch := { x.arch with x := Map.set 0 x.arch.x r v }
             iss := { x.iss with wroteA := if r < 16 then r :: x.iss.wroteA else x.iss.wroteA } }

/-- Whether any of the scalar registers is still awaited. -/
def State.xHeld (s : State) (i : Issue) (rs : List Nat) : Bool :=
  rs.any fun r => (s.lane i.part i.lane).iss.xBusy.contains r

/-- ASW flags set in an engine lane (R60); POISON_SEEN, bit 5, also marks the job (R414). -/
def State.setAsw (s : State) (p l : Nat) (flags : Nat) : State :=
  let s1 := s.modLane p l fun x => { x with arch := { x.arch with asw := x.arch.asw ||| BitVec.ofNat 32 flags } }
  if flags.testBit 5 then s1.markPoison p else s1

/-- The slot's access does not take place: ADDR_FAULT is set and the job ends with ST_ADDRESS_FAULT (R74). -/
def State.addrFault (s : State) (p l : Nat) : State :=
  (s.modLane p l fun x => { x with arch := { x.arch with lsw := x.arch.lsw ||| 4 } }).endResident p stAddressFault

/-- A fault completion at a lane (R119, R120, R125, R142): WIN_FAULT or ROUTE_FAULT, FAULT_COUNT saturating, and the status
kept among the first 16. -/
def Lane.fault (l : Lane) (status : Nat) : Lane :=
  let bit : Word := if status = stNoRoute || status = stHopLimit || status = stLinkDown then 2 else 1
  let n := (l.arch.lsw.extractLsb' 8 8).toNat
  let n' := min 0xFF (n + 1)
  { l with
    arch := { l.arch with lsw := ((l.arch.lsw &&& ~~~(0xFF00 : Word)) ||| BitVec.ofNat 32 (256 * n')) ||| bit }
    faults := if l.faults.length < 16 then l.faults ++ [status] else l.faults }

/-! ### The gather buffer (R99) -/

/-- One narrow access takes place on its line. A load of a poisoned line ends the job (R414). -/
def State.access (s : State) (ln : Nat) (g : GAccess) : State :=
  if g.store then s.writeLine ln g.off (leBytes g.width g.data.toNat) false
  else if s.linePoison ln then s.endResident g.part stPoisonConsumed
  else
    let v := leNat g.width ((s.readLine ln).drop g.off)
    let w : DWord := if g.signed then BitVec.ofInt 64 (sext 32 v) else BitVec.ofNat 64 v
    s.modLane g.part g.lane fun x =>
      if x.iss.xNew.contains g.rd then
        { x with arch := { x.arch with x := Map.set 0 x.arch.x g.rd w }
                 iss := { x.iss with xNew := x.iss.xNew.erase g.rd } }
      else if x.iss.xBusy.contains g.rd then
        { x with arch := { x.arch with x := Map.set 0 x.arch.x g.rd w }
                 iss := { x.iss with x0 := Map.set 0 x.iss.x0 g.rd w, xBusy := x.iss.xBusy.erase g.rd } }
      else x

/-- The gather buffer of a bank group. -/
def State.gathered (s : State) (g : Nat) : List GEntry := Map.get [] s.sp.gather g
def State.setGathered (s : State) (g : Nat) (l : List GEntry) : State :=
  { s with sp := { s.sp with gather := Map.set [] s.sp.gather g l } }

/-- The entry for a line, if open, issues as one read-modify-write of it, its accesses in arrival order. -/
def State.flush (s : State) (ln : Nat) : State :=
  let g := ln / 8192 / 8
  match (s.gathered g).find? (·.line == ln) with
  | none => s
  | some e => e.accs.foldl (fun t a => t.access ln a) (s.setGathered g ((s.gathered g).filter (·.line != ln)))

/-- A narrow access joins the entry for its line or opens one; with all 16 open, the oldest issues first. -/
def State.gather (s : State) (ln : Nat) (a : GAccess) : State :=
  let g := ln / 8192 / 8
  let es := s.gathered g
  if es.any (·.line == ln) then
    s.setGathered g (es.map fun e => if e.line == ln then { e with accs := e.accs ++ [a] } else e)
  else
    let s1 := if es.length < 16 then s else match es with
      | [] => s
      | e :: _ => s.flush e.line
    s1.setGathered g (s1.gathered g ++ [⟨ln, [a]⟩])

/-- The lines a run of bytes touches, with their open gather entries issued: a wide access comes behind them (R99). What lies
outside the partition's regions has no line (R89). -/
def State.flushRun (s : State) (p addr n : Nat) : State :=
  (List.range (ceilDiv (addr % 64 + n) 64)).foldl (fun t k =>
    let a := addr / 64 * 64 + 64 * k
    if (t.part p).inRegion a 64 then t.flush ((t.part p).line a) else t) s

/-! ### Handles (R113) -/

def hDevice (h : DWord) : Nat := bits h.toNat 15 0
def hWindow (h : DWord) : Nat := bits h.toNat 27 16
def hGen (h : DWord) : Nat := bits h.toNat 43 28
/-- Handle bits [47:44]: WRITE, SIGNAL, FOREIGN, DDR5. -/
def hFlags (h : DWord) : Nat := bits h.toNat 47 44
def hReserved (h : DWord) : Nat := bits h.toNat 63 48

/-! ### One requester's accesses to one line (R97) -/

/-- Bytes of one unit, and the alignment an access of the kind must have (R74). -/
def RKind.unit : RKind → Nat
  | .ldt => 272
  | .ldl => 64
  | .ldv => 256
def RKind.align : RKind → Nat
  | .ldt => 16
  | _ => 64

/-- Where a window's byte lies: a scratchpad address of its partition. -/
def Win.spAddr (w : Win) (off : Nat) : Nat := w.region * 2 ^ 28 + w.off + off

/-- Where the data of a write to this device's scratchpad land: partition, address, bytes. -/
def State.landsAt (s : State) (w : Write) : Option (Nat × Nat × Nat) :=
  match w.op with
  | .halo => none
  | .wb => some (w.part, w.dst, w.data.length)
  | _ =>
    let x := s.win (hWindow w.handle)
    if x.ddr5 then none else some (x.part, x.spAddr w.off, w.data.length)

/-- Whether two runs of bytes share a line. -/
def shareLine (a n b m : Nat) : Bool :=
  decide (0 < n) && decide (0 < m) && decide (a / 64 ≤ (b + m - 1) / 64) && decide (b / 64 ≤ (a + n - 1) / 64)

/-- Whether a write that the requester issued before `id` has still to reach a line of the run. -/
def State.writeBefore (s : State) (src : WSrc) (id p a n : Nat) : Bool :=
  s.fab.writes.any fun w => decide (w.id < id) && w.src == src && (w.phase == .issued || w.phase == .accepted) &&
    match s.landsAt w with
    | some (q, b, m) => q == p && shareLine b m a n
    | none => false

/-- Whether a read that the lane issued before `id` has still to be served from a line of the run. -/
def State.readBefore (s : State) (p l id a n : Nat) : Bool :=
  s.fab.reads.any fun r => decide (r.id < id) && r.part == p && r.lane == l && shareLine r.addr.toNat (r.kind.unit * r.count) a n

/-- Accesses of one requester to one line are applied in the order it issued them (R97): a write waits for the writes and reads
before it. -/
def State.writeTurn (s : State) (w : Write) : Bool :=
  match s.landsAt w with
  | none => true
  | some (p, a, n) => !s.writeBefore w.src w.id p a n && match w.src with
    | .lane q l => q != p || !s.readBefore p l w.id a n
    | _ => true

/-- And a read waits for the writes before it. -/
def State.readTurn (s : State) (r : Read) : Bool :=
  !s.writeBefore (.lane r.part r.lane) r.id r.part r.addr.toNat (r.kind.unit * r.count)

/-- A slot's own access to a run of bytes waits for what its lane issued before (log entry 164). -/
def State.lineHeld (s : State) (i : Issue) (a n : Nat) : Bool :=
  s.writeBefore (.lane i.part i.lane) s.clk.nextId i.part a n || s.readBefore i.part i.lane s.clk.nextId a n

/-- Wide write of bytes at a partition address. -/
def State.wideWrite (s : State) (p addr : Nat) (b : List Byte) (poison : Bool := false) : State :=
  (s.flushRun p addr b.length).writeBytes p addr b poison

/-! ### The ragged dispatcher (R213) -/

/-- The MAX_SEQ of R211. -/
def Part.maxSeq (q : Part) : Nat := if q.kv.pool.configured then q.kv.pool.maxSeq else 4096

/-- What advancing a ragged loop comes to. -/
inductive Ragged where
  | item (lp : Loop) (d0 d1 d2 : DWord)
  | done
  | fault
  | poison
  | overflow
  deriving DecidableEq, Repr

/-- The next item at `lo` of an entry already read. -/
def Loop.item (lp : Loop) (maxItems : Nat) (first : Bool) : Ragged :=
  let cnt := min (lp.gran + 1) (lp.hi - lp.lo)
  if maxItems < lp.items + 1 then .overflow
  else
    let last := lp.lo + cnt == lp.hi
    let valid := if lp.mode = 0 || cnt = 0 then 0
      else if lp.lo + cnt = pagesOf lp.tot then lp.tot - 16 * (lp.lo + cnt - 1) else 16
    .item { lp with items := lp.items + 1, lo := lp.lo + cnt }
      (BitVec.ofNat 64 (lp.entry + first.toNat * 2 ^ 32 + last.toNat * 2 ^ 33))
      (BitVec.ofNat 64 lp.lo) (BitVec.ofNat 64 (cnt + valid * 2 ^ 32))

/-- An entry of the table in the scratchpad breaks R211. -/
def badEntry (maxSeq : Nat) (b : List Byte) : Bool :=
  !allZero b 10 6 || decide (maxSeq ≤ u16 b 8) || decide (65536 < u32 b 4) || decide (1048576 < u32 b 0 + u32 b 4)

/-- Entries from index `lp.entry` on are read until one has work; `fuel` bounds the entries left. -/
def State.raggedScan : Nat → State → Nat → Nat → Loop → Ragged
  | 0, _, _, _, _ => .done
  | fuel + 1, s, p, maxItems, lp =>
    let q := s.part p
    let a := lp.table.toNat + 16 + 16 * lp.entry
    if !q.inRegion a 16 || a % 16 != 0 then .fault
    else if s.anyPoison p a 16 then .poison
    else
      let b := s.readBytes p a 16
      let twice := (List.range lp.entry).any fun j => u16 (s.readBytes p (lp.table.toNat + 24 + 16 * j) 2) 0 == u16 b 8
      if badEntry q.maxSeq b || twice then .fault
      else if u32 b 4 = 0 then State.raggedScan fuel s p maxItems { lp with entry := lp.entry + 1 }
      else
        let ctx := u32 b 0
        let tot := ctx + u32 b 4
        let n := pagesOf tot
        let (lo, hi) := if lp.mode = 0 then (ctx, tot) else if lp.mode = 1 then (0, n)
          else (n * lp.split / lp.parts, n * (lp.split + 1) / lp.parts)
        Loop.item { lp with lo := lo, hi := hi, tot := tot } maxItems true

/-- COUNT of the table a ragged loop reads. -/
def State.raggedCount (s : State) (p : Nat) (lp : Loop) : Nat := u32 (s.readBytes p lp.table.toNat 4) 0

/-- The open gather entries of the length table's lines issue ahead of the dispatcher's reads (R99). -/
def State.flushTable (s : State) (p : Nat) (lp : Loop) : State :=
  let s1 := s.flushRun p lp.table.toNat 16
  s1.flushRun p lp.table.toNat (16 + 16 * min (s1.part p).maxSeq (s1.raggedCount p lp))

/-- The dispatcher moves on: within the sequence while items are left, else to the next entry with work. -/
def State.raggedNext (s : State) (p : Nat) (lp : Loop) : Ragged :=
  let maxItems := (((s.onEngines p).image.map (·.needs.raggedMax))).getD 0
  if lp.lo < lp.hi then lp.item maxItems false
  else
    let e := lp.entry + 1
    State.raggedScan (s.raggedCount p lp - e) s p maxItems { lp with entry := e }

/-- An item's particulars are put in its three D registers. -/
def Lane.putItem (x : Lane) (reg : Nat) (d0 d1 d2 : DWord) : Lane :=
  { x with
    arch := { x.arch with x := Map.set 0 (Map.set 0 (Map.set 0 x.arch.x reg d0) (reg + 1) d1) (reg + 2) d2 }
    iss := { x.iss with xBusy := x.iss.xBusy.filter fun r => !(decide (reg ≤ r) && decide (r ≤ reg + 2)) } }

/-! ### Lane code in the scratchpad and the fetch queue (R66, R69, R475) -/

/-- Granules of a lane word with this slot mask. -/
def wordGranules (mask : Nat) : Nat :=
  1 + sumNat ((bitList mask 7).map fun k => if k = 3 || k = 4 then 3 else 2)

/-- The scratchpad address of a lane's code. -/
def Image.codeAddr (im : Image) (l : Nat) : Nat := im.needs.codeDst + ((nth ⟨0, 0, []⟩ im.code (im.laneIndex l)).off - im.codeLow)

/-- Lane word `n` of the code at `addr`. -/
def State.wordAddr (s : State) (p : Nat) : Nat → Nat → Nat
  | 0, addr => addr
  | n + 1, addr => s.wordAddr p n (addr + 4 * wordGranules (u8 (s.readBytes p addr 1) 0 % 128))

/-- The address of the lane word a lane stands at, and the end of its lane's code. -/
def State.lanePlace (s : State) (p l : Nat) : Option (Nat × Nat) :=
  (s.onEngines p).image.map fun im =>
    (s.wordAddr p (s.lane p l).arch.pc (im.codeAddr l),
     im.codeAddr l + 4 * (nth ⟨0, 0, []⟩ im.code (im.laneIndex l)).granules)

/-- Whether the lane word a lane stands at is a yield point: flagged, the lane's first, or its END (R80). -/
def State.atYield (s : State) (p l : Nat) : Bool :=
  match s.lanePlace p l with
  | none => false
  | some (a, _) =>
    let h := u32 (s.readBytes p a 4) 0
    (s.lane p l).arch.pc == 0 || h.testBit 23 || (h.testBit 0 && bits (u64 (s.readBytes p (a + 4) 8) 0) 63 58 == 0x19)

/-- Whether the lane word a lane stands at is in its fetch queue. -/
def State.queued (s : State) (p l : Nat) : Bool :=
  match s.lanePlace p l with
  | none => false
  | some (a, _) =>
    let q := (s.lane p l).iss
    decide (q.qLo ≤ a) && decide (a + 4 * wordGranules (u8 (s.readBytes p a 1) 0 % 128) ≤ q.qHi)

/-- What the fetch queue must go on holding: the lane word the lane stands at, and from its first lane word on the body of
every active loop around it that fits in 2 KiB, so that its loop-back costs nothing (R66). -/
def State.fetchKeep (s : State) (p l a : Nat) : Nat :=
  match (s.onEngines p).image with
  | none => a
  | some im =>
    let x := (s.lane p l).arch
    x.loops.foldl (fun k e =>
      let lo := s.wordAddr p e.2.start (im.codeAddr l)
      let hi := s.wordAddr p (e.2.start + e.2.len) (im.codeAddr l)
      if e.2.active && decide (e.2.start ≤ x.pc) && decide (x.pc < e.2.start + e.2.len) && decide (hi - lo ≤ 2048) then min k lo
      else k) a

/-- The queue filled ahead of issue: it runs on from what it holds, at most 2 KiB of it, or starts anew at a lane word it does
not hold (R66). -/
def State.fillTo (s : State) (p l : Nat) : Nat × Nat :=
  match s.lanePlace p l with
  | none => (0, 0)
  | some (a, top) =>
    let q := (s.lane p l).iss
    let keep := s.fetchKeep p l a
    if q.qLo ≤ keep && keep ≤ q.qHi then
      let hi := max q.qHi (min top (keep + 2048))
      (max q.qLo (hi - 2048), hi)
    else (keep, min top (keep + 2048))

/-- Where a lane now stands decides whether its lane word is in the queue. -/
def State.refetch (s : State) (p l : Nat) : State :=
  let f := s.queued p l
  s.modLane p l fun x => { x with iss := { x.iss with fetched := f } }

/-! ### The end of a step -/

/-- The innermost active loop whose body ends at lane word `pc`. -/
def LaneArch.loopAt (a : LaneArch) (pc : Nat) : Option (Nat × Loop) :=
  let c := a.loops.filter fun e => e.2.active && e.2.start + e.2.len == pc + 1
  c.foldl (fun b e => match b with
    | none => some e
    | some d => if e.2.len < d.2.len then some e else some d) none

def State.setLoop (s : State) (p l k : Nat) (v : Loop) : State :=
  s.modLane p l fun x => { x with arch := { x.arch with loops := Map.set {} x.arch.loops k v } }

def State.setPc (s : State) (p l pc : Nat) : State := s.modLane p l fun x => { x with arch := { x.arch with pc := pc } }

/-- Where the lane goes after lane word `pc` when it falls through: back to the start of the innermost loop that ends
there, or past it; `fuel` bounds the nesting (R69, R74, R213). -/
def State.fallThrough : Nat → State → Nat → Nat → Nat → State
  | 0, s, p, l, pc => s.setPc p l (pc + 1)
  | fuel + 1, s, p, l, pc =>
    match (s.lane p l).arch.loopAt pc with
    | none => s.setPc p l (pc + 1)
    | some (k, lp) =>
      if lp.ragged then
        let s0 := s.flushTable p lp
        match s0.raggedNext p lp with
        | .item lp' d0 d1 d2 =>
          ((s0.setLoop p l k lp').modLane p l fun x => x.putItem lp.reg d0 d1 d2).setPc p l lp.start
        | .done => State.fallThrough fuel (s0.setLoop p l k {}) p l pc
        | .fault => s0.addrFault p l
        | .poison => s0.endResident p stPoisonConsumed
        | .overflow => s0.endResident p stRaggedOverflow
      else if 1 < lp.left then (s.setLoop p l k { lp with left := lp.left - 1 }).setPc p l lp.start
      else State.fallThrough fuel (s.setLoop p l k {}) p l pc

/-- A branch to the first lane word of a loop body from outside it arms that loop (R74). -/
def State.armEntered (s : State) (p l from_ dest : Nat) : State :=
  match (s.onEngines p).image with
  | none => s
  | some im =>
    (im.loops.filter fun x => x.lane == l && x.word + 1 == dest &&
      !(decide (x.word < from_) && decide (from_ ≤ x.word + x.body))).foldl (fun t x =>
        t.setLoop p l x.lc { active := true, start := dest, len := x.body, left := x.count }) s

/-- The strides of R70 are added at the end of an issue. -/
def Lane.addStrides (x : Lane) : Lane :=
  let regs := x.iss.stride0.foldl (fun m e =>
    if e.1 < 16 && !x.iss.wroteA.contains e.1 then Map.set 0 m e.1 (Map.get 0 m e.1 + e.2) else m) x.arch.x
  { x with arch := { x.arch with x := regs } }

/-- The last slot of an issue has acted: strides are added, the step is counted, and the lane repeats its lane word,
branches, stops or falls through (R66, R69, R70, R79). -/
def State.endIssue (s : State) (i : Issue) : State :=
  let s1 := s.modLane i.part i.lane fun x =>
    let y := x.addStrides
    { y with
      arch := { y.arch with cnt := { y.arch.cnt with issued := y.arch.cnt.issued + 1 } }
      iss := { y.iss with done := 0, granted := false, x0 := [], stride0 := [], wroteA := [], target := none, ending := false,
                          xBusy := y.iss.xBusy ++ y.iss.xNew, xNew := [], vPend := y.iss.vPend ++ y.iss.vNew, vNew := [],
                          rNew := [], waitSince := none } }
  let l := s.lane i.part i.lane
  if l.iss.iter < i.rep then
    s1.modLane i.part i.lane fun x => { x with iss := { x.iss with iter := x.iss.iter + 1 } }
  else
    let s2 := s1.modLane i.part i.lane fun x => { x with iss := { x.iss with iter := 0 } }
    if l.iss.ending then s2.modLane i.part i.lane fun x => { x with run := .ended }
    else match l.iss.target with
      | some t => ((s2.armEntered i.part i.lane l.arch.pc t).setPc i.part i.lane t).refetch i.part i.lane
      | none => (State.fallThrough 5 s2 i.part i.lane l.arch.pc).refetch i.part i.lane

/-- A slot has acted; the last one of the mask ends the issue. -/
def State.slotDone (s : State) (i : Issue) (slot : Nat) : State :=
  let d := (s.lane i.part i.lane).iss.done ||| 2 ^ slot
  if i.mask &&& d = i.mask then s.endIssue i
  else s.modLane i.part i.lane fun x => { x with iss := { x.iss with done := d } }

/-- A slot that reads or writes the scalar registers `rs`, and is held while `busy` says so, acts by `f` (R64, R67).
Where the action ended the job, its lanes are off the engines and nothing is left to end. -/
def State.onSlot (s : State) (i : Issue) (slot : Nat) (rs : List Nat) (busy : State → Bool) (f : State → State)
    (isEnd : Bool := false) : State :=
  match s.gate i slot isEnd with
  | .idle => s
  | .held t => t
  | .go t =>
    if t.xHeld i rs || busy t then t.countInterlock i.part i.lane
    else
      let u := f t
      if (u.lane i.part i.lane).iss.fetched then u.slotDone i slot else u

/-- A slot goes on after the gather entries of its lines have issued, unless one of their loads has ended the job (R414). -/
def State.ifLive (s : State) (i : Issue) (f : State → State) : State :=
  if (s.lane i.part i.lane).iss.fetched then f s else s

/-- Nothing else holds the slot. -/
def free (_ : State) : Bool := false

end Sys2Proof.Machine
end

