-- ==== Sys2Proof/Machine/DdrOps.lean ====
section
/-! DEFINITION. DDR5 errors, key pairs and data areas (R151 to R156). -/

namespace Sys2Proof.Machine

/-- How a stored line reads back (R153, R155, R410): a corrected beat is written back, an uncorrectable one poisons the line;
both count at the page (R156). -/
def State.ddrEcc (s : State) (line : Nat) (ecc : Ecc) : State :=
  let pg := line / 64
  let sub := subOf line
  let data := fun n => leBytes 8 (physOf line) ++ leBytes 4 n
  match ecc with
  | .clean => s
  | .corrected =>
    let s1 := { s with ddr := { s.ddr with pages := Map.modify {} s.ddr.pages pg fun x =>
      { x with corrected := s.now :: x.corrected.filter fun t => decide (s.now < t + 86400000000) } } }
    s1.logCorrected sub 0x0401 0xFF data
  | .uncorrectable =>
    let s1 := { s with ddr := { s.ddr with
      poison := Map.set false s.ddr.poison line true
      pages := Map.modify {} s.ddr.pages pg fun x => { x with bad := true } } }
    s1.log sub 0x0402 0xFF (data 1)

/-- What partition `p` wrote in a range of its space is forgotten: its key pair goes (R154). -/
def State.ddrForget (s : State) (p : Nat) : State :=
  { s with ddr := { s.ddr with
    mem := Map.eraseRange s.ddr.mem (2 ^ 44 * p) (2 ^ 44 * (p + 1))
    poison := Map.eraseRange s.ddr.poison (2 ^ 38 * p) (2 ^ 38 * (p + 1))
    keyGen := Map.erase s.ddr.keyGen p
    pairs := Map.erase s.ddr.pairs p } }

/-- A key pair is created for a partition whose DDR5 is first granted. -/
def State.ddrKey (s : State) (p : Nat) : State :=
  if Map.get 0 s.ddr.keyGen p = 0 then
    { s with ddr := { s.ddr with
      keyGen := Map.set 0 s.ddr.keyGen p s.ddr.nextKey, pairs := Map.set 0 s.ddr.pairs p s.ddr.nextKey
      nextKey := s.ddr.nextKey + 1 } }
  else s

/-- Whether the `n` bytes at an offset of the partition's DDR5 space lie in a data area of one of its images (R151). -/
def Part.inDataArea (q : Part) (off n : Nat) : Bool :=
  q.ctxs.any fun c => match c.2.image with
    | some im => decide (im.dataBase ≤ off) && decide (off + n ≤ im.dataBase + im.needs.ddr5)
    | none => false

/-- The data areas of the partition's images: base and end. -/
def Part.dataAreas (q : Part) : List (Nat × Nat) :=
  q.ctxs.filterMap fun c => c.2.image.map fun im => (im.dataBase, im.dataBase + im.needs.ddr5)

/-- The base that a data area of `n` bytes gets (log entry 168): the lowest, of 0 and the ends of the other data areas on a
64-byte boundary, from which it meets no other. -/
def Part.freeBase (q : Part) (n : Nat) : Nat :=
  let l := q.dataAreas
  let free := fun b => l.all fun e => decide (b + n ≤ e.1) || decide (e.2 ≤ b)
  let ends := l.map fun e => roundUp 64 e.2
  ((0 :: ends).filter free).foldl min (ends.foldl max 0)

end Sys2Proof.Machine
end

