-- ==== Sys2Proof/Machine/HuvOps.lean ====
section
/-! DEFINITION. Sending over Huveip: routes, credits, frames, and what the loss of a session does
(R128 to R137). -/

namespace Sys2Proof.Machine

/-- An empty frame to fill in. -/
def blankFrame : RxFrame :=
  { seq := 0, ack := 0, ackv := false, nak := false, vc := 0, dst := 0, src := 0, first := false, last := false, winId := 0,
    gen := 0, flags := 0, lineOff := 0, tctr := 0, tamt := 0, wtag := 0, hops := 0, payload := [], crcOk := true,
    crcInverted := false, tagOk := true }

/-- TYPE of a frame (R129). -/
def tyWrite : Nat := 0
def tySignal : Nat := 1
def tyCompletion : Nat := 2
def tyPace : Nat := 3
def tyLink : Nat := 4

/-- A port's credit of a frame's channel; LINK frames need none (R131). -/
def Credits.has (c : Credits) (ty vc : Nat) : Bool :=
  if ty = 4 then true else if ty < 2 then (if vc = 0 then decide (0 < c.c0) else decide (0 < c.c1)) else decide (0 < c.cc)
def Credits.take (c : Credits) (ty vc : Nat) : Credits :=
  if ty = 4 then c
  else if ty < 2 then (if vc = 0 then { c with c0 := c.c0 - 1 } else { c with c1 := c.c1 - 1 })
  else { c with cc := c.cc - 1 }
def Credits.give (c : Credits) (ty vc n : Nat) : Credits :=
  if ty = 4 then c
  else if ty < 2 then (if vc = 0 then { c with c0 := c.c0 + n } else { c with c1 := c.c1 + n })
  else { c with cc := c.cc + n }
def Credits.total (c : Credits) : Nat := c.c0 + c.c1 + c.cc

/-- Bytes a frame takes in the replay buffer (R128). -/
def TxFrame.bytes (f : TxFrame) : Nat := 36 + f.f.payload.length

/-- The link word of a frame (R129). -/
def linkWord (f : RxFrame) : List Byte :=
  leBytes 4 (f.seq % 4096 + f.ack % 4096 * 2 ^ 12 + f.ackv.toNat * 2 ^ 24 + f.nak.toNat * 2 ^ 25 + f.vc % 2 * 2 ^ 26)

/-- The header of a frame (R129). -/
def frameHeader (ty : Nat) (f : RxFrame) : List Byte :=
  leBytes 16 (f.dst % 2 ^ 16 + f.src % 2 ^ 16 * 2 ^ 16 + ty % 8 * 2 ^ 32 + f.payload.length / 64 % 8 * 2 ^ 35 +
    f.first.toNat * 2 ^ 38 + f.last.toNat * 2 ^ 39 + f.winId % 2 ^ 12 * 2 ^ 40 + f.gen % 2 ^ 16 * 2 ^ 52 + f.flags % 16 * 2 ^ 68 +
    f.lineOff % 2 ^ 22 * 2 ^ 72 + f.tctr % 256 * 2 ^ 94 + f.tamt % 256 * 2 ^ 102 + f.wtag % 2 ^ 10 * 2 ^ 110 + f.hops % 256 * 2 ^ 120)

/-- The 36 bytes of key and salt that a side sends under, of the 104 of R403; none before a session. -/
def Session.sendKey (x : Session) (m : List Byte) : List Byte :=
  if m.isEmpty then [] else if x.initiator then slice m 0 32 ++ slice m 64 4 else slice m 32 32 ++ slice m 68 4

/-- Header, payload and tag of a frame (R132, R400): before a session the payload is clear and the tag 0. -/
def TxFrame.sealed (t : TxFrame) : List Byte :=
  let head := frameHeader t.ty t.f
  if t.key.isEmpty then head ++ t.f.payload ++ zeros 12
  else
    let nonce := slice t.key 32 4 ++ leBytes 8 t.no
    let ct := gcmCrypt (t.key.take 32) nonce t.f.payload
    head ++ ct ++ gcmTag 12 (t.key.take 32) nonce head ct

/-- The bytes of a frame on the link (R128, R132): link word, header, encrypted payload, tag, and the CRC-32 over all before it,
inverted where the copy is to be discarded. -/
def TxFrame.wire (t : TxFrame) : List Byte :=
  let body := linkWord t.f ++ t.sealed
  let c := crc32 body
  body ++ leBytes 4 (if t.f.crcInverted then 2 ^ 32 - 1 - c else c)

/-- Whether the 256 KiB replay buffer has room for a frame. -/
def Port.room (x : Port) (f : TxFrame) : Bool := decide (sumNat (x.replay.map TxFrame.bytes) + f.bytes ≤ 262144)

/-- A frame as the next one of the hop: its link word is this hop's own, its key the session's for its number (R129, R403). -/
def Port.numbered (x : Port) (f : TxFrame) : TxFrame :=
  { f with
    f := { f.f with seq := x.txNext % 4096, ack := (x.rxNext + 4095) % 4096, ackv := decide (0 < x.rxNext), nak := false }
    no := x.txNext
    key := x.session.sendKey (if x.txNext < x.session.switchTx then x.session.oldMaterial else x.session.material) }

/-- A frame goes out with its number and the acknowledgement of what has been received (R129, R130). -/
def State.transmit (s : State) (h : Nat) (f : TxFrame) : State :=
  let x := s.port h
  let g := x.numbered f
  (s.setPort h { x with
    txNext := x.txNext + 1
    replay := x.replay ++ [{ g with source := none }]
    credits := x.credits.take f.ty f.f.vc
    session := { x.session with frames := x.session.frames + 1 }
    stats := { x.stats with framesTx := x.stats.framesTx + 1 } }).emit (.frame h f.ty g.f g.wire)

/-- Whether the port carries frames of the type: traffic only while the session is up, LINK frames from training on. -/
def Port.carries (x : Port) (ty : Nat) : Bool :=
  x.state == .up || x.state == .retraining || (ty == 4 && x.state == .attesting)

/-- Whether a frame may go out at once: no retrain, a credit, room, and none of its channel before it. -/
def Port.clear (x : Port) (t : TxFrame) : Bool :=
  x.state != .retraining && x.credits.has t.ty t.f.vc && x.room t && !(x.waiting.any fun w => w.ty == t.ty && w.f.vc == t.f.vc)

/-- A frame of this device is sent, or waits for a credit, for room or for the end of a retrain. -/
def State.sendFrame (s : State) (h ty : Nat) (f : RxFrame) : State :=
  let x := s.port h
  let t : TxFrame := { ty := ty, f := f }
  if x.clear t then s.transmit h t else s.setPort h { x with waiting := x.waiting ++ [t] }

/-! ### Credits owed (R131) -/

/-- A LINK frame returns the credits owed: 12 bits a channel in header bits [51:40], [63:52] and [75:64]. -/
def State.returnCredits (s : State) (h : Nat) : State :=
  let x := s.port h
  let o := x.owed
  (s.setPort h { x with owed := {} }).sendFrame h tyLink
    { blankFrame with
      src := s.huv.devId
      winId := o.c0, gen := o.c1 + 4096 * (o.cc % 16), flags := o.cc / 16 % 16, lineOff := o.cc / 256, hops := 255 }

/-- A slot of the receive buffer is free again; 32 owed credits are returned at once. -/
def State.owe (s : State) (h ty vc : Nat) : State :=
  let s1 := s.setPort h { s.port h with owed := (s.port h).owed.give ty vc 1 }
  if 32 ≤ (s1.port h).owed.total then s1.returnCredits h else s1

/-- A forwarded frame is sent or waits; the slot it was received in is free once it has gone out. -/
def State.relay (s : State) (h : Nat) (t : TxFrame) : State :=
  let x := s.port h
  if x.clear t then
    match t.source with
    | some (k, vc) => (s.transmit h t).owe k t.ty vc
    | none => s.transmit h t
  else s.setPort h { x with waiting := x.waiting ++ [t] }

/-- Waiting frames go out in order as far as credits and room allow. -/
def State.drainWaiting (s : State) (h : Nat) : State :=
  let x := s.port h
  x.waiting.foldl (fun (t : State) (w : TxFrame) => t.relay h w) (s.setPort h { x with waiting := [] })

/-- Route table entry of a destination; tables are numbered 1 LOCAL and 4 to 7 (R136, R137). -/
def State.route (s : State) (table dst : Nat) : Nat := Map.get 0 s.huv.routes (65536 * table + dst)

/-- What a route says: no route, here, or out of a port on a channel. -/
inductive Way where
  | none
  | here
  | out (port : Nat) (dateline : Bool)
  deriving DecidableEq, Repr

/-- The way from an entry point to a destination. -/
def State.way (s : State) (table dst : Nat) : Way :=
  let e := s.route table dst
  let o := e % 8
  if o = 1 then (if dst = s.huv.devId then .here else .none)
  else if 4 ≤ o then .out (o - 4) (e.testBit 3) else .none

/-- A device's own ID reaches itself. -/
def State.isOwn (s : State) (dev : Nat) : Bool := dev == s.huv.devId

/-- A completion for a write of device `dst` with its tag and status (R129, R136): to a write of this device it comes
at once. -/
def State.sendCompletion (s : State) (dst wtag status : Nat) : State :=
  if s.isOwn dst then
    { s with fab := { s.fab with writes := s.fab.writes.map fun w =>
      if w.phase == .sent && w.tag = wtag then
        { w with phase := if status = stOk then .applied else .faulted, status := status } else w } }
  else match s.way 1 dst with
    | .out h _ =>
      if (s.port h).carries tyCompletion then
        s.sendFrame h tyCompletion
          { blankFrame with dst := dst, src := s.huv.devId, lineOff := status, wtag := wtag, hops := 255 }
      else s
    | _ => s

/-- Destinations that a port's routes of the local fabric reach. -/
def State.reachedBy (s : State) (h : Nat) : List Nat :=
  (s.huv.routes.filter fun e => e.1 / 65536 = 1 && e.2 % 8 = h + 4).map fun e => e.1 % 65536

/-- The logical peers of every partition: the devices that LOCAL routes reach, the device itself apart (log entry 29). -/
def State.peers (s : State) : List Nat :=
  ((s.huv.routes.filter fun e => e.1 / 65536 = 1 && 4 ≤ e.2 % 8).map fun e => e.1 % 65536).filter (· != s.huv.devId) |>.take 255

end Sys2Proof.Machine
end

