-- ==== Sys2Proof/Machine/TileOps.lean ====
section
/-! DEFINITION. The memories of a tile and the vector registers of a lane: reads, writes, poison, and what is still in
flight (R35, R37, R42, R46). -/

namespace Sys2Proof.Machine

/-- What a tile memory or a register holds that nothing has written since it was lost; 0 from the start of the module
(log entry 11). -/
def fillByte (fill : Option Nat) (base k : Nat) : Byte :=
  match fill with
  | none => 0
  | some f => (Config.freeWord (f + base + k)).truncate 8
def fillWord (fill : Option Nat) (base k : Nat) : Word :=
  match fill with
  | none => 0
  | some f => (Config.freeWord (f + base + k)).truncate 32

/-- The 272 bytes of an operand slot. -/
def Tile.readSlot (t : Tile) (k : Nat) : List Byte := Map.read (fillByte t.fill 0) t.slots (272 * k) 272
/-- An operand slot written from byte `o` on; a write of the whole slot replaces its poison, a partial one keeps it. The slot
is valid, and no write to it is in flight. -/
def Tile.writeSlot (t : Tile) (k o : Nat) (b : List Byte) (poison : Bool) : Tile :=
  { t with slots := Map.write t.slots (272 * k + o) b
           slotValid := Map.set false t.slotValid k true
           slotFlight := Map.set false t.slotFlight k false
           slotPoison := Map.set false t.slotPoison k
             (if b.length = 272 then poison else poison || Map.get false t.slotPoison k) }
/-- Whether an operand slot is poisoned. -/
def Tile.slotBad (t : Tile) (k : Nat) : Bool := Map.get false t.slotPoison k

/-- The 64 bytes of a line-buffer unit. -/
def Tile.readUnit (t : Tile) (k : Nat) : List Byte := Map.read (fillByte t.fill (2 ^ 20)) t.line (64 * k) 64
def Tile.writeUnit (t : Tile) (k : Nat) (b : List Byte) (poison : Bool) : Tile :=
  { t with line := Map.write t.line (64 * k) b, linePoison := Map.set false t.linePoison k poison }
def Tile.unitBad (t : Tile) (k : Nat) : Bool := Map.get false t.linePoison k

/-- The 16 words of an accumulator row. -/
def Tile.readAcc (t : Tile) (row : Nat) : List Word := Map.read (fillWord t.fill (2 ^ 21)) t.acc (16 * row) 16
/-- An accumulator row written, with its poison and whether it holds INT32 (R191). -/
def Tile.writeAcc (t : Tile) (r : AccRow) : Tile :=
  { t with acc := Map.write t.acc (16 * r.row) r.words
           accPoison := Map.set false t.accPoison r.row r.poison
           accInt := Map.set false t.accInt r.row r.int32 }
def Tile.accBad (t : Tile) (row : Nat) : Bool := Map.get false t.accPoison row

/-- The tile a lane drives. -/
def State.tileAt (s : State) (p l : Nat) : Tile := s.tile (s.laneTile p l)
def State.modTileAt (s : State) (p l : Nat) (f : Tile → Tile) : State :=
  s.setTile (s.laneTile p l) (f (s.tileAt p l))

/-- The 64 words of a vector register. -/
def LaneArch.readV (a : LaneArch) (r : Nat) : List Word := Map.read (fillWord a.fill 0) a.v (64 * r) 64
def LaneArch.writeV (a : LaneArch) (r : Nat) (w : List Word) (poison : Bool) : LaneArch :=
  { a with v := Map.write a.v (64 * r) w, vPoison := Map.set false a.vPoison r poison }
def LaneArch.vBad (a : LaneArch) (r : Nat) : Bool := Map.get false a.vPoison r

/-- The bytes of words, little-endian. -/
def wordBytes (l : List Word) : List Byte := l.flatMap fun w => leBytes 4 w.toNat

/-- `n` words from bytes. -/
def bytesWords : Nat → List Byte → List Word
  | 0, _ => []
  | n + 1, b => BitVec.ofNat 32 (leNat 4 b) :: bytesWords n (b.drop 4)

/-- The run of `n` numbers from `a`. -/
def run (a n : Nat) : List Nat := (List.range n).map (a + ·)

/-- The loads of one kind a lane still awaits; LDV loads of the present step apart. -/
def State.loads (s : State) (p l : Nat) (k : RKind) : List Nat :=
  (s.fab.reads.filter fun r => r.part == p && r.lane == l && r.kind == k && !(s.lane p l).iss.rNew.contains r.id).flatMap
    fun r => run r.dst r.count

/-- The in-flight bits of a run of slots are set. -/
def Tile.startSlots (t : Tile) (ks : List Nat) : Tile :=
  { t with slotFlight := ks.foldl (fun m k => Map.set false m k true) t.slotFlight }
/-- One more operation reads the slots and units. -/
def Tile.startReads (t : Tile) (slots units : List Nat) : Tile :=
  { t with slotReaders := slots.foldl (fun m k => Map.modify 0 m k (· + 1)) t.slotReaders
           unitReaders := units.foldl (fun m k => Map.modify 0 m k (· + 1)) t.unitReaders }
/-- Every operation issued has finished reading. -/
def Tile.endReads (t : Tile) : Tile := { t with slotReaders := [], unitReaders := [] }
/-- Slots and units that an issued operation is still reading. -/
def Tile.slotsRead (t : Tile) : List Nat := t.slotReaders.map Prod.fst
def Tile.unitsRead (t : Tile) : List Nat := t.unitReaders.map Prod.fst

/-- What vector results a lane awaits write: registers, and memory of a kind. -/
def LaneIssue.pendRegs (x : LaneIssue) : List Nat := x.vPend.filterMap fun v => match v with
  | .reg r _ _ => some r
  | _ => none
def LaneIssue.pendMem (x : LaneIssue) (kind : Nat) : List Nat := x.vPend.flatMap fun v => match v with
  | .mem k idx ps _ _ => if k = kind then (if kind = 1 then ps.map fun e => idx + e.1 / 272 else run idx 4) else []
  | _ => []

/-- Operand slots, line-buffer units, accumulator rows and vector registers with a write in flight (R46, R64). -/
def State.slotsInFlight (s : State) (p l : Nat) : List Nat := (s.tileAt p l).slotFlight.map Prod.fst
def State.unitsInFlight (s : State) (p l : Nat) : List Nat := s.loads p l .ldl ++ (s.lane p l).iss.pendMem 2
def State.accInFlight (s : State) (p l : Nat) : List Nat :=
  (s.tileAt p l).accPend.map (·.row) ++ (s.lane p l).iss.pendMem 0
def State.regsInFlight (s : State) (p l : Nat) : List Nat := s.loads p l .ldv ++ (s.lane p l).iss.pendRegs

/-- LDV loads of the present step no longer write the registers that a later slot of the lane word writes (R46, R64). -/
def State.supersede (s : State) (p l : Nat) (regs : List Nat) : State :=
  { s with fab := { s.fab with reads := s.fab.reads.map fun r =>
      if (s.lane p l).iss.rNew.contains r.id && r.part == p && r.lane == l then { r with skip := regs ++ r.skip } else r } }

/-- Whether two lists share a number. -/
def meet (a b : List Nat) : Bool := a.any b.contains

end Sys2Proof.Machine
end

