-- ==== Sys2Proof/Machine/Fabric.lean ====
section
/-! DEFINITION. Writes on their way: windows and their handles, the home check, landing, and the frames of remote
writes (R111 to R125, R413). -/

namespace Sys2Proof.Machine

/-- Bits [47:44] of a window's handle. -/
def Win.hFlags (w : Win) : Nat := w.flags + w.ddr5.toNat * 8

/-- The handle of window `id` of this device. -/
def State.handle (s : State) (id : Nat) : DWord :=
  let w := s.win id
  BitVec.ofNat 64 (s.huv.devId + id * 2 ^ 16 + w.gen * 2 ^ 28 + w.hFlags * 2 ^ 44)

/-! ### The window table -/

/-- Whether a window ID may be opened. -/
def Win.isFree (w : Win) : Bool := !w.isOpen && !w.closing && !w.retired

/-- The free ID that has been closed longest; IDs never opened come first, in number order (R114). -/
def State.freeWindow (s : State) : Option Nat :=
  match (List.range 4096).find? fun n => (s.win n).isFree && !s.fab.closedOrder.contains n with
  | some n => some n
  | none => s.fab.closedOrder.find? fun n => (s.win n).isFree

/-- Open windows of a partition. -/
def State.openWindows (s : State) (p : Nat) : Nat :=
  (s.fab.wins.filter fun e => e.2.isOpen && e.2.kind == .partition && e.2.part == p).length

/-- A window is opened under an ID, whose generation stands. -/
def State.openWindow (s : State) (id : Nat) (w : Win) : State :=
  let s1 := s.setWin id { w with isOpen := true, gen := (s.win id).gen }
  { s1 with fab := { s1.fab with closedOrder := s1.fab.closedOrder.filter (· != id) } }

/-- Whether an accepted write to the window has not landed yet, its increment with it. -/
def State.landing (s : State) (id : Nat) : Bool :=
  s.fab.writes.any fun w => (w.phase == .accepted || w.phase == .landed) && hWindow w.handle == id && w.op != .wb && w.op != .halo

/-- A closed window whose writes have landed is free, and the command that closed it completes; a generation of 0xFFFF retires
the ID (R117, R118). -/
def State.freeClosed (s : State) (id : Nat) : State :=
  let w := s.win id
  if w.closing && !s.landing id then
    let s1 := s.setWin id { gen := w.gen, retired := decide (w.gen = 0xFFFF), late := w.late, lateLogged := w.lateLogged }
    { s1 with fab := { s1.fab with closedOrder := s1.fab.closedOrder.filter (· != id) ++ [id] } }.finishAll w.closer.toList 0
  else s

/-- Closing marks the window closed and adds 1 to its generation (R117 step 1). -/
def State.closeWindow (s : State) (id : Nat) : State :=
  let w := s.win id
  if w.isOpen then (s.setWin id { w with isOpen := false, closing := true, gen := w.gen + 1 }).freeClosed id else s

/-! ### Tracked writes -/

def State.write (s : State) (id : Nat) : Option Write := s.fab.writes.find? (·.id == id)
def State.modWrite (s : State) (id : Nat) (f : Write → Write) : State :=
  { s with fab := { s.fab with writes := s.fab.writes.map fun w => if w.id = id then f w else w } }
def State.dropWrite (s : State) (id : Nat) : State :=
  { s with fab := { s.fab with writes := s.fab.writes.filter (·.id != id) } }
def State.addWrite (s : State) (w : Write) : State := { s with fab := { s.fab with writes := s.fab.writes ++ [w] } }

/-- A write ends with a fault status; its completion is still to return. -/
def State.failWrite (s : State) (id status : Nat) : State :=
  s.modWrite id fun w => { w with phase := .faulted, status := status }

/-- Remote writes of this device still without a completion: at most 1,024 (R125). -/
def State.remoteOut (s : State) : Nat := (s.fab.writes.filter (·.phase == .sent)).length

/-- The lowest write tag not in use. -/
def State.freeTag (s : State) : Nat :=
  ((List.range 1024).find? fun t => !(s.fab.writes.any fun w => w.phase == .sent && w.tag == t)).getD 0

/-- Bytes cut into pieces of `n`; `fuel` bounds them. -/
def chunks : Nat → Nat → List Byte → List (List Byte)
  | 0, _, _ => []
  | fuel + 1, n, b => if b.isEmpty then [] else b.take n :: chunks fuel n (b.drop n)

/-- The frames of a write (R128, R129): up to 256 bytes each; a write without data is one SIGNAL frame. -/
def Write.frames (w : Write) (src vc tag : Nat) : List (Nat × RxFrame) :=
  let base := { blankFrame with
    vc := vc, dst := hDevice w.handle, src := src, winId := hWindow w.handle, gen := hGen w.handle, flags := hFlags w.handle,
    wtag := tag, hops := 255 }
  let lines := w.data.length / 64
  let cs := chunks 64 256 w.data
  if cs.isEmpty then
    [(tySignal, { base with first := true, last := true, lineOff := w.off / 64, tctr := w.tctr, tamt := w.tamt })]
  else
    cs.zipIdx.map fun e =>
      let first := e.2 == 0
      let last := e.2 + 1 == cs.length
      (tyWrite, { base with
        first := first, last := last, payload := e.1, lineOff := w.off / 64 + 4 * e.2
        tctr := if last then w.tctr else if first then lines - 1 else 0
        tamt := if last then w.tamt else 0 })

/-- A write to another device leaves by the LOCAL route (R136), unless its data are poisoned (R413); it waits, as issued, while
the tracker holds 1,024 (R125). -/
def State.sendRemote (s : State) (id : Nat) (w : Write) : State :=
  if w.poison.any id' then
    (s.failWrite id stPoisonConsumed).log 0xFFFF 0x0205 w.part (leBytes 2 (hDevice w.handle))
  else if 2 ^ 28 < w.off + w.data.length then s.failWrite id stWindowRange
  else match s.way 1 (hDevice w.handle) with
    | .out h dl =>
      if 1024 ≤ s.remoteOut then s
      else if (s.port h).carries tyWrite then
        let tag := s.freeTag
        let s1 := s.modWrite id fun x => { x with phase := .sent, tag := tag }
        (w.frames s.huv.devId dl.toNat tag).foldl (fun t f => t.sendFrame h f.1 f.2) s1
      else s.failWrite id stLinkDown
    | _ => s.failWrite id stNoRoute
where
  /-- A poison mark as it stands. -/
  id' (b : Bool) : Bool := b

/-- A write through a window is issued (R113): to a window of this device it goes to its home check, otherwise out
over Huveip. -/
def State.issueWrite (s : State) (w : Write) : Nat × State :=
  let (n, s1) := s.newId
  let s2 := s1.addWrite { w with id := n }
  (n, if hReserved w.handle != 0 then s2.failWrite n stWindowClosed
      else if s.isOwn (hDevice w.handle) then s2
      else s2.sendRemote n { w with id := n })

/-- Whether a write's issuer lies outside the partition that owns the window. -/
def WSrc.foreign (x : WSrc) (p : Nat) : Bool :=
  match x with
  | .lane q _ => q != p
  | .post q _ => q != p
  | _ => true

/-- A remote write of more than one frame (R128). -/
def Write.multi (w : Write) : Bool :=
  (match w.src with
    | .peer _ _ => true
    | _ => false) && decide (256 < w.data.length + 64 * w.missing)

/-- The home check (R119): the status of the first check that fails. Check 4 of a multi-frame remote write is made at its last
frame, whose data land all the same (applyIncrement). -/
def State.homeCheck (s : State) (w : Write) : Option Nat :=
  let x := s.win (hWindow w.handle)
  let len := w.data.length + 64 * w.missing
  firstFail [
    (!x.isOpen || hGen w.handle != x.gen, stWindowClosed),
    (hFlags w.handle != x.hFlags || !(x.flags.testBit (if w.op == .signal then 1 else 0)) ||
      (w.src.foreign x.part && !x.flags.testBit 2), stWindowDenied),
    (decide (x.len < w.off + len), stWindowRange),
    (!w.multi && w.tamt != 0 && decide (x.tokCount ≤ w.tctr), stTokenRange)]

/-- A refused write counts as late at its window's owner where the window is closed; at most one record per window and
second (R120). -/
def State.countLate (s : State) (id status : Nat) : State :=
  if status != stWindowClosed then s
  else
    let x := s.win id
    let due := match x.lateLogged with
      | none => true
      | some t => decide (t + 1000000 ≤ s.now)
    let s1 := s.setWin id { x with late := x.late + 1, lateLogged := if due then some s.now else x.lateLogged }
    if due then s1.log 0xFFFF 0x0203 x.part (leBytes 2 id ++ leBytes 4 (x.late + 1)) else s1

/-- A refused write to a window that its owner has closed since counts as late: its generation lies behind (R120). -/
def State.lateArrival (s : State) (h : DWord) (status : Nat) : State :=
  if hGen h < (s.win (hWindow h)).gen then s.countLate (hWindow h) status else s

/-- Whole lines written at successive places. -/
def State.landLines (s : State) (p addr : Nat) (b : List Byte) (poison : List Bool) : State :=
  let lines := (chunks (b.length / 64 + 1) 64 b).zipIdx.map fun e => (e.1, nth false poison e.2)
  (s.flushRun p addr b.length).writeLines p addr lines

/-- The data of an accepted write reach the scratchpad behind its window; a HALO's reach the line buffer of its lane; a
WB's their address. A record for Steeple goes to its own query slots (R269). -/
def State.landWrite (s : State) (w : Write) : State :=
  match w.op with
  | .halo => s.modTileAt w.part w.dst fun t =>
      ((chunks 1024 64 w.data).zipIdx).foldl (fun t e => t.writeUnit (w.off + e.2) e.1 (nth false w.poison e.2)) t
  | .wb => s.landLines w.part w.dst w.data w.poison
  | _ =>
    let x := s.win (hWindow w.handle)
    match x.kind with
    | .query _ => s
    | _ => s.landLines x.part (x.spAddr w.off) w.data w.poison

/-- A DDR5-backed write's next line is taken by the controller (R474). -/
def State.landDdrLine (s : State) (w : Write) : State :=
  let x := s.win (hWindow w.handle)
  s.ddrWrite (ddrLine x.part (x.off + w.off + 64 * w.acked)) (slice w.data (64 * w.acked) 64) (nth false w.poison w.acked)

/-- Whether a write goes to DDR5. -/
def State.toDdr (s : State) (w : Write) : Bool :=
  match w.op with
  | .halo => false
  | .wb => false
  | _ => (s.win (hWindow w.handle)).ddr5

end Sys2Proof.Machine
end

