-- ==== Sys2Proof/Machine/SSlot.lean ====
section
/-! DEFINITION. The S slot (R64, R70, R74, R76, R212, R213): scalar arithmetic, loads and stores, sequence. -/

namespace Sys2Proof.Machine

/-! ### Fields of the S slot (R74) -/

def sOp (w : DWord) : Nat := bits w.toNat 63 58
def sRd (w : DWord) : Nat := bits w.toNat 57 53
def sRs1 (w : DWord) : Nat := bits w.toNat 52 48
def sRs2 (w : DWord) : Nat := bits w.toNat 47 43
def sImmSel (w : DWord) : Bool := w.getLsbD 42
def sImm (w : DWord) : Nat := bits w.toNat 31 0
/-- IMM32, sign-extended. -/
def sImmX (w : DWord) : DWord := (w.extractLsb' 0 32).signExtend 64

/-- Source 2: IMM32 sign-extended or RS2. -/
def State.src2 (s : State) (i : Issue) (w : DWord) : DWord := if sImmSel w then sImmX w else s.lx i (sRs2 w)

/-- The registers source 2 reads. -/
def src2Regs (w : DWord) : List Nat := if sImmSel w then [] else [sRs2 w]

/-- A slot command whose word carries an opcode of its row runs; any other word is no command of the row. -/
def slotRes (ok : Bool) (mn : String) (s : State) : Res := if ok then .next s else .refused (.malformedCommand mn)

/-- RD = RS1 op source 2, 64-bit and wrapping: ADD, SUB, AND, OR, XOR; shifts by source 2 [5:0]; MUL; compares. -/
def sResult (op : Nat) (a b : DWord) : DWord :=
  match op with
  | 0x01 => a + b
  | 0x02 => a - b
  | 0x03 => a &&& b
  | 0x04 => a ||| b
  | 0x05 => a ^^^ b
  | 0x06 => a <<< (b.toNat % 64)
  | 0x07 => a >>> (b.toNat % 64)
  | 0x08 => a.sshiftRight (b.toNat % 64)
  | 0x09 => a * b
  | 0x0A => if a.slt b then 1 else 0
  | 0x0B => if a.ult b then 1 else 0
  | _ => if a = b then 1 else 0

/-- A two-source S instruction. -/
def State.sBinary (s : State) (i : Issue) (w : DWord) : State :=
  s.onSlot i 0 (sRd w :: sRs1 w :: src2Regs w) free fun t =>
    t.setX i (sRd w) (sResult (sOp w) (t.lx i (sRs1 w)) (t.src2 i w))

/-- An empty lane word is one step that does nothing (R69); its carrier is S_NOP. -/
def State.emptyStep (s : State) (i : Issue) : State :=
  let l := s.lane i.part i.lane
  if !s.laneOn i.part i.lane then s
  else if !l.iss.fetched then s.countFetch i.part i.lane
  else match s.boundary i false with
    | .idle => s
    | .held t => t
    | .go t => t.endIssue i

def execSNop (i : Issue) (w : DWord) (s : State) : Res :=
  slotRes (sOp w == 0) "S_NOP" (if i.isEmpty then s.emptyStep i else s.onSlot i 0 [] free id)

def execSAlu (i : Issue) (w : DWord) (s : State) : Res :=
  slotRes (decide (1 ≤ sOp w) && decide (sOp w ≤ 5)) "S_ALU" (s.sBinary i w)

def execSShift (i : Issue) (w : DWord) (s : State) : Res :=
  slotRes (decide (6 ≤ sOp w) && decide (sOp w ≤ 8)) "S_SHIFT" (s.sBinary i w)

def execSMul (i : Issue) (w : DWord) (s : State) : Res := slotRes (sOp w == 9) "S_MUL" (s.sBinary i w)

def execSCompare (i : Issue) (w : DWord) (s : State) : Res :=
  slotRes (decide (0x0A ≤ sOp w) && decide (sOp w ≤ 0x0C)) "S_COMPARE" (s.sBinary i w)

def execMovi (i : Issue) (w : DWord) (s : State) : Res :=
  slotRes (sOp w == 0x0D) "MOVI" (s.onSlot i 0 [sRd w] free fun t => t.setX i (sRd w) (sImmX w))

/-- RD[63:32] = IMM32; RD[31:0] kept. -/
def execMovhi (i : Issue) (w : DWord) (s : State) : Res :=
  slotRes (sOp w == 0x0E) "MOVHI" (s.onSlot i 0 [sRd w] free fun t =>
    t.setX i (sRd w) ((w.extractLsb' 0 32) ++ ((t.lx i (sRd w)).extractLsb' 0 32)))

/-- The stride of A register RD is source 2, from the next issue on (R70). -/
def execSetstr (i : Issue) (w : DWord) (s : State) : Res :=
  slotRes (sOp w == 0x0F) "SETSTR" (s.onSlot i 0 (src2Regs w) free fun t =>
    t.modLane i.part i.lane fun x => { x with arch := { x.arch with stride := Map.set 0 x.arch.stride (sRd w) (t.src2 i w) } })

/-- Bytes of a scalar access: the value of the RS2 field itself (0 and 1: 4 bytes, 2: 8 bytes). -/
def sWidth (w : DWord) : Nat := if sRs2 w % 4 < 2 then 4 else 8

/-- A narrow access at a partition address: aligned to its width and within a region, or it does not take place. -/
def State.narrow (s : State) (i : Issue) (addr : Nat) (a : GAccess) : State :=
  if addr % a.width != 0 || !(s.part i.part).inRegion addr a.width then s.addrFault i.part i.lane
  else s.gather ((s.part i.part).line addr) { a with off := addr % 64 }

/-- SLD: the register is awaited until the access returns. -/
def State.scalarLoad (s : State) (i : Issue) (w : DWord) : State :=
  let addr := (s.lx i (sRs1 w) + sImmX w).toNat
  let s1 := s.modLane i.part i.lane fun x =>
    { x with iss := { x.iss with xNew := sRd w :: x.iss.xNew,
                                 wroteA := if sRd w < 16 then sRd w :: x.iss.wroteA else x.iss.wroteA } }
  s1.narrow i addr ⟨i.part, i.lane, false, 0, sWidth w, sRs2 w == 1, sRd w, 0⟩

def execSld (i : Issue) (w : DWord) (s : State) : Res :=
  slotRes (sOp w == 0x10) "SLD" (s.onSlot i 0 [sRd w, sRs1 w]
    (fun t => t.lineHeld i (t.lx i (sRs1 w) + sImmX w).toNat (sWidth w)) fun t => t.scalarLoad i w)

/-- SST: stores RS1 at A[RD] + IMM32. -/
def State.scalarStore (s : State) (i : Issue) (w : DWord) : State :=
  s.narrow i (s.lx i (sRd w) + sImmX w).toNat ⟨i.part, i.lane, true, 0, sWidth w, false, 0, s.lx i (sRs1 w)⟩

def execSst (i : Issue) (w : DWord) (s : State) : Res :=
  slotRes (sOp w == 0x11) "SST" (s.onSlot i 0 [sRd w, sRs1 w]
    (fun t => t.lineHeld i (t.lx i (sRd w) + sImmX w).toNat (sWidth w)) fun t => t.scalarStore i w)

/-- The lane word a branch goes to: this lane word's index plus IMM32. -/
def State.branchTo (s : State) (i : Issue) (w : DWord) : State :=
  let t := ((s.lane i.part i.lane).arch.pc : Int) + sext 32 (sImm w)
  s.modLane i.part i.lane fun x => { x with iss := { x.iss with target := some t.toNat } }

def execBr (i : Issue) (w : DWord) (s : State) : Res :=
  slotRes (sOp w == 0x12) "BR" (s.onSlot i 0 [] free fun t => t.branchTo i w)

def execBrzBrnz (i : Issue) (w : DWord) (s : State) : Res :=
  slotRes (sOp w == 0x13 || sOp w == 0x14) "BRZ_BRNZ" (s.onSlot i 0 [sRs1 w] free fun t =>
    if (t.lx i (sRs1 w) == 0) == (sOp w == 0x13) then t.branchTo i w else t)

/-- LOOP: loads LC(RD [1:0]) with count IMM32 [15:0] + 1 and a body of IMM32 [27:16] + 1 lane words from the next on. -/
def execLoopArm (i : Issue) (w : DWord) (s : State) : Res :=
  slotRes (sOp w == 0x15) "LOOP" (s.onSlot i 0 [] free fun t =>
    t.setLoop i.part i.lane (sRd w % 4)
      { active := true, start := (t.lane i.part i.lane).arch.pc + 1, len := bits (sImm w) 27 16 + 1, left := bits (sImm w) 15 0 + 1 })

/-- What RDST reads (R74, R76, R77): the ASW, the LSW, a lane counter, or a token counter of the lane. -/
def State.rdItem (s : State) (i : Issue) (item : Nat) : DWord :=
  let a := (s.lane i.part i.lane).arch
  if item = 0 then a.asw.zeroExtend 64
  else if item = 1 then a.lsw.zeroExtend 64
  else if item = 2 then a.cnt.issued
  else if item = 3 then a.cnt.wait
  else if item = 4 then a.cnt.interlock
  else if item = 5 then a.cnt.fetch
  else if item = 6 then a.cnt.xfence
  else if 0x100 ≤ item then (s.counter i.part i.lane (s.tokBase i.part i.lane + item % 256)).zeroExtend 64
  else 0

/-- A poisoned token counter read ends the job (R414). -/
def State.badCounter (s : State) (p lane c : Nat) : Bool :=
  Map.get false s.tokBad (s.tokKey p lane (s.tokBase p lane + c))

def execRdst (i : Issue) (w : DWord) (s : State) : Res :=
  slotRes (sOp w == 0x16) "RDST" (s.onSlot i 0 [sRd w] free fun t =>
    let item := bits (sImm w) 8 0
    if decide (0x100 ≤ item) && t.badCounter i.part i.lane (item % 256) then t.endResident i.part stPoisonConsumed
    else t.setX i (sRd w) (t.rdItem i item))

/-- CLRST: W1C of source 2 to the ASW (RS1 = 0) or to the LSW, whose W1C bits are [3:0] (R60, R76). -/
def execClrst (i : Issue) (w : DWord) (s : State) : Res :=
  slotRes (sOp w == 0x17) "CLRST" (s.onSlot i 0 (src2Regs w) free fun t =>
    let v : Word := (t.src2 i w).extractLsb' 0 32
    t.modLane i.part i.lane fun x =>
      { x with arch := if sRs1 w = 0 then { x.arch with asw := x.arch.asw &&& ~~~v }
                       else { x.arch with lsw := x.arch.lsw &&& ~~~(v &&& 0xF) } })

/-- RAGGED: the cursor is set up before the first entry and the first item found (R212, R213). -/
def State.raggedStart (s : State) (i : Issue) (w : DWord) : State :=
  let imm := sImm w
  let mode := bits imm 29 28
  let split := (s.lx i (sRs2 w)).toNat
  let table := s.lx i (sRs1 w)
  let pc := (s.lane i.part i.lane).arch.pc
  let lp : Loop :=
    { active := true, start := pc + 1, len := bits imm 27 16 + 1, ragged := true, reg := sRd w, mode := mode,
      gran := bits imm 15 0, split := split % 65536, parts := split / 65536 % 65536, table := table }
  let q := s.part i.part
  (s.flushTable i.part lp).ifLive i fun s0 =>
  if mode = 2 && (lp.parts = 0 || decide (lp.parts ≤ lp.split)) then s0.addrFault i.part i.lane
  else if !q.inRegion table.toNat 16 || table.toNat % 16 != 0 then s0.addrFault i.part i.lane
  else if s0.anyPoison i.part table.toNat 16 then s0.endResident i.part stPoisonConsumed
  else
    let count := s0.raggedCount i.part lp
    if q.maxSeq < count || !allZero (s0.readBytes i.part table.toNat 16) 4 12 then s0.addrFault i.part i.lane
    else
      match State.raggedScan count s0 i.part ((((s0.onEngines i.part).image.map (·.needs.raggedMax))).getD 0) lp with
      | .item lp' d0 d1 d2 =>
        let s1 := s0.setLoop i.part i.lane (bits imm 31 30) lp'
        s1.modLane i.part i.lane fun x => x.putItem lp.reg d0 d1 d2
      | .done => s0.modLane i.part i.lane fun x => { x with iss := { x.iss with target := some (lp.start + lp.len) } }
      | .fault => s0.addrFault i.part i.lane
      | .poison => s0.endResident i.part stPoisonConsumed
      | .overflow => s0.endResident i.part stRaggedOverflow

def execRagged (i : Issue) (w : DWord) (s : State) : Res :=
  slotRes (sOp w == 0x18) "RAGGED" (s.onSlot i 0 [sRs1 w, (if bits (sImm w) 29 28 = 2 then sRs2 w else sRs1 w), sRd w, sRd w + 1, sRd w + 2] free fun t => t.raggedStart i w)

/-- END: the lane stops; it is a yield point whether or not it carries the flag (R79). -/
def execLaneEnd (i : Issue) (w : DWord) (s : State) : Res :=
  slotRes (sOp w == 0x19) "END" (s.onSlot i 0 [] free
    (fun t => t.modLane i.part i.lane fun x => { x with iss := { x.iss with ending := true } }) true)

end Sys2Proof.Machine
end

