-- ==== Sys2Proof/Machine/Posts.lean ====
section
/-! DEFINITION. The shared lane's DMA posts: descriptor chains, the checks of their descriptors, and the movement of their
data (R75, R160 to R164, R202, R218). -/

namespace Sys2Proof.Machine

/-! ### Posts -/

def State.post (s : State) (id : Nat) : Option Post := s.fab.posts.find? (·.id == id)
def State.modPost (s : State) (id : Nat) (f : Post → Post) : State :=
  { s with fab := { s.fab with posts := s.fab.posts.map fun x => if x.id = id then f x else x } }
def State.dropPost (s : State) (id : Nat) : State :=
  { s with fab := { s.fab with posts := s.fab.posts.filter (·.id != id) } }

/-- The post's own increment is applied at its shared counter, and the post is done. -/
def State.postDone (s : State) (x : Post) : State := (s.increment x.part 255 x.tctr x.tamt).dropPost x.id

/-! ### Descriptors (R161) -/

def dSrc (b : List Byte) : Nat := u64 b 0
def dDst (b : List Byte) : Nat := u64 b 8
def dLen (b : List Byte) : Nat := u32 b 0x10
def dLast (b : List Byte) : Bool := bitAt (u8 b 0x14) 0
def dAux (b : List Byte) : Nat := u64 b 0x18

/-- Fields of a descriptor that must be zero for its OP. -/
def dReserved (op : Nat) (b : List Byte) : Bool :=
  u8 b 0x14 / 2 != 0 || u8 b 0x17 != 0 ||
  (op != 5 && (u8 b 0x15 != 0 || u8 b 0x16 != 0 || dAux b != 0))

/-- A KV address (R201): bit 62, and bit 63 clear. -/
def isKv (a : Nat) : Bool := a.testBit 62 && !a.testBit 63

/-- The page-table keys that `n` pages from a KV address name, with their sequence; none where a field is out of range
(R201, R202). -/
def Part.kvKeys (q : Part) (a n : Nat) : Option (Nat × List Nat) :=
  let page := a % 65536
  let head := bits a 23 16
  let layer := bits a 31 24
  let sq := bits a 43 32
  if bits a 61 44 != 0 || !q.kv.pool.configured || q.kv.pool.heads ≤ head || q.kv.pool.layers ≤ layer ||
      q.kv.pool.maxSeq ≤ sq || 65536 < page + n then none
  else some (sq, (List.range n).map fun i => pageKey layer head (page + i))

/-- The page an address names as the sequence's table stands. -/
def Part.kvPage (q : Part) (sq key : Nat) : Option Nat :=
  match Map.get .none (q.kv.seq sq).table key with
  | .resident g => some g
  | _ => none

/-- Whether `len` bytes at a KV address may be moved by the running job (R202). -/
def State.kvOk (s : State) (p a len : Nat) (write : Bool) : Bool :=
  let q := s.part p
  len % 8192 == 0 &&
  match q.kvKeys a (len / 8192), (s.onEngines p).job with
  | some (sq, keys), some j =>
    (ltNamed j.lt).contains sq && keys.all fun key => match q.kvPage sq key with
      | some g => !(write && (Map.get {} q.kv.pages g).readOnly)
      | none => false
  | _, _ => false

/-- Whether a range of the image's data area, or of KV pages, may be the DDR5 side of a descriptor. -/
def State.ddrSideOk (s : State) (x : Post) (a len : Nat) (write : Bool) : Bool :=
  if isKv a then s.kvOk x.part a len write
  else decide (a < 2 ^ 40) && a % 64 == 0 && len % 64 == 0 && decide (a + len ≤ x.span)

/-- Whether a range of scratchpad lines may be the scratchpad side. -/
def State.spSideOk (s : State) (x : Post) (a len : Nat) : Bool :=
  a % 64 == 0 && len % 64 == 0 && (s.part x.part).inRegion a len

/-- Whether a NAND source is a range of a sealed data object of the partition (R162, R372). -/
def State.nandSideOk (s : State) (x : Post) (a len : Nat) : Bool :=
  let slot := Map.get {} s.store.slots (bits a 47 32)
  let off := a % 2 ^ 32
  bits a 63 48 == 0 && decide (bits a 47 32 < 4096) && slot.state == 2 && slot.kind == 4 && slot.owner == x.part &&
  off % 64 == 0 && len % 64 == 0 && decide (off + len ≤ slot.total)

/-- Whether a host range is whole program units of the registered area, none of them retired (R162, R218). -/
def State.hostSideOk (s : State) (x : Post) (a len : Nat) : Bool :=
  let q := s.part x.part
  a % 8192 == 0 && len % 8192 == 0 && decide (a + len + 8192 * q.kv.pool.swapUnits ≤ q.host.bytes) &&
  (List.range (len / 8192)).all fun i => decide ((Map.get {} q.host.units (a / 8192 + i)).gen < 2 ^ 32 - 1)

/-- Whether a descriptor's fields and ranges stand (R162, R163); one of length zero is a no-op whatever it names (R14). -/
def State.descOk (s : State) (x : Post) (b : List Byte) : Bool :=
  let len := dLen b
  !dReserved x.op b &&
  (if len = 0 then true
   else if x.op = 0 then s.ddrSideOk x (dSrc b) len false && s.spSideOk x (dDst b) len
   else if x.op = 1 then s.spSideOk x (dSrc b) len && s.ddrSideOk x (dDst b) len true
   else if x.op = 2 then s.nandSideOk x (dSrc b) len && s.spSideOk x (dDst b) len
   else if x.op = 3 then s.hostSideOk x (dSrc b) len && s.spSideOk x (dDst b) len
   else if x.op = 4 then s.spSideOk x (dSrc b) len && s.hostSideOk x (dDst b) len
   else s.spSideOk x (dSrc b) len && dAux b % 64 == 0)

/-- The line of DDR5 at `off` bytes into a descriptor's DDR5 side. -/
def State.ddrSide (s : State) (x : Post) (a off : Nat) : Nat :=
  if isKv a then
    let q := s.part x.part
    match q.kvKeys a (off / 8192 + 1) with
    | some (sq, keys) => (pageAddr x.part ((q.kvPage sq (nth 0 keys (off / 8192))).getD 0) + off % 8192) / 64
    | none => 0
  else ddrLine x.part (x.base + a + off)

/-- Whether the page-table entry that gives the KV page at `off` bytes into a descriptor's DDR5 side reads back poisoned: that
page of that sequence is poisoned (R420). -/
def State.entryLost (s : State) (x : Post) (a off : Nat) : Bool :=
  isKv a && match (s.part x.part).kvKeys a (off / 8192 + 1) with
    | some (sq, keys) => s.recBad (.pageEntry x.part sq (nth 0 keys (off / 8192)))
    | none => false

/-! ### Chains -/

/-- The descriptor at the post's place in its chain is read and checked, and taken into work; descriptors of length zero
are passed over (R14, R161, R163). `fuel` bounds the descriptors. -/
def State.loadDesc (size : Nat) (ok : State → Post → List Byte → Bool) (zero last : List Byte → Bool) :
    Nat → State → Post → State
  | 0, s, x => s.addrFault x.part 255
  | fuel + 1, s, x =>
    let a := x.addr.toNat + size * x.desc
    if 4096 ≤ x.desc || !(s.part x.part).inRegion a size then s.addrFault x.part 255
    else
      let s1 := s.flushRun x.part a size
      if s1.anyPoison x.part a size then s1.endResident x.part stPoisonConsumed
      else
        let b := s1.readBytes x.part a size
        if !ok s1 x b then s1.addrFault x.part 255
        else if zero b then
          if last b then s1.modPost x.id fun y => { y with cur := [], drained := true }
          else State.loadDesc size ok zero last fuel s1 { x with desc := x.desc + 1 }
        else s1.modPost x.id fun y =>
          { y with cur := b, desc := x.desc, moved := 0, tiles := 0, got := 0, bad := false, entryBad := false, write := none }

/-- The next DMA descriptor of a post. -/
def State.loadDma (s : State) (x : Post) : State :=
  State.loadDesc 32 State.descOk (fun b => dLen b == 0) dLast 4097 s x

/-- A window write of a Huveip DMA descriptor is sent (R164): up to 16 KiB, the remote increment on the last. -/
def State.sendDma (s : State) (x : Post) : State :=
  let n := min 16384 (dLen x.cur - x.moved)
  let last := x.moved + n == dLen x.cur
  let src := dSrc x.cur + x.moved
  let h : DWord := BitVec.ofNat 64 (dDst x.cur)
  if x.op != 5 || x.cur.isEmpty || x.write.isSome || (!s.isOwn (hDevice h) && decide (1024 ≤ s.remoteOut)) then s
  else
    let s1 := s.flushRun x.part src n
    let ls := s1.readLines x.part src (n / 64)
    let (w, s2) := s1.issueWrite
      { id := 0, src := .post x.part x.id, op := .dma, part := x.part, handle := h, off := dAux x.cur + x.moved,
        data := ls.flatMap Prod.fst, poison := ls.map Prod.snd,
        tctr := if last then u8 x.cur 0x15 else 0, tamt := if last then u8 x.cur 0x16 else 0 }
    s2.modPost x.id fun y => { y with write := some w, moved := y.moved + n }

/-- Every Huveip DMA post that can send, sends: a tracker entry may have come free (R125). -/
def State.kickDma (s : State) : State :=
  (s.fab.posts.filter fun x => x.op == 5 && (x.queue == .l0 || x.queue == .l1)).foldl (fun t x =>
    match t.post x.id with
    | some y => t.sendDma y
    | none => t) s

/-- The descriptor in work is done: the chain goes on with the next. -/
def State.nextDesc (s : State) (id : Nat) (load : State → Post → State) : State :=
  match s.post id with
  | none => s
  | some x =>
    if dLast x.cur then s.modPost id fun y => { y with cur := [], drained := true }
    else load s { x with desc := x.desc + 1 }

/-- `n` bytes of a DMA descriptor have been moved; the last ends it. -/
def State.dmaMoved (s : State) (x : Post) (n : Nat) (poison : Bool) : State :=
  let s1 := if poison then s.markPoison x.part else s
  if dLen x.cur ≤ x.moved + n then s1.nextDesc x.id State.loadDma
  else s1.modPost x.id fun y => { y with moved := x.moved + n }

/-- One swap unit of program data goes out encrypted, with its record (R218, R412). -/
def State.hostUnitOut (s : State) (x : Post) : State :=
  let a := dSrc x.cur + x.moved
  let u := (dDst x.cur + x.moved) / 8192
  let s0 := s.flushRun x.part a 8192
  let bad := s0.anyPoison x.part a 8192
  let b := s0.readBytes x.part a 8192
  (s0.unitOut x.part u 0 b bad).dmaMoved x 8192 bad

/-- All units that a scratchpad-to-host post still has to write; `fuel` bounds them. -/
def State.hostOut : Nat → State → Nat → State
  | 0, s, _ => s
  | fuel + 1, s, id =>
    match s.post id with
    | none => s
    | some x => if x.op != 4 || x.drained || x.cur.isEmpty then s else State.hostOut fuel (s.hostUnitOut x) id

/-! ### Issue (R75) -/

def pAreg (w : Nat) : Nat := bits w 59 56
/-- A[AREG] + OFFSET. -/
def State.postAddr (s : State) (i : Issue) (w : Nat) : DWord :=
  s.lx i (pAreg w) + (BitVec.ofNat 32 w).signExtend 64

/-- A post of the shared lane's queue, its fields as R75 lays them out. -/
def State.newPost (s : State) (i : Issue) (q : PQueue) (w : Nat) : Post × State :=
  let (n, s1) := s.newId
  let im := (s.onEngines i.part).image
  let x : Post :=
    { id := n, queue := q, part := i.part, op := bits w 63 60, addr := s.postAddr i w,
      tctr := s.tokBase i.part 255 + bits w 55 48, tamt := bits w 47 40, sel := bits w 39 32,
      base := (im.map (·.dataBase)).getD 0, span := (im.map (·.needs.ddr5)).getD 0,
      ctx := ((s.part i.part).running).getD 0 }
  (x, { s1 with fab := { s1.fab with posts := s1.fab.posts ++ [x] } })

/-- A DMA post is issued: its chain starts. -/
def State.issueDma (s : State) (i : Issue) (second : Bool) (w : DWord) : State :=
  let (x, s1) := s.newPost i (if second then .l1 else .l0) w.toNat
  (s1.loadDma x).kickDma

/-- A DMA post of OP `op`. -/
def dmaSlot (op : Nat) (mn : String) (i : Issue) (second : Bool) (w : DWord) (s : State) : Res :=
  slotRes (bits w.toNat 63 60 == op && i.lane == 255) mn
    (s.onSlot i (if second then 2 else 1) [pAreg w.toNat] free fun t => t.issueDma i second w)

def execDmaDdr5ToScratchpad (i : Issue) (second : Bool) (w : DWord) (s : State) : Res :=
  dmaSlot 0 "DMA_DDR5_TO_SCRATCHPAD" i second w s
def execDmaScratchpadToDdr5 (i : Issue) (second : Bool) (w : DWord) (s : State) : Res :=
  dmaSlot 1 "DMA_SCRATCHPAD_TO_DDR5" i second w s
def execDmaNandToScratchpad (i : Issue) (second : Bool) (w : DWord) (s : State) : Res :=
  dmaSlot 2 "DMA_NAND_TO_SCRATCHPAD" i second w s
def execDmaHostToScratchpad (i : Issue) (second : Bool) (w : DWord) (s : State) : Res :=
  dmaSlot 3 "DMA_HOST_TO_SCRATCHPAD" i second w s
def execDmaScratchpadToHost (i : Issue) (second : Bool) (w : DWord) (s : State) : Res :=
  dmaSlot 4 "DMA_SCRATCHPAD_TO_HOST" i second w s
def execHuveipDma (i : Issue) (second : Bool) (w : DWord) (s : State) : Res :=
  dmaSlot 5 "HUVEIP_DMA" i second w s

/-! ### Movement -/

/-- Whether a DMA descriptor of the given OP is in work. -/
def Post.inWork (x : Post) (op : Nat) : Bool := (x.queue == .l0 || x.queue == .l1) && x.op == op && !x.cur.isEmpty

/-! ### Floam chain entries (R167, R174) -/

def fSrc (b : List Byte) : Nat := u64 b 0
def fDst (b : List Byte) : Nat := u64 b 8
def fBytes (b : List Byte) : Nat := u32 b 0x10
def fTiles (b : List Byte) : Nat := u32 b 0x14
def fLast (b : List Byte) : Bool := bitAt (u8 b 0x18) 0
def fCache (b : List Byte) : Bool := bitAt (u8 b 0x18) 1
def fOffset (b : List Byte) : Nat := fSrc b % 2 ^ 40
def fModel (b : List Byte) : Nat := bits (fSrc b) 47 40

/-- The staged model of a partition an entry names: through the running job's bindings (R166). -/
def State.boundModel (s : State) (p : Nat) (b : List Byte) : Option (Nat × Staged) :=
  match (s.onEngines p).job with
  | none => none
  | some j => match j.bound[fModel b]? with
    | none => none
    | some k => some (k, Map.get {} (s.part p).models.staged k)

/-- DDR5_READ_RETURN: the next line of an OP 0x0 post comes from DDR5, and is written at its destination; for a Floam post it is
the next source line of the block in work (R153, R163, R172). -/
def execDdr5ReadReturn (id : Nat) (ecc : Ecc) (s : State) : Res :=
  match s.post id with
  | none => .next s
  | some x =>
    if x.inWork 0 then
      let ln := s.ddrSide x (dSrc x.cur) x.moved
      let s1 := s.ddrEcc ln ecc
      let bad := s1.ddrBad ln || s1.entryLost x (dSrc x.cur) x.moved
      .next ((s1.landLines x.part (dDst x.cur + x.moved) (s1.ddrRead ln) [bad]).dmaMoved x 64 bad)
    else if x.queue == .floam && !x.cur.isEmpty then
      match s.boundModel x.part x.cur with
      | some (k, m) =>
        if m.nandDirect then .next s
        else .next ((s.ddrEcc (modelLine x.part k (fOffset x.cur + x.moved + 64 * x.got)) ecc).modPost id fun y =>
          { y with got := y.got + 1 })
      | none => .next s
    else .next s

/-- The next line of an OP 0x1 post is taken by the controller (R474). -/
def State.dmaLineOut (s : State) (x : Post) : State :=
  let a := dSrc x.cur + x.moved
  let s1 := s.flushRun x.part a 64
  let sl := (s1.part x.part).line a
  let bad := s1.linePoison sl
  (s1.ddrWrite (s1.ddrSide x (dDst x.cur) x.moved) (s1.readLine sl) bad).dmaMoved x 64 bad

/-- DDR5_WRITE_ACK: a line of an OP 0x1 post, or of a DDR5-backed window write, enters the controller's write buffer and is
acknowledged to its tracker. -/
def execDdr5WriteAck (id : Nat) (s : State) : Res :=
  match s.post id with
  | some x => .next (if x.inWork 1 then s.dmaLineOut x else s)
  | none => match s.write id with
    | none => .next s
    | some w =>
      if w.phase == .accepted && s.toDdr w then
        let s1 := s.landDdrLine w
        let n := w.acked + 1
        .next (s1.modWrite id fun y =>
          { y with acked := n, phase := if w.data.length ≤ 64 * n && w.missing == 0 then .landed else .accepted })
      else .next s

/-- DMA_POST_COMPLETE: every byte of the post is visible, and its shared-counter increment is applied (R160). A post to the
host writes its units now, unless swap transfers pause (R219). -/
def execDmaPostComplete (id : Nat) (s : State) : Res :=
  let s1 := if s.host.swapPaused then s else State.hostOut (2 ^ 20) s id
  match s1.post id with
  | some x => .next (if x.drained && (x.queue == .l0 || x.queue == .l1) && x.write.isNone then s1.postDone x else s1)
  | none => .next s1

/-- A swap unit of an OP 0x3 post is written at its destination. -/
def State.hostUnitIn (s : State) (x : Post) (data : List Byte) (bad : Bool) : State :=
  (s.landLines x.part (dDst x.cur + x.moved) (fit 0 8192 data) (List.replicate 128 bad)).dmaMoved x 8192 bad

/-- A codeword of an OP 0x2 post is written at its destination (R162, R363). -/
def State.nandIn (s : State) (x : Post) (bad : Bool) : State :=
  let a := dSrc x.cur
  let off := a % 2 ^ 32 + x.moved
  let n := min (4096 - off % 4096) (dLen x.cur - x.moved)
  let b := slice (Map.get {} s.store.slots (bits a 47 32)).data off n
  (s.landLines x.part (dDst x.cur + x.moved) b (List.replicate (n / 64) bad)).dmaMoved x n bad

end Sys2Proof.Machine
end

