-- ==== Sys2Proof/Machine/Arbiters.lean ====
section
/-! DEFINITION. The common arbiter (R234 to R239). Requesters are numbered 0 to 15 the partitions where a type has them,
16 to 19 the decompressors of a sub-channel scheduler, and then the slots of the type (log entry 34). -/

namespace Sys2Proof.Machine

/-- Instances of a type. -/
def arbInstances (ty : Nat) : Nat :=
  nth 0 [544, 8, 32, 8, 8, 4, 4, 1] ty

/-- Slots that are not partitions, and the number of the first. -/
def arbSlots (ty : Nat) : Nat := nth 0 [5, 3, 8, 8, 1, 3, 0, 0] ty
def arbSlotBase (ty : Nat) : Nat := nth 0 [0, 20, 0, 0, 16, 16, 16, 16] ty
def arbRequesters (ty : Nat) : Nat := arbSlotBase ty + arbSlots ty

/-- The reset of the configuration word (R237). -/
def arbReset (ty : Nat) : Word :=
  nth 0 [0x006A00FC, 0x003200FC, 0xAAAA00FC, 0xAAAA00FC, 0x000100FC, 0x002A00FC, 0x000000FC, 0x000000FC] ty

/-- Slots whose class is fixed: port S of a bank; scrub and refresh of a sub-channel (R100, R237). -/
def arbFixed (ty : Nat) : List Nat := if ty = 0 then [4] else if ty = 1 then [1, 2] else []

def arbKey (ty inst : Nat) : Nat := 65536 * ty + inst
def State.arb (s : State) (ty inst : Nat) : Arbiter := Map.get {} s.arbs (arbKey ty inst)
def State.setArb (s : State) (ty inst : Nat) (a : Arbiter) : State :=
  { s with arbs := Map.set {} s.arbs (arbKey ty inst) a }

/-- The configuration word in force. -/
def Arbiter.cfg (a : Arbiter) (ty : Nat) : Nat := ((a.word).getD (arbReset ty)).toNat

/-- MODE and G. -/
def Arbiter.rotating (a : Arbiter) (ty : Nat) : Bool := a.cfg ty % 4 == 1
def Arbiter.threshold (a : Arbiter) (ty : Nat) : Nat := bits (a.cfg ty) 11 2 + 1

/-- A partition's class at a type: ARB_CLASS bits (R221). -/
def State.partClass (s : State) (ty p : Nat) : Nat :=
  let i := nth 0 [0, 0, 0, 0, 1, 4, 2, 3] ty
  (s.part p).cfg.arbClass / 4 ^ i % 4

/-- The programmed class of a requester; a decompressor takes the class of the partition whose chain it reads. -/
def State.arbClass (s : State) (ty inst r : Nat) : Nat :=
  if arbSlotBase ty ≤ r then ((s.arb ty inst).cfg ty / 2 ^ (16 + 2 * (r - arbSlotBase ty))) % 4
  else if r < 16 then s.partClass ty r
  else match s.fab.posts.find? fun x => x.queue == .floam && x.sel == r - 16 && !x.cur.isEmpty with
    | some x => s.partClass ty x.part
    | none => 0

/-- Effective class: the programmed class plus promotions, at most 3. -/
def State.effClass (s : State) (ty inst r : Nat) : Nat :=
  min 3 (s.arbClass ty inst r + Map.get 0 (s.arb ty inst).promo r)

/-- The round-robin choice among requesters: the first after the one last granted, in requester-number order. -/
def roundRobin (l : List Nat) (last : Option Nat) : Option Nat :=
  let after := match last with
    | none => []
    | some k => l.filter (k < ·)
  match sortNat after with
  | r :: _ => some r
  | [] => (sortNat l).head?

/-- Ranking of rotating mode, from requester-number order. -/
def Arbiter.ranking (a : Arbiter) (ty : Nat) : List Nat := if a.rank.isEmpty then List.range (arbRequesters ty) else a.rank

/-! ### The requesters of a bank (R98, R238) -/

/-- What accesses a bank: a tile's own wide accesses, the partition sequencers, the DMA engines, the decompressors, the stem
engine, window writes from the fabric, the units' 64-byte accesses, the scalar units, Campanile's narrow accesses, fills and
copies, the CP, the units' narrow accesses, debug, and patrol scrub. -/
inductive BankReq where
  | tile (t : Nat)
  | sequencer
  | dma
  | floam
  | stem
  | windowWrite
  | unitLine
  | scalar
  | campanile
  | fill
  | cp
  | unitNarrow
  | probe
  | scrub
  deriving DecidableEq, Repr

/-- Traffic classes. -/
inductive Traffic where
  | wide
  | gathered
  | emergency
  | gapFill
  deriving DecidableEq, Repr

/-- The port by which a requester reaches a bank: N, F, G, B, S are slots 0 to 4 of its arbiter (R98). -/
def BankReq.port (r : BankReq) (bank : Nat) : Nat :=
  match r with
  | .tile t => if bank / 8 = t then 0 else 1
  | .sequencer => 1
  | .dma => 1
  | .floam => 1
  | .stem => 1
  | .windowWrite => 1
  | .unitLine => 1
  | .scalar => 2
  | .campanile => 2
  | .fill => 3
  | .cp => 4
  | .unitNarrow => 4
  | .probe => 4
  | .scrub => 4

/-- The traffic class of a requester (R98). -/
def BankReq.traffic : BankReq → Traffic
  | .tile _ => .wide
  | .sequencer => .wide
  | .dma => .wide
  | .floam => .wide
  | .stem => .wide
  | .windowWrite => .wide
  | .unitLine => .wide
  | .scalar => .gathered
  | .campanile => .emergency
  | .fill => .wide
  | .cp => .gapFill
  | .unitNarrow => .gapFill
  | .probe => .gapFill
  | .scrub => .gapFill

/-- Bank cycles of a grant (R99, R100): two for a gathered entry's read-modify-write, one for any other line. -/
def portCycles (port : Nat) : Nat := if port = 2 then 2 else 1

/-- Whether a tile has power: it is not fenced, and an engine of an enabled partition is bound to it (R443). -/
def State.tilePowered (s : State) (t : Nat) : Bool :=
  !s.module.fencedTiles.contains t &&
  s.parts.any fun e => e.2.state == .enabled && e.2.cfg.engines.any fun k => s.hasTile k && s.tileOf k == t

/-- The port N that a tile has at a bank is masked while the tile has no power (R98, R100, R238, R443). -/
def State.portOff (s : State) (ty inst r : Nat) : Bool := ty == 0 && r == 0 && !s.tilePowered (inst / 8)

/-- The emergency requester of a type: 1000 stands for Campanile, which has no slot of its own. -/
def arbEmergency (ty : Nat) : Option Nat := if ty = 0 then some 1000 else if ty = 1 then some 22 else none

/-- Port S of a bank is served only where no wide port is pending, unless the starvation guard has promoted it (R100). -/
def arbGapFill (ty : Nat) (a : Arbiter) (l : List Nat) : List Nat :=
  if ty = 0 && l.any (· != 4) && Map.get 0 a.promo 4 == 0 then l.filter (· != 4) else l

/-- The choice among pending requesters that are not masked (R234, R236). -/
def State.arbChoose (s : State) (ty inst : Nat) (l : List Nat) : Option Nat :=
  let a := s.arb ty inst
  if a.rotating ty then (a.ranking ty).find? l.contains
  else
    let l := arbGapFill ty a l
    let top := l.foldl (fun m r => max m (s.effClass ty inst r)) 0
    roundRobin (l.filter fun r => s.effClass ty inst r == top) (match Map.get 0 a.last top with
      | 0 => none
      | k + 1 => some k)

/-- A bank counts the cycles of a grant, and those in which another port was pending (R109). -/
def State.bankGrant (s : State) (bank cycles others : Nat) : State :=
  let x := s.bank bank
  s.setBank bank { x with
    grants := x.grants + BitVec.ofNat 64 cycles
    waitCycles := x.waitCycles + BitVec.ofNat 64 (cycles * others)
    windowNow := x.windowNow + cycles }

/-- A grant is given: the winner returns to its programmed class, the others wait one grant more (R235). -/
def State.arbGive (s : State) (ty inst : Nat) (l : List Nat) (w : Nat) (keep : Option Nat) : State :=
  let a := s.arb ty inst
  let eff := s.effClass ty inst w
  let waits := l.foldl (fun m r => if r = w || some r = keep then m else Map.set 0 m r (Map.get 0 a.waits r + 1)) (Map.erase a.waits w)
  let s1 := s.setArb ty inst { a with
    waits := waits
    promo := Map.erase a.promo w
    last := Map.set 0 a.last eff (w + 1)
    rank := if a.rotating ty then (a.ranking ty).filter (· != w) ++ [w] else a.rank
    holder := some w }
  if ty = 0 then s1.bankGrant inst (portCycles w) (l.filter (· != w)).length
  else if ty = 1 && w = 22 then
    { s1 with ddr := { s1.ddr with subs := Map.modify {} s1.ddr.subs inst fun x => { x with owed := x.owed - 1 } } }
  else if ty = 1 && w < 16 then
    { s1 with ddr := { s1.ddr with subs := Map.modify {} s1.ddr.subs inst fun x =>
      { x with grants := Map.set 0 x.grants w (Map.get 0 x.grants w + 1) } } }
  else s1

/-- The holder whose grant an emergency can cut short: a burst on port B of a bank, after its first line (R101). Every other
grant is one access or one burst, which the emergency requester lets end; a read-modify-write is never broken. -/
def Arbiter.cut (a : Arbiter) (ty : Nat) : Option Nat := if ty = 0 && a.holder == some 3 then some 3 else none

/-- Whether the emergency requester may take the port: unless it is masked (R238), and refresh only once it has turned urgent,
with five refreshes due (R157). -/
def State.arbIsUrgent (s : State) (ty inst w : Nat) : Bool :=
  !(s.arb ty inst).masked.contains w && (ty != 1 || decide (5 ≤ (Map.get {} s.ddr.subs inst).owed))

/-- An urgent refresh issues all five refreshes due, back to back (R157). -/
def State.urgentRefresh (s : State) (ty inst : Nat) : State :=
  if ty = 1 then { s with ddr := { s.ddr with subs := Map.modify {} s.ddr.subs inst fun x => { x with owed := x.owed - 4 } } } else s

/-- The emergency requester takes the port; the holder it interrupts is noted (R237). -/
def State.arbUrgent (s0 : State) (ty inst w : Nat) (l : List Nat) : State :=
  let s := s0.urgentRefresh ty inst
  let a := s.arb ty inst
  let held := a.cut ty
  let s1 := s.arbGive ty inst (l.filter (· != w)) w held
  let b := s1.arb ty inst
  s1.setArb ty inst { b with last := a.last, rank := a.rank, interrupted := match a.interrupted with
    | some k => some k
    | none => held }

/-- ARBITER_GRANT: one grant decision. The emergency requester takes the port first; an interrupted holder is granted again
ahead of all others (R237). -/
def execArbiterGrant (ty inst : Nat) (pending : List Nat) (emergency : Bool) (s : State) : Res :=
  let a := s.arb ty inst
  let l := (dedup pending).filter fun r => decide (r < arbRequesters ty) && !a.masked.contains r && !s.portOff ty inst r
  if 8 ≤ ty || arbInstances ty ≤ inst then .next s
  else if emergency && (arbEmergency ty).any (s.arbIsUrgent ty inst) then .next (s.arbUrgent ty inst ((arbEmergency ty).getD 0) l)
  else match a.interrupted with
    | some k => .next (s.setArb ty inst { a with interrupted := none, holder := some k })
    | none => match s.arbChoose ty inst l with
      | some w => .next (s.arbGive ty inst l w none)
      | none => .next (s.setArb ty inst { a with holder := none })

/-- STARVATION_PROMOTION: a requester's wait count has reached G (R235); rotating mode has no guard. -/
def execStarvationPromotion (ty inst req : Nat) (s : State) : Res :=
  let a := s.arb ty inst
  if ty < 8 && inst < arbInstances ty && !a.rotating ty && decide (a.threshold ty ≤ Map.get 0 a.waits req) &&
      s.effClass ty inst req < 3 then
    .next (s.setArb ty inst { a with waits := Map.erase a.waits req, promo := Map.set 0 a.promo req (Map.get 0 a.promo req + 1) })
  else .next s

/-- An arbiter with a requester masked or unmasked (R238). -/
def Arbiter.mask (a : Arbiter) (ty r : Nat) (on : Bool) : Arbiter :=
  if on then
    { a with
      masked := if a.masked.contains r then a.masked else insertSorted r a.masked
      waits := Map.erase a.waits r
      promo := Map.erase a.promo r
      holder := if a.holder == some r then none else a.holder
      interrupted := if a.interrupted == some r then none else a.interrupted }
  else
    { a with
      masked := a.masked.filter (· != r)
      rank := if a.rotating ty && a.masked.contains r then (a.ranking ty).filter (· != r) ++ [r] else a.rank }

/-- Whether partition `p` holds the grant of an arbiter whose grant is one piece of work: a block of a decompressor (R173), an
output line of the stem engine (R197). -/
def State.arbHolds (s : State) (ty inst p : Nat) : Bool := (s.arb ty inst).holder == some p

/-- The work of a grant is done. -/
def State.arbDone (s : State) (ty inst : Nat) : State := s.setArb ty inst { s.arb ty inst with holder := none }

/-- SIDEBAND_MASK: a requester's sideband masks or unmasks it at an arbiter, Campanile at a bank among them. -/
def execSidebandMask (ty inst req : Nat) (masked : Bool) (s : State) : Res :=
  if ty < 8 && inst < arbInstances ty && (req < arbRequesters ty || arbEmergency ty == some req) then
    .next (s.setArb ty inst ((s.arb ty inst).mask ty req masked))
  else .next s

end Sys2Proof.Machine
end

