-- ==== Sys2Proof/Machine/Dst.lean ====
section
/-! DEFINITION. The device size table, the fit of an image, and the unloading of an image (R84, R85, R476). -/

namespace Sys2Proof.Machine

/-- The loaded images of a partition, context `c` apart. -/
def Part.others (q : Part) (c : Nat) : List Image :=
  (q.ctxs.filter fun e => e.1 != c).filterMap fun e => e.2.image

/-- The lowest base of `n` free counters of `limit`, where runs are held. -/
def freeRun (held : List (Nat × Nat)) (n limit : Nat) : Option Nat :=
  (0 :: held.map fun r => r.1 + r.2).foldl (fun b x =>
    let ok := x + n ≤ limit && !(held.any fun r => decide (r.1 < x + n) && decide (x < r.1 + r.2))
    match b with
    | none => if ok then some x else none
    | some y => if ok && x < y then some x else some y) none

/-- Counter runs of engines, and of the shared lane, that contexts other than `c` hold (R72). -/
def Part.engineRuns (q : Part) (c : Nat) : List (Nat × Nat) :=
  (q.ctxs.filter fun e => e.1 != c).filterMap fun e => e.2.image.map fun im => (e.2.engBase, im.needs.engineTokens)
def Part.sharedRuns (q : Part) (c : Nat) : List (Nat × Nat) :=
  (q.ctxs.filter fun e => e.1 != c).filterMap fun e => e.2.image.map fun im => (e.2.shBase, im.needs.sharedTokens)

/-- The tile at whose place an engine's distances are taken: one without a tile counts at the tile it shipped with (log entry 169). -/
def State.placeOf (s : State) (e : Nat) : Nat := if s.hasTile e then s.tileOf e else 17 * (e / 16) + e % 16

/-- The class of an engine to a region: the farthest of its banks (R96). -/
def State.regionClass (s : State) (e : Nat) (r : Region) : Nat :=
  r.banks.foldl (fun m b => max m (distance (s.placeOf e) b)) 0

/-- The class of one engine to another: that of the other's tile place. -/
def State.engineClass (s : State) (e f : Nat) : Nat := distance (s.placeOf e) (8 * s.placeOf f)

/-- Hops and latency of a peer (R139): one hop for a port's own peer, else a number the routes of other devices fix. -/
def State.peerHops (s : State) (dev : Nat) : Nat :=
  if (List.range 4).any fun h => (s.port h).peerId == dev then 1 else 2 + Config.unitValue 17 dev % 254
def hopNs (hops : Nat) : Nat := 700 + 200 * (hops - 1)

/-- 2-bit classes packed four to a byte. -/
def packClasses : List Nat → List Byte
  | a :: b :: c :: d :: rest => BitVec.ofNat 8 (a + 4 * b + 16 * c + 64 * d) :: packClasses rest
  | _ => []

/-- A granted quota, or 0. -/
def PartCfg.quota (c : PartCfg) (tier v : Nat) : Nat := if c.tiers.testBit tier then v else 0

/-- The device size table of a partition (R476). -/
def State.dst (s : State) (p : Nat) : List Byte :=
  let q := s.part p
  let c := q.cfg
  let es := c.engines
  let ps := s.peers
  let heldE := sumNat ((q.engineRuns 8).map Prod.snd)
  let heldS := sumNat ((q.sharedRuns 8).map Prod.snd)
  let regions := (List.range 16).flatMap fun i =>
    let r := q.region i
    if r.defined then [1, BitVec.ofNat 8 r.mode, BitVec.ofNat 8 r.nearWidth, 0] ++ leBytes 2 r.banks.length ++ zeros 2 else zeros 8
  let regionDist := fit 0 256 (es.flatMap fun e => packClasses ((List.range 16).map fun i =>
    let r := q.region i
    if r.defined then s.regionClass e r else 0))
  let engDist := fit 0 1024 (es.flatMap fun e => packClasses (fit 0 64 (es.map fun f => s.engineClass e f)))
  let peerList := fit 0 2040 (ps.flatMap fun d =>
    leBytes 2 d ++ [BitVec.ofNat 8 (s.peerHops d), 0] ++ leBytes 4 (hopNs (s.peerHops d)))
  [BitVec.ofNat 8 es.length, BitVec.ofNat 8 c.reserved.toNat, BitVec.ofNat 8 ps.length, 0] ++ leBytes 4 c.yieldLimit ++
  leBytes 2 (c.windowBudget - s.openWindows p) ++ leBytes 2 (256 - heldS) ++ zeros 4 ++
  [c.quota 0 c.scratchBytes, c.quota 2 c.ddr5Bytes, c.quota 3 c.kvPages, c.quota 4 c.nandBytes, c.quota 5 c.hostSwapBytes].flatMap
    (leBytes 8) ++ zeros 8 ++
  fit 0 64 (es.map fun _ => BitVec.ofNat 8 (64 - heldE)) ++ regions ++ regionDist ++ engDist ++ peerList ++ zeros 520

/-- Regions an image names: those its compiled DST lists as defined (R475). -/
def Image.names (im : Image) (r : Nat) : Bool := u8 im.dst (0x80 + 8 * r) == 1

/-- A 2-bit class of a packed row. -/
def classAt (b : List Byte) (base row width k : Nat) : Nat := u8 b (base + width * row + k / 4) / 4 ^ (k % 4) % 4

/-- A class of the partition farther than the image's for the same pair (R85). -/
def distFar (now im : List Byte) (lanes : Nat) (named : Nat → Bool) : Bool :=
  (List.range lanes).any fun i =>
    ((List.range 16).any fun r => named r && decide (classAt im 0x100 i 4 r < classAt now 0x100 i 4 r)) ||
    (List.range lanes).any fun j => decide (classAt im 0x200 i 16 j < classAt now 0x200 i 16 j)

/-- A run of scratchpad lies wholly in one region that the image names. -/
def Part.runOk (q : Part) (im : Image) (addr n : Nat) : Bool := q.inRegion addr n && im.names (bits addr 31 28)

/-- The fit of an image in context `c` against the partition's table: checks 11 to 14 and 16 to 23 of R86, R85. -/
def State.fitCode (s : State) (p c : Nat) (im : Image) : Option Nat :=
  let q := s.part p
  let f := q.cfg
  let now := s.dst p
  let n := im.needs
  let oth := q.others c
  let sum := fun (g : ImageNeeds → Nat) => sumNat (oth.map fun o => g o.needs) + g n
  let held := { q with ctxs := Map.erase q.ctxs c }.ddr5Held
  let windows := (s.fab.wins.filter fun e => e.2.isOpen && e.2.kind == .partition && e.2.part == p && e.2.ctx != c).length
  let ids := ((List.range 4096).filter fun k => (s.win k).isFree || ((s.win k).isOpen && (s.win k).part == p && (s.win k).ctx == c)).length
  firstFail [
    (n.lanes != 0 && n.lanes != f.engines.length, rcEngineCount),
    (distFar now im.dst n.lanes im.names, rcDistanceClass),
    (decide (s.peers.length < n.peers) ||
      (List.range n.peers).any (fun i => decide (u32 im.dst (0x604 + 8 * i) < u32 now (0x604 + 8 * i))), rcPeer),
    (decide (f.yieldLimit < n.yieldInterval), rcYieldInterval),
    ((List.range 16).any (fun r => im.names r && !((q.region r).defined && (q.region r).mode == u8 im.dst (0x81 + 8 * r) &&
        decide (u16 im.dst (0x84 + 8 * r) ≤ (q.region r).banks.length))) ||
      !q.runOk im n.codeDst im.codeSize || (n.windows != 0 && !q.runOk im n.handleTable (8 * n.windows)), rcRegion),
    (decide (f.quota 0 f.scratchBytes < sum (·.scratch)), rcQuotaScratchpad),
    (decide (f.quota 2 f.ddr5Bytes < held + n.ddr5 + (if f.reserved then 0 else n.liveMax)), rcQuotaDdr5),
    (decide (f.quota 3 f.kvPages < sum (·.kvPages)), rcQuotaKv),
    (decide (f.quota 4 f.nandBytes < sum (·.nand)), rcQuotaNand),
    (decide (f.quota 5 f.hostSwapBytes < sum (·.hostSwap)), rcQuotaHostSwap),
    ((freeRun (q.engineRuns c) n.engineTokens 64).isNone || (freeRun (q.sharedRuns c) n.sharedTokens 256).isNone, rcTokenBudget),
    (decide (f.windowBudget < windows + n.windows) || decide (ids < n.windows), rcWindowBudget)]

/-- An image is unloaded: its windows close, its needs return, and its context is EMPTY (R225). -/
def State.unloadImage (s : State) (p c : Nat) : State :=
  match (s.ctx p c).image with
  | none => s
  | some im =>
    let s1 := im.wins.foldl (fun (t : State) (w : Nat × Nat) => if (t.win w.1).gen = w.2 then t.closeWindow w.1 else t) s
    s1.modCtx p c fun x => { everRun := x.everRun, refuse := x.refuse }

/-- Every loaded image is checked against the rebuilt table; one that no longer fits is unloaded, and its jobs end with
ST_IMAGE_UNLOADED (R85, R224). -/
def State.recheck (s : State) (p : Nat) : State :=
  (List.range 8).foldl (fun t c =>
    match (t.ctx p c).image with
    | none => t
    | some im => match t.fitCode p c im with
      | none => t
      | some code =>
        ((t.endAll p c stImageUnloaded).unloadImage p c).modCtx p c fun x => { x with refuse := code }) s

/-! ### Rebind (R224) -/

/-- Whether the spare tile of an engine's compute die is gone: fenced, or carrying an engine. -/
def State.spareGone (s : State) (e : Nat) : Bool :=
  s.module.fencedTiles.contains (17 * (e / 16) + 16) || (s.engineOn (17 * (e / 16) + 16)).isSome

/-- Whether an engine of a partition has no tile and none to come (R224). -/
def State.tileLost (s : State) (p : Nat) : Bool := (s.part p).cfg.engines.any fun e => !s.hasTile e && s.spareGone e

/-- An engine without a tile takes its compute die's spare, if that is free and not fenced. -/
def State.bindSpare (s : State) (p e : Nat) : State :=
  let spare := 17 * (e / 16) + 16
  if s.hasTile e || s.spareGone e then s
  else
    let old := 17 * (e / 16) + e % 16
    let s1 := { s with engineMap := Map.set 0 s.engineMap e (spare + 1) }
    s1.log spare 0x0104 p [BitVec.ofNat 8 e, BitVec.ofNat 8 old, BitVec.ofNat 8 spare]

/-- The rebind of a partition: engines take spares, SAVED jobs that cannot be restored, and READY ones that cannot start, end with ST_NO_TILE, and images are
checked again (R85, R224). -/
def State.rebind (s : State) (p : Nat) : State :=
  let s1 := (s.part p).cfg.engines.foldl (fun t e => t.bindSpare p e) s
  let s2 := if s1.allTiles p then s1
    else (List.range 8).foldl (fun t c => if (t.ctx p c).runnable then t.endJob p c stNoTile else t) s1
  s2.recheck p

/-- REBIND: at the first moment at which no context of the partition is STARTING, RUNNING or STOPPING; the engines pass to the
context the CP then chooses (R226). -/
def execRebind (p : Nat) (s : State) : Res :=
  let busy := (s.part p).ctxs.any fun e => e.2.state == .starting || e.2.state == .running || e.2.state == .stopping
  .next (if busy || (s.part p).state == .free then s else (s.rebind p).schedule p)

end Sys2Proof.Machine
end

