-- ==== Sys2Proof/Machine/Banks.lean ====
section
/-! DEFINITION. The scratchpad banks: scrub, retirement and fence, hot windows, retention (R104 to R110, R443). -/

namespace Sys2Proof.Machine

/-- The partition and region that hold a bank. -/
def State.bankOwner (s : State) (b : Nat) : Option (Nat × Nat) :=
  s.parts.findSome? fun e =>
    (e.2.regions.find? fun r => r.2.defined && r.2.banks.contains b).map fun r => (e.1, r.1)

def State.modBank (s : State) (b : Nat) (f : Bank → Bank) : State := s.setBank b (f (s.bank b))

/-- A corrected error of a bank's granule: counted, and compared with the triggers of R105 (twice within a scrub period of
10 s, or CE_RETIRE within an hour). -/
def Bank.correct (x : Bank) (granule now ceRetire : Nat) : Bank :=
  let again := x.scrubbed.any fun e => e.1 == granule && decide (now < e.2 + 10000000)
  let recent := now :: x.recent.filter fun t => decide (now < t + 3600000000)
  { x with
    corrected := satAdd 0xFFFF x.corrected 1
    scrubbed := (granule, now) :: x.scrubbed.filter fun e => decide (now < e.2 + 10000000)
    recent := recent
    ceTrigger := x.ceTrigger || again || decide (ceRetire ≤ recent.length) }

/-- How a line of a bank reads back (R105, R410): an uncorrectable error poisons the line. -/
def State.bankEcc (s : State) (b line granule : Nat) (ecc : Ecc) : State :=
  let data := fun n => leBytes 2 line ++ leBytes 4 n ++ leBytes 2 0
  match ecc with
  | .clean => s
  | .corrected => (s.modBank b fun x => x.correct (8 * line + granule) s.now s.sp.ceRetire).logCorrected b 0x0301 0xFF data
  | .uncorrectable =>
    let s1 := s.modBank b fun x => { x with uncorrectable := satAdd 0xFFFF x.uncorrectable 1, ueTrigger := true }
    let s2 := { s1 with sp := { s1.sp with poison := Map.set false s1.sp.poison (8192 * b + line) true } }
    s2.log b 0x0302 0xFF (data 1)

/-- PATROL_SCRUB: a line of a bank in service is read and written back corrected. -/
def execPatrolScrub (bank line granule : Nat) (ecc : Ecc) (s : State) : Res :=
  if bank < 544 && line < 8192 && granule < 8 && (s.bank bank).state == .inService then .next (s.bankEcc bank line granule ecc)
  else .next s

/-- The spare that takes a bank's place (R106 step 1): the lowest on its base die, else on the other. -/
def State.spareFor (s : State) (b : Nat) : Option Nat :=
  let spare := fun k => (s.bank k).state == .spare
  match (List.range 544).find? fun k => baseOfBank k == baseOfBank b && spare k with
  | some k => some k
  | none => (List.range 544).find? spare

/-- Entries of a table in one block of `n` keys moved to another. -/
def moveBlock {α : Type} [DecidableEq α] (d : α) (m : Map α) (n src dst : Nat) : Map α :=
  let es := m.filter fun e => e.1 / n == src
  es.foldl (fun t e => Map.set d t (n * dst + e.1 % n) e.2)
    (Map.eraseRange (Map.eraseRange m (n * src) (n * (src + 1))) (n * dst) (n * (dst + 1)))

/-- The arbiter of a retired bank is masked (R106 step 4): it grants no port, nor Campanile. -/
def State.closeArbiter (s : State) (bank : Nat) : State :=
  s.setArb 0 bank (([0, 1, 2, 3, 4, 1000] : List Nat).foldl (fun a r => a.mask 0 r true) (s.arb 0 bank))

/-- Bank `x` is copied to `y` with its poison, `y` takes its place in its region, and `x` is retired (R106). -/
def State.retireBank (s : State) (x y : Nat) : State :=
  let g := x / 8
  let lines := ((s.gathered g).filter fun e => e.line / 8192 == x).map (·.line)
  let s0 := lines.foldl State.flush s
  let s1 := { s0 with sp := { s0.sp with
    mem := moveBlock 0 s0.sp.mem 524288 x y
    poison := moveBlock false s0.sp.poison 8192 x y } }
  let s2 := match s1.bankOwner x with
    | some (p, r) => s1.modPart p fun q =>
        let rg := q.region r
        { q with regions := Map.set {} q.regions r { rg with banks := rg.banks.map fun b => if b = x then y else b } }
    | none => s1
  let s3 := ((s2.modBank x fun b => { b with state := .retired, ceTrigger := false, ueTrigger := false }).modBank y
    fun b => { b with state := .inService }).closeArbiter x
  let s4 := s3.log x 0x0303 0xFF (leBytes 2 0 ++ leBytes 4 (s.bank x).corrected ++ leBytes 2 y)
  let s5 := s4.notice noticeBankRetired 0xFF (leBytes 2 x ++ leBytes 2 y)
  match s.bankOwner x with
  | some (p, _) => s5.recheck p
  | none => s5

/-- BANK_RETIREMENT: a bank that has met a trigger is retired to a spare; with none left, a corrected-error trigger is only
logged again and an uncorrectable one fences the bank (R105 to R107). -/
def execBankRetirement (bank : Nat) (s : State) : Res :=
  let x := s.bank bank
  if bank < 544 && x.state == .inService && (x.ceTrigger || x.ueTrigger) then
    match s.spareFor bank with
    | some y => .next (s.retireBank bank y)
    | none =>
      if x.ueTrigger then
        .next ((s.modBank bank fun b => { b with state := .fenced, ueTrigger := false, ceTrigger := false }).log bank 0x0304 0xFF
          (leBytes 2 0 ++ leBytes 4 x.uncorrectable ++ leBytes 2 0xFFFF))
      else .next ((s.modBank bank fun b => { b with ceTrigger := false }).log bank 0x0301 0xFF
          (leBytes 2 0 ++ leBytes 4 x.corrected ++ leBytes 2 0xFFFF))
  else .next s

/-- A bank's hot window ends: `grants` and `waits` are those of the window that were not commands of their own (R109, R110, log
entry 18). -/
def Bank.endWindow (x : Bank) (grants waits : Nat) : Bank :=
  { x with
    grants := x.grants + BitVec.ofNat 64 grants
    waitCycles := x.waitCycles + BitVec.ofNat 64 waits
    windowGrants := x.windowNow + grants
    windowNow := 0
    windows := x.windows + 1 }

/-- Whether a bank of a region is hot in the window that all its banks have ended: 75 % of the window, and 8 times the
region's mean (R110). -/
def State.isHot (s : State) (banks : List Nat) (bank : Nat) : Bool :=
  let g := (s.bank bank).windowGrants
  decide (1 < banks.length) && decide (786432 ≤ g) && decide (8 * sumNat (banks.map fun b => (s.bank b).windowGrants) ≤ g * banks.length)

/-- A bank of region `r` of partition `p` sets or clears HOT; becoming hot posts a notice, at most one per region and second. -/
def State.judgeHot (s0 s : State) (p r bank : Nat) : State :=
  let hot := s0.isHot (((s0.part p).region r).banks) bank
  let s2 := s.modBank bank fun b => { b with hot := hot }
  let k := 16 * p + r
  let last := Map.get 0 s.sp.hotNotice k
  if hot && !(s0.bank bank).hot && (last == 0 || decide (last + 1000000 ≤ s.now + 1)) then
    let s3 := { s2 with sp := { s2.sp with hotNotice := Map.set 0 s2.sp.hotNotice k (s.now + 1) } }
    s3.notice noticeHotBank p (leBytes 2 bank ++ [BitVec.ofNat 8 r, 0] ++ leBytes 4 (s0.bank bank).windowGrants)
  else s2

/-- HOT_WINDOW_END: a bank's window ends. Once every bank of its region has ended the same window, each of them sets or clears
HOT by the grants of that window (R110). -/
def execHotWindowEnd (bank grants waits : Nat) (s : State) : Res :=
  if 544 ≤ bank then .next s
  else
    let s1 := s.modBank bank fun b => b.endWindow grants waits
    match s1.bankOwner bank with
    | none => .next (s1.modBank bank fun b => { b with hot := false })
    | some (p, r) =>
      let bs := ((s1.part p).region r).banks
      if bs.all fun b => (s1.bank b).windows == (s1.bank bank).windows then .next (bs.foldl (fun t b => s1.judgeHot t p r b) s1)
      else .next s1

/-- RETENTION_WAKE: an access wakes a bank at retention voltage. -/
def execRetentionWake (bank : Nat) (s : State) : Res :=
  .next (if bank < 544 && (s.bank bank).retention then s.modBank bank fun b => { b with awake := true } else s)

/-- RETENTION_RETURN: a woken bank returns to retention voltage after 1 ms with no access. -/
def execRetentionReturn (bank : Nat) (s : State) : Res :=
  .next (if bank < 544 && (s.bank bank).retention then s.modBank bank fun b => { b with awake := false } else s)

end Sys2Proof.Machine
end

