-- ==== Sys2Proof/Machine/Float.lean ====
section
/-! DEFINITION. The element formats of R39 and FP32, and exact arithmetic on their values: a finite value is a dyadic
number, every operation is formed exactly and rounded once (R48 to R53, R58). -/

namespace Sys2Proof.Machine

/-- A floating-point value: a finite value is (−1)^neg · m · 2^e. -/
inductive FVal where
  | nan
  | inf (neg : Bool)
  | fin (neg : Bool) (m : Nat) (e : Int)
  deriving DecidableEq, Repr, Inhabited

/-- A binary format: exponent and mantissa widths, bias, the largest finite magnitude's bits, and which non-finite
encodings it has (R39). -/
structure Fmt where
  eb : Nat
  mb : Nat
  bias : Int
  maxBits : Nat
  hasInf : Bool
  hasNan : Bool
  deriving DecidableEq, Repr

def Fmt.fp32 : Fmt := ⟨8, 23, 127, 0x7F7FFFFF, true, true⟩
def Fmt.bf16 : Fmt := ⟨8, 7, 127, 0x7F7F, true, true⟩
def Fmt.fp16 : Fmt := ⟨5, 10, 15, 0x7BFF, true, true⟩
/-- E4M3: bias 7, largest finite 448, NaN = S.1111.111, no infinity (R39). -/
def Fmt.e4m3 : Fmt := ⟨4, 3, 7, 0x7E, false, true⟩
def Fmt.e5m2 : Fmt := ⟨5, 2, 15, 0x7B, true, true⟩
def Fmt.e2m1 : Fmt := ⟨2, 1, 1, 0x7, false, false⟩
/-- The grids of MXFP6, on which values are rounded before they are held as E4M3 (R40). -/
def Fmt.e2m3 : Fmt := ⟨2, 3, 1, 0x1F, false, false⟩
def Fmt.e3m2 : Fmt := ⟨3, 2, 3, 0x1F, false, false⟩

/-- Width in bits. -/
def Fmt.width (f : Fmt) : Nat := 1 + f.eb + f.mb

/-- The value a bit pattern of the format stands for. -/
def Fmt.decode (f : Fmt) (v : Nat) : FVal :=
  let neg := v.testBit (f.eb + f.mb)
  let ex := (v >>> f.mb) % 2 ^ f.eb
  let man := v % 2 ^ f.mb
  let mag := v % 2 ^ (f.eb + f.mb)
  if f.maxBits < mag then
    if f.hasInf && man == 0 then .inf neg else .nan
  else if ex = 0 then .fin neg man (1 - f.bias - f.mb)
  else .fin neg (man + 2 ^ f.mb) (ex - f.bias - f.mb)

/-- How a value outside the grid is rounded. -/
inductive Rnd where
  | nearestEven
  | towardZero
  deriving DecidableEq, Repr

/-- `m · 2^e` on the grid of spacing `2^q`. -/
def roundTo (r : Rnd) (m : Nat) (e q : Int) : Nat :=
  if q ≤ e then m <<< (e - q).toNat
  else
    let k := (q - e).toNat
    let n := m >>> k
    let rem := m % 2 ^ k
    match r with
    | .towardZero => n
    | .nearestEven =>
      let half := 2 ^ (k - 1)
      if half < rem || (rem = half && n % 2 = 1) then n + 1 else n

/-- The magnitude bits of `m · 2^e` rounded to the format, before any overflow is looked at. -/
def Fmt.magBits (f : Fmt) (r : Rnd) (m : Nat) (e : Int) : Nat :=
  if m = 0 then 0
  else
    let qmin : Int := 1 - f.bias - f.mb
    let q := max (e + (Nat.log2 m : Nat) - f.mb) qmin
    (q - qmin).toNat * 2 ^ f.mb + roundTo r m e q

/-- The bits of a NaN: exponent and quiet bit set, the rest left open by the spec (a free value); E4M3 has one. -/
def Fmt.nanBits (f : Fmt) (seed : Nat) : Nat :=
  if f.hasInf then
    let w := (Config.freeWord seed).toNat
    (w % 2) <<< (f.eb + f.mb) ||| (2 ^ f.eb - 1) <<< f.mb ||| 2 ^ (f.mb - 1) ||| (w / 2) % 2 ^ (f.mb - 1)
  else 2 ^ (f.eb + f.mb) - 1

/-- The result of encoding a value: its bits, and whether it saturated or overflowed to infinity. -/
structure Enc where
  bits : Nat
  sat : Bool := false
  ovf : Bool := false
  deriving DecidableEq, Repr

/-- IEEE encoding of a value in a format with infinities: a finite overflow becomes infinity (nearest even) or the
largest finite magnitude (toward zero). -/
def Fmt.encode (f : Fmt) (r : Rnd) (seed : Nat) : FVal → Enc
  | .nan => ⟨f.nanBits seed, false, false⟩
  | .inf neg => ⟨neg.toNat <<< (f.eb + f.mb) ||| (2 ^ f.eb - 1) <<< f.mb, false, false⟩
  | .fin neg m e =>
    let g := f.magBits r m e
    let s := neg.toNat <<< (f.eb + f.mb)
    if f.maxBits < g then
      match r with
      | .nearestEven => ⟨s ||| (2 ^ f.eb - 1) <<< f.mb, false, true⟩
      | .towardZero => ⟨s ||| f.maxBits, false, false⟩
    else ⟨s ||| g, false, false⟩

/-- Encoding that saturates a finite overflow to the largest finite magnitude (R53 step 4, R58). An infinity stays
one where the format has it and is a NaN in E4M3; formats with neither take a free value. DESIGN CHOICE (log entry 162):
what saturates, and sets SAT, is a value that lies beyond the largest finite magnitude after step 3's rounding, so 450
becomes 448 in E4M3 without SAT. -/
def Fmt.encodeSat (f : Fmt) (r : Rnd) (seed : Nat) : FVal → Enc
  | .nan => if f.hasNan then ⟨f.nanBits seed, false, false⟩ else ⟨(Config.freeWord seed).toNat % 2 ^ f.width, false, false⟩
  | .inf neg =>
    if f.hasInf then ⟨neg.toNat <<< (f.eb + f.mb) ||| (2 ^ f.eb - 1) <<< f.mb, false, false⟩
    else if f.hasNan then ⟨f.nanBits seed, false, false⟩
    else ⟨(Config.freeWord seed).toNat % 2 ^ f.width, false, false⟩
  | .fin neg m e =>
    let g := f.magBits r m e
    let s := neg.toNat <<< (f.eb + f.mb)
    if f.maxBits < g then ⟨s ||| f.maxBits, true, false⟩ else ⟨s ||| g, false, false⟩

/-- The value of an integer, as an exact value. -/
def FVal.ofInt (i : Int) : FVal := .fin (i < 0) i.natAbs 0

/-- The signed mantissa of a finite value at exponent `q ≤ e`. -/
def FVal.scaled (q : Int) : FVal → Int
  | .fin neg m e => (if neg then -1 else 1) * ((m <<< (e - q).toNat : Nat) : Int)
  | _ => 0

/-- The exponent of a finite value. -/
def FVal.exp : FVal → Int
  | .fin _ _ e => e
  | _ => 0

/-- Whether the value is a NaN. -/
def FVal.isNan : FVal → Bool
  | .nan => true
  | _ => false

/-- Whether the value is finite. -/
def FVal.isFin : FVal → Bool
  | .fin _ _ _ => true
  | _ => false

/-- Whether the value is zero of either sign. -/
def FVal.isZero : FVal → Bool
  | .fin _ m _ => m == 0
  | _ => false

/-- The sign. -/
def FVal.neg? : FVal → Bool
  | .nan => false
  | .inf n => n
  | .fin n _ _ => n

/-- The value with its sign turned. -/
def FVal.negate : FVal → FVal
  | .nan => .nan
  | .inf n => .inf (!n)
  | .fin n m e => .fin (!n) m e

/-- A value and whether forming it raised the invalid operation (a NaN from operands that were not NaN). -/
structure FRes where
  val : FVal
  invalid : Bool := false
  deriving DecidableEq, Repr

/-- The exact product. -/
def FVal.mul : FVal → FVal → FRes
  | .nan, _ => ⟨.nan, false⟩
  | _, .nan => ⟨.nan, false⟩
  | .inf a, .inf b => ⟨.inf (a != b), false⟩
  | .inf a, .fin b m _ => if m = 0 then ⟨.nan, true⟩ else ⟨.inf (a != b), false⟩
  | .fin a m _, .inf b => if m = 0 then ⟨.nan, true⟩ else ⟨.inf (a != b), false⟩
  | .fin a m e, .fin b m' e' => ⟨.fin (a != b) (m * m') (e + e'), false⟩

/-- The exact sum; a sum of zero is +0 unless both terms are −0 (IEEE 754, round to nearest). -/
def FVal.add : FVal → FVal → FRes
  | .nan, _ => ⟨.nan, false⟩
  | _, .nan => ⟨.nan, false⟩
  | .inf a, .inf b => if a = b then ⟨.inf a, false⟩ else ⟨.nan, true⟩
  | .inf a, .fin _ _ _ => ⟨.inf a, false⟩
  | .fin _ _ _, .inf b => ⟨.inf b, false⟩
  | .fin a m e, .fin b m' e' =>
    let q := min e e'
    let i := FVal.scaled q (.fin a m e) + FVal.scaled q (.fin b m' e')
    if i = 0 then ⟨.fin (a && b) 0 q, false⟩ else ⟨.fin (i < 0) i.natAbs q, false⟩

/-- The value times `2^k`. -/
def FVal.scale (k : Int) : FVal → FVal
  | .fin n m e => .fin n m (e + k)
  | v => v

/-- `a < b` on values that are not NaN (−0 equals +0). -/
def FVal.lt : FVal → FVal → Bool
  | .nan, _ => false
  | _, .nan => false
  | .inf a, .inf b => a && !b
  | .inf a, .fin _ _ _ => a
  | .fin _ _ _, .inf b => !b
  | .fin a m e, .fin b m' e' =>
    let q := min e e'
    FVal.scaled q (.fin a m e) < FVal.scaled q (.fin b m' e')

/-- Equality of values that are not NaN. -/
def FVal.eq (a b : FVal) : Bool :=
  !a.isNan && !b.isNan && !a.lt b && !b.lt a

/-- IEEE 754 maximum: a NaN gives a NaN, and +0 is above −0 (R191). -/
def FVal.max (a b : FVal) : FVal :=
  if a.isNan || b.isNan then .nan
  else if a.lt b then b else if b.lt a then a else if a.neg? then b else a

/-- IEEE 754 minimum. -/
def FVal.min (a b : FVal) : FVal :=
  if a.isNan || b.isNan then .nan
  else if a.lt b then a else if b.lt a then b else if a.neg? then a else b

/-- The exact quotient by a positive number, rounded once into the format: numerator and denominator are scaled so
that the quotient keeps two bits below the grid, and a sticky bit. -/
def Fmt.divNat (f : Fmt) (seed : Nat) (v : FVal) (d : Nat) : Enc :=
  match v with
  | .fin neg m e =>
    let k := 300
    let n := m <<< k
    let q := n / d
    let sticky := if n % d = 0 then 0 else 1
    f.encode .nearestEven seed (.fin neg (2 * q + sticky) (e - k - 1))
  | v => f.encode .nearestEven seed v

/-- ⌊log2 |v|⌋ of a finite non-zero value. -/
def FVal.log2 : FVal → Int
  | .fin _ m e => (Nat.log2 m : Nat) + e
  | _ => 0

/-- A 32-bit pattern read as FP32. -/
def fp32 (w : Word) : FVal := Fmt.fp32.decode w.toNat

/-- FP32 rounding of a value to nearest even. -/
def toFp32 (seed : Nat) (v : FVal) : Enc := Fmt.fp32.encode .nearestEven seed v

/-- The FP32 bits of a value, with the flags INT_WRAP.. of R60 that rounding it raises: FP_OVERFLOW is bit 2. -/
def Enc.flags (e : Enc) : Nat := e.ovf.toNat * 4 + e.sat.toNat * 8

/-- A value rounded to FP32, nearest even, and the flags of R60 it raises. -/
def round32 (v : FVal) : FVal × Nat :=
  match v with
  | .fin neg m e =>
    let g := Fmt.fp32.magBits .nearestEven m e
    if Fmt.fp32.maxBits < g then (.inf neg, 4) else (Fmt.fp32.decode (neg.toNat <<< 31 ||| g), 0)
  | v => (v, 0)

/-- An FP32 addition: the sum rounded once, FP_INVALID (bit 1) and FP_OVERFLOW (bit 2). -/
def add32 (a b : FVal) : FVal × Nat :=
  let r := FVal.add a b
  let (v, f) := round32 r.val
  (v, f ||| (if r.invalid then 2 else 0))

/-- The term numbers of a tree, from the left. -/
def treeLeaves : Config.SumTree → List Nat
  | .leaf i => [i]
  | .node l r => treeLeaves l ++ treeLeaves r

/-- Terms added in the order of a tree, by the addition `add`. -/
def treeSumBy (add : FVal → FVal → FVal × Nat) (terms : List FVal) : Config.SumTree → FVal × Nat
  | .leaf i => (nth (.fin false 0 0) terms i, 0)
  | .node l r =>
    let (a, fa) := treeSumBy add terms l
    let (b, fb) := treeSumBy add terms r
    let (v, f) := add a b
    (v, fa ||| fb ||| f)

/-- Terms added in an order that the spec leaves open (R62): the tree of unit `k`, or from the left where that is no tree
over the terms. -/
def sumBy (add : FVal → FVal → FVal × Nat) (k : Nat) (terms : List FVal) : FVal × Nat :=
  match terms with
  | [] => (.fin false 0 0, 0)
  | [v] => (v, 0)
  | v :: rest =>
    let t := Config.sumTree k terms.length
    if sortNat (treeLeaves t) = List.range terms.length then treeSumBy add terms t
    else rest.foldl (fun a b => let r := add a.1 b; (r.1, a.2 ||| r.2)) (v, 0)

/-- FP32 terms added in an order left open. -/
def sum32 (k : Nat) (terms : List FVal) : FVal × Nat := sumBy add32 k terms

/-- An addition rounded once into a format with infinities, FP_INVALID (bit 1) with it. -/
def Fmt.addIn (f : Fmt) (a b : FVal) : FVal × Nat :=
  let r := FVal.add a b
  let v := match r.val with
    | .fin neg m e => f.decode (f.encode .nearestEven 0 (.fin neg m e)).bits
    | v => v
  (v, if r.invalid then 2 else 0)

/-- The value times `2^k`, exact. -/
def FVal.ofScaled (i : Int) (k : Int) : FVal := .fin (i < 0) i.natAbs k

/-- `a ≤ b` on finite values. -/
def FVal.le (a b : FVal) : Bool := !b.lt a

/-- The magnitude. -/
def FVal.abs : FVal → FVal
  | .fin _ m e => .fin false m e
  | .inf _ => .inf false
  | .nan => .nan

end Sys2Proof.Machine
end

