-- ==== Sys2Proof/Machine/CupOps.lean ====
section
/-! DEFINITION. Sensors, groups and ingest rings: the fields of their descriptors and the named operations over them
(R243, R244, R252 to R256). -/

namespace Sys2Proof.Machine

def State.sensor (s : State) (i : Nat) : Sensor := Map.get {} s.cup.sensors i
def State.modSensor (s : State) (i : Nat) (f : Sensor → Sensor) : State :=
  { s with cup := { s.cup with sensors := Map.modify {} s.cup.sensors i f } }
def State.group (s : State) (g : Nat) : Group := Map.get {} s.cup.groups g
def State.modGroup (s : State) (g : Nat) (f : Group → Group) : State :=
  { s with cup := { s.cup with groups := Map.modify {} s.cup.groups g f } }

/-! ### The sensor descriptor (R243) -/

/-- KIND, 0xFF for a sensor that is not configured. -/
def Sensor.kind (x : Sensor) : Nat := if x.cfg.isEmpty then 0xFF else u8 x.cfg 1
def Sensor.port (x : Sensor) : Nat := u8 x.cfg 2
def Sensor.vc (x : Sensor) : Nat := u8 x.cfg 3
def Sensor.gates (x : Sensor) : Nat := u8 x.cfg 4
def Sensor.dataType (x : Sensor) : Nat := u8 x.cfg 5
def Sensor.bayer (x : Sensor) : Nat := u8 x.cfg 6
def Sensor.parse (x : Sensor) : Nat := u8 x.cfg 7
def Sensor.width (x : Sensor) : Nat := u16 x.cfg 8
def Sensor.height (x : Sensor) : Nat := u16 x.cfg 0xA
def Sensor.depth (x : Sensor) : Nat := u16 x.cfg 0xC
def Sensor.udpPort (x : Sensor) : Nat := u16 x.cfg 0xE
def Sensor.strobeTimed (x : Sensor) : Bool := u8 x.cfg 0x10 == 0
def Sensor.strobe (x : Sensor) : Nat := u8 x.cfg 0x11
def Sensor.quarBound (x : Sensor) : FVal := fp32 (BitVec.ofNat 32 (u32 x.cfg 0x14))
def Sensor.motionBound (x : Sensor) : FVal := fp32 (BitVec.ofNat 32 (u32 x.cfg 0x30))
def Sensor.quarCount (x : Sensor) : Nat := u8 x.cfg 0x12
def Sensor.reentry (x : Sensor) : Nat := u8 x.cfg 0x13
/-- NOMINAL_RATE, in units of 2^-32 anchor ticks per sensor tick. -/
def Sensor.rate (x : Sensor) : Nat := u64 x.cfg 0x18
def Sensor.period (x : Sensor) : Nat := u32 x.cfg 0x20
def Sensor.slip (x : Sensor) : Nat := u32 x.cfg 0x24
def Sensor.latency (x : Sensor) : Nat := u32 x.cfg 0x28
def Sensor.sampleOffset (x : Sensor) : Int := sext 32 (u32 x.cfg 0x2C)

/-- The calibration in force at the instant `t` (R259): the latest that takes effect no later. -/
def Sensor.calibAt (x : Sensor) (t : Int) : Option (List Byte) :=
  match (x.calibDue.filter fun e => decide (e.1 ≤ t)).getLast? with
  | some e => some e.2
  | none => x.calib

/-- The latest calibration the sensor was given. -/
def Sensor.calibLatest (x : Sensor) : Option (List Byte) :=
  match x.calibNext, x.calibDue.getLast? with
  | some b, _ => some b
  | none, some e => some e.2
  | none, none => x.calib

def Sensor.isCamera (x : Sensor) : Bool := decide (x.kind ≤ 2)
def Sensor.isLidar (x : Sensor) : Bool := x.kind == 3

/-- Components of a camera (R244). -/
def Sensor.components (x : Sensor) : Nat :=
  if x.kind = 2 then x.gates
  else if x.dataType = 0x1E || x.dataType = 0x24 then 3
  else if x.bayer = 0 then 1 else 3

/-- The stored component format: 0 U8, 1 U10, 2 U12, 3 U16 (R193, R244). -/
def Sensor.format (x : Sensor) : Nat :=
  if x.dataType = 0x2B then 1 else if x.dataType = 0x2C then 2 else if x.dataType = 0x2E then 3 else 0

/-- Bits of a component (R244). -/
def Sensor.compBits (x : Sensor) : Nat := if x.format = 0 then 8 else 8 + 2 * x.format + (if x.format = 3 then 2 else 0)

/-- Bytes of a ring line (R244). -/
def Sensor.lineBytes (x : Sensor) : Nat := roundUp 64 (x.width * x.components * (if x.format = 0 then 1 else 2))

/-- Lines received of the image on every gate. -/
def Sensor.lines (x : Sensor) : Nat :=
  if x.kind = 2 then (List.range x.gates).foldl (fun m g => min m (Map.get 0 x.lineNo g)) 65536 else Map.get 0 x.lineNo 0

/-- How an ingest line stands for a reader (R196, R245). -/
inductive LineState where
  | present (l : RingLine)
  | awaited
  | gone
  deriving DecidableEq, Repr

/-- Line `y` of the frame numbered `f`: ahead and current frames are awaited (serial-number order on 32 bits), a line
whose slot holds another is gone. -/
def Sensor.line (x : Sensor) (f y : Nat) : LineState :=
  match x.seqNo with
  | none => .awaited
  | some c =>
    let d := (f + 2 ^ 32 - c) % 2 ^ 32
    let l := Map.get {} x.ring (y % x.depth)
    if 0 < d && d < 2 ^ 31 then .awaited
    else if l.complete && l.frame == f && l.y == y then .present l
    else if d = 0 && x.inImage && (x.lines ≤ y || (x.bayer != 0 && x.lines ≤ y + 1) || (l.frame == f && l.y == y)) then .awaited
    else .gone

/-! ### The group descriptor (R256) -/

def Group.anchor (g : Group) : Nat := u8 g.cfg 1
def Group.part (g : Group) : Nat := u8 g.cfg 2
def Group.gridOn (g : Group) : Bool := bitAt (u8 g.cfg 3) 0
def Group.boxesOn (g : Group) : Bool := bitAt (u8 g.cfg 3) 1
def Group.emitDust (g : Group) : Bool := bitAt (u8 g.cfg 3) 2
def Group.depthOn (g : Group) : Bool := bitAt (u8 g.cfg 3) 3
def Group.mask (g : Group) : Nat := u16 g.cfg 4
def Group.frameDiv (g : Group) : Nat := u8 g.cfg 6
def Group.holdFrames (g : Group) : Nat := u8 g.cfg 7
def Group.deadline (g : Group) : Nat := u32 g.cfg 8
def Group.stale (g : Group) : Nat := u32 g.cfg 0xC
def Group.iterMax (g : Group) : Nat := u8 g.cfg 0x10
def Group.dustRule (g : Group) : Nat := u8 g.cfg 0x11
def Group.reflMin (g : Group) : Nat := u8 g.cfg 0x12
def Group.slots (g : Group) : Nat := u8 g.cfg 0x13
def Group.voxelMm (g : Group) : Nat := u16 g.cfg 0x14
def Group.thermalBand (g : Group) : Nat := u16 g.cfg 0x1A
def Group.convMm (g : Group) : FVal := fp32 (BitVec.ofNat 32 (u32 g.cfg 0x38))
def Group.convMrad (g : Group) : FVal := fp32 (BitVec.ofNat 32 (u32 g.cfg 0x3C))
def Group.echoGap (g : Group) : Nat := u16 g.cfg 0x16
def Group.dustRange (g : Group) : Nat := u16 g.cfg 0x18
def Group.minCorr (g : Group) : Nat := u16 g.cfg 0x1C
def Group.maxBoxes (g : Group) : Nat := u16 g.cfg 0x1E
def Group.gridX (g : Group) : Nat := u16 g.cfg 0x20
def Group.gridY (g : Group) : Nat := u16 g.cfg 0x22
def Group.cellMm (g : Group) : Nat := u16 g.cfg 0x24
def Group.occMin (g : Group) : Nat := u8 g.cfg 0x26
def Group.originX (g : Group) : Int := sext 32 (u32 g.cfg 0x28)
def Group.originY (g : Group) : Int := sext 32 (u32 g.cfg 0x2C)
def Group.zMin (g : Group) : Int := sext 16 (u16 g.cfg 0x30)
def Group.zMax (g : Group) : Int := sext 16 (u16 g.cfg 0x32)
def Group.urgentMm (g : Group) : Nat := u16 g.cfg 0x34
def Group.heightMm (g : Group) : Nat := u16 g.cfg 0x36
def Group.qTrans (g : Group) : Word := BitVec.ofNat 32 (u32 g.cfg 0x40)
def Group.qRot (g : Group) : Word := BitVec.ofNat 32 (u32 g.cfg 0x44)
def Group.maxPoints (g : Group) : Nat := u32 g.cfg 0x48
def Group.tctr (g : Group) : Nat := u8 g.cfg 0x4C
def Group.tamt (g : Group) : Nat := u8 g.cfg 0x4D
/-- Handle 0 to 3: header, points, grid, depth. -/
def Group.handle (g : Group) (k : Nat) : DWord := BitVec.ofNat 64 (u64 g.cfg (0x50 + 8 * k))
def Group.depthShift (g : Group) : Nat := u8 g.cfg 0x70

/-- The group's members, in sensor order. -/
def Group.members (g : Group) : List Nat := bitList g.mask 16

/-- SILENT (R257, R262): nothing sent for 8 consecutive frames, nor since. -/
def Member.silent (m : Member) : Bool := decide (8 ≤ m.quiet) && !m.sent

/-- Members a frame waits for: timed, in service, and not SILENT. -/
def Sensor.awaited (x : Sensor) : Bool :=
  (x.time.state == .aligned || x.time.state == .arrival) && !x.stopped && !x.member.silent

/-- Whether a member is complete for the frame at `t` (R257). -/
def State.memberDone (s : State) (g i : Nat) (t : Int) : Bool :=
  let x := s.sensor i
  let y := s.group g
  if x.isLidar then x.member.points.any fun p => decide (t < p.time)
  else x.member.images.any fun m => decide (m.time ≤ t) && (y.sequence = 0 || decide (y.tLast < m.time))

/-- The awaited members still incomplete, as a mask. -/
def State.incomplete (s : State) (g : Nat) (t : Int) : Nat :=
  sumNat (((s.group g).members.filter fun i => (s.sensor i).awaited && !s.memberDone g i t).map (2 ^ ·))

/-- Whether step 2 has ended for the frame in progress of a group (R257). -/
def State.stepTwoOver (s : State) (g : Nat) : Bool :=
  match (s.group g).frame with
  | some f => !f.assembled && (f.closed || s.incomplete g f.t == 0)
  | none => false

/-- Groups whose frame has now ended step 2 join the order of assembly, lower group first (R257). -/
def State.noteReady (s : State) : State :=
  let more := (List.range 4).filter fun g => s.stepTwoOver g && !s.cup.ready.contains g
  if more.isEmpty then s else { s with cup := { s.cup with ready := s.cup.ready ++ more } }

/-- The started group a sensor belongs to. -/
def State.groupOf (s : State) (i : Nat) : Option Nat :=
  (List.range 4).find? fun g => (s.group g).started && (s.group g).members.contains i

end Sys2Proof.Machine
end

