-- ==== Sys2Proof/Machine/Accuracy.lean ====
section
/-! DEFINITION. The transcendental functions within the binding bounds of R61: the implementation's result where it lies
within the bound, and otherwise the nearest FP32 value. Enclosures are integer arithmetic with 128 fraction bits. -/

namespace Sys2Proof.Machine

/-- ⌊√n⌋, one bit of the root at a time from bit `k - 1` down; `r` is the root found so far. -/
def rootFrom : Nat → Nat → Nat → Nat
  | 0, _, r => r
  | k + 1, n, r => if (r + 2 ^ k) * (r + 2 ^ k) ≤ n then rootFrom k n (r + 2 ^ k) else rootFrom k n r

/-- ⌊√n⌋. -/
def rootFloor (n : Nat) : Nat := rootFrom (Nat.log2 n / 2 + 1) n 0

/-- Fraction bits of the enclosures. -/
def encBits : Nat := 128

/-- A number known to lie in `[lo, hi]`. -/
structure Enclosure where
  lo : FVal
  hi : FVal
  deriving DecidableEq, Repr

/-- An FP32 result within `bound` of the number enclosed. -/
def Enclosure.allows (x : Enclosure) (bound r : FVal) : Bool :=
  r.isFin && (FVal.add x.hi bound.negate).val.le r && r.le (FVal.add x.lo bound).val

/-- The spacing of FP32 at a number whose ⌊log2⌋ is `l`. -/
def ulp32 (l : Int) : FVal := .fin false 1 (max (l - 23) (-149))

/-- `k` units in the last place. -/
def ulps32 (k : Nat) (l : Int) : FVal := .fin false k (max (l - 23) (-149))

/-- The implementation's bits where they lie within the bound, else the nearest value's (R61). -/
def Enclosure.pick (x : Enclosure) (bound : FVal) (ours : Word) (best : Nat) : Nat :=
  if x.allows bound (fp32 ours) then ours.toNat else best

/-- 2^(2^-i) for i from 1 on, with `encBits` fraction bits, each the root of the one before. -/
def exp2Roots : Nat → Nat → List Nat
  | 0, _ => []
  | n + 1, prev =>
    let r := rootFloor (prev * 2 ^ encBits)
    r :: exp2Roots n r

/-- 2^f for the fraction `f / 2^encBits`: the product of the roots of its leading 70 bits. -/
def exp2Frac (f : Nat) : Nat :=
  (exp2Roots 70 (2 ^ (encBits + 1))).zipIdx.foldl
    (fun (acc : Nat) e => if f.testBit (encBits - 1 - e.2) then acc * e.1 / 2 ^ encBits else acc) (2 ^ encBits)

/-- 2^x for a finite x: its ⌊log2⌋ and an enclosure, exact for an integer x. -/
def exp2Enc (v : FVal) : Int × Enclosure :=
  let i := match v with
    | .fin neg m e => (if neg then -1 else 1) * (if 0 ≤ e + encBits then ((m <<< (e + encBits).toNat : Nat) : Int)
        else if neg then ((m >>> (-(e + encBits)).toNat : Nat) : Int) + 1 else ((m >>> (-(e + encBits)).toNat : Nat) : Int))
    | _ => 0
  let n := i / 2 ^ encBits
  let f := (i % 2 ^ encBits).toNat
  let m := exp2Frac f
  let slack := if f = 0 then 0 else m / 2 ^ 60
  (n, ⟨.fin false m (n - encBits), .fin false (m + slack) (n - encBits)⟩)

/-- The leading 80 fraction bits of log2 of `m / 2^encBits`, for `m` from 2^encBits to below 2^(encBits + 1). -/
def log2Digits : Nat → Nat → Nat → Nat
  | 0, _, acc => acc
  | n + 1, m, acc =>
    let q := m * m / 2 ^ encBits
    if 2 ^ (encBits + 1) ≤ q then log2Digits n (q / 2) (2 * acc + 1) else log2Digits n q (2 * acc)

/-- log2 of `m · 2^e`, enclosed; exact for a power of two. -/
def log2Enc (m : Nat) (e : Int) : Enclosure :=
  let k := Nat.log2 m
  let d := log2Digits 80 (m * 2 ^ (encBits - k)) 0
  let i := ((k : Int) + e) * 2 ^ 80 + (d : Int)
  ⟨FVal.ofScaled i (-80), FVal.ofScaled (if m = 2 ^ k then i else i + 2) (-80)⟩

/-- exp2 of a finite x between −150 and 128: within 2 ulp where the result is normal, within 2^-149 where it is
subnormal. -/
def exp2Within (ours : Word) (v : FVal) : Nat :=
  let (n, x) := exp2Enc v
  let best := (Fmt.fp32.encode .nearestEven 0 (FVal.add x.lo (if x.lo = x.hi then .fin false 0 0 else .fin false 1 (n - encBits))).val).bits
  x.pick (if n < -126 then .fin false 1 (-149) else ulps32 2 n) ours best

/-- log2 of a positive finite value: within 2^-22 for x in [0.5, 2], within 2 ulp otherwise. -/
def log2Within (ours : Word) (m : Nat) (e : Int) : Nat :=
  let x := log2Enc m e
  let v : FVal := .fin false m e
  let near := (FVal.fin false 1 (-1)).le v && v.le (.fin false 2 0)
  let best := (Fmt.fp32.encode .nearestEven 0 (if x.lo = x.hi then x.lo else (FVal.add x.lo (.fin false 1 (-90))).val)).bits
  x.pick (if near then .fin false 1 (-22) else ulps32 2 x.lo.log2) ours best

/-- 1/x for a finite x that is not zero: within 1 ulp; infinity, with FP_OVERFLOW (bit 2), where 1/x rounds to it. -/
def rcpWithin (ours : Word) (neg : Bool) (m : Nat) (e : Int) : Nat × Nat :=
  let best := Fmt.fp32.divNat 0 (.fin neg 1 (-e)) m
  let l : Int := if m = 2 ^ Nat.log2 m then -((Nat.log2 m : Nat) + e) else -((Nat.log2 m : Nat) + e) - 1
  let r := fp32 ours
  let x : FVal := .fin neg m e
  let off := (FVal.add (FVal.mul r x).val (.fin true 1 0)).val
  if best.ovf then (best.bits, 4)
  else (if r.isFin && off.abs.le (FVal.mul (ulp32 l) x.abs).val then ours.toNat else best.bits, 0)

/-- 1/√x for a positive finite x: within 1 ulp. -/
def rsqWithin (ours : Word) (m : Nat) (e : Int) : Nat :=
  let (m, e) := if e % 2 = 0 then (m, e) else (2 * m, e - 1)
  let q := rootFloor (2 ^ (2 * encBits) / m)
  let k : Int := -(e / 2) - encBits
  let exact := q * q * m == 2 ^ (2 * encBits)
  let best := (Fmt.fp32.encode .nearestEven 0 (.fin false (2 * q + if exact then 0 else 1) (k - 1))).bits
  let r := fp32 ours
  let u := ulp32 ((Nat.log2 q : Nat) + k)
  let x : FVal := .fin false m e
  let lo := (FVal.add r u.negate).val
  let hi := (FVal.add r u).val
  let one : FVal := .fin false 1 0
  if r.isFin && !r.neg? && (lo.neg? || (FVal.mul (FVal.mul lo lo).val x).val.le one) && one.le (FVal.mul (FVal.mul hi hi).val x).val
  then ours.toNat else best

end Sys2Proof.Machine
end

