-- ==== Sys2Proof/Machine/Geom.lean ====
section
/-! DEFINITION. Geometry in fixed point, shared by Cupola and Steeple: angles, vectors, rotations, the eigenvalues of a plane's
covariance, and exact elimination. The spec states formulas and no precision: numbers are formed with 80 fraction bits (log
entries 53 and 176). -/

namespace Sys2Proof.Machine

/-! ### Numbers -/

/-- One, in fixed point with 80 fraction bits. -/
def fxOne : Int := ((2 ^ 80 : Nat) : Int)
/-- A product and a quotient in fixed point; a zero divisor gives zero. -/
def fxMul (a b : Int) : Int := a * b / fxOne
def fxDiv (a b : Int) : Int := if b = 0 then 0 else a * fxOne / b
/-- The root of a number that is not negative. -/
def fxSqrt (a : Int) : Int := ((rootFloor (a.toNat * 2 ^ 80) : Nat) : Int)

/-- A finite value in units of `2^-k`, cut toward zero; what is no finite number gives zero. -/
def FVal.units (k : Nat) : FVal → Int
  | .fin neg m e =>
    let n := if 0 ≤ e + k then m <<< (e + k).toNat else m >>> (-(e + k)).toNat
    if neg then -(n : Int) else n
  | _ => 0

/-- An FP32 field of a record in fixed point, and three in a row. -/
def fxAt (b : List Byte) (o : Nat) : Int := (fp32 (BitVec.ofNat 32 (u32 b o))).units 80
def fx3At (b : List Byte) (o : Nat) : V3 := ⟨fxAt b o, fxAt b (o + 4), fxAt b (o + 8)⟩

/-- An exact tie or a value the spec leaves open, as a bit that depends on the operand alone (a free value). -/
def freeBit (unit_ operand : Nat) : Bool := (Config.unitValue unit_ operand).testBit 0

/-- A number in units of `2^-k` as an FP32 word: exact where it is one, else either neighbour (a free value: the spec states no
rounding, log entry 176). -/
def fpNear (k : Nat) (v : Int) : Word :=
  let z := Fmt.fp32.magBits .towardZero v.natAbs (-(k : Int))
  let exact := ((Fmt.fp32.decode z).units k).natAbs == v.natAbs
  BitVec.ofNat 32 ((decide (v < 0)).toNat <<< 31 ||| min 0x7F800000 (z + (!exact && freeBit 8 (2 * v.natAbs + (decide (v < 0)).toNat)).toNat))

/-! ### Angles -/

/-- cos(2π k ÷ 64) for k from 0 to 16, in units of 2^-80 (log entry 53). -/
def cosQuarter : List Nat :=
  [1208925819614629174706176, 1203104511360146332467513, 1185696648977439268413811, 1156869879697359015515708,
   1116901821066387782991457, 1066177387337905144460521, 1005185082537512458122801, 934512295902222861419482,
   854839645001009215068542, 766934421015551484640081, 671643199306713136413605, 569883686431030855087652,
   462635882124905661503633, 350932641371419020810022, 235849727442229801031474, 118495451709196174743783, 0]

/-- π in units of 2^-80. -/
def piUnits : Nat := 3797952473636338580787994

/-- π in units of 2^-300, for angles of many turns. -/
def piWide : Nat :=
  6399537258350533404498902296276095619968599404742382956244570183135712832137875919436931981

/-- cos(2π k ÷ 64), any k. -/
def cos64 (k : Nat) : Int :=
  let j := k % 64
  let at_ := fun (i : Nat) => ((nth 0 cosQuarter i : Nat) : Int)
  if j ≤ 16 then at_ j else if j ≤ 32 then -at_ (32 - j) else if j ≤ 48 then -at_ (j - 32) else at_ (64 - j)

/-- Cosine and sine of an angle given in units of 2^-80 rad, in units of 2^-80: the power series after whole turns are taken
off. -/
def cosSin (angle : Int) : Int × Int :=
  let turn : Int := 2 * (piUnits : Int)
  let x := (angle + (piUnits : Int)) % turn - (piUnits : Int)
  let r := (List.range 40).foldl (fun (a : Int × Int × Int) k =>
    let term := a.1
    let next := term * x / fxOne / ((k + 1 : Nat) : Int)
    match k % 4 with
    | 0 => (next, a.2.1 + term, a.2.2)
    | 1 => (next, a.2.1, a.2.2 + term)
    | 2 => (next, a.2.1 - term, a.2.2)
    | _ => (next, a.2.1, a.2.2 - term)) (fxOne, 0, 0)
  r.2

/-! ### Vectors -/

def V3.zero : V3 := ⟨0, 0, 0⟩
def V3.add (a b : V3) : V3 := ⟨a.x + b.x, a.y + b.y, a.z + b.z⟩
def V3.sub (a b : V3) : V3 := ⟨a.x - b.x, a.y - b.y, a.z - b.z⟩
def V3.neg (a : V3) : V3 := ⟨-a.x, -a.y, -a.z⟩
def V3.dot (a b : V3) : Int := a.x * b.x + a.y * b.y + a.z * b.z
/-- `v · n ÷ d`; a zero divisor gives no displacement. -/
def V3.frac (v : V3) (n d : Int) : V3 := ⟨v.x * n / d, v.y * n / d, v.z * n / d⟩
/-- A vector times a number in fixed point. -/
def V3.times (v : V3) (k : Int) : V3 := v.frac k fxOne
/-- The cross product of two vectors in fixed point. -/
def V3.cross (a b : V3) : V3 := ⟨(a.y * b.z - a.z * b.y) / fxOne, (a.z * b.x - a.x * b.z) / fxOne, (a.x * b.y - a.y * b.x) / fxOne⟩
/-- The length of a vector in fixed point. -/
def V3.length (a : V3) : Int := ((rootFloor (a.dot a).toNat : Nat) : Int)

/-- The product of a 3 × 3 matrix, given by its rows, and a vector. -/
def rowsMul (m : List V3) (v : V3) : V3 :=
  ⟨(nth V3.zero m 0).dot v / fxOne, (nth V3.zero m 1).dot v / fxOne, (nth V3.zero m 2).dot v / fxOne⟩

/-- The product of its transpose and a vector. -/
def colsMul (m : List V3) (v : V3) : V3 :=
  (((nth V3.zero m 0).times v.x).add ((nth V3.zero m 1).times v.y)).add ((nth V3.zero m 2).times v.z)

/-! ### Rotations -/

/-- R(ω) p for a rotation vector ω in radians (R260): p + (sin θ ÷ θ) ω × p + ((1 − cos θ) ÷ θ²) ω × (ω × p). -/
def rotVec (w p : V3) : V3 :=
  let th := w.length
  if th = 0 then p.add (w.cross p)
  else
    let (c, s) := cosSin th
    let u := w.cross p
    (p.add (u.times (fxDiv s th))).add ((w.cross u).times (fxDiv (fxOne - c) (fxMul th th)))

/-- The transpose of the left Jacobian of R(ω), applied to `u`: R(ω + δ) = R(J δ) R(ω) to first order in δ. -/
def leftJacT (w u : V3) : V3 :=
  let th := w.length
  let th2 := fxMul th th
  let small := decide (th < ((2 ^ 70 : Nat) : Int))
  let (c, s) := cosSin th
  let b := if small then fxOne / 2 - th2 / 24 else fxDiv (fxOne - c) th2
  let k := if small then fxOne / 6 - th2 / 120 else fxDiv (th - s) (fxMul th2 th)
  let v := w.cross u
  (u.sub (v.times b)).add ((w.cross v).times k)

/-- The quaternion w, x, y, z of R(ω), in fixed point: cos(θ ÷ 2) and ω sin(θ ÷ 2) ÷ θ. -/
def quatVec (w : V3) : Int × V3 :=
  let th := w.length
  if th = 0 then (fxOne, w.frac 1 2)
  else
    let (c, s) := cosSin (th / 2)
    (c, w.times (fxDiv s th))

/-- The product of two quaternions. -/
def quatMul (a b : Int × V3) : Int × V3 :=
  ((a.1 * b.1 - a.2.dot b.2) / fxOne, ((b.2.times a.1).add (a.2.times b.1)).add (a.2.cross b.2))

/-- A quaternion brought to length 1; a zero one stays. -/
def quatUnit (q : Int × V3) : Int × V3 :=
  let n := ((rootFloor (q.1 * q.1 + q.2.dot q.2).toNat : Nat) : Int)
  (fxDiv q.1 n, ⟨fxDiv q.2.x n, fxDiv q.2.y n, fxDiv q.2.z n⟩)

/-- Q p for a quaternion of length 1: p + 2 w (v × p) + 2 v × (v × p). -/
def quatTurn (q : Int × V3) (p : V3) : V3 :=
  let u := q.2.cross p
  (p.add (u.times (2 * q.1))).add ((q.2.cross u).frac 2 1)

/-! ### Planes -/

/-- Entry (i, j) of a matrix given by rows. -/
def matAt (m : List (List Int)) (i j : Nat) : Int := nth 0 (nth [] m i) j

/-- The product of two 3 × 3 matrices in fixed point. -/
def matMul (a b : List (List Int)) : List (List Int) :=
  (List.range 3).map fun i => (List.range 3).map fun j =>
    (matAt a i 0 * matAt b 0 j + matAt a i 1 * matAt b 1 j + matAt a i 2 * matAt b 2 j) / fxOne

/-- The rotation in the plane of axes `p` and `q` that takes the entry (p, q) of a symmetric matrix away. -/
def jacobiRot (a : List (List Int)) (p q : Nat) : List (List Int) :=
  let apq := matAt a p q
  let tau := fxDiv (matAt a q q - matAt a p p) (2 * apq)
  let r := fxSqrt (fxOne + fxMul tau tau)
  let t := if apq = 0 then 0 else if 0 ≤ tau then fxDiv fxOne (tau + r) else fxDiv (-fxOne) (r - tau)
  let c := fxDiv fxOne (fxSqrt (fxOne + fxMul t t))
  let s := fxMul t c
  (List.range 3).map fun i => (List.range 3).map fun j =>
    if i = j then (if i = p || i = q then c else fxOne) else if i = p && j = q then s else if i = q && j = p then -s else 0

/-- The transpose of a 3 × 3 matrix. -/
def matTrans (a : List (List Int)) : List (List Int) := (List.range 3).map fun i => (List.range 3).map fun j => matAt a j i

/-- Eigenvalues (the diagonal) and eigenvectors (the columns) of a symmetric 3 × 3 matrix, by eight sweeps of rotations. -/
def eigen3 (a : List (List Int)) : List (List Int) × List (List Int) :=
  (List.range 24).foldl (fun (e : List (List Int) × List (List Int)) k =>
    let pq := nth (0, 1) [(0, 1), (0, 2), (1, 2)] (k % 3)
    let g := jacobiRot e.1 pq.1 pq.2
    (matMul (matTrans g) (matMul e.1 g), matMul e.2 g)) (a, [[fxOne, 0, 0], [0, fxOne, 0], [0, 0, fxOne]])

/-! ### Elimination -/

/-- Fraction-free Gauss–Jordan elimination of a symmetric positive matrix of whole numbers, further columns carried along: the
rows, whose diagonal is the determinant, and the determinant; none where a pivot is not above 0. -/
def eliminate (n : Nat) (m : List (List Int)) : Option (List (List Int) × Int) :=
  (List.range n).foldl (fun (e : Option (List (List Int) × Int)) k => e.bind fun (rows, prev) =>
    let top := nth [] rows k
    let piv := nth 0 top k
    if piv ≤ 0 then none
    else some (rows.zipIdx.map (fun r =>
      if r.2 = k then r.1
      else
        let f := nth 0 r.1 k
        r.1.zipIdx.map fun v => (piv * v.1 - f * nth 0 top v.2) / prev), piv)) (some (m, 1))

/-- A list of whole numbers in rising order. -/
def insertInt (x : Int) : List Int → List Int
  | [] => [x]
  | y :: ys => if x ≤ y then x :: y :: ys else y :: insertInt x ys

/-- The sum of a list of whole numbers. -/
def sumInt (l : List Int) : Int := l.foldl (· + ·) 0

end Sys2Proof.Machine
end

