-- ==== Sys2Proof/Machine/Stem.lean ====
section
/-! DEFINITION. The stem engine: its command record, its output lines, its status line (R193 to R196). -/

namespace Sys2Proof.Machine

/-! ### The record (R193) -/

def sMode (b : List Byte) : Nat := u8 b 0
def sCin (b : List Byte) : Nat := u8 b 2
def sCout (b : List Byte) : Nat := u8 b 3
def sKh (b : List Byte) : Nat := u8 b 4
def sKw (b : List Byte) : Nat := u8 b 5
def sStride (b : List Byte) : Nat := u8 b 6
def sRelu (b : List Byte) : Bool := bitAt (u8 b 7) 0
def sArgmax (b : List Byte) : Bool := bitAt (u8 b 7) 1
def sOutFmt (b : List Byte) : Nat := u8 b 9
def sPadV (b : List Byte) : Nat := u8 b 0xA % 16
def sPadH (b : List Byte) : Nat := u8 b 0xA / 16
def sInW (b : List Byte) : Nat := u16 b 0x18
def sInH (b : List Byte) : Nat := u16 b 0x1A
def sDst (b : List Byte) : Nat := u64 b 0x30
def sDstPitch (b : List Byte) : Nat := u32 b 0x2C
def sWeights (b : List Byte) : Nat := u64 b 0x38
def sQuant (b : List Byte) : Nat := u64 b 0x40
def sStatus (b : List Byte) : Nat := u64 b 0x58

/-- Output pixels of a line, or lines: ⌊(n + 2 pad − k) ÷ stride⌋ + 1, 0 where that is below 1. -/
def sOut (n pad k stride : Nat) : Nat := if n + 2 * pad < k then 0 else (n + 2 * pad - k) / stride + 1
def sWo (b : List Byte) : Nat := if sInW b = 0 then 0 else sOut (sInW b) (sPadH b) (sKw b) (sStride b)
def sHo (b : List Byte) : Nat := if sInH b = 0 then 0 else sOut (sInH b) (sPadV b) (sKh b) (sStride b)
def sEmpty (b : List Byte) : Bool := sWo b == 0 || sHo b == 0

/-- Bytes of a written output line, padded to 64. -/
def sLineBytes (b : List Byte) : Nat :=
  roundUp 64 (sWo b * (if sArgmax b then 1 else if sOutFmt b = 5 then 32 else 16))
def sWeightBytes (b : List Byte) : Nat := roundUp 16 (sCout b * sKh b * sKw b * sCin b)

/-- Entry `i` of IN_OFFSET and IN_OFFSET_HI: unsigned in mode 0, two's complement in mode 1. -/
def sOffset (b : List Byte) (i : Nat) : Int :=
  let v := if i < 8 then u16 b (0x48 + 2 * i) else u16 b (0x60 + 2 * (i - 8))
  if sMode b = 0 then (v : Int) else sext 16 v

/-- Fields within their ranges and reserved fields zero (R193). -/
def stemFieldsOk (b : List Byte) (shared : Nat) : Bool :=
  let m0 := sMode b == 0
  decide (sMode b ≤ 1) && (if m0 then decide (u8 b 1 ≤ 15) else u8 b 1 == 0) &&
  decide (1 ≤ sCin b) && decide (sCin b ≤ if m0 then 8 else 16) && decide (1 ≤ sCout b) && decide (sCout b ≤ 16) &&
  decide (1 ≤ sKh b) && decide (sKh b ≤ 7) && decide (1 ≤ sKw b) && decide (sKw b ≤ 7) &&
  [1, 2, 4].contains (sStride b) && decide (u8 b 7 ≤ 3) && decide (u8 b 8 ≤ if m0 then 3 else 0) &&
  [0, 2, 5].contains (sOutFmt b) && decide (sPadV b < sKh b) && decide (sPadH b < sKw b) && u8 b 0xB == 0 &&
  (m0 || (u32 b 0xC == 0 && u32 b 0x10 == 0)) && decide (sInW b ≤ 4096) && decide (sInH b ≤ 4096) &&
  (if u16 b 0x1C = 0 then u8 b 0x1F == 0 else u8 b 0x1F != 0 && decide (u8 b 0x1E < shared)) &&
  (if m0 then u64 b 0x20 == 0 && u32 b 0x28 == 0 else u64 b 0x20 % 64 == 0 && u32 b 0x28 % 64 == 0) &&
  sDstPitch b % 64 == 0 && decide (sLineBytes b ≤ sDstPitch b) && sDst b % 64 == 0 && sWeights b % 16 == 0 && sStatus b % 64 == 0 &&
  (if m0 then allZero b 0x60 16 else (List.range 8).all fun i => decide (8 + i < sCin b) || u16 b (0x60 + 2 * i) == 0) &&
  allZero b 0x70 16

/-- Every range of the record lies in the partition's regions (R163). -/
def Part.stemRangesOk (q : Part) (b : List Byte) : Bool :=
  q.inRegion (sStatus b) 64 &&
  (sEmpty b ||
    (q.inRegion (sDst b) (sDstPitch b * (sHo b - 1) + sLineBytes b) && q.inRegion (sWeights b) (sWeightBytes b) &&
     q.inRegion (sQuant b) (16 * sCout b) &&
     (sMode b == 0 || q.inRegion (u64 b 0x20 + u32 b 0x28 * u16 b 0x16)
        (u32 b 0x28 * (sInH b - 1) + 16 * (u16 b 0x14 + sInW b)))))

/-- A requantisation entry: SHIFT up to 63, its reserved bytes zero. -/
def quantOk (e : List Byte) : Bool := decide (u8 e 6 ≤ 63) && allZero e 7 9

/-- The shared counters of the image in partition `p`'s running context. -/
def State.sharedTokens (s : State) (p : Nat) : Nat :=
  match (s.onEngines p).image with
  | some im => im.needs.sharedTokens
  | none => 0

/-- A checked command waits for its lines. -/
def State.queueStem (s : State) (x : Post) (b : List Byte) : State :=
  { s with stem := s.stem ++ [{ post := x.id, part := x.part, ctx := x.ctx, record := b }] }

/-- STEM_COMMAND_POST: the record is read and checked; a bad one writes nothing and ends the job (R163, R193). -/
def State.issueStem (s : State) (i : Issue) (w : Nat) : State :=
  let (x, s1) := s.newPost i .stem w
  let a := x.addr.toNat
  if !(s1.part i.part).inRegion a 128 then s1.addrFault i.part i.lane
  else
    (s1.flushRun i.part a 128).ifLive i fun s2 =>
      if s2.anyPoison i.part a 128 then s2.endResident i.part stPoisonConsumed
      else
        let b := s2.readBytes i.part a 128
        if !stemFieldsOk b (s2.sharedTokens i.part) || !(s2.part i.part).stemRangesOk b then s2.addrFault i.part i.lane
        else if sEmpty b then s2.queueStem x b
        else (s2.flushRun i.part (sQuant b) (16 * sCout b)).ifLive i fun s3 =>
          if (List.range (sCout b)).all fun k => quantOk (s3.readBytes i.part (sQuant b + 16 * k) 16) then s3.queueStem x b
          else s3.addrFault i.part i.lane

def execStemCommandPost (i : Issue) (w : BitVec 96) (s : State) : Res :=
  slotRes (bits w.toNat 63 60 == 0 && i.lane == 255) "STEM_COMMAND_POST"
    (s.onSlot i 4 [pAreg w.toNat] free fun t => t.issueStem i w.toNat)

/-! ### An output line (R194) -/

/-- The input a line reads: its samples by channel, and whether it is poisoned; a line of padding has none. -/
abbrev StemLine := Option (List (List Nat) × Bool)

/-- The value of input channel `c` at pixel `x` of a line, less its offset: padding gives 0, a sample the line does not hold
is a free value. -/
def stemSample (b : List Byte) (seed : Nat) (l : StemLine) (x : Int) (c : Nat) : Int :=
  match l with
  | none => 0
  | some (chans, _) =>
    if x < 0 || (sInW b : Int) ≤ x then 0
    else
      let at_ := u16 b 0x14 + x.toNat
      let v : Int := match (nth [] chans c)[at_]? with
        | some v => if sMode b = 0 then (v : Int) else sext 8 v
        | none => ((Config.freeNat (seed + at_) % (if u8 b 8 = 0 then 256 else 65536) : Nat) : Int)
      v - sOffset b c

/-- The exact sum of one output channel at one pixel, over KH lines. -/
def stemSum (b weights : List Byte) (seed : Nat) (ls : List StemLine) (ox o : Nat) : Int :=
  let x0 : Int := (ox * sStride b : Nat) - (sPadH b : Nat)
  (List.range (sKh b)).foldl (fun a ky =>
    (List.range (sKw b)).foldl (fun a kx =>
      (List.range (sCin b)).foldl (fun a c =>
        let wgt := sext 8 (u8 weights (((o * sKh b + ky) * sKw b + kx) * sCin b + c))
        a + stemSample b seed (nth none ls ky) (x0 + (kx : Int)) c * wgt) a) a) 0

/-- `m · 2^-k` rounded to the nearest integer; an exact tie goes either way (a free value). -/
def nearestFree (seed m k : Nat) : Nat :=
  let n := m / 2 ^ k
  let rest := 2 * (m % 2 ^ k)
  if 2 ^ k < rest || (rest = 2 ^ k && (Config.freeNat seed) % 2 = 1) then n + 1 else n

/-- Magnitude bits of `m · 2^-k` on a format's grid, ties free. -/
def Fmt.magFree (f : Fmt) (seed m k : Nat) : Nat :=
  if m = 0 then 0
  else
    let qmin : Int := 1 - f.bias - f.mb
    let q := max ((Nat.log2 m : Nat) - (k : Int) - f.mb) qmin
    let sh := q + k
    (q - qmin).toNat * 2 ^ f.mb + (if sh ≤ 0 then m <<< (-sh).toNat else nearestFree seed m sh.toNat)

/-- The requantised channel in the output format: v = (sum + BIAS) × MULT × 2^−SHIFT, ReLU, rounded and saturated. -/
def stemQuant (b q : List Byte) (seed : Nat) (sum : Int) : Nat :=
  let v0 := (sum + sext 32 (u32 q 0)) * (u16 q 4 : Nat)
  let v := if sRelu b && decide (v0 < 0) then 0 else v0
  let neg := decide (v < 0)
  if sOutFmt b = 0 then
    let n := nearestFree seed v.natAbs (u8 q 6)
    if neg then (256 - min n 128) % 256 else min n 127
  else
    let f := if sOutFmt b = 2 then Fmt.e4m3 else Fmt.bf16
    neg.toNat <<< (f.eb + f.mb) ||| min (f.magFree seed v.natAbs (u8 q 6)) f.maxBits

/-- Order of two requantised values of the output format. -/
def stemLess (fmt a b : Nat) : Bool :=
  if fmt = 0 then decide (sext 8 a < sext 8 b)
  else if fmt = 2 then (Fmt.e4m3.decode a).lt (Fmt.e4m3.decode b) else (Fmt.bf16.decode a).lt (Fmt.bf16.decode b)

/-- The index of the largest value, the lowest at a tie. -/
def stemArgmax (fmt : Nat) (l : List Nat) : Nat :=
  (l.zipIdx.foldl (fun (best : Nat × Nat) e => if e.2 = 0 || stemLess fmt best.1 e.1 then e else best) (0, 0)).2

/-- The bytes of one output line. -/
def stemLine (b weights quant : List Byte) (seed : Nat) (ls : List StemLine) : List Byte :=
  let px := (List.range (sWo b)).flatMap fun ox =>
    let vals := (List.range (sCout b)).map fun o =>
      stemQuant b (quant.drop (16 * o)) (seed + 131072 + 16 * ox + o) (stemSum b weights seed ls ox o)
    if sArgmax b then leBytes 1 (stemArgmax (sOutFmt b) vals)
    else (fit 0 16 vals).flatMap (leBytes (if sOutFmt b = 5 then 2 else 1))
  fit 0 (sLineBytes b) px

/-! ### The course of a command (R196) -/

/-- The command ends: its status line is written, then the post's increment is applied. -/
def State.endStem (s : State) (c : StemCmd) (status : Nat) : State :=
  let b := c.record
  let frame := if sMode b = 0 then u32 b 0x10 else 0
  let s1 := s.wideWrite c.part (sStatus b) (fit 0 64 (leBytes 2 status ++ zeros 2 ++ leBytes 4 c.lines ++ leBytes 4 frame))
  let s2 := { s1 with stem := s1.stem.filter (·.post != c.post) }
  match s2.post c.post with
  | some x => s2.postDone x
  | none => s2

/-- Input line `r` of the command (0 to IN_H − 1), where it can be had. -/
def State.stemInput (s : State) (c : StemCmd) (r : Int) : Option (Option StemLine) :=
  let b := c.record
  if r < 0 || (sInH b : Int) ≤ r then some (some none)
  else if sMode b = 0 then
    match (s.sensor (u8 b 1)).line (u32 b 0x10) (u16 b 0x16 + r.toNat) with
    | .awaited => some none
    | .gone => none
    | .present l =>
      some (some (some ((List.range (sCin b)).map fun i => Map.get [] l.comps (bits (u32 b 0xC) (4 * i + 3) (4 * i)), false)))
  else
    let a := u64 b 0x20 + u32 b 0x28 * (u16 b 0x16 + r.toNat)
    let n := 16 * (u16 b 0x14 + sInW b)
    let d := (s.readBytes c.part a n).map (·.toNat)
    let chan := fun i => (List.range (n / 16)).map fun x => nth 0 d (16 * x + i)
    some (some (some ((List.range (sCin b)).map chan, s.anyPoison c.part a n)))

/-- The input lines that the next output line reads: none where one is gone, some none where one is awaited. -/
def State.stemInputs (s : State) (c : StemCmd) : Option (Option (List StemLine)) :=
  let y0 : Int := (c.lines * sStride c.record : Nat) - (sPadV c.record : Nat)
  let ls := (List.range (sKh c.record)).map fun (ky : Nat) => s.stemInput c (y0 + (ky : Int))
  if ls.any (·.isNone) then none
  else if ls.any (· == some none) then some none
  else some (some (ls.map fun l => (l.getD none).getD none))

/-- The open gather entries of the lines that an output line reads issue first: input lines of mode 1, weights, QUANT (R99). -/
def State.flushInputs (s : State) (c : StemCmd) : State :=
  let b := c.record
  let y0 : Int := (c.lines * sStride b : Nat) - (sPadV b : Nat)
  let s1 := if sMode b = 0 then s else
    (List.range (sKh b)).foldl (fun (t : State) (k : Nat) =>
      let r : Int := y0 + (k : Int)
      if r < 0 || (sInH b : Int) ≤ r then t
      else t.flushRun c.part (u64 b 0x20 + u32 b 0x28 * (u16 b 0x16 + r.toNat)) (16 * (u16 b 0x14 + sInW b))) s
  (s1.flushRun c.part (sWeights b) (sWeightBytes b)).flushRun c.part (sQuant b) (16 * sCout b)

/-- The next output line is written; a tick follows after every TICK_LINES lines; the last line ends the command. -/
def State.stemWrite (s : State) (c : StemCmd) (ls : List StemLine) : State :=
  let b := c.record
  let (seed, s1) := s.take 262144
  let bad := s1.anyPoison c.part (sWeights b) (sWeightBytes b) || s1.anyPoison c.part (sQuant b) (16 * sCout b) ||
    ls.any fun l => (l.map Prod.snd).getD false
  let line := stemLine b (s1.readBytes c.part (sWeights b) (sWeightBytes b)) (s1.readBytes c.part (sQuant b) (16 * sCout b)) seed ls
  let s2 := s1.wideWrite c.part (sDst b + sDstPitch b * c.lines) line bad
  let c1 := { c with lines := c.lines + 1 }
  let s3 := { s2 with stem := s2.stem.map fun x => if x.post = c.post then c1 else x }
  let s4 := if u16 b 0x1C != 0 && c1.lines % u16 b 0x1C == 0 then s3.increment c.part 255 (s.tokBase c.part 255 + u8 b 0x1E) (u8 b 0x1F)
    else s3
  if sHo b ≤ c1.lines then s4.endStem c1 stOk else s4

/-- Whether a mode-0 command's sensor is a camera with its format and components (R196, R245). -/
def Sensor.stemOk (x : Sensor) (b : List Byte) : Bool :=
  x.isCamera && x.format == u8 b 8 && (List.range (sCin b)).all fun i => decide (bits (u32 b 0xC) (4 * i + 3) (4 * i) < x.components)

/-- The next line of a command, its lines' gather entries issued: it is computed and written where its input is present and the
command's partition holds the stem engine's grant, which it uses up (R197). -/
def State.stemNext (s : State) (c : StemCmd) : State :=
  match s.stemInputs c with
  | none => s.endStem c stFrameOverrun
  | some none => s
  | some (some ls) => if s.arbHolds 7 0 c.part then (s.arbDone 7 0).stemWrite c ls else s

/-- STEM_LINE_START: the input lines that an output line needs are present, and the line is computed and written. -/
def execStemLineStart (id : Nat) (s : State) : Res :=
  match s.stem.find? (·.post == id) with
  | none => .next s
  | some c =>
    if sEmpty c.record then .next (s.endStem c stOkEmpty)
    else if sMode c.record = 0 && !(s.sensor (u8 c.record 1)).stemOk c.record then .next (s.endStem c stSensorAbsent)
    else
      let s1 := s.flushInputs c
      .next (if s1.stem.any (·.post == id) then s1.stemNext c else s1)

end Sys2Proof.Machine
end

