-- ==== Sys2Proof/Machine/Cupola.lean ====
section
/-! DEFINITION. Cupola's ingest and its times: cameras, Ethernet, lidar packets, triggers, strobes, the anchor
(R241 to R255, R416). -/

namespace Sys2Proof.Machine

/-! ### Times (R253, R254) -/

/-- `n ÷ d` rounded to the nearest integer, a tie free. -/
def nearestInt (n : Int) (d : Nat) : Int :=
  let q := n / (d : Int)
  let r := (2 * (n % (d : Int))).toNat
  if d < r || (r = d && freeBit 1 n.natAbs) then q + 1 else q

/-- A least-squares line over pairs (sensor time, anchor count): slope `num ÷ den`, through the means `(s, t) ÷ n`. -/
structure Fit where
  n : Nat
  s : Int
  t : Int
  num : Int
  den : Nat
  deriving DecidableEq, Repr

/-- The fit over the pairs; none where they do not determine a line. -/
def fitOf (l : List (Int × Int)) : Option Fit :=
  let n := l.length
  let s := l.foldl (fun a p => a + p.1) 0
  let t := l.foldl (fun a p => a + p.2) 0
  let den := l.foldl (fun a p => a + ((n : Int) * p.1 - s) * ((n : Int) * p.1 - s)) 0
  let num := l.foldl (fun a p => a + ((n : Int) * p.1 - s) * ((n : Int) * p.2 - t)) 0
  if den.toNat = 0 then none else some ⟨n, s, t, num, den.toNat⟩

/-- `n · den` times the anchor time the fit gives to a sensor time. -/
def Fit.at (f : Fit) (x : Int) : Int := f.t * f.den + f.num * ((f.n : Int) * x - f.s)

/-- The anchor time of a sensor time, to the nearest tick. -/
def Fit.map (f : Fit) (x : Int) : Int := nearestInt (f.at x) (f.n * f.den)

/-- Whether an edge at `t` for sensor time `x` lies within SLIP_TICKS, and the slope within 1,000 ppm of the nominal rate. -/
def Fit.consistent (f : Fit) (slip rate : Nat) (x t : Int) : Bool :=
  decide ((f.at x - t * ((f.n * f.den : Nat) : Int)).natAbs ≤ slip * (f.n * f.den)) &&
  decide (1000 * (f.num * 2 ^ 32 - (rate : Int) * f.den).natAbs ≤ rate * f.den)

/-- The multiple of the strobe period nearest to what an edge at `t` stands for while ALIGNED: the fit's inverse. -/
def Fit.nearest (f : Fit) (period : Nat) (t : Int) : Int :=
  if f.num ≤ 0 then 0
  else
    let d := period * f.n * f.num.natAbs
    nearestInt (f.s * f.num + ((f.n : Int) * t - f.t) * f.den) d * period

/-- A strobe edge pairs into the sensor's fit (R254, R255). -/
def SensorTime.strobe (x : SensorTime) (period slip rate : Nat) (t : Int) : SensorTime × Bool :=
  let f := fitOf x.pairs
  let near := nearestInt x.sample period * period
  match x.state with
  | .aligned =>
    match f with
    | some g =>
      let n := g.nearest period t
      if g.consistent slip rate n t then ({ x with pairs := ((n, t) :: x.pairs).take 16, missed := 0 }, false)
      else ({ x with state := .unaligned, pairs := [], run := 0, missed := 0 }, true)
    | none => ({ x with state := .unaligned, pairs := [], run := 0, missed := 0 }, true)
  | .unaligned =>
    let good := match f with
      | some g => g.consistent slip rate near t
      | none => freeBit 2 near.natAbs
    if x.run < 2 || good then
      let k := min 16 (x.run + 1)
      ({ x with pairs := ((near, t) :: x.pairs).take 16, run := k, missed := 0, state := if k = 16 then .aligned else .unaligned }, false)
    else ({ x with pairs := [(near, t)], run := 1, missed := 0 }, false)
  | _ => (x, false)

/-- A slip or a run of missed strobes takes the group's anchor out of ALIGNED: a time break is owed (R262). -/
def State.anchorLost (s : State) (i : Nat) : State :=
  match s.groupOf i with
  | some g => if (s.group g).anchor = i then s.modGroup g fun x => { x with broken := true } else s
  | none => s

/-- One sensor's part in a strobe edge. -/
def State.strobeOne (s : State) (latches : List (Nat × Nat)) (i : Nat) : State :=
  match s.groupOf i with
  | none => s
  | some g =>
    match latches.find? (·.1 == g) with
    | none => s
    | some (_, t) =>
      let x := s.sensor i
      let (y, slipped) := x.time.strobe x.period x.slip x.rate (t : Int)
      let s1 := s.modSensor i fun x => { x with
        time := y, stats := if slipped then { x.stats with slips := x.stats.slips + 1 } else x.stats }
      if slipped then s1.anchorLost i else s1

/-- STROBE_MISSED: no edge within 1.5 periods of the prediction; the fourth in a row takes the sensor out of ALIGNED. -/
def execStrobeMissed (i : Nat) (s : State) : Res :=
  let x := s.sensor i
  if (s.groupOf i).isNone || !x.strobeTimed then .next s
  else if x.time.state == .aligned && 3 ≤ x.time.missed then
    .next ((s.modSensor i fun y => { y with time := { y.time with state := .unaligned, pairs := [], run := 0, missed := 0 } }).anchorLost i)
  else if x.time.state == .aligned then .next (s.modSensor i fun y => { y with time := { y.time with missed := y.time.missed + 1 } })
  else if x.time.state == .unaligned then .next (s.modSensor i fun y => { y with time := { y.time with run := 0, pairs := [] } })
  else .next s

/-- ANCHOR_COUNT_UPDATE: Cupola's copy of a group's anchor counter moves on (R252). -/
def execAnchorCountUpdate (g count : Nat) (s : State) : Res :=
  .next (if (s.group g).started && g < 4 then s.modGroup g fun x => { x with count := max x.count (count % 2 ^ 64) } else s)

/-! ### Samples (R253, R255, R258) -/

/-- Whether a sensor's samples have an anchor time. -/
def SensorTime.timed (x : SensorTime) : Bool := x.state == .aligned || x.state == .arrival

/-- A sample is late when it lies at or before the last issued frame. -/
def Group.isLate (g : Group) (t : Int) : Bool := g.sequence != 0 && decide (t ≤ g.tLast)

/-! ### Cameras (R241, R244, R245) -/

/-- The camera on a CSI port's virtual channel, and the gate. -/
def State.cameraAt (s : State) (port vc : Nat) : Option (Nat × Nat) :=
  (List.range 16).findSome? fun i =>
    let x := s.sensor i
    if x.isCamera && x.port = port && x.vc ≤ vc && vc < x.vc + x.gates && !x.stopped then some (i, vc - x.vc) else none

/-- What lies between the anchor counter and Cupola's copy of it (R252): at most 16 ticks and a crossing of R31, of at most
4 ticks (a free value, log entry 177). -/
def copyLag (count : Nat) : Nat := Config.unitValue 34 count % 21

/-- The arrival stamp of a camera at its frame start: Cupola's copy of the anchor counter, or on the anchor's own port the
anchor count itself (R253). -/
def State.arrivalStamp (s : State) (i : Nat) : Nat :=
  match s.groupOf i with
  | some g =>
    let c := (s.group g).count
    if (s.sensor (s.group g).anchor).port = (s.sensor i).port then c + copyLag c else c
  | none => 0

/-- The image time of a camera at its frame start: SAMPLE_OFFSET is added to a mapped time (R253). -/
def State.stampImage (s : State) (i frame : Nat) : Sensor → Sensor := fun x =>
  if x.strobeTimed then
    let n := x.time.sample + (((frame : Int) - x.time.sample) % 65536)
    let t := match fitOf x.time.pairs with
      | some f => f.map n + x.sampleOffset
      | none => 0
    { x with time := { x.time with sample := n }, imageTime := t }
  else { x with imageTime := (s.arrivalStamp i : Int) - (x.latency : Int) }

/-- An event of a group's anchor at `t`: every FRAME_DIV-th, counted from the first after group.start, is an instant (R257). -/
def Group.event (x : Group) (t : Int) : Group :=
  { x with events := x.events + 1, due := if (x.events + 1) % x.frameDiv = 0 then x.due ++ [t] else x.due }

/-- The event of sensor `i` at `t`, where it is its group's anchor and has an anchor time. -/
def State.anchorEvent (s : State) (i : Nat) (t : Int) : State :=
  match s.groupOf i with
  | some g => if (s.group g).anchor = i && (s.sensor i).time.timed then s.modGroup g fun x => x.event t else s
  | none => s

/-- CSI_FRAME_START: the ingest sequence number advances, and a new image begins; an anchor camera's image time is an event
(R245, R257). -/
def execCsiFrameStart (port vc frame : Nat) (s : State) : Res :=
  match s.cameraAt port vc with
  | none => .next s
  | some (i, 0) =>
    let s1 := s.modSensor i fun x =>
      let y := s.stampImage i frame x
      { y with
        seqNo := some (match y.seqNo with
          | some n => (n + 1) % 2 ^ 32
          | none => 0)
        lineNo := Map.set 0 y.lineNo 0 0, raws := [], inImage := true, gatesEnded := [], damaged := false
        member := { y.member with sent := true } }
    .next (s1.anchorEvent i (s1.sensor i).imageTime)
  | some (i, gate) => .next (s.modSensor i fun x => { x with lineNo := Map.set 0 x.lineNo gate 0 })

/-- A stem command may hold the slot for reading at this moment (R246): it is on the sensor and the line there is one its
output line in hand reads. Whether it reads just now is open. -/
def State.heldSlot (s : State) (i : Nat) (l : RingLine) : Bool :=
  s.stem.any fun c =>
    let b := c.record
    let lo : Int := (c.lines * sStride b : Nat) - (sPadV b : Nat) + (u16 b 0x16 : Nat)
    sMode b == 0 && u8 b 1 == i && u32 b 0x10 == l.frame && l.complete &&
    decide (lo ≤ (l.y : Int)) && decide ((l.y : Int) < lo + (sKh b : Nat))

/-- A line with its components goes to its slot, or is dropped where the slot is held (R246). -/
def State.storeLine (s : State) (i y : Nat) (comps : List (Nat × List Nat)) (needed : Nat) : State :=
  let x := s.sensor i
  let slot := y % x.depth
  let old := Map.get {} x.ring slot
  let frame := x.seqNo.getD 0
  let (seed, s1) := s.take 1
  if s.heldSlot i old && (Config.freeNat seed).testBit 0 then
    s1.modSensor i fun z => { z with damaged := true, stats := { z.stats with lineDrops := z.stats.lineDrops + 1 } }
  else
    let base := if old.frame = frame && old.y = y && !old.complete then old.comps else []
    let all := comps.foldl (fun m e => Map.insert m e.1 e.2) base
    s1.modSensor i fun z => { z with ring := Map.set {} z.ring slot ⟨frame, y, all, decide (needed ≤ all.length)⟩ }

/-- Line and column parity of the red sample of a Bayer pattern: 1 RGGB, 2 GRBG, 3 GBRG, 4 BGGR. -/
def bayerRed (bayer : Nat) : Nat × Nat := ((bayer - 1) / 2, (bayer - 1) % 2)

/-- A Bayer sample's colour: 0 R, 1 G, 2 B; blue lies diagonally from red. -/
def bayerColour (bayer y x : Nat) : Nat :=
  let (ry, rx) := bayerRed bayer
  if y % 2 = ry && x % 2 = rx then 0 else if y % 2 = 1 - ry && x % 2 = 1 - rx then 2 else 1

/-- The mean of the neighbours that carry a colour: between two whole values either is taken; with no such neighbour the
value, of `w` bits, is open (free values). -/
def meanFree (w k : Nat) (l : List Nat) : Nat :=
  if l.isEmpty then Config.unitValue 3 k % 2 ^ w
  else
    let t := sumNat l
    if t % l.length = 0 then t / l.length else t / l.length + (freeBit 4 (k + t)).toNat

/-- One component of a Bayer line by bilinear demosaicing from the lines above, at and below it (R244). -/
def demosaic (bayer w y width c : Nat) (above line below : List Nat) : List Nat :=
  (List.range width).map fun x =>
    let v := nth 0 line x
    if bayerColour bayer y x = c then v
    else
      let spots : List (List Nat × Nat × Nat) :=
        [(above, y + 1, x), (line, y, x), (below, y + 1, x)].flatMap fun e =>
          [(e.1, e.2.1, e.2.2 + 1), (e.1, e.2.1, e.2.2)] ++ (if 0 < e.2.2 then [(e.1, e.2.1, e.2.2 - 1)] else [])
      let vals := spots.filterMap fun e => if bayerColour bayer e.2.1 e.2.2 = c then e.1[e.2.2]? else none
      meanFree w (65536 * y + x) vals

/-- The Bayer line that the newest raw line completes, or at frame end the newest itself; a line whose CRC failed is zeros in
every component (R241). -/
def State.bayerLine (s : State) (i : Nat) (y : Nat) (above : List Nat) (line : Bool × List Nat) (below : List Nat) : State :=
  let x := s.sensor i
  s.storeLine i y ((List.range 3).map fun c =>
    (c, if line.1 then demosaic x.bayer x.compBits y x.width c above line.2 below else List.replicate x.width 0)) 3

/-- The samples of a line as they arrive, `w` bits each: a sample the packet does not carry is open. -/
def lineSamples (w seed n : Nat) (l : List Nat) : List Nat :=
  (List.range n).map fun k => (match l[k]? with
    | some v => v
    | none => Config.freeNat (seed + k)) % 2 ^ w

/-- A line of a camera, converted into components by its data type (R244). -/
def State.takeLine (s : State) (i gate y : Nat) (crcOk : Bool) (pixels : List Nat) : State :=
  let x := s.sensor i
  let (seed, s1) := s.take 16384
  let n := x.width * (if x.dataType = 0x24 then 3 else if x.dataType = 0x1E then 2 else 1)
  let px := if crcOk then lineSamples x.compBits seed n pixels else List.replicate n 0
  let pick := fun f => (List.range x.width).map fun k => nth 0 px (f k)
  if x.kind = 2 then s1.storeLine i y [(gate, px)] x.gates
  else if x.dataType = 0x24 then
    -- B, G, R in the packet
    s1.storeLine i y [(0, pick fun k => 3 * k + 2), (1, pick fun k => 3 * k + 1), (2, pick fun k => 3 * k)] 3
  else if x.dataType = 0x1E then
    -- U Y V Y in the packet
    s1.storeLine i y [(0, pick fun k => 2 * k + 1), (1, pick fun k => k / 2 * 4), (2, pick fun k => k / 2 * 4 + 2)] 3
  else if x.bayer = 0 then s1.storeLine i y [(0, px)] 1
  else
    let s2 := s1.modSensor i fun z => { z with raws := ((crcOk, px) :: z.raws).take 3 }
    match (s2.sensor i).raws with
    | below :: line :: rest => s2.bayerLine i (y - 1) ((rest.map Prod.snd).headD []) line below.2
    | _ => s2

/-- CSI_LONG_PACKET: a line is converted and stored in slot y mod DEPTH; a header with two errors is dropped, a failed CRC
stores zeros and damages the image (R241, R244). -/
def execCsiLongPacket (port vc dataType headerErrors : Nat) (crcOk : Bool) (pixels : List Nat) (s : State) : Res :=
  if 2 ≤ headerErrors then .next s
  else match s.cameraAt port vc with
  | none => .next s
  | some (i, gate) =>
    let x := s.sensor i
    let y := Map.get 0 x.lineNo gate
    if dataType != x.dataType || !x.inImage || x.gatesEnded.contains gate || x.height ≤ y then .next s
    else
      let s1 := s.modSensor i fun z => { z with
        lineNo := Map.set 0 z.lineNo gate (y + 1)
        damaged := z.damaged || !crcOk
        stats := { z.stats with lines := z.stats.lines + 1 } }
      .next (s1.takeLine i gate y crcOk pixels)

/-- A whole image joins its group's frames; a sample without an anchor time is dropped and counted (R255, R258). -/
def State.joinImage (s : State) (i : Nat) : State :=
  match s.groupOf i with
  | none => s
  | some g =>
    let x := s.sensor i
    if !x.time.timed then
      s.modSensor i fun z => { z with stats := { z.stats with unalignedDrops := z.stats.unalignedDrops + 1 } }
    else if x.damaged || x.lines != x.height then s
    else s.modSensor i fun z => { z with member := { z.member with
      images := z.member.images ++ [⟨z.imageTime, (s.group g).isLate z.imageTime, z.seqNo.getD 0⟩] } }

/-- CSI_FRAME_END: a gate's lines have ended; once every gate's have, the last line and the image are complete. -/
def execCsiFrameEnd (port vc : Nat) (s : State) : Res :=
  match s.cameraAt port vc with
  | some (i, gate) =>
    let x := s.sensor i
    if !x.inImage then .next s
    else
      let ended := dedup (gate :: x.gatesEnded)
      if ended.length < x.gates then .next (s.modSensor i fun z => { z with gatesEnded := ended })
      else
        let s1 := match x.bayer, x.raws with
          | 0, _ => s
          | _, line :: rest => s.bayerLine i (x.lines - 1) ((rest.map Prod.snd).headD []) line []
          | _, _ => s
        let s2 := s1.joinImage i
        .next (s2.modSensor i fun z => { z with
          inImage := false, gatesEnded := [], raws := [], lastDamaged := z.damaged
          stats := if z.damaged then { z.stats with damaged := z.stats.damaged + 1 } else z.stats }).noteReady
  | none => .next s

/-! ### Ethernet (R242) -/

/-- The big-endian 16-bit field at an offset. -/
def be16 (b : List Byte) (o : Nat) : Nat := 256 * u8 b o + u8 b (o + 1)
/-- The big-endian 32-bit field at an offset. -/
def be32 (b : List Byte) (o : Nat) : Nat := 65536 * be16 b o + be16 b (o + 2)

/-- The UDP destination port and payload of an Ethernet II frame with at most one VLAN tag; none for a fragment and for
anything that is no IPv4 or IPv6 UDP datagram. -/
def udpOf (b : List Byte) : Option (Nat × List Byte) :=
  let l3 := if be16 b 12 = 0x8100 then 18 else 14
  let p := b.drop l3
  let udp := fun q : List Byte =>
    let len := be16 q 4
    if len < 8 || q.length < len then none else some (be16 q 2, (q.take len).drop 8)
  if be16 b (l3 - 2) = 0x0800 then
    let ihl := 4 * (u8 p 0 % 16)
    if u8 p 0 / 16 != 4 || ihl < 20 || u8 p 9 != 17 || be16 p 6 % 0x4000 != 0 || p.length < be16 p 2 then none
    else udp ((p.take (be16 p 2)).drop ihl)
  else if be16 b (l3 - 2) = 0x86DD then
    if u8 p 0 / 16 != 6 || u8 p 6 != 17 || p.length < 40 + be16 p 4 then none
    else udp ((p.drop 40).take (be16 p 4))
  else none

/-- The lidar an Ethernet port's UDP port names. -/
def State.lidarAt (s : State) (port udp : Nat) : Option Nat :=
  (List.range 16).find? fun i =>
    let x := s.sensor i
    x.isLidar && x.port == port && x.udpPort == udp && !x.stopped

/-- ETH_FRAME_RECEIVE: an accepted frame is stamped and queued for the port's parser; a full queue drops the packet whole
(R242, R249). -/
def execEthFrameReceive (port : Nat) (f : EthFrame) (s : State) : Res :=
  let drop := { s with cup := { s.cup with etherDropped := Map.modify 0 s.cup.etherDropped port (· + 1) } }
  if port < 8 || 12 ≤ port || s.cup.portsDown.contains port then .next s
  else if !f.fcsOk then .next drop
  else match udpOf f.bytes with
  | none => .next drop
  | some (u, _) =>
    match s.lidarAt port u with
    | none => .next drop
    | some i =>
      let q := Map.get [] s.cup.queues port
      let stamp := match s.groupOf i with
        | some g => if (s.sensor (s.group g).anchor).port = port then f.stamp else (s.group g).count
        | none => f.stamp
      if 64 ≤ q.length then
        .next (s.modSensor i fun x => { x with stats := { x.stats with parseOverrun := x.stats.parseOverrun + 1 } })
      else .next { s with cup := { s.cup with queues := Map.set [] s.cup.queues port (q ++ [{ f with stamp := stamp }]) } }

/-! ### Lidar packets (R248) -/

/-- A parse table's fields. -/
def tFields (b : List Byte) : Nat := u8 b 1
def tMatches (b : List Byte) : Nat := u8 b 2
def tCartesian (b : List Byte) : Bool := u8 b 3 == 1
def tBlocks (b : List Byte) : Nat := u16 b 4
def tReturns (b : List Byte) : Nat := u16 b 6
def tMinLen (b : List Byte) : Nat := u16 b 0x10
/-- Field entry `k`. -/
def tEntry (b : List Byte) (k : Nat) : List Byte := slice b (80 + 16 * k) 16

/-- The 32-bit word at an offset, in either byte order. -/
def wordAt (big : Bool) (p : List Byte) (o : Nat) : Nat := if big then be32 p o else u32 p o

/-- Whether every match of the table holds on a payload. -/
def matchesAll (b p : List Byte) : Bool :=
  (List.range (tMatches b)).all fun k =>
    let e := slice b (0x18 + 12 * k) 12
    Nat.land (wordAt (u8 e 2 == 2) p (u16 e 0)) (u32 e 4) == u32 e 8

/-- Where an entry is read for block `i` and return `j`. -/
def entryAt (b e : List Byte) (i j : Nat) : Nat :=
  let block := u16 b 8 + i * u16 b 0xA
  u16 e 0 + (if u8 e 2 = 0 then 0 else if u8 e 2 = 1 then block else block + u16 b 0xC + j * u16 b 0xE)

/-- An integer entry's raw value. -/
def rawInt (e p : List Byte) (at_ : Nat) : Int :=
  let enc := u8 e 3
  let v := bits (wordAt (decide (2 ≤ enc)) p at_) (u8 e 4 + u8 e 5 - 1) (u8 e 4)
  if enc % 2 = 1 then sext (u8 e 5) v else (v : Int)

/-- An ordinary entry's value raw × SCALE + BIAS, formed exactly. -/
def rawVal (e p : List Byte) (at_ : Nat) : FVal :=
  let raw := if 4 ≤ u8 e 3 then fp32 (BitVec.ofNat 32 (wordAt (u8 e 3 == 5) p at_)) else FVal.ofInt (rawInt e p at_)
  ((raw.mul (fp32 (BitVec.ofNat 32 (u32 e 8)))).val.add (fp32 (BitVec.ofNat 32 (u32 e 12)))).val

/-- The value of a field of one return, where the table has it. -/
def fieldVal (b p : List Byte) (field i j : Nat) : Option FVal :=
  ((List.range (tFields b)).find? fun k => u8 (tEntry b k) 6 == field).map fun k =>
    rawVal (tEntry b k) p (entryAt b (tEntry b k) i j)

/-- The sensor time of a return: the sum of all TIME entries, in 64 bits. -/
def timeVal (b p : List Byte) (i j : Nat) : Int :=
  let t := (List.range (tFields b)).foldl (fun a k =>
    let e := tEntry b k
    if u8 e 6 = 7 then a + rawInt e p (entryAt b e i j) * (u32 e 8 : Nat) + sext 32 (u32 e 12) else a) (0 : Int)
  sext 64 (wrapI 64 t)

/-- The square of a length in units of 2^-596 m². -/
def squared (v : FVal) : Nat := (v.scaled (-298)).natAbs ^ 2

/-- A value rounded to an integer 0 to `top`; between two whole values either is taken (free), and what is no number or
missing is open. -/
def clampFree (k top : Nat) : Option FVal → Nat
  | some (.fin neg m e) =>
    if neg then 0
    else if 0 ≤ e then min top (m <<< e.toNat)
    else
      let sh := (-e).toNat
      min top (m >>> sh + (m % 2 ^ sh != 0 && freeBit 5 (k + m)).toNat)
  | some (.inf neg) => if neg then 0 else top
  | _ => Config.unitValue 6 k % (top + 1)

/-- One return of a packet before its beam is known: its place in the sensor's frame in units of 2^-80 m, and its direction
from SWEEP_AZ, along it and across it. -/
structure Ret where
  block : Nat
  time : Int
  range2 : Nat
  refl : Nat
  ring : Option Nat
  cart : Bool
  pos : V3
  sweep : Int × Int
  deriving DecidableEq, Repr

/-- A place that the spec states no value for, as where an angle is no number or a RING lies past the ring table (free
values). -/
def freePlace (k : Nat) : V3 :=
  let v := fun (j : Nat) => (Config.unitValue 32 (3 * k + j) : Int) - (Config.unitValue 33 (3 * k + j) : Int)
  ⟨v 0, v 1, v 2⟩

/-- Elevation and azimuth offset of a ring (R248). -/
def ringEntry (b : List Byte) (r : Nat) : FVal × FVal :=
  let o := 80 + 16 * tFields b + 8 * r
  (fp32 (BitVec.ofNat 32 (u32 b o)), fp32 (BitVec.ofNat 32 (u32 b (o + 4))))

/-- x = r cos E cos A, y = r cos E sin A, z = r sin E of a polar return (log entry 178), and its direction from SWEEP_AZ, which
is reached by AZIMUTH as it is read, the ring's offset apart. -/
def polarPlace (b : List Byte) (k : Nat) (v : Nat → Option FVal) (ring : Option Nat) : V3 × (Int × Int) :=
  let az := (v 1).getD .nan
  let e := ring.map (ringEntry b)
  let el := (v 2).getD ((e.map (·.1)).getD .nan)
  let off := (e.map (·.2)).getD (FVal.ofInt 0)
  let known := az.isFin && el.isFin && off.isFin && (match ring with
    | some r => decide (r < 256)
    | none => true)
  let (ca, sa) := cosSin (az.units 80 + off.units 80)
  let (ce, se) := cosSin (el.units 80)
  let r := ((v 0).getD .nan).units 80
  (if known then ⟨fxMul r (fxMul ce ca), fxMul r (fxMul ce sa), fxMul r se⟩ else freePlace k, cosSin (az.units 80 - fxAt b 0x14))

/-- X, Y, Z of a Cartesian return, and its direction from SWEEP_AZ. -/
def cartesianPlace (b : List Byte) (k : Nat) (v : Nat → Option FVal) : V3 × (Int × Int) :=
  let f := fun (n : Nat) => (v n).getD .nan
  let p : V3 := if (f 3).isFin && (f 4).isFin && (f 5).isFin then ⟨(f 3).units 80, (f 4).units 80, (f 5).units 80⟩ else freePlace k
  let (c, s) := cosSin (fxAt b 0x14)
  (p, fxMul p.x c + fxMul p.y s, fxMul p.y c - fxMul p.x s)

/-- The returns of a packet that yield a point: VALID not zero, RANGE above 0. -/
def packetReturns (b p : List Byte) (seed : Nat) : List Ret :=
  (List.range (tBlocks b)).flatMap fun i => (List.range (tReturns b)).filterMap fun j =>
    let v := fun f => fieldVal b p f i j
    let valid := match v 9 with
      | some x => !x.isZero
      | none => true
    let range := (v 0).getD .nan
    let ok := if tCartesian b && (v 0).isNone then true else range.isFin && !range.isZero && !range.neg?
    let r2 := if tCartesian b then squared ((v 3).getD .nan) + squared ((v 4).getD .nan) + squared ((v 5).getD .nan)
      else squared range
    let k := seed + 256 * i + j
    let ring := (v 8).map fun x => clampFree k 65535 (some x)
    if valid && ok then
      let (pos, sweep) := if tCartesian b then cartesianPlace b k v else polarPlace b k v ring
      some { block := i, time := timeVal b p i j, range2 := r2, refl := clampFree k 255 (v 6), ring := ring, cart := tCartesian b,
             pos := pos, sweep := sweep }
    else none

/-- The echoes of the return's beam: the returns of its block that share its ring. -/
def beamOf (l : List Ret) (r : Ret) : List Ret :=
  match r.ring with
  | some _ => l.filter fun x => x.block == r.block && x.ring == r.ring
  | none => [r]

/-- The point a return gives at an anchor time. -/
def Ret.point (r : Ret) (l : List Ret) (at_ : Nat) (t : Int) (late arrival : Bool) : Pt :=
  let beam := beamOf l r
  let behind := (beam.filter fun x => decide (r.range2 < x.range2)).map fun x => (x.refl, x.range2)
  let before := beam.filter fun x => decide (x.range2 < r.range2)
  let same := (l.take at_).filter fun x => r.ring.isSome && x.block == r.block && x.ring == r.ring && x.range2 == r.range2
  { time := t, echo := before.length + same.length, echoes := beam.length, refl := r.refl, ring := r.ring.getD 0, late := late,
    arrival := arrival, range2 := r.range2, pos := r.pos, cart := r.cart, behind := behind }

/-- The anchor time of a return (R253). -/
def Sensor.returnTime (x : Sensor) (stamp : Nat) (first s : Int) : Int :=
  if x.strobeTimed then match fitOf x.time.pairs with
    | some f => f.map s
    | none => 0
  else (stamp : Int) - (x.latency : Int) + nearestInt ((s - first) * (x.rate : Int)) (2 ^ 32)

/-- The times of the points that are the first past SWEEP_AZ, azimuth rising, given the side on which the latest point lay; and
the side after them (R257, log entry 179). -/
def sweepEnds : Option Bool → List (Int × (Int × Int)) → List Int × Option Bool
  | past, [] => ([], past)
  | past, (t, u, v) :: rest =>
    let now := decide (0 ≤ v)
    let (ts, last) := sweepEnds (some now) rest
    (if past == some false && now && decide (0 < u) then t :: ts else ts, last)

/-- A packet's returns join their sensor's frames, or are dropped and counted while it has no anchor time; `first` is the time
of the packet's first return. An anchor lidar's sweeps end at its events. -/
def State.joinReturns (s : State) (i stamp : Nat) (first : Int) (l : List Ret) : State :=
  match s.groupOf i with
  | none => s
  | some g =>
    let x := s.sensor i
    let n := l.length
    let last := (l.getLast?.map (·.time)).getD x.time.sample
    let s1 := s.modSensor i fun z => { z with time := { z.time with sample := last }, member := { z.member with sent := true } }
    if !x.time.timed then
      s1.modSensor i fun z => { z with stats := { z.stats with unalignedDrops := z.stats.unalignedDrops + BitVec.ofNat 64 n } }
    else
      let pts := l.zipIdx.map fun e =>
        let t := x.returnTime stamp first e.1.time
        e.1.point l e.2 t ((s.group g).isLate t) (x.time.state == .arrival)
      let (ends, past) := sweepEnds x.sweepPast (l.map fun e => (x.returnTime stamp first e.time, e.sweep))
      let s2 := s1.modSensor i fun z => { z with
        sweepPast := past
        member := { z.member with points := z.member.points ++ pts }
        stats := { z.stats with points := z.stats.points + BitVec.ofNat 64 n } }
      (ends.foldl (fun (t : State) e => t.anchorEvent i e) s2).noteReady

/-- LIDAR_PACKET_PARSE: the port's oldest packet is matched and parsed (R248, R249). -/
def execLidarPacketParse (port : Nat) (s : State) : Res :=
  match Map.get [] s.cup.queues port with
  | [] => .next s
  | f :: rest =>
    let s1 := { s with cup := { s.cup with queues := Map.set [] s.cup.queues port rest } }
    match udpOf f.bytes with
    | none => .next s1
    | some (u, p) =>
      match s1.lidarAt port u with
      | none => .next s1
      | some i =>
        let b := Map.get [] s1.cup.tables (s1.sensor i).parse
        let count := fun (g : SensorStats → SensorStats) => s1.modSensor i fun x => { x with stats := g x.stats }
        if b.isEmpty || p.length < tMinLen b || !matchesAll b p then .next (count fun t => { t with failed := t.failed + 1 })
        else
          let s2 := count fun t => { t with packets := t.packets + 1 }
          let (seed, s3) := s2.take 65536
          .next (s3.joinReturns i f.stamp (timeVal b p 0 0) (packetReturns b p seed))

/-! ### Triggers and ports (R247, R416) -/

/-- The first count from `n` on that PERIOD divides with remainder PHASE; none for an output that is off. -/
def Trigger.pulseFrom (x : Trigger) (n : Nat) : Option Nat :=
  if x.mode = 1 && x.period != 0 then some (n + (x.phase + x.period - n % x.period) % x.period) else none

/-- The output under its waiting record. -/
def Trigger.renewed (x : Trigger) (b : List Byte) : Trigger :=
  { mode := u8 b 1, count := u8 b 2, polarity := u8 b 3, period := u32 b 4, phase := u32 b 8, width := u16 b 0xC,
    spacing := u16 b 0xE, next := none, last := x.last }

/-- The next pulse train of an output from count `n` on, after the one it started last, and the record it comes under: a waiting
record counts from its period boundary on. -/
def Trigger.nextPulse (x : Trigger) (n : Nat) : Option Nat × Trigger :=
  let lo := match x.last with
    | some k => max n (k + 1)
    | none => n
  match x.next with
  | none => (x.pulseFrom lo, x)
  | some b =>
    match x.pulseFrom lo with
    | some k => if k < x.nextAt then (some k, x) else ((x.renewed b).pulseFrom (max lo x.nextAt), x.renewed b)
    | none => ((x.renewed b).pulseFrom (max lo x.nextAt), x.renewed b)

/-- TRIGGER_PULSE: the cycle counter reaches the next count that modulo PERIOD equals PHASE, and a train of COUNT pulses starts
(R247). -/
def execTriggerPulse (t : Nat) (s : State) : Res :=
  let x := Map.get {} s.cup.triggers t
  match x.nextPulse s.cup.cycles.toNat with
  | (some k, y) =>
    if 8 ≤ t || 2 ^ 64 ≤ k then .next s
    else .next ({ s with cup := { s.cup with
        cycles := BitVec.ofNat 64 k, triggers := Map.set {} s.cup.triggers t { y with last := some k } } }.emit
      (.trigger t k y.count y.width y.spacing y.polarity))
  | (none, y) => .next { s with cup := { s.cup with triggers := if t < 8 then Map.set {} s.cup.triggers t y else s.cup.triggers } }

/-- The sensors on a port. -/
def State.sensorsOn (s : State) (port : Nat) : List Nat :=
  (List.range 16).filter fun i => (s.sensor i).kind != 0xFF && (s.sensor i).port == port

/-- SENSOR_PORT_LOCK_LOSS: the port's sensors stop, and a group anchored there owes its time break (R262, R416). -/
def execSensorPortLockLoss (port : Nat) (s : State) : Res :=
  if s.cup.portsDown.contains port || 12 ≤ port then .next s
  else
    let s1 := { s with cup := { s.cup with portsDown := port :: s.cup.portsDown } }
    let s2 := (s1.sensorsOn port).foldl (fun t i =>
      (t.modSensor i fun x => { x with stopped := true, inImage := false, gatesEnded := [], raws := [] }).anchorLost i) s1
    .next (s2.log port 0x0701 0xFF (leBytes 1 port))

/-- PORT_LOCK_REGAIN: the port's sensors return. -/
def execPortLockRegain (port : Nat) (s : State) : Res :=
  if !s.cup.portsDown.contains port then .next s
  else
    let s1 := { s with cup := { s.cup with portsDown := s.cup.portsDown.filter (· != port) } }
    let s2 := (s1.sensorsOn port).foldl (fun t i => t.modSensor i fun x => { x with stopped := false }) s1
    .next (s2.log port 0x0702 0xFF (leBytes 1 port))

end Sys2Proof.Machine
end

