-- ==== Sys2Proof/Machine/Ddr5.lean ====
section
/-! DEFINITION. DDR5 maintenance: refresh, scrub, page retirement, sub-channel retrain (R155 to R157, R419). -/

namespace Sys2Proof.Machine

/-- REFRESH_DUE: one more refresh is owed; at the fifth it turns urgent, takes the sub-channel, and all five issue (R157). -/
def execRefreshDue (sub : Nat) (s : State) : Res :=
  if 8 ≤ sub then .next s
  else
    let n := (Map.get {} s.ddr.subs sub).owed + 1
    let set := fun (t : State) (k : Nat) => { t with ddr := { t.ddr with subs := Map.modify {} t.ddr.subs sub fun x => { x with owed := k } } }
    .next (if 5 ≤ n then set (s.arbUrgent 1 sub 22 []) 0 else set s n)

/-- DDR5_PATROL_SCRUB: a line is read, corrected or poisoned; a fenced sub-channel is passed over (R419). -/
def execDdr5PatrolScrub (line : Nat) (ecc : Ecc) (s : State) : Res :=
  .next (if s.ddrFenced line then s else s.ddrEcc line ecc)

/-- DDR5_PAGE_RETIREMENT: a page that has met a trigger moves to a spare page, keeping its contents and address; with none
left, an uncorrectable trigger fences it (R156). -/
def execDdr5PageRetirement (page : Nat) (s : State) : Res :=
  let x := Map.get {} s.ddr.pages page
  let phys := physOf (64 * page) / 4096
  let sub := subOf (64 * page)
  let data := leBytes 8 (4096 * phys) ++ leBytes 4 x.corrected.length
  let set := fun (y : DPage) => { s with ddr := { s.ddr with pages := Map.set {} s.ddr.pages page y } }
  if x.fenced || !(x.bad || 4 ≤ x.corrected.length) then .next s
  else if s.ddr.sparesUsed < 8192 then
    let s1 := set { spare := some s.ddr.sparesUsed }
    let s2 := { s1 with ddr := { s1.ddr with sparesUsed := s1.ddr.sparesUsed + 1 } }
    .next ((s2.log sub 0x0403 0xFF data).notice noticeDdrPage 0xFF (leBytes 8 phys ++ [0]))
  else if x.bad then
    let s1 := set { x with fenced := true }
    let s2 := { s1 with ddr := { s1.ddr with withdrawn := s1.ddr.withdrawn ++ [4096 * phys / 2 ^ 26] } }
    .next ((s2.log sub 0x0404 0xFF data).notice noticeDdrPage 0xFF (leBytes 8 phys ++ [1]))
  else .next (set { x with corrected := [] })

/-- SUBCHANNEL_RETRAIN: cause 0 uncorrectable beats, 1 command-address parity. The third retrain within one hour is followed by
the fence (R419). -/
def execSubchannelRetrain (sub cause : Nat) (s : State) : Res :=
  let x := Map.get {} s.ddr.subs sub
  if 8 ≤ sub || x.fenced then .next s
  else
    let times := s.now :: x.retrains.filter fun t => decide (s.now < t + 3600000000)
    let n := times.length
    let data := [BitVec.ofNat 8 cause, BitVec.ofNat 8 n]
    let s1 := { s with ddr := { s.ddr with subs := Map.set {} s.ddr.subs sub { x with retrains := times, fenced := decide (3 ≤ n) } } }
    let s2 := s1.log sub 0x0405 0xFF data
    .next (if 3 ≤ n then s2.log sub 0x0406 0xFF data else s2)

end Sys2Proof.Machine
end

