-- ==== Sys2Proof/Machine/Floam.lean ====
section
/-! DEFINITION. Floam: the block format, decompression, chains and the model cache (R165 to R178). -/

namespace Sys2Proof.Machine

/-! ### Blocks (R169 to R172) -/

/-- The 256 code lengths of CODE (R171). -/
def codeLens (b : List Byte) : List Nat :=
  (fit 0 128 b).flatMap fun x => [x.toNat % 16, x.toNat / 16]

/-- Whether the lengths form a complete code, or a code of exactly one value with length 1; none above 12. -/
def codeOk (l : List Nat) : Bool :=
  let used := l.filter (0 < ·)
  used.all (· ≤ 12) && (used == [1] || sumNat (used.map fun n => 2 ^ (12 - n)) == 4096)

/-- The values of the code in canonical order: by length, then by value. -/
def codeSymbols (l : List Nat) : List Nat :=
  (List.range 13).flatMap fun n => if n = 0 then [] else (List.range 256).filter fun v => nth 0 l v == n

/-- Values of each length. -/
def codeCounts (l : List Nat) : List Nat := (List.range 13).map fun n => (l.filter (· == n)).length

/-- One symbol read bit by bit from length `len` up (RFC 1951: codes packed from their most significant bit): the value
and the bits left; `fuel` bounds the length. -/
def huffSymbol (counts symbols : List Nat) : Nat → Nat → Nat → Nat → Nat → List Bool → Option (Nat × List Bool)
  | 0, _, _, _, _, _ => none
  | _ + 1, _, _, _, _, [] => none
  | fuel + 1, len, code, first, index, b :: bs =>
    let code := 2 * code + b.toNat
    let first := 2 * first
    let n := nth 0 counts len
    if code < first + n then some (nth 0 symbols (index + (code - first)), bs)
    else huffSymbol counts symbols fuel (len + 1) code (first + n) (index + n) bs

/-- `n` symbols; the bits left must be fewer than 8 zeros. -/
def huffDecode (counts symbols : List Nat) : Nat → List Bool → Option (List Byte)
  | 0, bs => if bs.length < 8 && bs.all (!·) then some [] else none
  | n + 1, bs =>
    match huffSymbol counts symbols 12 1 0 0 0 bs with
    | none => none
    | some (v, rest) => (huffDecode counts symbols n rest).map (BitVec.ofNat 8 v :: ·)

/-- The bits of bytes, each from its least significant bit. -/
def byteBits (b : List Byte) : List Bool := b.flatMap fun x => (List.range 8).map x.getLsbD

/-- Scale bytes that an SMODE stores. -/
def scaleBytes (smode : Nat) : Nat := if smode = 0 then 16 else if smode = 1 then 1 else 8

/-- The 16-byte scale record of a body (R170). -/
def scaleRecord (smode : Nat) (b : List Byte) : List Byte :=
  if smode = 0 then slice b 0 16 else if smode = 1 then List.replicate 16 (nth 0 b 0) else slice b 0 8 ++ zeros 8

/-- One tile from its directory entry and body: 256 payload bytes, then the scale record (R42, R170). -/
def expandTile (lens : Option (List Nat)) (d : Nat) (body : List Byte) : Option (List Byte) :=
  let pmode := bits d 1 0
  let smode := bits d 3 2
  if pmode = 3 || smode = 3 || bits d 7 4 != 0 || bits d 31 20 != 0 then none
  else
    let s := scaleBytes smode
    let pay := body.drop s
    let payload := if body.length < s then none
      else if pmode = 0 then (if pay.length = 256 then some pay else none)
      else if pmode = 2 then (if pay.isEmpty then some (zeros 256) else none)
      else match lens with
        | none => none
        | some l => huffDecode (codeCounts l) (codeSymbols l) 256 (byteBits pay)
    payload.map (· ++ scaleRecord smode body)

/-- The tiles of directory entries and the bodies behind them; none where one is bad or bytes run short. -/
def expandTiles (lens : Option (List Nat)) : List Nat → List Byte → Option (List (List Byte) × List Byte)
  | [], b => some ([], b)
  | d :: ds, b =>
    let n := bits d 19 8
    if b.length < n then none
    else match expandTile lens d (b.take n) with
      | none => none
      | some t => (expandTiles lens ds (b.drop n)).map fun r => (t :: r.1, r.2)

/-- What a block expands to: its length, its tile count, and its tiles unless it is bad. -/
structure Expanded where
  bytes : Nat
  tiles : Nat
  data : Option (List (List Byte))
  deriving DecidableEq, Repr

/-- The block at the head of `left` stream bytes. A BLOCK_BYTES that cannot be a block's takes the rest of the entry with it
(log entry 31). -/
def expandBlock (b : List Byte) : Expanded :=
  let n := u16 b 2
  if n % 16 != 0 || n < 16 || 17808 < n || b.length < n then ⟨b.length, 0, none⟩
  else
    let blk := b.take n
    let tiles := u8 b 0 % 64 + 1
    let hasCode := bitAt (u8 b 1) 0
    let lens := codeLens (slice blk 16 128)
    let dirAt := if hasCode then 144 else 16
    let dir := (List.range tiles).map fun i => u32 blk (dirAt + 4 * i)
    let sum := dirAt + 4 * tiles + sumNat (dir.map fun d => bits d 19 8)
    let bad := u8 b 0 / 64 != 0 || u8 b 1 / 2 != 0 || !allZero blk 8 8 || (hasCode && !codeOk lens) ||
      crc32c (patch blk 4 (zeros 4)) != u32 b 4 || roundUp 16 sum != n
    let out := if bad then none
      else match expandTiles (if hasCode then some lens else none) dir (blk.drop (dirAt + 4 * tiles)) with
        | none => none
        | some (ts, pad) => if pad.all (· == 0) then some ts else none
    ⟨n, tiles, out⟩

/-! ### Chain entries (R167, R174) -/

/-- Whether a chain entry stands (R174); one of no bytes and no tiles is a no-op whatever it names (R14). -/
def State.entryOk (s : State) (x : Post) (b : List Byte) : Bool :=
  x.sel < 4 && u8 b 0x18 / 4 == 0 && allZero b 0x19 7 &&
  if fBytes b = 0 then fTiles b == 0
  else
    (fSrc b).testBit 63 && bits (fSrc b) 62 48 == 0 && fSrc b % 16 == 0 && fDst b % 16 == 0 && fBytes b % 16 == 0 &&
    (fTiles b == 0 || (s.part x.part).inRegion (fDst b) (272 * fTiles b)) &&
    match s.boundModel x.part b with
    | some (_, m) => decide (fOffset b + fBytes b ≤ m.bytes)
    | none => false

/-- The bytes of a model's stream: the lines of its DDR5 copy, or the image store's slot (R165). -/
def State.streamBytes (s : State) (p k : Nat) (m : Staged) (off n : Nat) : List Byte :=
  if m.nandDirect then slice (Map.get {} s.store.slots m.slot).data off n else s.ddrBytes (modelLine p k 0) off n

/-- Whether a source line of bytes `off` to `off + n` of the stream is poisoned in DDR5 (R153). -/
def State.streamBad (s : State) (p k : Nat) (m : Staged) (off n : Nat) : Bool :=
  !m.nandDirect && s.ddrAnyBad (modelLine p k 0) off n

/-! ### The model cache (R175) -/

/-- Whether an entry is recorded for a chain entry. -/
def Models.hit (m : Models) (model : Nat) (b : List Byte) : Bool :=
  m.cache.any fun e => e.model == model && e.off == fOffset b && e.bytes == fBytes b && e.dst == fDst b

/-- An expanded entry is recorded if the table and the quota have room, dropping those it overlaps; else the miss counts as
a full miss. -/
def Models.record (m : Models) (quota model : Nat) (b : List Byte) : Models :=
  let held := sumNat (m.cache.map fun e => 272 * e.tiles)
  if m.cache.length < 512 && held + 272 * fTiles b ≤ quota then
    let keep := m.cache.filter fun e => !(decide (e.dst < fDst b + 272 * fTiles b) && decide (fDst b < e.dst + 272 * e.tiles))
    { m with cache := keep ++ [⟨model, fOffset b, fBytes b, fDst b, fTiles b⟩] }
  else { m with fullMisses := m.fullMisses + 1 }

/-- The directory of partition `p`'s model cache as it reads back: a poisoned one drops the partition's entries (R420). -/
def State.cacheRead (s : State) (p : Nat) : State :=
  if s.recBad (.cacheDir p) then
    (s.modPart p fun q => { q with models := { q.models with cache := [] } }).recWrite (.cacheDir p)
  else s

/-- Chain entries are read and, where they hit, passed over, until one is to be expanded; `fuel` bounds them. -/
def State.loadFloam : Nat → State → Post → State
  | 0, s, _ => s
  | fuel + 1, s, x0 =>
    let s1 := (State.loadDesc 32 State.entryOk (fun b => fBytes b == 0) fLast 4097 s x0).cacheRead x0.part
    match s1.post x0.id with
    | none => s1
    | some x =>
      if x.cur.isEmpty || !fCache x.cur then s1
      else match s1.boundModel x.part x.cur with
        | none => s1
        | some (k, _) =>
          if (s1.part x.part).models.hit k x.cur then
            let s2 := s1.modPart x.part fun q => { q with models := { q.models with hits := q.models.hits + 1 } }
            if fLast x.cur then s2.modPost x.id fun y => { y with cur := [], drained := true }
            else State.loadFloam fuel s2 { x with desc := x.desc + 1 }
          else s1.modPart x.part fun q => { q with models := { q.models with misses := q.models.misses + 1 } }

/-- FLOAM_POST: a chain is handed to decompressor SEL. -/
def execFloamPost (i : Issue) (w : BitVec 96) (s : State) : Res :=
  slotRes (bits w.toNat 63 60 == 0 && i.lane == 255) "FLOAM_POST"
    (s.onSlot i 3 [pAreg w.toNat] free fun t =>
      let (x, t1) := t.newPost i .floam w.toNat
      State.loadFloam 4097 t1 x)

/-! ### Expansion -/

/-- Tiles are written one after another: tile `k` of the entry at DST + 272 k; surplus tiles are discarded. -/
def State.writeTiles (s : State) (x : Post) (k : Nat) : List (List Byte × Bool) → State
  | [] => s
  | (b, bad) :: rest =>
    if k < fTiles x.cur then (s.wideWrite x.part (fDst x.cur + 272 * k) b bad).writeTiles x (k + 1) rest else s

/-- Bytes of a poisoned tile: nothing is known of its data, so what stands there is kept under the poison. -/
def State.oldTile (s : State) (x : Post) (k : Nat) : List Byte := s.readBytes x.part (fDst x.cur + 272 * k) 272

/-- `n` poisoned tiles from tile `k` on. -/
def State.poisonTiles (s : State) (x : Post) (k n : Nat) : State :=
  s.writeTiles x k ((List.range (min n (fTiles x.cur - k))).map fun j => (s.oldTile x (k + j), true))

/-- A bad block, or a tile count that differs, is logged with the model index and stream offset (R172). -/
def State.logBlock (s : State) (x : Post) : State :=
  s.log 0xFFFF 0x0204 x.part (leBytes 1 (fModel x.cur) ++ leBytes 8 (fOffset x.cur + x.moved))

/-- The entry in work is finished: expected tiles not produced are written poisoned, a sound entry with CACHE is recorded,
and the chain goes on. -/
def State.endEntry (s : State) (x : Post) : State :=
  let short := x.tiles != fTiles x.cur
  let s1 := if short then (s.poisonTiles x x.tiles (fTiles x.cur)).logBlock x else s
  let bad := x.entryBad || decide (x.tiles < fTiles x.cur)
  let s2 := match s1.boundModel x.part x.cur with
    | some (k, _) =>
      if fCache x.cur && !bad then
        (s1.cacheRead x.part).modPart x.part fun q => { q with models := q.models.record q.cfg.scratchWeightBytes k x.cur }
      else s1
    | none => s1
  if fLast x.cur then s2.modPost x.id fun y => { y with cur := [], drained := true }
  else State.loadFloam 4097 s2 { x with desc := x.desc + 1 }

/-- The next block of the entry in work is checked and expanded into array tiles; a bad block, and one with a poisoned source
line, is written as poisoned tiles and logged (R172). -/
def State.expandNext (s : State) (x : Post) (k : Nat) (m : Staged) : State :=
  let at_ := fOffset x.cur + x.moved
  let left := s.streamBytes x.part k m at_ (min (fBytes x.cur - x.moved) 17808)
  let e0 := expandBlock left
  let e : Expanded := if e0.tiles = 0 then { e0 with bytes := fBytes x.cur - x.moved } else e0
  let bad := x.bad || e.data.isNone || s.streamBad x.part k m at_ e.bytes
  let s1 := if bad then s.logBlock x else s
  let s2 := if bad then s1.poisonTiles x x.tiles e.tiles
    else s1.writeTiles x x.tiles ((e.data.getD []).map fun t => (t, false))
  let y : Post := { x with moved := x.moved + e.bytes, tiles := x.tiles + e.tiles, got := 0, bad := false, entryBad := x.entryBad || bad }
  let s3 := s2.modPost x.id fun _ => y
  if fBytes x.cur ≤ y.moved then s3.endEntry y else s3

/-- FLOAM_BLOCK_EXPAND: the partition's block is expanded under its grant of the decompressor's arbiter, one block a grant
(R173). -/
def execFloamBlockExpand (id : Nat) (s : State) : Res :=
  match s.post id with
  | none => .next s
  | some x =>
    if x.queue == .floam && !x.cur.isEmpty && s.arbHolds 6 x.sel x.part then
      match s.boundModel x.part x.cur with
      | some (k, m) => .next ((s.arbDone 6 x.sel).expandNext x k m)
      | none => .next s
    else .next s

/-- FLOAM_ENTRY_COMPLETE: a Floam chain's data are visible; the post's increment is applied. -/
def execFloamEntryComplete (id : Nat) (s : State) : Res :=
  match s.post id with
  | some x => .next (if x.queue == .floam && x.drained then s.postDone x else s)
  | none => .next s

end Sys2Proof.Machine
end

