-- ==== Sys2Proof/Machine/Loops.lean ====
section
/-! DEFINITION. Campanile: the descriptor, ports, triggers, runs, the supervisor, outputs and safe lines
(R292 to R314). -/

namespace Sys2Proof.Machine

def State.loop (s : State) (l : Nat) : CLoop := Map.get {} s.cmp.loops l
def State.modLoop (s : State) (l : Nat) (f : CLoop → CLoop) : State :=
  { s with cmp := { s.cmp with loops := Map.modify {} s.cmp.loops l f } }
def State.spSlot (s : State) (n : Nat) : SpSlot := Map.get {} s.cmp.slots n
def State.modSp (s : State) (n : Nat) (f : SpSlot → SpSlot) : State :=
  { s with cmp := { s.cmp with slots := Map.modify {} s.cmp.slots n f } }
def State.canPort (s : State) (n : Nat) : CanPort := Map.get {} s.cmp.can n
def State.modCan (s : State) (n : Nat) (f : CanPort → CanPort) : State :=
  { s with cmp := { s.cmp with can := Map.modify {} s.cmp.can n f } }

/-! ### The descriptor (R300) -/

def cTrigger (b : List Byte) : Nat := u8 b 1
def cTrigSrc (b : List Byte) : Nat := u8 b 2
def cFalling (b : List Byte) : Bool := bitAt (u8 b 3) 0
/-- The CAN trigger's identifier, bit 29 set for an extended one. -/
def cTrigId (b : List Byte) : Nat := u32 b 4 + (u8 b 3 / 2 % 2) * 2 ^ 29
def cDeadline (b : List Byte) : Nat := u32 b 0xC
def cProgBase (b : List Byte) : Nat := u16 b 0x10
def cProgLen (b : List Byte) : Nat := u16 b 0x12
def cTimeoutAction (b : List Byte) : Nat := u8 b 0x14
def cReport (b : List Byte) : DWord := BitVec.ofNat 64 (u64 b 0x18)
/-- Source entry `i`. -/
def cSource (b : List Byte) (i : Nat) : Nat := u64 b (32 + 8 * i)
/-- Output entry `i`, its first 8 bytes. -/
def cOutput (b : List Byte) (i : Nat) : Nat := u64 b (96 + 16 * i)
def cSafe (b : List Byte) (i : Nat) : Word := BitVec.ofNat 32 (u32 b (104 + 16 * i))
/-- The supervisor block. -/
def cSup (b : List Byte) : List Byte := slice b 160 32

/-! Fields that source and output entries share, but for PORT and CS. -/
def eKind (e : Nat) : Nat := bits e 1 0
def sPort (e : Nat) : Nat := bits e 3 2
def sCs (e : Nat) : Nat := bits e 5 4
def sSigned (e : Nat) : Bool := bitAt e 6
def oPort (e : Nat) : Nat := bits e 4 2
def oCs (e : Nat) : Nat := bits e 6 5
def eBig (e : Nat) : Bool := bitAt e 7
def eWidth (e : Nat) : Nat := bits e 12 8 + 1
def eBit (e : Nat) : Nat := bits e 21 13
/-- Identifier, bit 29 set for an extended one. -/
def eIdent (e : Nat) : Nat := bits e 51 22
def sTimeoutMs (e : Nat) : Nat := bits e 59 52
def oFd (e : Nat) : Bool := bitAt e 52
def oDlc (e : Nat) : Nat := bits e 56 53

/-- Payload bytes of a DLC code (ISO 11898-1). -/
def dlcBytes (fd : Bool) (dlc : Nat) : Nat :=
  if dlc ≤ 8 then dlc else if fd then nth 64 [12, 16, 20, 24, 32, 48, 64] (dlc - 9) else 8

/-- What a program of a loop reads: its instructions' words. -/
def State.programOf (s : State) (b : List Byte) : List DWord := Map.getList 0 s.cmp.prog (cProgBase b) (cProgLen b)

def iOp (w : DWord) : Nat := bits w.toNat 63 58
def iImm (w : DWord) : Nat := bits w.toNat 31 0

/-- Sources that a program reads (LDSMP). -/
def lawSources (l : List DWord) : List Nat := dedup ((l.filter (iOp · == 0x0C)).map fun w => iImm w % 8)
/-- Setpoint slots and words that it reads (LDS). -/
def lawWords (l : List DWord) : List (Nat × Nat) := (l.filter (iOp · == 0x0D)).map fun w => (bits (iImm w) 13 10, bits (iImm w) 9 0)
/-- Outputs that it stages (OUT). -/
def lawOutputs (l : List DWord) : List Nat := dedup ((l.filter (iOp · == 0x0E)).map fun w => iImm w % 4)

/-! ### Safe lines (R312) -/

/-- The lines a loop holds a drop on. -/
def CLoop.held (x : CLoop) : Nat := x.dropTimeout ||| x.dropSup ||| x.dropFault

/-- Lines fall; a line that was high is logged. -/
def State.dropLines (s : State) (l mask : Nat) : State :=
  let a := mask.testBit 0 && s.cmp.safeA
  let b := mask.testBit 1 && s.cmp.safeB
  if a || b then
    let s1 := { s with cmp := { s.cmp with safeA := s.cmp.safeA && !a, safeB := s.cmp.safeB && !b } }
    (s1.emit (.safe s1.cmp.safeA s1.cmp.safeB)).log l 0x0A03 0xFF (leBytes 1 l ++ leBytes 1 mask)
  else s

/-! ### Status (R314) -/

/-- The loop status word. -/
def State.loopStatus (s : State) (l : Nat) : Nat :=
  let x := s.loop l
  let t := x.status
  let closed := !x.cfg.isEmpty && (lawWords (s.programOf x.cfg)).any fun e => !(s.spSlot e.1).isOpen
  t.started.toNat + t.missed.toNat * 2 + t.overrun.toNat * 4 + t.timedOut.toNat * 8 + t.implausible.toNat * 16 +
  (x.held != 0).toNat * 32 + closed.toNat * 64 + t.fault.toNat * 128 + min 0xFFFF x.sup.run * 65536

/-! ### Outputs (R296, R308) -/

/-- A value placed in an integer of `total` bits: the low WIDTH bits of `v` at BIT, in either byte order. -/
def placeCan (bits_ e : Nat) (v : Word) : Nat :=
  let w := eWidth e
  let f := v.toNat % 2 ^ w
  let g := if eBig e then leNat (w / 8) ((leBytes (w / 8) f).reverse) else f
  let keep := bits_ - ((bits_ >>> eBit e) % 2 ^ w) <<< eBit e
  keep + g <<< eBit e

/-- A value placed in an SPI frame of `n` bits, whose first bit on the wire is its highest. -/
def placeSpi (n template e : Nat) (v : Word) : Nat :=
  let w := eWidth e
  let sh := n - (eBit e + w)
  let keep := template - ((template >>> sh) % 2 ^ w) <<< sh
  (keep + (v.toNat % 2 ^ w) <<< sh) % 2 ^ n

/-- Whether a port's data rate is above its nominal rate (R300, R302). -/
def canFast (r : List Byte) : Bool :=
  bitAt (u8 r 0x12) 0 && decide (u8 r 0xE * (1 + u8 r 0xF + u8 r 0x10) < u16 r 8 * (1 + u16 r 0xA + u8 r 0xC))

/-- Which of a port's waiting frames starts, where several wait: open, one function of what waits (log entry 95; R34). -/
def canPick (l : List CanTx) : Nat := Config.unitValue 9 (l.foldl (fun (a : Nat) f => (a * 16 + f.loop) * 2 ^ 30 + f.ident) 0) % max 1 l.length

/-- Waiting frames of a free port that is on the bus: one starts. Whether the errors of the bus (ISO 11898-1) take the port
off it in this transmission, so that no frame leaves and the frame still waits, is a free value (log entry 97; R302). -/
def State.startCan (s : State) (p : Nat) : State :=
  let c := s.canPort p
  if c.sending.isSome || c.busOff then s
  else match c.waiting[canPick c.waiting]? with
    | none => s
    | some f =>
      let (seed, s1) := s.take 1
      if Config.freeNat seed % 2 = 1 then s1.modCan p fun x => { x with busOff := true }
      else (s1.modCan p fun x => { x with sending := some f, waiting := x.waiting.erase f }).emit
        (.can p f.ident f.fd (f.fd && canFast c.record) f.dlc f.payload)

/-- A frame is handed to its port: one still waiting is replaced, and the replacement counted (R308). -/
def State.sendCan (s : State) (p : Nat) (f : CanTx) : State :=
  let c := s.canPort p
  let same := fun g : CanTx => g.loop == f.loop && g.ident == f.ident
  if c.waiting.any same then
    (s.modCan p fun x => { x with waiting := x.waiting.map fun g => if same g then f else g }).modLoop f.loop fun x =>
      { x with counts := { x.counts with txReplaced := x.counts.txReplaced + 1 } }
  else (s.modCan p fun x => { x with waiting := x.waiting ++ [f] }).startCan p

/-- A transaction joins its master's queue; on an idle master it starts. -/
def State.queueSpi (s : State) (m : Nat) (t : SpiTx) : State :=
  let q := Map.get [] s.cmp.spi m
  let s1 := { s with cmp := { s.cmp with spi := Map.set [] s.cmp.spi m (q ++ [t]) } }
  if q.isEmpty then s1.emit (.spi m t.cs [t.bits]) else s1

/-- The CAN frames of a loop's outputs: those that share a port and an identifier form one frame; bits no field covers are 0. -/
def canFrames (l : Nat) (b : List Byte) (vals : Map Word) : List (Nat × CanTx) :=
  let es := ((List.range 4).map fun j => (j, cOutput b j)).filter fun e => eKind e.2 == 1
  let heads := es.filter fun e => !(es.any fun f => decide (f.1 < e.1) && oPort f.2 == oPort e.2 && eIdent f.2 == eIdent e.2)
  heads.map fun e =>
    let mine := es.filter fun f => oPort f.2 == oPort e.2 && eIdent f.2 == eIdent e.2
    let n := mine.foldl (fun a f => placeCan a f.2 (Map.get 0 vals f.1)) 0
    (oPort e.2, { loop := l, ident := eIdent e.2, fd := oFd e.2, dlc := oDlc e.2, payload := leBytes (dlcBytes (oFd e.2) (oDlc e.2)) n })

/-- One output that is no CAN frame is handed to its port. -/
def State.handOne (s : State) (l : Nat) (vals : Map Word) (j : Nat) : State :=
  let e := cOutput (s.loop l).cfg j
  let v := Map.get 0 vals j
  if eKind e = 2 then
    let r := Map.get [] s.cmp.spiCs (4 * oPort e + oCs e)
    s.queueSpi (oPort e) ⟨l, oCs e, false, placeSpi (u8 r 0xA) (u64 r 0x18) e v⟩
  else if eKind e = 3 then
    { s with cmp := { s.cmp with pwm := Map.modify {} s.cmp.pwm (oPort e) fun x => { x with nextDuty := v.toNat % 2 ^ eWidth e } } }
  else s

/-- Every configured output is handed its value (R308). -/
def State.hand (s : State) (l : Nat) (vals : Map Word) : State :=
  let s1 := s.modLoop l fun x => { x with prev := vals }
  let s2 := (canFrames l (s.loop l).cfg vals).foldl (fun t f => t.sendCan f.1 f.2) s1
  (List.range 4).foldl (fun t j => t.handOne l vals j) s2

/-- The safe values of a loop's outputs. -/
def safeVals (b : List Byte) : Map Word := (List.range 4).foldl (fun m j => Map.set 0 m j (cSafe b j)) []

/-! ### Shadows (R307) -/

/-- Buffers of a slot that are current, under copy, or latched by a run. -/
def State.buffersTaken (s : State) (n : Nat) : List Nat :=
  let x := s.spSlot n
  x.current.toList ++ x.copying.toList ++ (s.cmp.loops.filterMap fun e => e.2.run.bind fun r =>
    match Map.get 0 r.latched n with
    | 0 => none
    | k + 1 => some k)

/-- Whether a write to the window is in flight: accepted and not complete. -/
def State.inFlight (s : State) (win : Nat) : Bool :=
  s.fab.writes.any fun w => (w.phase == .accepted || w.phase == .landed) && hWindow w.handle == win && w.op != .wb && w.op != .halo

/-- A copy of a slot's window starts, or waits for a buffer; one under way goes on. -/
def State.startCopy (s : State) (n : Nat) : State :=
  let x := s.spSlot n
  if !x.isOpen || x.copying.isSome then s
  else match (List.range 3).find? fun k => !(s.buffersTaken n).contains k with
    | some k => s.modSp n fun y => { y with copying := some k, dirty := s.inFlight y.win, want := false }
    | none => s.modSp n fun y => { y with want := true }

/-- Copies that waited for a buffer start once a run has ended. -/
def State.retryCopies (s : State) : State :=
  (List.range 16).foldl (fun t n => if (t.spSlot n).want then t.startCopy n else t) s

/-- A write to a setpoint window is accepted: a copy under way is spoilt. -/
def State.spoilCopy (s : State) (n : Nat) : State :=
  s.modSp n fun y => if y.copying.isSome then { y with dirty := true } else y

/-- SHADOW_SWITCH: the copy becomes current if no write was in flight during it and no line was poisoned; otherwise it is
repeated once no write is in flight (R307, R415). -/
def execShadowSwitch (n cycles : Nat) (s0 : State) : Res :=
  let (cyc, s) := s0.atCycles cycles
  let x := s.spSlot n
  match x.copying with
  | none => .next s
  | some k =>
    if s.inFlight x.win then .next (s.modSp n fun y => { y with dirty := true })
    else if x.dirty then .next (s.modSp n fun y => { y with dirty := false })
    else
      let w := s.win x.win
      let a := w.spAddr 0
      let s1 := s.flushRun w.part a x.len
      if s1.anyPoison w.part a x.len then .next s1
      else .next (s1.modSp n fun y => { y with
        bufs := Map.set [] y.bufs k (s1.readBytes w.part a x.len), current := some k, refresh := cyc, copying := none })

/-- Whether a slot is stale at a trigger instant. -/
def SpSlot.stale (x : SpSlot) (t : Nat) : Bool :=
  !x.isOpen || x.current.isNone || (x.timeoutUs != 0 && decide (x.refresh + 400 * x.timeoutUs < t))

/-! ### Samples (R306) -/

/-- A CAN field of a payload, sign- or zero-extended to 32 bits; none where the payload does not reach it. -/
def canField (e : Nat) (p : List Byte) : Option Word :=
  let w := eWidth e
  if 8 * p.length < eBit e + w then none
  else
    let raw := if eBig e then leNat (w / 8) ((slice p (eBit e / 8) (w / 8)).reverse)
      else (leNat p.length p >>> eBit e) % 2 ^ w
    some (BitVec.ofInt 32 (if sSigned e then sext w raw else (raw : Int)))

/-- An SPI field of a frame of `n` bits; where it lies outside the frame its value is open. -/
def spiField (e n frame : Nat) : Word :=
  let w := eWidth e
  let raw := if n < eBit e + w then Config.unitValue 7 (frame + e) % 2 ^ w else (frame >>> (n - eBit e - w)) % 2 ^ w
  BitVec.ofInt 32 (if sSigned e then sext w raw else (raw : Int))

/-- A CAN source's sample at a trigger instant; none where it is stale. -/
def State.canSample (s : State) (e t : Nat) : Option Word :=
  match Map.get none (s.canPort (sPort e)).latest (eIdent e) with
  | none => none
  | some (at_, p) => if sTimeoutMs e != 0 && decide (at_ + 400000 * sTimeoutMs e < t) then none else canField e p

/-! ### Arithmetic (R295) -/

/-- (a × c) >> s, wrapped: exact in 64 bits, rounded towards minus infinity. -/
def mulShift (a c : Word) (sh : Nat) : Word := BitVec.ofInt 32 ((a.toInt * c.toInt) / (2 ^ sh : Nat))

/-! ### The supervisor (R310) -/

/-- The residual of a run: y less the model's estimate, wrapped. -/
def residual (b : List Byte) (y y1 y2 u1 u2 : Word) : Word :=
  let c := fun k => BitVec.ofNat 32 (u32 b (0xC + 4 * k))
  let sh := fun k => u8 b (0x1C + k)
  let first := mulShift y1 (c 0) (sh 0) + mulShift u1 (c 2) (sh 2)
  let second := if u8 b 0 = 2 then mulShift y2 (c 1) (sh 1) + mulShift u2 (c 3) (sh 3) else 0
  y - (first + second)

/-- Its magnitude; |−2^31| is 2^31. -/
def magnitude (r : Word) : Nat := r.toInt.natAbs

/-- The supervisor's evaluation of a run with feedback sample `y`. Where MODE runs have committed but fewer than MODE runs have
had a feedback sample, R310 does not say what y1 and y2 are: the missing one is an open constant, the same in every run
(log entry 94; R34). -/
def State.supervise (s1 : State) (l : Nat) (y : Word) : State :=
  let x := s1.loop l
  let b := cSup x.cfg
  let free := fun k => BitVec.ofNat 32 (Config.unitValue 8 k)
  let s2 := if x.sup.committed < u8 b 0 then s1
    else
      let mag := magnitude (residual b y ((x.sup.ys[0]?).getD (free 0)) ((x.sup.ys[1]?).getD (free 1)) (nth 0 x.sup.us 0) (nth 0 x.sup.us 1))
      let run := if u32 b 8 < mag then x.sup.run + 1 else 0
      let fire := decide (u8 b 4 ≤ run) && !x.status.implausible
      let t := s1.modLoop l fun z => { z with
        sup := { z.sup with run := run }
        status := { z.status with implausible := z.status.implausible || fire }
        counts := if fire then { z.counts with implausible := z.counts.implausible + 1 } else z.counts }
      if fire then t.log l 0x0A02 0xFF (leBytes 1 l ++ leBytes 1 (u8 b 5) ++ leBytes 4 mag) else t
  s2.modLoop l fun z => { z with sup := { z.sup with ys := (y :: z.sup.ys).take 2 } }

/-! ### Triggers and the latch (R303 to R305, R311) -/

/-- Step 3: samples and shadows are latched, the supervisor evaluates, and the course is decided. -/
def State.latch (s : State) (l : Nat) (r : Run) (spi : List (Nat × Word)) : State :=
  let x := s.loop l
  let b := x.cfg
  let prog := s.programOf b
  let sample := fun i =>
    let e := cSource b i
    if eKind e = 1 then s.canSample e r.trigger else if eKind e = 2 then (spi.find? (·.1 == i)).map Prod.snd else none
  let stale := (lawSources prog).any (fun i => (sample i).isNone) || (lawWords prog).any fun e => (s.spSlot e.1).stale r.trigger
  let sup := cSup b
  let s1 := match u8 sup 0, sample (u8 sup 1) with
    | 0, _ => s
    | _, some y => s.supervise l y
    | _, none => s
  let x1 := s1.loop l
  let implausible := x1.status.implausible && u8 sup 3 != 0
  let hold := (stale && cTimeoutAction b == 0) || (implausible && u8 sup 3 == 1)
  let safe := (stale && cTimeoutAction b != 0) || (implausible && u8 sup 3 == 2)
  let dropT := if stale && cTimeoutAction b == 2 then u8 sup 5 else 0
  let dropS := if implausible && u8 sup 3 == 2 then u8 sup 5 else 0
  let run := { r with
    waitingSpi := false, z := x.z, samples := (List.range 8).map fun i => (sample i).getD 0
    latched := (List.range 16).foldl (fun m n => match (s.spSlot n).current with
      | some k => Map.set 0 m n (k + 1)
      | none => m) []
    course := if safe then 2 else if hold then 1 else 0 }
  (s1.modLoop l fun z => { z with
    run := some run, dropTimeout := dropT, dropSup := dropS ||| (if z.status.implausible then z.dropSup else 0)
    status := { z.status with timedOut := stale }
    counts := if stale then { z.counts with timeoutRuns := z.counts.timeoutRuns + 1 } else z.counts }).dropLines l (dropT ||| dropS)

/-- A trigger is accepted, or dropped for its rate or for a run in progress, in this order (R304). -/
def State.triggerLoop (s : State) (l cycles : Nat) : State :=
  let x := s.loop l
  let count := fun (f : LoopCounts → LoopCounts) => s.modLoop l fun z => { z with counts := f z.counts }
  let early := match x.lastTrigger with
    | some t => decide (cycles < t + 20000)
    | none => false
  if !x.status.started || !x.stopping.isEmpty || x.status.fault then s
  else if early then count fun c => { c with rateDrops := c.rateDrops + 1 }
  else if x.run.isSome then
    (count fun c => { c with overruns := c.overruns + 1 }).modLoop l fun z => { z with status := { z.status with overrun := true } }
  else
    let reads := (List.range 8).filter fun i => eKind (cSource x.cfg i) == 2
    let r : Run := { trigger := cycles, number := x.counts.runs.toNat, waitingSpi := !reads.isEmpty }
    let s1 := s.modLoop l fun z => { z with
      run := some r, lastTrigger := some cycles, counts := { z.counts with runs := z.counts.runs + 1 } }
    if reads.isEmpty then s1.latch l r []
    else reads.foldl (fun t i =>
      let e := cSource x.cfg i
      t.queueSpi (sPort e) ⟨l, sCs e, true, u64 (Map.get [] t.cmp.spiCs (4 * sPort e + sCs e)) 0x10⟩) s1

/-- The loops a trigger of a kind and source names. -/
def State.triggered (s : State) (kind src : Nat) (more : List Byte → Bool) : List Nat :=
  (List.range 16).filter fun l =>
    let b := (s.loop l).cfg
    !b.isEmpty && cTrigger b == kind && cTrigSrc b == src && more b

def State.triggerAll (s : State) (ls : List Nat) (cycles : Nat) : State := ls.foldl (fun t l => t.triggerLoop l cycles) s

/-- Whether a started loop names an identifier on a port, as a source or as its trigger. -/
def State.namesId (s : State) (port ident : Nat) : Bool :=
  (List.range 16).any fun l =>
    let x := s.loop l
    x.status.started &&
    ((cTrigger x.cfg == 1 && cTrigSrc x.cfg == port && cTrigId x.cfg == ident) ||
     (List.range 8).any fun i => eKind (cSource x.cfg i) == 1 && sPort (cSource x.cfg i) == port && eIdent (cSource x.cfg i) == ident)

/-- Ports keep the frames of identifiers that a started loop names, and no others (R306). -/
def State.pruneCan (s : State) : State :=
  (List.range 4).foldl (fun t p => t.modCan p fun x => { x with latest := x.latest.filter fun e => s.namesId p e.1 }) s

/-- Frames too short for a source that names them are counted at its loop. -/
def State.countShort (s : State) (port ident : Nat) (p : List Byte) : State :=
  (List.range 16).foldl (fun t l =>
    let x := t.loop l
    let n := ((List.range 8).filter fun i =>
      let e := cSource x.cfg i
      eKind e == 1 && sPort e == port && eIdent e == ident && (canField e p).isNone).length
    if x.status.started && n != 0 then
      t.modLoop l fun z => { z with counts := { z.counts with shortFrames := z.counts.shortFrames + BitVec.ofNat 64 n } }
    else t) s

/-- CAN_FRAME_RECEIVE: an error-free frame that a started loop names is kept as its identifier's latest, and triggers the loops
that wait for it (R303, R306). An FD frame reaches only a port configured for FD. -/
def execCanFrameReceive (port : Nat) (f : CanFrame) (cycles : Nat) (s0 : State) : Res :=
  let (cyc, s) := s0.atCycles cycles
  let c := s.canPort port
  let ident := f.ident % 2 ^ 29 + (if f.extended then 2 ^ 29 else 0)
  if c.record.isEmpty || (f.fd && !bitAt (u8 c.record 0x12) 0) || !s.namesId port ident then .next s
  else
    let s1 := (s.modCan port fun x => { x with latest := Map.set none x.latest ident (some (cyc, f.data)) }).countShort port ident f.data
    .next (s1.triggerAll (s1.triggered 1 port fun b => cTrigId b == ident) cyc)

/-- DRDY_EDGE: the chosen edge of a DRDY pin triggers its loops. -/
def execDrdyEdge (pin : Nat) (rising : Bool) (cycles : Nat) (s0 : State) : Res :=
  let (cyc, s) := s0.atCycles cycles
  .next (s.triggerAll (s.triggered 2 pin fun b => cFalling b != rising) cyc)

/-- STB_EDGE: a rising edge is paired into the fits of the sensors it strobes (R252, R254); the chosen edge triggers loops. -/
def execStbEdge (stb : Nat) (rising : Bool) (cycles : Nat) (latches : List (Nat × Nat)) (s0 : State) : Res :=
  let (cyc, s) := s0.atCycles cycles
  let sensors := (List.range 16).filter fun i =>
    let x := s.sensor i
    x.kind != 0xFF && x.strobeTimed && x.strobe == stb && !x.stopped
  let s1 := if rising then sensors.foldl (fun t i => t.strobeOne latches i) s else s
  .next (s1.triggerAll (s1.triggered 3 stb fun b => cFalling b != rising) cyc)

/-- DIVIDER_EXPIRY: every DIVIDER cycles from loop.start; nothing expires at any other count. -/
def execDividerExpiry (l cycles : Nat) (s0 : State) : Res :=
  let (cyc, s) := s0.atCycles cycles
  let x := s.loop l
  let d := u32 x.cfg 8
  .next (if !x.cfg.isEmpty && cTrigger x.cfg == 0 && decide (x.startedAt + d ≤ cyc) && (cyc - x.startedAt) % d == 0 then s.triggerLoop l cyc
    else s)

/-- SPI_READ_DONE: the loop's SPI reads have finished; samples and shadows are latched. -/
def execSpiReadDone (l : Nat) (frames : List Nat) (cycles : Nat) (s0 : State) : Res :=
  let s := (s0.atCycles cycles).2
  let x := s.loop l
  let queued := s.cmp.spi.any fun e => e.2.any fun t => t.loop == l && t.read
  match x.run with
  | some r =>
    if !r.waitingSpi || queued then .next s
    else
      let reads := (List.range 8).filter fun i => eKind (cSource x.cfg i) == 2
      let vals := reads.zipIdx.map fun e =>
        let src := cSource x.cfg e.1
        (e.1, spiField src (u8 (Map.get [] s.cmp.spiCs (4 * sPort src + sCs src)) 0xA) (nth 0 frames e.2))
      .next (s.latch l r vals)
  | none => .next s

/-! ### Instructions (R297) -/

/-- The instruction a loop issues next: its run and its word. -/
def State.nextInstr (s : State) (l : Nat) : Option (Run × DWord) :=
  let x := s.loop l
  match x.run with
  | some r =>
    if r.waitingSpi || r.course != 0 || cProgLen x.cfg ≤ r.index then none
    else some (r, Map.get 0 s.cmp.prog (cProgBase x.cfg + r.index))
  | none => none

/-- An instruction with opcode `op` issues: a suppressed one has no effect but takes its place. -/
def instr (op : Nat) (l : Nat) (s : State) (f : Run → DWord → Run) : Res :=
  match s.nextInstr l with
  | some (r, w) =>
    if iOp w != op then .next s
    else
      let r1 := if r.skip then { r with skip := false } else f r w
      .next (s.modLoop l fun x => { x with run := some { r1 with index := r.index + 1 } })
  | none => .next s

def Run.za (r : Run) (w : DWord) : Word := Map.get 0 r.z (bits w.toNat 53 50)
def Run.zb (r : Run) (w : DWord) : Word := Map.get 0 r.z (bits w.toNat 49 46)
def Run.zd (r : Run) (w : DWord) : Word := Map.get 0 r.z (bits w.toNat 57 54)
def Run.setZ (r : Run) (w : DWord) (v : Word) : Run := { r with z := Map.set 0 r.z (bits w.toNat 57 54) v }

/-- ZA × C[CK] >> s[CK]. -/
def CLoop.coeffMul (x : CLoop) (r : Run) (w : DWord) : Word :=
  mulShift (r.za w) (Map.get 0 x.coeff (bits w.toNat 45 40)) (Map.get 0 x.shift (bits w.toNat 45 40))

def execCNop (l : Nat) (s : State) : Res := instr 0x00 l s fun r _ => r
def execCAdd (l : Nat) (s : State) : Res := instr 0x01 l s fun r w => r.setZ w (r.za w + r.zb w)
def execCSub (l : Nat) (s : State) : Res := instr 0x02 l s fun r w => r.setZ w (r.za w - r.zb w)
def execCMul (l : Nat) (s : State) : Res := instr 0x03 l s fun r w => r.setZ w ((s.loop l).coeffMul r w)
def execMac (l : Nat) (s : State) : Res := instr 0x04 l s fun r w => r.setZ w (r.zd w + (s.loop l).coeffMul r w)
def execMulz (l : Nat) (s : State) : Res := instr 0x05 l s fun r w => r.setZ w (mulShift (r.za w) (r.zb w) (iImm w % 32))
def execCSar (l : Nat) (s : State) : Res := instr 0x06 l s fun r w => r.setZ w ((r.za w).sshiftRight (iImm w % 32))
def execCShl (l : Nat) (s : State) : Res := instr 0x07 l s fun r w => r.setZ w (r.za w <<< (iImm w % 32))
def execCMin (l : Nat) (s : State) : Res := instr 0x08 l s fun r w => r.setZ w (if (r.za w).slt (r.zb w) then r.za w else r.zb w)
def execCMax (l : Nat) (s : State) : Res := instr 0x09 l s fun r w => r.setZ w (if (r.za w).slt (r.zb w) then r.zb w else r.za w)
def execCAnd (l : Nat) (s : State) : Res := instr 0x0A l s fun r w => r.setZ w (r.za w &&& r.zb w)
def execLdi (l : Nat) (s : State) : Res := instr 0x0B l s fun r w => r.setZ w (BitVec.ofNat 32 (iImm w))
def execLdsmp (l : Nat) (s : State) : Res := instr 0x0C l s fun r w => r.setZ w (nth 0 r.samples (iImm w % 8))
def execLds (l : Nat) (s : State) : Res := instr 0x0D l s fun r w =>
  let n := bits (iImm w) 13 10
  let buf := Map.get [] (s.spSlot n).bufs (Map.get 0 r.latched n - 1)
  r.setZ w (BitVec.ofNat 32 (u32 buf (4 * bits (iImm w) 9 0)))
def execLoopOut (l : Nat) (s : State) : Res := instr 0x0E l s fun r w =>
  { r with staged := Map.set none r.staged (iImm w % 4) (some (r.za w)) }
def execSkn (l : Nat) (s : State) : Res := instr 0x0F l s fun r w => { r with skip := (r.za w).msb }
def execSkz (l : Nat) (s : State) : Res := instr 0x10 l s fun r w => { r with skip := r.za w == 0 }

/-! ### The end of a run (R308, R309, R313) -/

/-- The report of a run, with an increment of 1 to REPORT_TCTR (R309). -/
def State.report (s : State) (l : Nat) (r : Run) : State :=
  let x := s.loop l
  let h := cReport x.cfg
  if h = 0 then s
  else
    let data := leBytes 8 r.trigger ++ leBytes 4 (r.number % 2 ^ 32) ++ leBytes 4 (s.loopStatus l) ++
      ((List.range 4).flatMap fun j => leBytes 4 (Map.get 0 x.prev j).toNat) ++
      ((List.range 8).flatMap fun k => leBytes 4 (Map.get 0 x.z k).toNat)
    (s.issueWrite
      { id := 0, src := .unit (200 + l), op := .unit, part := (s.win (hWindow h)).part, handle := h
        off := 64 * (r.number % u16 x.cfg 0x16), data := data, tctr := u8 x.cfg 0x15, tamt := 1 }).2

/-- A coefficient table is installed whole (R299). -/
def CLoop.install (x : CLoop) (b : List Byte) : CLoop :=
  { x with
    coeff := (List.range 64).foldl (fun m k => Map.set 0 m k (BitVec.ofNat 32 (u32 b (8 * k)))) []
    shift := (List.range 64).foldl (fun m k => Map.set 0 m k (u8 b (8 * k + 4))) [] }

/-- The fence's single safe run: safe values are handed and the lines dropped (R313). -/
def State.fenceNow (s : State) (l : Nat) : State :=
  let x := s.loop l
  let lines := u8 (cSup x.cfg) 5
  let s1 := if x.status.started then s.hand l (safeVals x.cfg) else s
  ((s1.modLoop l fun z => { z with
    fencing := false, dropFault := lines, status := { z.status with started := false } }).dropLines l lines).pruneCan

/-- The loop is stopped: each output is handed SAFE_VALUE once, its drops end, and the waiting commands complete. -/
def State.stopNow (s : State) (l : Nat) : State :=
  let x := s.loop l
  let s1 := if x.status.started then s.hand l (safeVals x.cfg) else s
  (s1.modLoop l fun z => { z with
    stopping := [], dropTimeout := 0, dropSup := 0, dropFault := 0, status := { z.status with started := false } }).pruneCan.finishAll x.stopping 0

/-- What follows every run: its report, waiting tables, a fence, a stop, waiting copies. -/
def State.endRun (s : State) (l : Nat) (r : Run) : State :=
  let s1 := (s.modLoop l fun x => { x with run := none }).report l r
  let s2 := (s1.loop l).newTable.foldl (fun t e => (t.modLoop l fun x => x.install e.1).finishOk e.2.1 e.2.2) s1
  let s3 := s2.modLoop l fun x => { x with newTable := [] }
  let s4 := if (s3.loop l).fencing then s3.fenceNow l else s3
  (if (s4.loop l).stopping.isEmpty then s4 else s4.stopNow l).retryCopies

/-- RUN_COMMIT: the register copy becomes the state, and every output is handed its staged, previous or safe value. -/
def execRunCommit (l cycles : Nat) (s0 : State) : Res :=
  let (cyc, s) := s0.atCycles cycles
  let x := s.loop l
  match x.run with
  | some r =>
    if r.waitingSpi || (r.course = 0 && r.index < cProgLen x.cfg) || r.trigger + cDeadline x.cfg < cyc then .next s
    else
      let vals := if r.course = 2 then safeVals x.cfg
        else if r.course = 1 then x.prev
        else (List.range 4).foldl (fun m j => match Map.get none r.staged j with
          | some v => Map.set 0 m j v
          | none => m) x.prev
      let s1 := (s.modLoop l fun z => { z with
        z := if r.course = 0 then r.z else z.z
        sup := { z.sup with committed := z.sup.committed + 1, us := (Map.get 0 vals (u8 (cSup z.cfg) 2) :: z.sup.us).take 2 } }).hand l vals
      .next (s1.endRun l r)
  | none => .next s

/-- RUN_DEADLINE: the run is abandoned: state unchanged, nothing handed, MISSED set. -/
def execRunDeadline (l cycles : Nat) (s0 : State) : Res :=
  let (cyc, s) := s0.atCycles cycles
  let x := s.loop l
  match x.run with
  | some r =>
    if cyc < r.trigger + cDeadline x.cfg then .next s
    else
      let s1 := s.modLoop l fun z => { z with
        status := { z.status with missed := true }, counts := { z.counts with misses := z.counts.misses + 1 } }
      .next (s1.endRun l r)
  | none => .next s

/-- LOOP_FENCE: FAULT is set; the safe course is taken once, after a run in progress. -/
def execLoopFence (l : Nat) (s : State) : Res :=
  let x := s.loop l
  if x.status.fault || 16 ≤ l then .next s
  else
    let s1 := (s.modLoop l fun z => { z with status := { z.status with fault := true } }).log l 0x0A01 0xFF
      (leBytes 1 l ++ leBytes 1 (u8 (cSup x.cfg) 5))
    if x.run.isSome then .next (s1.modLoop l fun z => { z with fencing := true }) else .next (s1.fenceNow l)

/-! ### Ports -/

/-- CAN_TRANSMIT_DONE: the frame has been sent, and a waiting one follows. -/
def execCanTransmitDone (p : Nat) (s : State) : Res :=
  if (s.canPort p).sending.isSome then .next ((s.modCan p fun x => { x with sending := none }).startCan p) else .next s

/-- CAN_BUS_OFF_RECOVERY. -/
def execCanBusOffRecovery (p : Nat) (s : State) : Res :=
  if (s.canPort p).busOff then .next ((s.modCan p fun x => { x with busOff := false }).startCan p) else .next s

/-- SPI_TRANSACTION_DONE: the transaction ends and the master's next one starts. -/
def execSpiTransactionDone (m : Nat) (s : State) : Res :=
  match Map.get [] s.cmp.spi m with
  | [] => .next s
  | _ :: rest =>
    let s1 := { s with cmp := { s.cmp with spi := Map.set [] s.cmp.spi m rest } }
    match rest with
    | t :: _ => .next (s1.emit (.spi m t.cs [t.bits]))
    | [] => .next s1

/-- PWM_PERIOD_BOUNDARY: the new period and duty take effect. -/
def execPwmPeriodBoundary (n : Nat) (s : State) : Res :=
  let x := Map.get {} s.cmp.pwm n
  if x.nextPeriod = 0 then .next s
  else
    let s1 := { s with cmp := { s.cmp with pwm := Map.set {} s.cmp.pwm n { x with period := x.nextPeriod, duty := x.nextDuty } } }
    .next (s1.emit (.pwm n x.nextDuty x.nextPeriod))

end Sys2Proof.Machine
end

