-- ==== Sys2Proof/Machine/Sign.lean ====
section
/-! DEFINITION. Lantern's checks and measurements: digests, keys, the signature check of an image, the measurement
registers (R384, R391 to R393, R398), and what a slot answers to a command that reads it (R372). -/

namespace Sys2Proof.Machine

/-- SHAKE256, 512 bits. -/
def digest (l : List Byte) : List Byte := shake256 64 l

/-- First 16 bytes of the digest of a key or of contents. -/
def digest16 (l : List Byte) : List Byte := (digest l).take 16

/-- The device's serial (fuse bank 0). -/
def serial : List Byte := (List.range 16).map (Config.fuse 0)

/-- A Tithen public key in ROM: 0xF0 to 0xF3 firmware, 0xF4 service, 0xFF factory CA. -/
def tithenKey (k : Nat) : List Byte := (List.range 1793).map (Config.fuse k)

/-- The identity public key (fuse bank 1) and the ROM's digest (fuse bank 2). -/
def identityKey : List Byte := (List.range 1793).map (Config.fuse 1)
def romDigest : List Byte := (List.range 64).map (Config.fuse 2)

/-- A Falcon-1024 signature over the digest of `msg` holds under `key`. -/
def signedBy (key msg sig : List Byte) : Bool := Config.falconOk key (digest msg) sig

/-- Whether the state is owned: OWNED or SERVICE. -/
def Life.isOwned (l : Life) : Bool := l == .owned || l == .service

def State.modLan (s : State) (f : Lantern → Lantern) : State := { s with lan := f s.lan }

/-! ### The vault (R385) -/

/-- What Lantern keeps in the vault. -/
def Lantern.secrets (l : Lantern) : Secrets :=
  { life := l.life, pending := l.pending, root := l.root, keys := l.keys, policy := l.policy, seq := l.seq, storeKeys := l.storeKeys }

/-- The secrets as a copy of the vault gives them. -/
def Lantern.unseal (l : Lantern) (x : Secrets) : Lantern :=
  { l with life := x.life, pending := x.pending, root := x.root, keys := x.keys, policy := x.policy, seq := x.seq, storeKeys := x.storeKeys }

/-- The secrets go into the vault: first into the copy not last written, then into the other, each write under a generation of
its own; both are sound again. -/
def State.seal (s : State) : State :=
  let l := s.lan
  let g := max l.vaultA.gen l.vaultB.gen
  let aLast := decide (l.vaultB.gen ≤ l.vaultA.gen)
  let s1 := s.modLan fun l => { l with
    vaultA := ⟨if aLast then g + 2 else g + 1, l.secrets⟩, vaultB := ⟨if aLast then g + 1 else g + 2, l.secrets⟩ }
  { s1 with store := { s1.store with mediaBad := s1.store.mediaBad.filter (· < 4097) } }

/-- Whether a copy of the vault (0 in region A, 1 in region B) authenticates: none of its codewords came back damaged. -/
def State.vaultSound (s : State) (k : Nat) : Bool := !s.store.mediaBad.contains (4097 + k)

/-- The newer copy that authenticates; none where neither does. -/
def State.vault (s : State) : Option VaultCopy :=
  let l := s.lan
  if s.vaultSound 0 && (!s.vaultSound 1 || decide (l.vaultB.gen ≤ l.vaultA.gen)) then some l.vaultA
  else if s.vaultSound 1 then some l.vaultB
  else none

/-- The inline engines whose keys Lantern writes over the key bus (R24, R385). -/
inductive KeyEngine where
  | ddr (part : Nat)
  | ddrDevice
  | nand (region : Nat)
  | swap (part : Nat)
  | huveip (port : Nat)
  deriving DecidableEq, Repr

/-- What the write-only key register of an inline engine holds: the number of its key, 0 for none. Nothing but the engine
reads it. -/
def State.keyRegister (s : State) : KeyEngine → Nat
  | .ddr p => Map.get 0 s.ddr.pairs p
  | .ddrDevice => Map.get 0 s.ddr.pairs 16
  | .nand k => Map.get 0 s.lan.storeKeys k
  | .swap p => (s.part p).host.key
  | .huveip h => (s.port h).session.key

/-! ### Measurement registers (R398) -/

/-- Measurement register `i`, 64 bytes. -/
def Lantern.mr (l : Lantern) (i : Nat) : List Byte := fit 0 64 (Map.get [] l.mrs i)

/-- Register `i` is extended with event code `e` and digest `d`, and the extension logged. -/
def State.measure (s : State) (i e : Nat) (d : List Byte) : State :=
  let v := digest (s.lan.mr i ++ leBytes 4 e ++ d)
  (s.modLan fun l => { l with mrs := Map.set [] l.mrs i v }).log 0xFFFF 0x0C02 0xFF (d ++ [BitVec.ofNat 8 i]) e

/-- The registers that the argument digest of an accepted command extends. -/
def measuredIn (op : Nat) : List Nat :=
  let mr5 := op / 256 == 2 || op / 256 == 7 || op / 256 == 9 ||
    [0x0601, 0x0602, 0x0603, 0x0801, 0x0806, 0x0807, 0x0108, 0x0A01].contains op
  (if mr5 then [5] else []) ++ (if op == 0x0204 then [6] else []) ++
  (if [0x0C03, 0x0C04, 0x0C06, 0x0617, 0x0618].contains op then [7] else [])

/-- The measurement of an accepted command's arguments. -/
def State.measureArgs (s : State) (op : Nat) (args : List Byte) : State :=
  (measuredIn op).foldl (fun t i => t.measure i op (digest args)) s

/-- What a slot's load or removal adds to MR6: the slot and the digest of its contents. -/
def State.measureSlot (s : State) (op slot : Nat) (d : List Byte) : State := s.measure 6 op (digest (leBytes 2 slot ++ d))

/-- MR4: state, LC_COUNT, owner root digest and policy, at start and at each change. -/
def State.measureLife (s : State) (e : Nat) : State :=
  let l := s.lan
  s.measure 4 e (digest ([BitVec.ofNat 8 (l.life.code)] ++ leBytes 4 l.lcCount ++ digest l.root ++
    leBytes 2 l.policy.cosign.toNat ++ l.policy.minSvn.flatMap (leBytes 2)))

/-! ### Slots (R372) -/

def State.slot (s : State) (n : Nat) : Slot := Map.get {} s.store.slots n
def State.setSlot (s : State) (n : Nat) (v : Slot) : State :=
  { s with store := { s.store with slots := Map.set {} s.store.slots n v } }

/-- Contents without the signature block of kinds 0 to 3. -/
def Slot.body (x : Slot) : List Byte := if x.kind < 4 then x.data.take (x.data.length - 4096) else x.data

/-- The two slot checks of a command that reads a slot. -/
def State.slotCheck (s : State) (n kind owner : Nat) : Option Nat :=
  let x := s.slot n
  firstFail [(x.state != 2, rcSlotEmpty), (x.kind != kind || x.owner != owner, rcImageKind)]

/-- A command that reads the slot met a codeword that is delivered poisoned (R363): it completes with ST_MEDIA_ERROR. -/
def State.mediaBad (s : State) (n : Nat) : Bool := s.store.mediaBad.contains n
def State.mediaDone (s : State) (n : Nat) : State :=
  { s with store := { s.store with mediaBad := s.store.mediaBad.filter (· != n) } }

/-! ### The signature check (R391 to R393) -/

/-- The signature block of an image. -/
def sigBlock (b : List Byte) : List Byte := b.drop (b.length - 4096)

/-- The public key a SIGNER value names among the owner's. -/
def Lantern.ownerKey (l : Lantern) (id : Nat) : List Byte :=
  if id = 0xFE then l.root else if id < 32 then (Map.get {} l.keys id).key else []

/-- Whether an owner's signer may sign a kind for a partition; kind 2 has no partition, nor has a co-signature (kind 3). -/
def Lantern.ownerMay (l : Lantern) (id kind part : Nat) : Bool :=
  if id = 0xFE then !l.root.isEmpty
  else
    let k : KeySlot := Map.get {} l.keys id
    decide (id < 32) && k.used && k.kinds.testBit kind && (decide (2 ≤ kind) || k.parts.testBit part)

/-- The key of an accepted signer (R392). -/
def Lantern.signer (l : Lantern) (id kind part : Nat) : Option (List Byte) :=
  if kind = 3 then
    if 0xF0 ≤ id && id ≤ 0xF3 && !l.revokedFw.testBit (id - 0xF0) then some (tithenKey id) else none
  else if id = 0xF4 then (if l.life = .service then some (tithenKey id) else none)
  else if l.ownerMay id kind part then some (l.ownerKey id) else none

/-- States that accept images of a kind (R387). -/
def Life.accepts (l : Life) (kind : Nat) : Bool := if kind = 3 then l != .retired else l.isOwned

/-- A signature block that is not well-formed. -/
def sigMalformed (g : List Byte) (kind : Nat) : Bool :=
  u32 g 0 != 0x42474953 || u16 g 4 != 1 || u8 g 6 != kind || (if kind = 3 then decide (2 < u8 g 7) || decide (64 < u16 g 8) else u8 g 7 != 0) ||
  !allZero g 0x0C 4 || !allZero g 0x70 16 || !allZero g 0xA80 1408

/-- A co-signature that the policy asks for and the block does not give. -/
def Lantern.cosignBad (l : Lantern) (g : List Byte) (kind : Nat) : Bool :=
  let id := u8 g 0x0B
  kind == 3 && l.policy.cosign &&
  !(l.ownerMay id 3 0 && slice g 0x20 16 == digest16 (l.ownerKey id) && signedBy (l.ownerKey id) (slice g 0 0x80) (slice g 0x580 1280))

/-- The floor that an SVN must reach. -/
def Lantern.svnFloor (l : Lantern) (g : List Byte) (kind : Nat) : Nat :=
  if kind = 3 then (Map.get {} l.targets (u8 g 7)).floor else nth 0 l.policy.minSvn kind

/-- The signature check, in its order. -/
def Lantern.sigCheck (l : Lantern) (b : List Byte) (kind part : Nat) : Option Nat :=
  let g := sigBlock b
  let key := l.signer (u8 g 0x0A) kind part
  firstFail [
    (decide (b.length < 4096) || sigMalformed g kind, rcSecurityMalformed),
    (!l.life.accepts kind, rcLifecycle),
    (key.isNone || key.any fun k => slice g 0x10 16 != digest16 k, rcKeyUnknown),
    (slice g 0x30 64 != digest (b.take (b.length - 4096)) || !(key.any fun k => signedBy k (slice g 0 0x80) (slice g 0x80 1280)),
      rcSignature),
    (l.cosignBad g kind, rcCosignRequired),
    (decide (u16 g 8 < l.svnFloor g kind), rcRollback)]

/-- A refused signature is logged (R426). -/
def State.logSignature (s : State) (code kind slot part : Nat) : State :=
  s.log 0xFFFF 0x0C04 (if part < 16 then part else 0xFF) (leBytes 2 code ++ [BitVec.ofNat 8 kind] ++ leBytes 2 slot)

end Sys2Proof.Machine
end

