-- ==== Sys2Proof/Machine/Attest.lean ====
section
/-! DEFINITION. The identity certificate and the attestation report, for sec.attest and for Huveip's bring-up (R384, R399). -/

namespace Sys2Proof.Machine

/-- Device objects that the device makes itself: the identity certificate (R384). -/
def certName : List Byte := fit 0 32 ([0x00, 0x49, 0x44, 0x2D, 0x43, 0x45, 0x52, 0x54])
def idCert : List Byte :=
  let head := fit 0 64 (leBytes 4 0x54434449 ++ zeros 12 ++ serial) ++ identityKey
  fit 0 0x780 head ++ (List.range 1280).map (Config.fuse 3)

/-- First 16 bytes of the digest of the owner root; 0 if none (R399). -/
def State.ownerRootId (s : State) : List Byte :=
  if s.lan.root.isEmpty then zeros 16 else shake256 16 s.lan.root

/-- Whether the debug port is open: unlocked in SERVICE (R408). -/
def State.debugOpen (s : State) : Bool := s.lan.life == .service && s.lan.debugPort.unlocked != 0

/-- An entry of CONTEXTS. -/
def State.contextEntry (s : State) (p c : Nat) : List Byte :=
  let x := s.ctx p c
  let code := match x.state with
    | .empty => 0
    | .loaded => 1
    | .starting => 2
    | .ready => 3
    | .running => 4
    | .stopping => 5
    | .saved => 6
  match x.image with
  | none => zeros 48
  | some im =>
    let g := sigBlock (s.slot im.slot).data
    [BitVec.ofNat 8 code, nth 0 g 0x0A] ++ slice g 8 2 ++ leBytes 2 im.slot ++ zeros 10 ++ slice g 0x30 32

/-- The attestation report: 0x000 to 0x7FF, the signature, and zeros. -/
def State.attestReport (s : State) (part : Nat) (nonce : List Byte) : List Byte :=
  let l := s.lan
  let dev := part == 0xFF
  let flags := s.debugOpen.toNat + 2 * l.policy.cosign.toNat + 4 * (!l.walks.isEmpty).toNat
  let tgt := fun k => (Map.get {} l.targets k : Target)
  let models := ((s.part part).models.staged.filter fun m => m.2.used).flatMap fun m => fit 0 16 m.2.id
  let body := leBytes 4 0x54535441 ++ leBytes 2 1 ++ [BitVec.ofNat 8 l.life.code, BitVec.ofNat 8 flags] ++ serial ++
    leBytes 2 s.huv.devId ++ [BitVec.ofNat 8 part, 0] ++ leBytes 4 l.lcCount ++ nonce ++ leBytes 8 l.monotonic.toNat ++
    leBytes 4 l.boots ++ ((List.range 3).map fun k => BitVec.ofNat 8 (tgt k).floor) ++ [0] ++
    ((List.range 3).flatMap fun k => leBytes 2 (tgt k).svn) ++ zeros 10 ++ ((List.range 8).flatMap l.mr) ++
    s.ownerRootId ++ digest16 identityKey ++
    (if dev then zeros 384 else (List.range 8).flatMap (s.contextEntry part)) ++ (if dev then zeros 1024 else fit 0 1024 models)
  body ++ (Config.falconSign 1 (digest body)).toList ++ zeros 768

end Sys2Proof.Machine
end

