-- ==== Sys2Proof/Machine/Huveip.lean ====
section
/-! DEFINITION. Huveip on the receiving side: frames, retry, credits, forwarding, bring-up, retrain and rekey
(R128 to R137, R400 to R403). -/

namespace Sys2Proof.Machine

/-- Link outputs besides frames, by KIND of R400; 8 stands for a NAK and 9 for an acknowledgement in a link word. -/
def kCredits : Nat := 0
def kBringup : Nat := 1
def kHello : Nat := 2
def kEncap : Nat := 3
def kReport : Nat := 4
def kFinish : Nat := 5
def kRekey : Nat := 6
def kAbort : Nat := 7
def kNak : Nat := 8
def kAck : Nat := 9

def State.modPort (s : State) (h : Nat) (f : Port → Port) : State := s.setPort h (f (s.port h))

/-- STATE of a port (R140): step 3 of R134 still reads as training, and step 4 as attesting. -/
def Port.code (x : Port) : Nat :=
  match x.state with
  | .down => 0
  | .training => 1
  | .attesting => if x.session.step == .bringup then 1 else 2
  | .up => 3
  | .retraining => 4

/-- The notice and the log record of a port's change. -/
def State.portNotice (s : State) (h : Nat) : State :=
  let x := s.port h
  s.notice noticePort 0xFF [BitVec.ofNat 8 h, BitVec.ofNat 8 x.code, BitVec.ofNat 8 x.lanes]
def State.portLog (s : State) (h event reason : Nat) : State :=
  let x := s.port h
  s.log h event 0xFF ([BitVec.ofNat 8 x.lanes, BitVec.ofNat 8 x.code] ++ leBytes 2 x.peerId ++ leBytes 1 reason)

/-! ### Writes arriving (R123, R129, R136) -/

/-- The handle bits a frame carries. -/
def State.frameHandle (s : State) (rx : RxFrame) : DWord :=
  BitVec.ofNat 64 (s.huv.devId + rx.winId % 4096 * 2 ^ 16 + rx.gen % 65536 * 2 ^ 28 + rx.flags % 16 * 2 ^ 44)

/-- A frame for this device: the first of a write begins it, and each other joins it only as its next in order, the last only
after all earlier ones (R123). -/
def State.takeFrame (s : State) (ty : Nat) (rx : RxFrame) : State :=
  let lines := rx.payload.length / 64
  if rx.first then
    let (n, s1) := s.newId
    s1.addWrite
      { id := n, src := .peer rx.src rx.wtag, op := if ty = tySignal then .signal else .put, handle := s.frameHandle rx,
        off := 64 * rx.lineOff, data := rx.payload, poison := [],
        tctr := if rx.last then rx.tctr else 0, tamt := if rx.last then rx.tamt else 0,
        missing := if rx.last then 0 else rx.tctr + 1 - lines }
  else
    match s.fab.writes.find? fun w => w.src == .peer rx.src rx.wtag && w.missing != 0 && 64 * rx.lineOff == w.off + w.data.length &&
        (if rx.last then w.missing == lines else decide (lines < w.missing)) with
    | none => s
    | some w => s.modWrite w.id fun x => { x with
        data := x.data ++ rx.payload
        missing := if rx.last then 0 else x.missing - lines
        tctr := if rx.last then rx.tctr else x.tctr
        tamt := if rx.last then rx.tamt else x.tamt }

/-- A frame received at port `h` is dropped and counted (R140), and its slot is free. -/
def State.countDrop (s : State) (h ty vc : Nat) : State :=
  (s.modPort h fun x => { x with stats := { x.stats with dropped := satAdd 0xFFFFFFFF x.stats.dropped 1 } }).owe h ty vc

/-- A write dropped on its way: one drop completion toward its source, for its first frame (R136). -/
def State.dropFrame (s : State) (h ty status : Nat) (rx : RxFrame) : State :=
  let s1 := s.countDrop h ty rx.vc
  if rx.first then s1.sendCompletion rx.src rx.wtag status else s1

/-- A frame goes out again one hop on: HOPS falls by one, channel 1 stays channel 1 (R136). -/
def onward (h ty : Nat) (dateline : Bool) (rx : RxFrame) : TxFrame :=
  { ty := ty, f := { rx with vc := if ty < 2 && (rx.vc = 1 || dateline) then 1 else 0, hops := rx.hops - 1 }, source := some (h, rx.vc) }

/-- A write or signal frame goes on by port `k`, or is dropped. -/
def State.forwardFrame (s : State) (h k ty : Nat) (dateline : Bool) (rx : RxFrame) : State :=
  if rx.hops ≤ 1 then s.dropFrame h ty stHopLimit rx
  else if !(s.port k).carries ty then s.dropFrame h ty stLinkDown rx
  else s.relay k (onward h ty dateline rx)

/-- The table a port's frames are routed by, and the key of a destination in it. -/
def routeKey (h dst : Nat) : Nat := 65536 * (4 + h) + dst

/-- A write or signal frame is landed, forwarded or dropped by its route. -/
def State.routeFrame (s : State) (h ty : Nat) (rx : RxFrame) : State :=
  match s.way (4 + h) rx.dst with
  | .here => (s.takeFrame ty rx).owe h ty rx.vc
  | .none => s.dropFrame h ty stNoRoute rx
  | .out k dl =>
    let e := (routeKey h rx.dst, rx.src, rx.wtag)
    let fw := s.huv.forwarding.filter (· != e)
    let s1 := { s with huv := { s.huv with forwarding := if rx.last then fw else fw ++ [e] } }
    s1.forwardFrame h k ty dl rx

/-- Whether a frame waits behind a held route change: a first frame, or one of a write already held (R137). -/
def State.heldBack (s : State) (h : Nat) (rx : RxFrame) : Bool :=
  (s.huv.heldRoutes.any fun r => r.1 == routeKey h rx.dst) &&
  (rx.first || s.huv.heldFrames.any fun f => f.table == 4 + h && f.f.dst == rx.dst && f.f.src == rx.src && f.f.wtag == rx.wtag)

/-- Route changes whose destination forwards nothing any more take effect, and the frames held for them go on; `fuel` bounds
the changes. -/
def State.applyRoutes : Nat → State → State
  | 0, s => s
  | fuel + 1, s =>
    match s.huv.heldRoutes.find? fun r => !(s.huv.forwarding.any fun e => e.1 == r.1) with
    | none => s
    | some r =>
      let mine := s.huv.heldFrames.filter fun f => 65536 * f.table + f.f.dst == r.1
      let s1 := { s with huv := { s.huv with
        routes := Map.set 0 s.huv.routes r.1 r.2
        heldRoutes := s.huv.heldRoutes.erase r
        heldFrames := s.huv.heldFrames.filter fun f => 65536 * f.table + f.f.dst != r.1 } }
      State.applyRoutes fuel (mine.foldl (fun t f => t.routeFrame (f.table - 4) f.ty f.f) s1)

/-- A session is lost (R134): the frames in its replay and receive buffers are discarded, each write ended by one of them is
reported, the jobs of the partitions whose peers the port reaches end, those waiting with them, and the port starts again at
step 1. -/
def State.loseSession (s : State) (h : Nat) : State :=
  let x := s.port h
  let mine := fun (f : TxFrame) => f.source.any fun o => o.1 == h
  let held := s.huv.heldFrames.filter fun f => f.table == 4 + h
  let others := (List.range 4).filter (· != h)
  let gone := (x.replay ++ x.waiting).map (fun f => (f.ty, f.f)) ++ held.map (fun f => (f.ty, f.f)) ++
    others.flatMap fun k => ((s.port k).waiting.filter mine).map fun f => (f.ty, f.f)
  let s1 := s.setPort h { x with
    state := .training, replay := [], waiting := [], credits := {}, owed := {}, session := {}, peerId := 0xFFFF, peerSlots := 0,
    replayRuns := 0, failedRetrains := 0, lanes := 0, laneMask := 0, txNext := 0, rxNext := 0,
    stats := { x.stats with dropped := satAdd 0xFFFFFFFF x.stats.dropped gone.length } }
  let s2 := others.foldl (fun (t : State) (k : Nat) =>
    t.modPort k fun y => { y with waiting := y.waiting.filter fun f => !mine f }) s1
  let s3 := { s2 with huv := { s2.huv with
    heldFrames := s2.huv.heldFrames.filter fun f => f.table != 4 + h
    forwarding := s2.huv.forwarding.filter fun e => e.1 / 65536 != 4 + h } }
  let s4 := x.waiting.foldl (fun (t : State) (f : TxFrame) => match f.source with
    | some (k, vc) => if k = h then t else t.owe k f.ty vc
    | none => t) s3
  let s5 := (gone.filter fun f => decide (f.1 < 2) && f.2.last).foldl
    (fun (t : State) (f : Nat × RxFrame) => t.sendCompletion f.2.src f.2.wtag stLinkDown) s4
  let s6 := s5.log h 0x0603 0xFF (leBytes 1 0 ++ leBytes 1 1 ++ leBytes 2 x.peerId)
  let s7 := s6.notice noticePort 0xFF (leBytes 1 h ++ leBytes 1 1 ++ leBytes 1 0)
  let s8 := if (s.reachedBy h).any s.peers.contains then
      (List.range 16).foldl (fun (t : State) (p : Nat) =>
        if (t.part p).state == .enabled then (List.range 8).foldl (fun (u : State) (c : Nat) => u.endAll p c stPeerLost) t
        else t) s7
    else s7
  State.applyRoutes s8.huv.heldRoutes.length s8

/-! ### Retry (R130) -/

/-- Every frame still in the replay buffer is sent again; the eighth time in a row the port retrains. -/
def State.replay (s : State) (h : Nat) : State :=
  let x := s.port h
  let runs := x.replayRuns + 1
  let st := { x.stats with
    replays := satAdd 0xFFFFFFFF x.stats.replays 1
    framesTx := x.stats.framesTx + BitVec.ofNat 64 x.replay.length }
  let s1 := s.setPort h { x with
    replayRuns := if 8 ≤ runs then 0 else runs
    state := if 8 ≤ runs then .retraining else x.state
    stats := st }
  x.replay.foldl (fun t f => t.emit (.frame h f.ty f.f f.wire)) s1

/-- Frames of the replay buffer up to the acknowledged number are done with. -/
def Port.acked (x : Port) (ack : Nat) : Port :=
  if x.replay.any fun f => f.f.seq == ack then
    { x with replay := (x.replay.dropWhile fun f => f.f.seq != ack).drop 1, replayRuns := 0 }
  else x

/-- What becomes of a received frame. -/
inductive Received where
  /-- Dealt with: a bad, duplicate or early frame, or one for a port that takes none. -/
  | spent (s : State)
  | accepted (s : State)

/-- A device that forwards starts to send a frame before its tag has arrived; when the tag fails, the outgoing copy, which was on
its way if it could go at once, ends with an inverted CRC and takes no frame number (R132). -/
def State.cutShort (s : State) (h ty : Nat) (rx : RxFrame) : State :=
  match s.way (4 + h) rx.dst with
  | .out k dl =>
    let y := s.port k
    let t := onward h ty dl { rx with crcInverted := true }
    if ty < 3 && 1 < rx.hops && y.carries ty && y.clear t && !(ty < 2 && s.heldBack h rx) then
      s.emit (.frame k ty (y.numbered t).f (y.numbered t).wire)
    else s
  | _ => s

/-- A CRC failure is counted; whether FEC had left codewords uncorrected in the frame, and how many of the two it can touch, is a
free value (log entry 22). -/
def State.crcFailed (s : State) (h : Nat) : State :=
  let (k, s1) := s.take 1
  s1.modPort h fun x => { x with stats := { x.stats with
    crcFail := satAdd 0xFFFFFFFF x.stats.crcFail 1
    fecUncorrectable := satAdd 0xFFFFFFFF x.stats.fecUncorrectable (Config.freeNat k % 3) } }

/-- A frame arrives at a port: inverted CRC, CRC, tag and sequence are checked in this order; its acknowledgement is taken
(R129, R130, R132). -/
def State.receive (s : State) (h ty : Nat) (rx : RxFrame) : Received :=
  let x := s.port h
  let nak := fun (t : State) => t.emit (.link h kNak [((t.port h).rxNext + 4095) % 4096])
  if 4 ≤ h || !(x.carries ty) || rx.crcInverted then .spent s
  else if !rx.crcOk then
    .spent (nak (s.crcFailed h))
  else if !rx.tagOk && x.state != .attesting then
    let n := x.session.tagFails + 1
    let s1 := (s.cutShort h ty rx).setPort h { x with
      session := { x.session with tagFails := n }
      stats := { x.stats with tagFail := satAdd 0xFFFFFFFF x.stats.tagFail 1 } }
    .spent (if 4 ≤ n then s1.loseSession h else nak s1)
  else
    let s1 := if rx.ackv then s.modPort h fun y => y.acked rx.ack else s
    let s2 := (if rx.nak then s1.replay h else s1).drainWaiting h
    if rx.seq != (s2.port h).rxNext % 4096 then
      let behind := ((s2.port h).rxNext + 4096 - rx.seq) % 4096
      .spent (if behind < 2048 then s2.emit (.link h kAck [((s2.port h).rxNext + 4095) % 4096]) else nak s2)
    else
      let s3 := s2.modPort h fun y => { y with
        rxNext := y.rxNext + 1
        session := { y.session with frames := y.session.frames + 1 }
        stats := { y.stats with framesRx := y.stats.framesRx + 1 } }
      .accepted (s3.emit (.link h kAck [rx.seq]))

/-! ### Credits (R131) -/

/-- The credits a LINK frame carries. -/
def linkFrameCredits (rx : RxFrame) : Credits :=
  { c0 := rx.winId, c1 := rx.gen % 4096, cc := rx.gen / 4096 + 16 * (rx.flags % 16) + 256 * (rx.lineOff % 16) }

/-- LINK_CREDITS: a LINK frame of KIND 0. -/
def execLinkCredits (h : Nat) (rx : RxFrame) (s : State) : Res :=
  match s.receive h tyLink rx with
  | .spent t => .next t
  | .accepted t =>
    let c := linkFrameCredits rx
    .next ((t.modPort h fun x => { x with
      credits := { c0 := x.credits.c0 + c.c0, c1 := x.credits.c1 + c.c1, cc := x.credits.cc + c.cc } }).drainWaiting h)

/-- CREDIT_RETURN_TIMER: 100 ns with credits owed. -/
def execCreditReturnTimer (h : Nat) (s : State) : Res :=
  .next (if h < 4 && (s.port h).owed.total != 0 then s.returnCredits h else s)

/-- REPLAY_TIMEOUT: 2 µs without an acknowledgement. -/
def execReplayTimeout (h : Nat) (s : State) : Res :=
  .next (if h < 4 && !(s.port h).replay.isEmpty then s.replay h else s)

/-! ### Frames received -/

/-- A WRITE or SIGNAL frame arrives at a port. -/
def State.writeFrame (s : State) (h ty : Nat) (rx : RxFrame) : State :=
  match s.receive h ty rx with
  | .spent t => t
  | .accepted t =>
    let u := if t.heldBack h rx then
        { t with huv := { t.huv with heldFrames := t.huv.heldFrames ++ [⟨4 + h, ty, rx⟩] } }
      else t.routeFrame h ty rx
    State.applyRoutes u.huv.heldRoutes.length u

/-- HUVEIP_WRITE_FRAME. -/
def execHuveipWriteFrame (h : Nat) (rx : RxFrame) (s : State) : Res := .next (s.writeFrame h tyWrite rx)

/-- HUVEIP_SIGNAL_FRAME: FIRST and LAST are set and LEN is 0, so it is a whole write without data. -/
def execHuveipSignalFrame (h : Nat) (rx : RxFrame) (s : State) : Res :=
  .next (s.writeFrame h tySignal { rx with first := true, last := true, payload := [] })

/-- COMPLETION_FRAME: sunk by the tracker of this device, or forwarded. -/
def execCompletionFrame (h : Nat) (rx : RxFrame) (s : State) : Res :=
  match s.receive h tyCompletion rx with
  | .spent t => .next t
  | .accepted t =>
    .next (match t.way (4 + h) rx.dst with
      | .here => (t.sendCompletion t.huv.devId rx.wtag (rx.lineOff % 65536)).owe h tyCompletion 0
      | .none => t.countDrop h tyCompletion 0
      | .out k _ => if rx.hops ≤ 1 || !(t.port k).carries tyCompletion then t.countDrop h tyCompletion 0
          else t.relay k (onward h tyCompletion false rx))

/-! ### Bring-up (R134, R401, R402) -/

def State.modSession (s : State) (h : Nat) (f : Session → Session) : State :=
  s.modPort h fun x => { x with session := f x.session }

/-- A side that finds a check failed sends ABORT, logs it, and waits to return to step 1. -/
def State.abortBringup (s : State) (h reason : Nat) : State :=
  ((s.modSession h fun x => { x with refused := true, step := .idle }).emit (.link h kAbort [reason])).portLog h 0x0604 reason

/-- A message of the bring-up in fragments of 256 bytes, each with its index before it, the last filled to whole units of 64 bytes
(R400). -/
def State.linkMessage (s : State) (h kind : Nat) (msg : List Byte) : State :=
  (List.range (ceilDiv msg.length 256)).foldl (fun (t : State) (i : Nat) =>
    t.emit (.link h kind (i :: (fit 0 (roundUp 64 (min 256 (msg.length - 256 * i))) (msg.drop (256 * i))).map (·.toNat)))) s

/-- A HELLO: device ID, nonce, and from the initiator its encapsulation key (R401). -/
def helloBytes (dev : Nat) (nonce key : List Byte) : List Byte := leBytes 2 dev ++ nonce ++ key

/-- This side's HELLO at port `h`. -/
def State.ownHello (s : State) (h : Nat) : List Byte :=
  let x := (s.port h).session
  helloBytes s.huv.devId x.nonce (if x.initiator then (Config.mlkemKey x.seed).toList else [])

/-- The 104 bytes of a shared secret and a transcript (R403). -/
def sessionMaterial (secret transcript : List Byte) : List Byte := shake256 104 (secret ++ digest transcript)

/-- The REPORT message: certificate, then the report of the device alone with the transcript's nonce (R401 step 3). -/
def State.sendReport (s : State) (h : Nat) : State :=
  s.linkMessage h kReport (idCert ++ s.attestReport 0xFF ((digest (s.port h).session.transcript).take 32))

/-- FINISH: KMAC128 under the confirmation key over the transcript (R401 step 5). -/
def Session.confirm (x : Session) : List Byte := kmac128 32 (slice x.material 72 32) [] x.transcript

/-- `n` of the lanes of a mask, the lowest. -/
def keepLanes (mask n : Nat) : Nat := ((bitList mask 8).take n).foldl (fun m b => m + 2 ^ b) 0

/-- HUVEIP_TRAINING_DONE: step 3 begins with BRINGUP, on lanes that have not been dropped (R133). A port whose session still
stood has lost it. -/
def execHuveipTrainingDone (h lanes : Nat) (s : State) : Res :=
  if 4 ≤ h || !([4, 6, 7, 8].contains lanes) || decide ((bitList (s.port h).usable 8).length < lanes) || (s.port h).state == .down ||
      (s.port h).state == .attesting then .next s
  else
    let s0 := if (s.port h).state == .training then s else s.loseSession h
    let s1 := s0.modPort h fun x => { x with
      state := .attesting, lanes := lanes
      laneMask := keepLanes x.usable lanes, usable := keepLanes x.usable lanes
      session := { step := .bringup } }
    .next (s1.emit (.link h kBringup [s.huv.devId, lanes, 512]))

/-- BRINGUP: device IDs, lane count and buffer slots are exchanged. Without an ID of its own the device goes no further; a
peer with the device's own ID is a conflict (R135). -/
def execLinkBringup (h peerId lanes slots : Nat) (s : State) : Res :=
  let x := s.port h
  if 4 ≤ h then .next s
  else if x.state == .up || x.state == .retraining then .next (s.loseSession h)
  else if x.state != .attesting || x.session.step != .bringup || s.huv.devId = 0xFFFF || peerId = 0xFFFF then .next s
  else if peerId = s.huv.devId then .next ((s.modPort h fun y => { y with peerId := peerId }).portLog h 0x0605 0)
  else
    let (n, s1) := s.take 33
    let nonce := (List.range 32).map fun i => (Config.freeWord (n + i)).truncate 8
    let s2 := s1.setPort h { x with
      peerId := peerId, peerSlots := slots, lanes := min x.lanes lanes
      session := { x.session with step := .hello, initiator := decide (s.huv.devId < peerId), nonce := nonce, seed := n + 32 } }
    .next (s2.linkMessage h kHello (s2.ownHello h))

/-- HELLO: the peer's nonce, and from the initiator its encapsulation key; the responder answers with ENCAP and REPORT. -/
def execLinkHello (h peerId : Nat) (nonce key : List Byte) (s : State) : Res :=
  let x := s.port h
  if 4 ≤ h || x.state != .attesting || x.session.step != .hello then .next s
  else if peerId != x.peerId || nonce.length != 32 || key.length != (if x.session.initiator then 0 else 1568) then
    .next (s.abortBringup h 1)
  else
    let peer := helloBytes peerId nonce key
    if x.session.initiator then
      .next (s.modSession h fun y => { y with peerNonce := nonce, peerKey := key, transcript := s.ownHello h ++ peer, step := .encap })
    else
      let (r, s1) := s.take 1
      let ct := (Config.mlkemCipher key r).toList
      let all := peer ++ s.ownHello h ++ ct
      let s2 := s1.modSession h fun y => { y with
        peerNonce := nonce, peerKey := key, transcript := all, step := .report
        material := sessionMaterial (Config.mlkemShared key r).toList all }
      .next ((s2.linkMessage h kEncap ct).sendReport h)

/-- ENCAP: the initiator has the shared secret, and reports. -/
def execLinkEncap (h : Nat) (ciphertext : List Byte) (s : State) : Res :=
  let x := s.port h
  if 4 ≤ h || x.state != .attesting || x.session.step != .encap then .next s
  else if ciphertext.length != 1568 then .next (s.abortBringup h 2)
  else
    .next ((s.modSession h fun y =>
      let all := y.transcript ++ ciphertext
      { y with
        transcript := all, step := .report
        material := sessionMaterial (Config.mlkemDecap y.seed ciphertext).toList all }).sendReport h)

/-- The admission of a peer (R402). -/
def State.admits (s : State) (h : Nat) (v : PeerReport) : Bool :=
  v.certOk && v.signatureOk && v.nonceOk && v.fabricId == (s.port h).peerId && v.lifecycle == s.lan.life.code &&
  (s.lan.life == .owned || s.lan.life == .service) && v.owner == s.ownerRootId &&
  (s.lan.life == .service || (!v.debugOpen && !s.debugOpen))

/-- REPORT: the peer is admitted, and FINISH goes out; or the bring-up fails. -/
def execLinkReport (h : Nat) (v : PeerReport) (s : State) : Res :=
  let x := s.port h
  if 4 ≤ h || x.state != .attesting || x.session.step != .report then .next s
  else if s.admits h v then .next ((s.modSession h fun y => { y with step := .finish }).linkMessage h kFinish x.session.confirm)
  else .next (s.abortBringup h 3)

/-- FINISH: the transcript is confirmed; the session is up with a full buffer's credits (R131, R134 step 5). -/
def execLinkFinish (h : Nat) (confirmed : Bool) (s : State) : Res :=
  let x := s.port h
  if 4 ≤ h || x.state != .attesting || x.session.step != .finish then .next s
  else if !confirmed then .next (s.abortBringup h 4)
  else
    let s1 := s.setPort h { x with
      state := .up, credits := { c0 := 224, c1 := 224, cc := 64 }, owed := {}
      session := { x.session with step := .done, key := s.lan.nextKey } }
    .next ({ s1 with lan := { s1.lan with nextKey := s1.lan.nextKey + 1 } }.portNotice h)

/-- ABORT: the peer has given the bring-up up. -/
def execLinkAbort (h reason : Nat) (s : State) : Res :=
  if h < 4 && (s.port h).state == .attesting then
    .next ((s.modSession h fun x => { x with refused := true, step := .idle }).portLog h 0x0604 reason)
  else .next s

/-- BRINGUP_RETRY: 10 s after a failed bring-up the port returns to step 1. -/
def execBringupRetry (h : Nat) (s : State) : Res :=
  if h < 4 && (s.port h).session.refused then .next (s.modPort h fun x => { x with state := .training, session := {} })
  else .next s

/-! ### Rekeying (R403) -/

/-- The initiator of a port's session starts a rekey. -/
def State.startRekey (s : State) (h : Nat) : State :=
  let x := s.port h
  if h < 4 && x.state == .up && x.session.initiator && !x.session.rekeying then
    let (n, s1) := s.take 1
    (s1.modSession h fun y => { y with rekeying := true, seed := n }).linkMessage h kRekey (Config.mlkemKey n).toList
  else s

/-- REKEY_START. -/
def execRekeyStart (h : Nat) (s : State) : Res := .next (s.startRekey h)

/-- New keys from a shared secret, in force from a frame number on in each direction. -/
def State.rekeyed (s : State) (h : Nat) (secret : List Byte) (switchTx switchRx : Nat) : State :=
  let s1 := s.modSession h fun y => { y with
    rekeying := false, key := s.lan.nextKey, oldMaterial := y.material, material := sessionMaterial secret y.transcript
    frames := 0, switchTx := switchTx, switchRx := switchRx }
  { s1 with lan := { s1.lan with nextKey := s1.lan.nextKey + 1 } }

/-- REKEY: the initiator takes the ciphertext and the switch frame numbers of the responder's answer; the responder answers a new
encapsulation key with them, and which numbers ahead it takes is open. Each direction changes key there and traffic never stops. -/
def execLinkRekey (h switchTx : Nat) (m : RekeyMessage) (s : State) : Res :=
  let x := s.port h
  let msg := m.bytes
  if h < 4 && (x.state == .up || x.state == .retraining) && (x.session.rekeying || !x.session.initiator) && msg.length == 1568 then
    if x.session.initiator then .next (s.rekeyed h (Config.mlkemDecap x.session.seed msg).toList switchTx m.switchRx)
    else
      let (n, s1) := s.take 3
      let tx := x.txNext + Config.freeNat (n + 1)
      let rx := x.rxNext + Config.freeNat (n + 2)
      let s2 := s1.rekeyed h (Config.mlkemShared msg n).toList tx rx
      .next (s2.linkMessage h kRekey ((Config.mlkemCipher msg n).toList ++ leBytes 8 rx ++ leBytes 8 tx))
  else .next s

/-- REKEY_TIMEOUT: a rekey not completed within 100 ms ends the session. -/
def execRekeyTimeout (h : Nat) (s : State) : Res :=
  .next (if h < 4 && (s.port h).session.rekeying then s.loseSession h else s)

/-! ### Lanes and retrains (R133, R134) -/

/-- The lane count a port can run on with `n` usable lanes. -/
def laneCount (n : Nat) : Nat := if 8 ≤ n then 8 else if n = 7 then 7 else if n = 6 then 6 else if 4 ≤ n then 4 else 0

/-- A port leaves a lane out: it retrains at the next lower count, or goes down below four lanes. -/
def State.degrade (s : State) (h lane : Nat) : State :=
  let x := s.port h
  let mask := x.laneMask &&& (255 - 2 ^ lane)
  let n := laneCount (bitList mask 8).length
  let live := x.state == .up || x.state == .retraining
  let st := { x.stats with degrades := satAdd 0xFFFFFFFF x.stats.degrades 1 }
  if n = 0 then
    let s1 := if live then s.loseSession h else s
    ((s1.modPort h fun y => { y with state := .down, lanes := 0, laneMask := 0, usable := mask, stats := { y.stats with degrades := st.degrades } }).portLog
      h 0x0601 0).portNotice h
  else
    let keep := keepLanes mask n
    ((s.setPort h { x with
      state := if live then .retraining else .training, lanes := n, laneMask := keep, usable := keep, stats := st }).portLog h 0x0601 0).portNotice h

/-- LANE_LOCK_LOSS. -/
def execLaneLockLoss (h lane : Nat) (s : State) : Res :=
  .next (if h < 4 && lane < 8 && (s.port h).laneMask.testBit lane then s.degrade h lane else s)

/-- FEC_RATE_CHECK: corrected symbols above 1 in 100,000 of those received over 1 s. -/
def execFecRateCheck (h lane corrected received : Nat) (s : State) : Res :=
  if h < 4 && lane < 8 && (s.port h).laneMask.testBit lane then
    let s1 := s.modPort h fun x => { x with stats := { x.stats with fecCorrected := x.stats.fecCorrected + BitVec.ofNat 64 corrected } }
    .next (if received < 100000 * corrected then s1.degrade h lane else s1)
  else .next s

/-- PORT_RETRAIN: steps 1 and 2 have been repeated; the third failure in a row loses the session. -/
def execPortRetrain (h : Nat) (succeeded : Bool) (s : State) : Res :=
  let x := s.port h
  if 4 ≤ h || x.state != .retraining then .next s
  else
    let st := { x.stats with retrains := satAdd 0xFFFFFFFF x.stats.retrains 1 }
    let s1 := (s.setPort h { x with
      stats := st, state := if succeeded then .up else .retraining
      failedRetrains := if succeeded then 0 else x.failedRetrains + 1 }).portLog h 0x0602 0
    .next (if succeeded then (s1.drainWaiting h).portNotice h
      else if 3 ≤ x.failedRetrains + 1 then s1.loseSession h
      else s1)

/-! ### Pace notices (R143, R144) -/

/-- A pace notice's payload. -/
def pacePayload (src seq : Nat) (steps : List Nat) (cause radius : Nat) : List Byte :=
  leBytes 2 src ++ leBytes 2 seq ++ steps.map (BitVec.ofNat 8) ++ [BitVec.ofNat 8 cause, BitVec.ofNat 8 radius] ++ leBytes 2 100 ++ zeros 52

/-- A PACE frame goes out on every port that has a session, `but` apart. -/
def State.floodPace (s : State) (but : Nat) (payload : List Byte) : State :=
  (List.range 4).foldl (fun t h =>
    if h != but && ((t.port h).state == .up || (t.port h).state == .retraining) then
      t.sendFrame h tyPace { blankFrame with dst := 0xFFFF, src := u16 payload 0, hops := 255, payload := payload }
    else t) s

/-- A source's pace limit of a partition is set or lifted, with notice 0x07. -/
def State.setPace (s : State) (p source : Nat) (v : Option Nat) : State :=
  let s1 := s.modPart p fun q =>
    let rest := q.power.pace.filter fun e => e.1 != source
    { q with power := { q.power with pace := match v with
      | some step => rest ++ [(source, step)]
      | none => rest } }
  s1.notice noticePace p (leBytes 2 source ++ [match v with
    | some step => BitVec.ofNat 8 step
    | none => 0xFF])

/-- A source's limit of a partition is lifted, if it stands. -/
def State.liftPace (s : State) (p source : Nat) : State :=
  if (s.part p).power.pace.any fun e => e.1 == source then s.setPace p source none else s

/-- Partitions that follow a source: enabled, following on, and the source among their peers. -/
def State.followers (s : State) (source : Nat) : List Nat :=
  (List.range 16).filter fun p => (s.part p).state == .enabled && (s.part p).power.paceFollow && s.peers.contains source

/-- PACE_NOTICE_RECEIVE: a notice not yet seen is forwarded while RADIUS allows, and limits the partitions that follow. -/
def State.takePace (s : State) (h : Nat) (b : List Byte) : State :=
  let src := u16 b 0
  let seq := u16 b 2
  if s.huv.paceSeen.contains (src, seq) then s
  else
    let s1 := { s with huv := { s.huv with paceSeen := s.huv.paceSeen ++ [(src, seq)] } }
    let radius := u8 b 9
    let s2 := if radius = 0 then s1 else s1.floodPace h (patch b 9 [BitVec.ofNat 8 (radius - 1)])
    let step := max (max (u8 b 4) (u8 b 5)) (max (u8 b 6) (u8 b 7))
    (s2.followers src).foldl (fun t p => if u8 b 8 = 0 then t.liftPace p src else t.setPace p src (some step)) s2

def execPaceNoticeReceive (h : Nat) (rx : RxFrame) (s : State) : Res :=
  match s.receive h tyPace rx with
  | .spent t => .next t
  | .accepted t => .next ((t.takePace h (fit 0 64 rx.payload)).owe h tyPace 0)

/-- PACE_HOLD_EXPIRY: HOLD_MS has passed with no further notice of the source. -/
def execPaceHoldExpiry (source : Nat) (s : State) : Res :=
  .next ((List.range 16).foldl (fun t p => t.liftPace p source) s)

end Sys2Proof.Machine
end

