-- ==== Sys2Proof/Machine/JobEvents.lean ====
section
/-! DEFINITION. The course of lanes and jobs: waits, fetches, job start and end, pre-emption, swap
(R66, R73, R78 to R82, R99, R210 to R219, R225 to R232). -/

namespace Sys2Proof.Machine

/-! ### Lane events -/

/-- WAIT_SATISFIED: the counter has reached AMOUNT; it is consumed if asked, and the lane word may issue (R73). Under a pending
pre-emption a yield point, an END among them, stops and consumes nothing (R80). A poisoned counter ends the job (R414). -/
def execWaitSatisfied (i : Issue) (s : State) : Res :=
  let l := s.lane i.part i.lane
  if !s.laneOn i.part i.lane || !l.iss.fetched || l.iss.done != 0 || s.mustStop i (s.atYield i.part i.lane) || !s.waits i then
    .next s
  else if s.waitBad i then .next (s.endResident i.part stPoisonConsumed)
  else if s.waitMet i then .next (s.passWait i)
  else .next s

/-- The lane's code arrives (R66, R414): the queue is filled; a poisoned line among what is fetched ends the job. The open
gather entries of the lines fetched issue first (R99). -/
def State.fetchReturn (s : State) (p l : Nat) : State :=
  let x := (s.lane p l).iss
  let (lo, hi) := s.fillTo p l
  let from_ := if x.qLo ≤ lo && lo ≤ x.qHi then max lo x.qHi else lo
  let s1 := s.flushRun p from_ (hi - from_)
  if !s1.laneOn p l then s1
  else if s1.anyPoison p from_ (hi - from_) then s1.endResident p stPoisonConsumed
  else (s1.modLane p l fun y => { y with iss := { y.iss with qLo := lo, qHi := hi } }).refetch p l

/-- LANE_FETCH_RETURN: the lane word and what follows it fill the 2 KiB fetch queue; a lane held by fetch goes on. -/
def execLaneFetchReturn (p l : Nat) (s : State) : Res :=
  .next (if s.laneOn p l then s.fetchReturn p l else s)

/-- YIELD_STOP: a lane with a pending pre-emption stops at its yield point; nothing is consumed (R80). -/
def execYieldStop (p l : Nat) (s : State) : Res :=
  let x := s.lane p l
  if s.laneOn p l && (s.onEngines p).state == .stopping && x.iss.iter == 0 && x.iss.done == 0 && !x.iss.granted && s.atYield p l then
    .next (s.modLane p l fun y => { y with run := .stopped })
  else .next s

/-- GATHER_ENTRY_ISSUE: an open entry issues as one read-modify-write of its line (R99). -/
def execGatherEntryIssue (group line : Nat) (s : State) : Res :=
  if (s.gathered group).any (·.line == line) && line / 8192 / 8 == group then .next (s.flush line) else .next s

/-! ### Job start (R78, R211, R216) -/

/-- Counters of a context set to zero, and no longer poisoned (R78). -/
def State.clearCounters (s : State) (p : Nat) (x : Ctx) (im : Image) : State :=
  let s1 := (List.range (s.part p).cfg.engines.length).foldl (fun t l =>
    (List.range im.needs.engineTokens).foldl (fun u k => u.setCounter p l (x.engBase + k) 0) t) s
  let s2 := (List.range im.needs.sharedTokens).foldl (fun u k => u.setCounter p 255 (x.shBase + k) 0) s1
  let keys := (List.range (s.part p).cfg.engines.length).flatMap (fun l =>
      (List.range im.needs.engineTokens).map fun k => s.tokKey p l (x.engBase + k)) ++
    (List.range im.needs.sharedTokens).map fun k => s.tokKey p 255 (x.shBase + k)
  { s2 with tokBad := keys.foldl (fun m k => Map.set false m k false) s2.tokBad }

/-- Whether a length-table entry with work names a sequence that is open, idle and CTX_LEN long (R211). -/
def Kv.ltOk (k : Kv) (e : LtEntry) : Bool :=
  let q := k.seq e.seq
  e.new == 0 || (q.isOpen && q.busy.isNone && q.length == e.ctxLen)

/-- The table keys a job still needs pages for. -/
def Kv.need (k : Kv) (lt : List LtEntry) : List (Nat × List Nat) :=
  (lt.filter (0 < ·.new)).map fun e => (e.seq, k.missing e.seq (e.ctxLen + e.new))

/-- Pages are short: a page event is raised, unless one is under way; the second component says whether a victim is to free
pages, so that what needs them waits (R217). -/
def State.shortOfPages (s : State) (p need : Nat) (named : List Nat) : State × Bool :=
  let q := s.part p
  let prio := named.foldl (fun m n => max m (q.kv.seq n).prio) 0
  if q.kv.victim.isSome then (s, true)
  else
    let v := q.victim named prio
    (s.pageEvent p need v, v.isSome)

/-- The job-start work of a STARTING context (R216): pages for every sequence it names, its swapped pages back in; then its
arguments and table are copied and it is READY. -/
def State.startJob (s : State) (p c : Nat) : State :=
  let x := s.ctx p c
  match x.job, x.image with
  | some j, some _ =>
    if x.state != .starting then s
    else
      let k := (s.part p).kv
      let named := ltNamed j.lt
      let need := k.need j.lt
      let n := sumNat (need.map fun e => e.2.length)
      if 16777216 < s.tableEntries + n then s.endJob p c stKvExhausted
      else
        let got := need.foldl (fun (t : Option State) e => t.bind fun u => u.allocKeys p e.1 e.2) (some s)
        match got with
        | none =>
          let (t, waits) := s.shortOfPages p n named
          if waits || named.any k.hasSwapped then t else t.endJob p c stKvExhausted
        | some t =>
          if named.any (t.part p).kv.hasSwapped then t
          else
            let t1 := t.modPart p fun q => { q with kv := named.foldl (fun k n => k.setSeq n { k.seq n with swapped := false }) q.kv }
            let t2 := if j.hasLt then t1.writeBytes p j.ltDst j.ltBytes else t1
            let t3 := if j.args.isEmpty then t2 else t2.writeBytes p j.argsDst j.args
            (t3.modCtx p c fun y => { y with state := .ready }).schedule p
  | _, _ => s

/-- JOB_START: a context takes the job at the head of its queue; it ends with ST_NO_TILE where an engine has no tile and its die's
spare is used. -/
def execJobStart (p c : Nat) (s : State) : Res :=
  let x := s.ctx p c
  match x.state == .loaded && (s.part p).state == .enabled, x.image, x.waiting with
  | true, some im, j :: rest =>
    let j1 := { j with start := s.now, bound := (s.part p).models.bind im.models }
    let s1 := s.setCtx p c { x with state := .starting, job := some j1, waiting := rest, startedAt := s.now, preemptAt := none }
    if s.tileLost p then .next (s1.endJob p c stNoTile)
    else if !(j.lt.all (s.part p).kv.ltOk) then .next (s1.endJob p c stKvSeqState)
    else
      let s2 := s1.clearCounters p x im
      let s3 := s2.modPart p fun q => { q with low := .a0, kv := (ltNamed j.lt).foldl (fun k n => k.setSeq n { k.seq n with busy := some c }) q.kv }
      .next (s3.startJob p c)
  | _, _, _ => .next s

/-- Every STARTING context of a partition tries again. -/
def State.retryStarts (s : State) (p : Nat) : State :=
  (List.range 8).foldl (fun t c => t.startJob p c) s

/-- SWAP_OUT_COMPLETE: the victim's pages have gone to KV swap units; they are freed, and waiting jobs try again (R217). A
victim busy in a context on the engines has been pre-empted first. -/
def execSwapOutComplete (p slot : Nat) (s : State) : Res :=
  let q := s.part p
  let busyOn := match (q.kv.seq slot).busy with
    | some c => (s.ctx p c).resident
    | none => false
  if q.kv.victim != some slot || busyOn || s.host.swapPaused then .next s
  else match s.swapOut p slot with
    | none => .next s
    | some t => .next ((t.modPart p fun x => { x with kv := { x.kv with victim := none } }).retryStarts p)

/-- The log and the count of a swap unit that came back bad (R219, R412). -/
def State.swapFault (s : State) (p unit : Nat) (carried : Bool) : State :=
  let s1 := if carried then s
    else s.modPart p fun q => { q with kv := { q.kv with stats := { q.kv.stats with tagFailures := satAdd 0xFFFFFFFF q.kv.stats.tagFailures 1 } } }
  s1.log 0xFFFF 0x0C07 p (leBytes 4 unit ++ [BitVec.ofNat 8 carried.toNat])

/-- A sequence counts as swapped while a page of it is. -/
def Kv.settle (k : Kv) (q : Nat) : Kv :=
  let sq := k.seq q
  k.setSeq q { sq with swapped := sq.swapped && k.hasSwapped q, backWanted := sq.backWanted && k.hasSwapped q }

/-- A KV unit's page comes back into a newly drawn page (R216, R219); it is read-only if it is full of the sequence's tokens
(R204), and token slots past the length of a sequence whose job has not begun are zero (R200). -/
def State.kvUnitIn (s : State) (p unit : Nat) (r : SwapUnit) (data : List Byte) (bad : Bool) : State :=
  let busy := ((s.part p).kv.seq r.seq).busy
  match s.allocPage p with
  | none =>
    let named := match busy with
      | some c => ((s.ctx p c).job.map fun j => ltNamed j.lt).getD []
      | none => [r.seq]
    (s.shortOfPages p 1 named).1
  | some (g, t) =>
    let n := ((s.part p).kv.seq r.seq).length
    let at_ := r.key % 65536
    let begun : Bool := match busy with
      | some c => (s.ctx p c).state != .starting
      | none => false
    let b := if begun then data else keepTokens (s.part p).kv.pool.format (n - 16 * at_) (fit 0 8192 data)
    let t1 := (List.range 128).foldl (fun u i =>
      u.ddrWrite (pageAddr p g / 64 + i) (slice b (64 * i) 64) bad) t
    let t2 := t1.modPart p fun q =>
      let sq := q.kv.seq r.seq
      let sq' := { sq with table := Map.set .none sq.table r.key (.resident g) }
      let pg := { Map.get {} q.kv.pages g with readOnly := decide (16 * (at_ + 1) ≤ n) }
      let kv := ({ q.kv with pages := Map.set {} q.kv.pages g pg }.setSeq r.seq sq').settle r.seq
      let st := { q.kv.stats with swapIn := q.kv.stats.swapIn + 1 }
      let u' := { r with used := false, seq := 0, key := 0 }
      { q with
        kv := { kv with stats := st }
        host := { q.host with units := Map.set {} q.host.units unit u' } }
    ((t2.recWrite (.pageEntry p r.seq r.key)).retryStarts p).schedule p

/-- SWAP_IN_COMPLETE: a unit is read back and checked against its record; the complement is tried first (R219, R412). -/
def execSwapInComplete (p unit : Nat) (tag : TagCheck) (data : List Byte) (s : State) : Res :=
  let r := Map.get {} (s.part p).host.units unit
  let post := s.fab.posts.find? fun x => x.part == p && x.inWork 3 && (dSrc x.cur + x.moved) / 8192 == unit
  let sq := (s.part p).kv.seq r.seq
  let wanted := post.isSome || (r.used && (sq.backWanted || match sq.busy with
    | some c => (s.ctx p c).state == .starting || (s.ctx p c).runnable
    | none => false))
  if s.host.swapPaused || !wanted then .next s
  else
    let carried := r.written && r.carried && tag == .complement
    let fail := !r.written || (if r.carried then tag != .complement else tag != .match)
    let s1 := if carried || fail then s.swapFault p unit carried else s
    .next (match post with
      | some x => s1.hostUnitIn x data (carried || fail)
      | none => s1.kvUnitIn p unit r data (carried || fail))

/-! ### Job end -/

/-- Whether nothing that the lanes of partition `p` issued is still on its way: reads, writes, posts, narrow accesses, stem
commands, results. -/
def State.quiet (s : State) (p : Nat) : Bool :=
  !(s.fab.reads.any (·.part == p)) && !(s.fab.posts.any (·.part == p)) && !(s.fab.writes.any fun w => w.src.ofPart p) &&
  !(s.sp.gather.any fun e => e.2.any fun g => g.accs.any (·.part == p)) && !(s.stem.any (·.part == p)) &&
  (s.onEngines p).laneIds.all fun l => (s.lane p l).iss.vPend.isEmpty

/-- JOB_COMPLETE: every lane has issued END and everything they issued is visible (R79). -/
def execJobComplete (p c : Nat) (s : State) : Res :=
  let x := s.ctx p c
  if x.resident && (x.laneIds.all fun l => (s.lane p l).run == .ended) && s.quiet p then .next (s.endJob p c stOk) else .next s

/-! ### Pre-emption (R227 to R231) -/

/-- Pre-emption of the RUNNING context is requested; one under way absorbs the request. -/
def State.preempt (s : State) (p : Nat) : State :=
  match (s.part p).running with
  | some c =>
    if (s.ctx p c).state == .running then s.modCtx p c fun x => { x with state := .stopping, preemptAt := some s.now } else s
  | none => s

/-- Contexts of a partition that could run, `c` apart. -/
def Part.rivals (q : Part) (c : Nat) : List Ctx := (q.ctxs.filter fun e => e.1 != c && q.canRun e.1).map Prod.snd

/-- PREEMPT_REQUEST: the CP requests pre-emption of the RUNNING context of a partition that is not reserved: a context of
higher priority is ready, or one of its sequences is the victim of a page event, or the driver has asked (R227). -/
def execPreemptRequest (p : Nat) (s : State) : Res :=
  let q := s.part p
  match q.running with
  | none => .next s
  | some c =>
    let higher := (q.rivals c).any fun x => decide ((s.ctx p c).prio < x.prio)
    let victim := match q.kv.victim with
      | some v => (q.kv.seq v).busy == some c
      | none => false
    let asked := s.host.queues.any fun e => e.2.cmds.any fun x => x.await == some (p, c)
    if !q.cfg.reserved && (higher || victim || asked) then .next (s.preempt p) else .next s

/-- QUANTUM_EXPIRY: pre-emption if a context of equal priority could run, else the quantum restarts. -/
def execQuantumExpiry (p : Nat) (s : State) : Res :=
  let q := s.part p
  match q.running with
  | none => .next s
  | some c =>
    if q.cfg.reserved || (s.ctx p c).state != .running then .next s
    else if (q.rivals c).any fun x => x.prio == (s.ctx p c).prio then .next (s.preempt p)
    else .next (s.modCtx p c fun x => { x with releasedAt := s.now })

/-- WAIT_SWITCH_EXPIRY: every lane stands at an external wait of a yield point, or has ended. -/
def execWaitSwitchExpiry (p : Nat) (s : State) : Res :=
  let q := s.part p
  match q.running with
  | none => .next s
  | some c =>
    let standing := (s.ctx p c).laneIds.all fun l => (s.lane p l).run == .ended || (s.lane p l).iss.waitSince.isSome
    if !q.cfg.reserved && q.cfg.waitSwitchUs != 0 && !(q.rivals c).isEmpty && standing then .next (s.preempt p) else .next s

/-- The live ranges of the yield points at which a context's lanes stopped, whose regions another loaded image names
(R231). -/
def State.liveRanges (s : State) (p c : Nat) (im : Image) : List LiveRange :=
  let stops := im.yields.filter fun y => im.laneIds.contains y.lane && (s.lane p y.lane).run == .stopped && (s.lane p y.lane).arch.pc == y.word
  let ls := stops.flatMap fun y => (im.live.drop y.first).take y.count
  ls.filter fun r => ((s.part p).others c).any fun o => o.names r.region

/-- The lines of a live range with their poison. -/
def State.spillRange (s : State) (p : Nat) (r : LiveRange) : List (Nat × Nat × List Byte × Bool) :=
  (List.range (r.len / 64)).map fun k =>
    let off := r.off + 64 * k
    let ln := (s.part p).line (2 ^ 28 * r.region + off)
    (r.region, off, s.readLine ln, s.linePoison ln)

/-- CONTEXT_SAVE: every lane has stopped or ended and everything issued has completed; the context is SAVED and the next one
runs (R230). -/
def execContextSave (p : Nat) (s : State) : Res :=
  match (s.part p).running with
  | none => .next s
  | some c =>
    let x := s.ctx p c
    match x.image with
    | none => .next s
    | some im =>
      let runs := im.laneIds.map fun l => (s.lane p l).run
      let ok := x.state == .stopping && (runs.all fun r => r == .stopped || r == .ended) && runs.contains .stopped && s.quiet p
      if !ok then .next s
      else
        let saved := im.laneIds.foldl (fun m l => Map.set {} m l (s.lane p l)) []
        let spill := (s.liveRanges p c im).flatMap (s.spillRange p)
        let y := { x with
          state := .saved, saved := saved, spill := spill, preemptAt := none
          job := x.job.map fun j => { j with preempts := j.preempts + 1 } }
        .next (((((s.clearEngines p).setCtx p c y).recWrite (.contextSave p c)).finishAwait p c stOk).schedule p)

/-- PREEMPT_TIMEOUT: a pre-emption not done in time ends the job, nothing saved (R82, R230). -/
def execPreemptTimeout (p : Nat) (s : State) : Res :=
  match (s.part p).running with
  | some c => if (s.ctx p c).state == .stopping then .next (s.endJob p c stYieldTimeout) else .next s
  | none => .next s

/-- JOB_TIMEOUT: the job ends wherever it stands; JOB_TIMEOUT_MS = 0 sets no timeout (R229). -/
def execJobTimeout (p c : Nat) (s : State) : Res :=
  if (s.part p).cfg.jobTimeoutMs = 0 then .next s else .next (s.endJob p c stJobTimeout)

end Sys2Proof.Machine
end

