-- ==== Sys2Proof/Machine/Matrix.lean ====
section
/-! DEFINITION. Matrix operations: pass sums, scales and accumulation (R41 to R52), and the Winograd stage
(R54 to R57, R187, R188). -/

namespace Sys2Proof.Machine

/-- A pair's operands of a MATMUL or WINO_OUT slot (R74). -/
structure MOp where
  shape : Nat
  rows : Nat
  accBase : Nat
  start : Bool
  fp : Bool
  afmt : Nat
  wfmt : Nat
  pair : Bool
  wino : Nat
  line : Bool
  abase : Nat
  astride : Nat
  wbase : Nat
  wstride : Nat
  posBase : Nat
  deriving DecidableEq, Repr

/-- The M slot's fields. -/
def mDecode (w : BitVec 96) : MOp :=
  let n := w.toNat
  { shape := bits n 91 89, rows := bits n 88 81 + 1, accBase := bits n 80 70, start := n.testBit 69, fp := n.testBit 68,
    afmt := bits n 67 64, wfmt := bits n 63 60, pair := n.testBit 59, wino := bits n 58 57, line := n.testBit 56,
    abase := bits n 55 45, astride := bits n 44 37, wbase := bits n 36 27, wstride := bits n 26 19, posBase := bits n 18 13 }

/-- 4-bit weights: 32 elements of K per pass (R38). -/
def MOp.w4 (o : MOp) : Bool := o.wfmt == 1 || o.wfmt == 4
/-- 16-bit data: tiles and rows of two units (R42). -/
def is16 (code : Nat) : Bool := code == 5 || code == 6
/-- Bytes of an activation row: 32 for 16-bit data and for the rows of wide array tiles. -/
def MOp.rowBytes (o : MOp) : Nat := if is16 o.afmt || (o.w4 && o.afmt != 4) then 32 else 16
/-- K-groups and N-groups of a shape. -/
def MOp.kg (o : MOp) : Nat := 2 ^ o.shape
def MOp.ng (o : MOp) : Nat := 16 / o.kg

/-- The element format of a code (R39, R40). -/
def fmtOf (code : Nat) : Fmt :=
  if code = 3 then .e5m2 else if code = 4 then .e2m1 else if code = 5 then .bf16 else if code = 6 then .fp16 else .e4m3

/-- An element's value; an INT4 activation is held as INT8 (R41). -/
def elemVal (code width raw : Nat) : FVal :=
  if code = 0 || code = 7 then FVal.ofInt (sext 8 raw)
  else if code = 1 then FVal.ofInt (sext width raw)
  else (fmtOf code).decode raw

/-- The elements of a row of bytes: nibbles low first for packed 4-bit data, bytes, or pairs of bytes. -/
def rowElems (code : Nat) (packed : Bool) (b : List Byte) : List FVal :=
  if is16 code then (List.range 16).map fun k => elemVal code 16 (u16 b (2 * k))
  else if packed then b.flatMap fun x => [elemVal code 4 (x.toNat % 16), elemVal code 4 (x.toNat / 16)]
  else b.map fun x => elemVal code 8 x.toNat

/-- A row of an array tile at slot `k` in units of `n` bytes (R42, R43): its bytes, scale and poison. -/
def Tile.tileRow (t : Tile) (k r n : Nat) : List Byte × Nat × Bool :=
  if n = 16 then
    let s := k + r / 16
    (slice (t.readSlot s) (16 * (r % 16)) 16, u8 (t.readSlot s) (256 + r % 16), t.slotBad s)
  else
    let s := k + 2 * (r / 16) + r % 16 / 8
    (slice (t.readSlot s) (32 * (r % 8)) 32, u8 (t.readSlot s) (256 + r % 8), t.slotBad s)

/-- Row `r` of a K-group's activations; a line-buffer row has no scale record and stands for ×1 (log entry 23). -/
def Tile.actRow (t : Tile) (o : MOp) (base r : Nat) : List Byte × Nat × Bool :=
  let n := o.rowBytes
  if o.line then
    let u := base + n * r / 64
    (slice (t.readUnit u) (n * r % 64) n, 0x7F, t.unitBad u)
  else t.tileRow base r n

/-- Row `n` of array `a`'s weight tile. -/
def Tile.wRow (t : Tile) (o : MOp) (a n : Nat) : List Byte × Nat × Bool :=
  t.tileRow (o.wbase + a * o.wstride) n (if is16 o.wfmt then 32 else 16)

/-- The bits that alignment keeps of a product in a BF16 or FP16 pass whose quantum is `2^q` (R48). DESIGN CHOICE (log entry
162): the bits beyond are truncated from the magnitude, toward zero. -/
def alignTo (q : Int) : FVal → FVal
  | .fin n m e => if e < q then .fin n (m >>> (q - e).toNat) q else .fin n m e
  | v => v

/-- A pass sum (R48, R50): products formed exactly and added exactly, after alignment for 16-bit data; the invalid
operation is reported. A zero sum is +0. -/
def passSum (wide : Bool) (a w : List FVal) : FRes :=
  let ps := List.zipWith FVal.mul a w
  let bad := ps.any (·.invalid)
  let vs := ps.map (·.val)
  let vs := if wide then
      match (vs.filter fun v => v.isFin && !v.isZero).map FVal.log2 with
      | [] => vs
      | l :: ls => vs.map (alignTo (ls.foldl max l - (max 32 Config.alignBits : Nat)))
    else vs
  let r := vs.foldl (fun (x : FRes) v => let y := FVal.add x.val v; ⟨y.val, x.invalid || y.invalid⟩) ⟨.fin false 0 0, false⟩
  ⟨if r.val.isZero then .fin false 0 0 else r.val, bad || r.invalid⟩

/-- The exact sum of integer products. -/
def intSum (a w : List FVal) : Int := (List.zipWith (fun x y => x.scaled 0 * y.scaled 0) a w).foldl (· + ·) 0

/-- The scaled FP32 result of a pass and its flags (R49 steps 1 and 2, R50). -/
def passFp (o : MOp) (a w : List FVal) (sa sw : Nat) (shift : Int) : FVal × Nat :=
  if sa = 0xFF || sw = 0xFF then (.nan, 16)
  else
    let r := passSum (is16 o.afmt) a w
    let (v, f1) := round32 r.val
    let k : Int := (sa + sw : Nat) - 254 - (if o.afmt = 7 then 6 else 0) - (if o.wfmt = 7 then 6 else 0) + shift
    let (u, f2) := round32 (v.scale k)
    (u, f1 ||| f2 ||| (if r.invalid then 2 else 0))

/-- A word added into the accumulator in INT32: wraps modulo 2^32, INT_WRAP on each wrap (R51). -/
def addInt (start : Bool) (old : Word) (v : Int) : Word × Nat :=
  let x : Int := (if start then 0 else old.toInt) + v
  (BitVec.ofInt 32 x, if decide (x < -2147483648) || decide (2147483647 < x) then 1 else 0)

/-- A value added into the accumulator in FP32, and the word's bits (R49 step 3). -/
def accFp (start : Bool) (seed : Nat) (old : Word) (v : FVal) (f : Nat) : Word × Nat :=
  let (x, g) := if start then (v, 0) else add32 (fp32 old) v
  (BitVec.ofNat 32 (toFp32 seed x).bits, f ||| g)

/-- An accumulator row that a matrix operation reads, with its poison: R46 has the operation wait until no write to it is in
flight. -/
def Tile.accNow (t : Tile) (row : Nat) : List Word × Bool := (t.readAcc row, t.accBad row)

/-- What a matrix operation comes to: rows to write, flags of the ASW, and whether it read poison. -/
structure MRes where
  rows : List AccRow := []
  flags : Nat := 0
  poison : Bool := false
  deriving DecidableEq, Repr

/-- The OR of the flags. -/
def orAll (l : List Nat) : Nat := l.foldl (· ||| ·) 0

/-- Assembles rows: `cell row n` gives the word and flags of column `n`. -/
def buildRows (fp : Bool) (rows : List Nat) (cell : Nat → Nat → Word × Nat) (poison : Bool) : MRes :=
  let rs := rows.map fun r => (r, (List.range 16).map fun n => cell r n)
  { rows := rs.map fun r => ⟨r.1, r.2.map Prod.fst, !fp, poison⟩
    flags := orAll (rs.flatMap fun r => r.2.map Prod.snd) ||| (if poison then 32 else 0)
    poison := poison }

/-- A direct matrix operation (R44, R48 to R52). With PAIR, the even K-group's records scale both of its pair. -/
def Tile.direct (t : Tile) (o : MOp) (seed : Nat) : MRes :=
  let kg := o.kg
  let act := fun g r => t.actRow o (o.abase + g * o.astride) r
  let wt := fun g j n => t.wRow o (g * o.ng + j) n
  let even := fun g => if o.pair then g - g % 2 else g
  let rowsOf := fun j => run (o.accBase + j * o.rows) o.rows
  let poison :=
    (List.range kg).any (fun g => (List.range o.rows).any (fun r => (act g r).2.2) ||
      (List.range o.ng).any fun j => (List.range 16).any fun n => (wt g j n).2.2) ||
    (!o.start && (List.range o.ng).any fun j => (rowsOf j).any fun r => (t.accNow r).2)
  let cell := fun j r n =>
    let a := fun g => rowElems o.afmt (o.afmt == 4) (act g r).1
    let w := fun g => rowElems o.wfmt o.w4 (wt g j n).1
    let old := nth 0 (t.accNow (o.accBase + j * o.rows + r)).1 n
    if o.fp then
      let ps := (List.range kg).map fun g => passFp o (a g) (w g) (act (even g) r).2.1 (wt (even g) j n).2.1 0
      let (v, f) := sum32 0 (ps.map Prod.fst)
      accFp o.start (seed + (j * o.rows + r) * 16 + n) old v (f ||| orAll (ps.map Prod.snd))
    else addInt o.start old (((List.range kg).map fun g => intSum (a g) (w g)).foldl (· + ·) 0)
  buildRows o.fp (run o.accBase (o.ng * o.rows)) (fun row n =>
    let x := row - o.accBase
    cell (x / o.rows) (x % o.rows) n) poison

/-! ### The Winograd stage -/

/-- The standard matrices of F(2×2,3×3) and F(4×4,3×3) (R55, R56): Bᵀ and Aᵀ. -/
def wB (wino : Nat) : List (List Int) :=
  if wino = 1 then [[1, 0, -1, 0], [0, 1, 1, 0], [0, -1, 1, 0], [0, 1, 0, -1]]
  else [[4, 0, -5, 0, 1, 0], [0, -4, -4, 1, 1, 0], [0, 4, -4, -1, 1, 0], [0, -2, -1, 2, 1, 0], [0, 2, -1, -2, 1, 0],
        [0, 4, 0, -5, 0, 1]]
def wA (wino : Nat) : List (List Int) :=
  if wino = 1 then [[1, 1, 1, 0], [0, 1, -1, -1]]
  else [[1, 1, 1, 1, 1, 0], [0, 1, -1, 2, -2, 0], [0, 1, 1, 4, 4, 0], [0, 1, -1, 8, -8, 1]]

/-- Entry of a matrix. -/
def mat (m : List (List Int)) (i j : Nat) : Int := nth 0 (nth [] m i) j

/-- Pixel `x` of input line `i` (R187): its bytes and poison. -/
def Tile.pixel (t : Tile) (o : MOp) (i x : Nat) : List Byte × Bool :=
  let n := o.rowBytes
  let b := o.abase + i * o.astride
  if o.line then (slice (t.readUnit (b + n * x / 64)) (n * x % 64) n, t.unitBad (b + n * x / 64))
  else (slice (t.readSlot (b + n * x / 256)) (n * x % 256) n, t.slotBad (b + n * x / 256))

/-- An integer divided by `2^s`, rounded to nearest even. -/
def shiftRne (v : Int) (s : Nat) : Int := (if v < 0 then -1 else 1) * (roundTo .nearestEven v.natAbs 0 s : Nat)

/-- A transformed row of one position: its element values, its scale exponent, the flags it raises, and whether it is
a NaN row (R53 step 5, R55). -/
structure WRow where
  vals : List FVal
  scale : Int := 0
  flags : Nat := 0
  nan : Bool := false

/-- The transform of a row of integers: the smallest shift that brings it into the INT8 range, nearest even, saturated
at 127 (R55). DESIGN CHOICE (log entry 163): the shift is chosen on the exact values, before rounding; a value that rounds
past 127 and saturates sets no SAT; and the 32 channels of an INT8 × INT4 row take one shift, as they make one pass sum. -/
def wRowInt (v : List Int) : WRow :=
  let fits := fun (s : Nat) => v.all fun x => decide (-128 * 2 ^ s ≤ x) && decide (x ≤ 127 * 2 ^ s)
  let s := if fits 0 then 0 else if fits 1 then 1 else 2
  ⟨v.map fun x => FVal.ofInt (min 127 (max (-128) (shiftRne x s))), s, if 0 < s then 64 else 0, false⟩

/-- ⌊log2⌋ of the largest magnitude of a row, none when it is zero. -/
def rowLog (v : List FVal) : Option Int :=
  (v.filter fun x => !x.isZero).foldl (fun b x => match b with
    | none => some x.log2
    | some l => some (max l x.log2)) none

/-- The transform of a row of FP8 values: scaled up by R53 where its largest value does not fit, then rounded. -/
def wRowFp8 (code seed : Nat) (v : List FVal) : WRow :=
  let f := fmtOf code
  let emax : Int := if code = 3 then 15 else 8
  if v.any fun x => !x.isFin then ⟨v.map fun _ => .fin false 0 0, 0, 16, true⟩
  else
    let e := match rowLog v with
      | none => 0
      | some l => max 0 (l - emax)
    let es := v.map fun x => f.encodeSat .nearestEven seed (x.scale (-e))
    ⟨es.map fun x => f.decode x.bits, e, if es.any (·.sat) then 8 else 0, false⟩

/-- One FP32 element of Bᵀ d B (R55): the terms, each rounded to FP32, added in FP32 in an order that the spec leaves open
(log entry 24), with the flags raised. -/
def wSum (coefs : List Int) (d : List FVal) : FVal × Nat :=
  let ps := (List.zipWith (fun c v => (c, v)) coefs d).filter fun e => e.1 != 0
  let ts := ps.map fun e =>
    let r := FVal.mul (FVal.ofInt e.1) e.2
    let v := round32 r.val
    (v.1, v.2 ||| (if r.invalid then 2 else 0))
  let (v, f) := sum32 4 (ts.map Prod.fst)
  (if v.isZero then .fin false 0 0 else v, f ||| orAll (ts.map Prod.snd))

/-- The transformed row of position `q` of tile `x` (R55): integers exactly; FP8 and BF16 in FP32, then rounded to the
activation format. -/
def Tile.wTransform (t : Tile) (o : MOp) (seed x q : Nat) : WRow :=
  let m := if o.wino = 1 then 2 else 4
  let d := m + 2
  let b := wB o.wino
  let px := fun i j => rowElems o.afmt false (t.pixel o i (m * x + j)).1
  let n := if is16 o.afmt then 16 else o.rowBytes
  let coef := fun i j => mat b (q / d) i * mat b (q % d) j
  let cells := (List.range d).flatMap fun i => (List.range d).map fun j => (i, j)
  let coefs := cells.map fun c => coef c.1 c.2
  let rows := cells.map fun c => px c.1 c.2
  let column := fun k => rows.map fun r => nth (.fin false 0 0) r k
  if o.afmt = 0 || o.afmt = 1 then
    let v := (List.range n).map fun k => (List.zipWith (fun c v => c * v.scaled 0) coefs (column k)).foldl (· + ·) 0
    if o.afmt = 1 then ⟨v.map FVal.ofInt, 0, 0, false⟩ else wRowInt v
  else
    let v := (List.range n).map fun k => wSum coefs (column k)
    let r := if is16 o.afmt then
        ⟨v.map fun y => (fmtOf o.afmt).decode ((fmtOf o.afmt).encode .nearestEven (seed + n) y.1).bits, 0, 0, false⟩
      else wRowFp8 o.afmt (seed + n) (v.map Prod.fst)
    { r with flags := r.flags ||| orAll (v.map Prod.snd) }

/-- Free values a Winograd operation may take for each position. -/
def wFree : Nat := 64

/-- The pass result of a position's array for output channel `n`: an integer, or an FP32 value, with flags. DESIGN CHOICE
(log entry 163): the transformed activations carry the scale of the transform alone; scale records of the operand slots the
pixels come from are not read, and stand for ×1 as those of a line-buffer row do (log entry 23). -/
def Tile.wPass (t : Tile) (o : MOp) (r : WRow) (a n : Nat) : Int × FVal × Nat :=
  let (wb, sw, _) := t.wRow o a n
  let w := rowElems o.wfmt o.w4 wb
  if o.fp then
    let (v, f) := passFp o r.vals w (if r.nan then 0xFF else 0x7F) sw r.scale
    (0, v, f ||| r.flags)
  else (intSum r.vals w * 2 ^ r.scale.toNat, .fin false 0 0, r.flags)

/-- Poison read by a Winograd MATMUL: input lines and weight tiles. -/
def Tile.wPoison (t : Tile) (o : MOp) (arrays : Nat) : Bool :=
  let m := if o.wino = 1 then 2 else 4
  (List.range (m + 2)).any (fun i => (List.range (m * o.rows + 2)).any fun x => (t.pixel o i x).2) ||
  (List.range arrays).any fun a => (List.range 16).any fun n => (t.wRow o a n).2.2

/-- F(2×2,3×3) (R56, R188): the output transform of the 16 positions' sums, added at output (dy, dx) of tile `x`. -/
def Tile.wino2 (t : Tile) (o : MOp) (seed : Nat) : MRes :=
  let poison := t.wPoison o 16 || (!o.start && (run o.accBase (4 * o.rows)).any fun r => (t.accNow r).2)
  let tr := (List.range o.rows).map fun x => (List.range 16).map fun q => t.wTransform o (seed + wFree * (16 * x + q)) x q
  buildRows o.fp (run o.accBase (4 * o.rows)) (fun row n =>
    let k := row - o.accBase
    let dy := k / (2 * o.rows)
    let x := k % (2 * o.rows) / 2
    let dx := k % 2
    let terms := (List.range 16).filterMap fun q =>
      let c := mat (wA 1) dy (q / 4) * mat (wA 1) dx (q % 4)
      if c = 0 then none else some (c, t.wPass o (nth ⟨[], 0, 0, false⟩ (nth [] tr x) q) q n)
    let f := orAll (terms.map (·.2.2.2))
    let old := nth 0 (t.accNow row).1 n
    if o.fp then
      let (v, g) := sum32 1 (terms.map fun e => if e.1 < 0 then e.2.2.1.negate else e.2.2.1)
      accFp o.start (seed + wFree * 16 * o.rows + 16 * k + n) old v (f ||| g)
    else
      let (w, g) := addInt o.start old ((terms.map fun e => e.1 * e.2.1).foldl (· + ·) 0)
      (w, f ||| g)) poison

/-- F(4×4,3×3) MATMUL: array `a` takes position POSBASE + a, idle past 35 (R74, R188). -/
def Tile.wino4 (t : Tile) (o : MOp) (seed : Nat) : MRes :=
  let arrays := min 16 (36 - o.posBase)
  let rows := (List.range o.rows).flatMap fun x => run (o.accBase + 36 * x + o.posBase) arrays
  let poison := t.wPoison o arrays || (!o.start && rows.any fun r => (t.accNow r).2)
  buildRows o.fp rows (fun row n =>
    let k := row - o.accBase
    let x := k / 36
    let q := k % 36
    let r := t.wTransform o (seed + wFree * k) x q
    let (iv, v, f) := t.wPass o r (q - o.posBase) n
    let old := nth 0 (t.accNow row).1 n
    if o.fp then accFp o.start (seed + wFree * 36 * o.rows + 16 * k + n) old v f
    else let (w, g) := addInt o.start old iv; (w, f ||| g)) poison

/-- WINO_OUT: Aᵀ m A of the 36 position rows of each tile (R56, R188). -/
def Tile.winoOut (t : Tile) (o : MOp) (seed : Nat) : MRes :=
  let poison := (run o.accBase (36 * o.rows)).any fun r => (t.accNow r).2
  buildRows o.fp (run o.abase (16 * o.rows)) (fun row n =>
    let k := row - o.abase
    let x := k / 16
    let dy := k % 16 / 4
    let dx := k % 4
    let terms := (List.range 36).filterMap fun q =>
      let c := mat (wA 2) dy (q / 6) * mat (wA 2) dx (q % 6)
      if c = 0 then none else some (c, nth 0 (t.accNow (o.accBase + 36 * x + q)).1 n)
    if o.fp then
      let ps := terms.map fun e => round32 (FVal.mul (FVal.ofInt e.1) (fp32 e.2)).val
      let (v, g) := sum32 2 (ps.map Prod.fst)
      accFp true (seed + 16 * k + n) 0 v (g ||| orAll (ps.map Prod.snd))
    else addInt true 0 ((terms.map fun e => e.1 * e.2.toInt).foldl (· + ·) 0)) poison

end Sys2Proof.Machine
end

