-- ==== Sys2Proof/Machine/Vector.lean ====
section
/-! DEFINITION. The arithmetic of the vector unit, lane by lane: R53, R58 and R59. -/

namespace Sys2Proof.Machine

/-- TYPE of a V slot: width of an element in its 32-bit lane. -/
def vWidth (ty : Nat) : Nat := if ty = 0 || ty = 3 then 32 else if ty = 5 then 8 else 16
/-- Floating-point types. -/
def vIsFp (ty : Nat) : Bool := decide (ty < 3)
def vFmt (ty : Nat) : Fmt := if ty = 0 then .fp32 else if ty = 1 then .bf16 else .fp16

/-- An element's value as a floating-point value, or as an integer. -/
def vFp (ty : Nat) (w : Word) : FVal := (vFmt ty).decode (w.toNat % 2 ^ vWidth ty)
def vInt (ty : Nat) (w : Word) : Int := sext (vWidth ty) w.toNat
/-- An element's exact value in any type. -/
def vVal (ty : Nat) (w : Word) : FVal := if vIsFp ty then vFp ty w else FVal.ofInt (vInt ty w)

/-- A lane of the result: the element in its low bits; what the bits above a narrow element hold is left open. -/
def vLane (ty seed v : Nat) : Word :=
  let w := vWidth ty
  BitVec.ofNat 32 (v % 2 ^ w ||| (Config.freeWord seed).toNat % 2 ^ 32 / 2 ^ w * 2 ^ w)

/-- A floating-point result in TYPE, nearest even: FP_INVALID is bit 1; FP_OVERFLOW, bit 2, is for FP32 (R60). -/
def vFpOut (ty seed : Nat) (r : FRes) : Nat × Nat :=
  let e := (vFmt ty).encode .nearestEven seed r.val
  (e.bits, (if r.invalid then 2 else 0) ||| (if e.ovf && ty == 0 then 4 else 0))

/-- An integer result in TYPE: wraps with INT_WRAP (bit 0), or saturates with SAT (bit 3). -/
def vIntOut (ty : Nat) (sat : Bool) (i : Int) : Nat × Nat :=
  let w := vWidth ty
  let hi : Int := 2 ^ (w - 1) - 1
  let lo : Int := -(2 ^ (w - 1))
  if i < lo || hi < i then
    if sat then (wrapI w (if i < lo then lo else hi), 8) else (wrapI w i, 1)
  else (wrapI w i, 0)

/-- a · b + c with one rounding. -/
def vFma (ty : Nat) (sat : Bool) (seed : Nat) (a b c : Word) : Nat × Nat :=
  if vIsFp ty then
    let p := FVal.mul (vFp ty a) (vFp ty b)
    let r := FVal.add p.val (vFp ty c)
    vFpOut ty seed ⟨r.val, (p.invalid && !(vFp ty c).isNan) || r.invalid⟩
  else vIntOut ty sat (vInt ty a * vInt ty b + vInt ty c)

def vAdd (ty : Nat) (sat : Bool) (seed : Nat) (a b : Word) : Nat × Nat :=
  if vIsFp ty then vFpOut ty seed (FVal.add (vFp ty a) (vFp ty b)) else vIntOut ty sat (vInt ty a + vInt ty b)

def vSub (ty : Nat) (sat : Bool) (seed : Nat) (a b : Word) : Nat × Nat :=
  if vIsFp ty then vFpOut ty seed (FVal.add (vFp ty a) (vFp ty b).negate) else vIntOut ty sat (vInt ty a - vInt ty b)

def vMul (ty : Nat) (sat : Bool) (seed : Nat) (a b : Word) : Nat × Nat :=
  if vIsFp ty then vFpOut ty seed (FVal.mul (vFp ty a) (vFp ty b)) else vIntOut ty sat (vInt ty a * vInt ty b)

/-- Maximum or minimum; with a NaN operand the result is left open (a free value). -/
def vPick (ty : Nat) (maxi : Bool) (seed : Nat) (a b : Word) : Nat × Nat :=
  if vIsFp ty then
    if (vFp ty a).isNan || (vFp ty b).isNan then ((Config.freeWord seed).toNat, 0)
    else
      let m := if maxi then (vFp ty a).max (vFp ty b) else (vFp ty a).min (vFp ty b)
      (if m = vFp ty a then a.toNat else b.toNat, 0)
  else (if (vInt ty a < vInt ty b) == maxi then b.toNat else a.toNat, 0)

/-- CMPLT and CMPEQ: 1 or 0; false with a NaN. -/
def vLess (ty : Nat) (a b : Word) : Bool := if vIsFp ty then (vFp ty a).lt (vFp ty b) else decide (vInt ty a < vInt ty b)
def vEqual (ty : Nat) (a b : Word) : Bool := if vIsFp ty then (vFp ty a).eq (vFp ty b) else vInt ty a == vInt ty b

/-- Whether an element is not zero. -/
def vNonZero (ty : Nat) (a : Word) : Bool := if vIsFp ty then !(vFp ty a).isZero else vInt ty a != 0

/-- AND, OR, XOR by IMM32 [1:0]; 3 is left open. -/
def vLogic (sel seed : Nat) (a b : Word) : Word :=
  if sel = 0 then a &&& b else if sel = 1 then a ||| b else if sel = 2 then a ^^^ b
  else BitVec.ofNat 32 (Config.freeWord seed).toNat

/-- A shift of an integer element by the other operand; a count of the width or more, and a floating-point type, are
left open. -/
def vShift (ty : Nat) (right : Bool) (seed : Nat) (a b : Word) : Nat :=
  let w := vWidth ty
  let n := b.toNat % 2 ^ w
  if vIsFp ty || w ≤ n then (Config.freeWord seed).toNat
  else if right then wrapI w (vInt ty a / 2 ^ n) else a.toNat * 2 ^ n

/-- exp2 (R59, R61): flags with the result. -/
def vExp2 (seed : Nat) (a : Word) : Nat × Nat :=
  match fp32 a with
  | .nan => (Fmt.fp32.nanBits seed, 0)
  | .inf neg => (if neg then 0 else 0x7F800000, 0)
  | v =>
    if !(FVal.lt (.fin true 150 0) v) then (0, 0)
    else if !(v.lt (.fin false 128 0)) then (0x7F800000, 4)
    else (exp2Within (Config.exp2 a) v, 0)

/-- log2 (R59, R61). -/
def vLog2 (seed : Nat) (a : Word) : Nat × Nat :=
  match fp32 a with
  | .nan => (Fmt.fp32.nanBits seed, 0)
  | .inf false => (0x7F800000, 0)
  | .inf true => (Fmt.fp32.nanBits seed, 2)
  | .fin neg m e =>
    if m = 0 then (0xFF800000, 0) else if neg then (Fmt.fp32.nanBits seed, 2) else (log2Within (Config.log2 a) m e, 0)

/-- Reciprocal (R59, R61). A finite 1/x that rounds to infinity sets FP_OVERFLOW (R60). -/
def vRcp (seed : Nat) (a : Word) : Nat × Nat :=
  match fp32 a with
  | .nan => (Fmt.fp32.nanBits seed, 0)
  | .inf neg => (neg.toNat <<< 31, 0)
  | .fin neg m e => if m = 0 then (neg.toNat <<< 31 ||| 0x7F800000, 0) else rcpWithin (Config.rcp a) neg m e

/-- Reciprocal square root (R59, R61): of +infinity no value is stated. -/
def vRsq (seed : Nat) (a : Word) : Nat × Nat :=
  match fp32 a with
  | .nan => (Fmt.fp32.nanBits seed, 0)
  | .inf true => (Fmt.fp32.nanBits seed, 2)
  | .inf false => ((Config.rsq a).toNat, 0)
  | .fin neg m e =>
    if m = 0 then (neg.toNat <<< 31 ||| 0x7F800000, 0)
    else if neg then (Fmt.fp32.nanBits seed, 2) else (rsqWithin (Config.rsq a) m e, 0)

/-! ### Conversions -/

/-- An exact value rounded to an integer of width `w`, saturating with SAT; a NaN or infinity is left open. DESIGN CHOICE
(log entry 162): the range is that of R39, so a value that rounds to −128 in INT8 or −8 in INT4 is kept, without SAT. -/
def toIntSat (r : Rnd) (w seed : Nat) : FVal → Nat × Nat
  | .fin neg m e =>
    let n : Int := (if neg then -1 else 1) * (roundTo r m e 0 : Nat)
    let hi : Int := 2 ^ (w - 1) - 1
    let lo : Int := -(2 ^ (w - 1))
    if n < lo then (wrapI w lo, 8) else if hi < n then (wrapI w hi, 8) else (wrapI w n, 0)
  | _ => ((Config.freeWord seed).toNat % 2 ^ w, 0)

/-- Width of a conversion target. -/
def tgtWidth (tgt : Nat) : Nat :=
  if tgt = 0x10 || tgt = 0x11 then 32 else if tgt = 0x12 || tgt = 5 || tgt = 6 then 16
  else if tgt = 1 || tgt = 4 then 4 else 8

/-- Whether a target is one of the 4-bit formats. -/
def tgt4 (tgt : Nat) : Bool := tgt == 1 || tgt == 4

/-- A value converted to a target element (R39, R40, R53, R58): saturating, with SAT. The MXFP6 codes round on their own
grid and are written as E4M3; DESIGN CHOICE (log entry 162): a NaN or infinity, which the MXFP6 grids lack, is written as
E4M3's NaN. -/
def convert (r : Rnd) (tgt seed : Nat) (v : FVal) : Nat × Nat :=
  if tgt = 0x11 then toIntSat r 32 seed v
  else if tgt = 0x12 then toIntSat r 16 seed v
  else if tgt = 0 then toIntSat r 8 seed v
  else if tgt = 1 then toIntSat r 4 seed v
  else if tgt = 7 then toIntSat r 8 seed (v.scale 6)
  else if tgt = 8 || tgt = 9 then
    let f := if tgt = 8 then Fmt.e2m3 else Fmt.e3m2
    match v with
    | .fin _ _ _ =>
      let e := f.encodeSat r seed v
      ((Fmt.e4m3.encodeSat .nearestEven seed (f.decode e.bits)).bits, if e.sat then 8 else 0)
    | _ => ((Fmt.e4m3.encodeSat r seed v).bits, 0)
  else if tgt = 0x10 then let e := Fmt.fp32.encodeSat r seed v; (e.bits, if e.sat then 8 else 0)
  else let e := (fmtOf' tgt).encodeSat r seed v; (e.bits, if e.sat then 8 else 0)
where
  /-- The element format of a floating-point target code. -/
  fmtOf' (tgt : Nat) : Fmt :=
    if tgt = 3 then .e5m2 else if tgt = 4 then .e2m1 else if tgt = 5 then .bf16 else if tgt = 6 then .fp16 else .e4m3

/-- emax of R53 step 2. -/
def emaxOf (tgt : Nat) : Int :=
  if tgt = 2 then 8 else if tgt = 3 then 15 else if tgt = 8 then 2 else if tgt = 9 then 4 else if tgt = 4 then 2
  else if tgt = 0 then 6 else if tgt = 1 then 2 else 0

/-- One block converted by R53: its scale byte, its elements, and SAT and SCALE_NAN (bit 4). -/
def quantBlock (tgt seed : Nat) (v : List FVal) : Nat × List Nat × Nat :=
  if v.any fun x => !x.isFin then (0xFF, v.map fun _ => 0, 16)
  else
    let top := (v.filter fun x => !x.isZero).foldl (fun (b : Option Int) x => match b with
      | none => some x.log2
      | some l => some (max l x.log2)) none
    match top with
    | none => (0, v.map fun _ => 0, 0)
    | some l =>
      let e := max (-127) (min 127 (l - emaxOf tgt))
      let es := v.map fun x => convert .nearestEven tgt seed (x.scale (-e))
      ((e + 127).toNat, es.map Prod.fst, es.foldl (fun f x => f ||| x.2) 0)

/-- The bytes of a row of elements: two to a byte for a 4-bit target, low nibble first. -/
def packRow (four : Bool) : List Nat → List Byte
  | [] => []
  | [a] => [BitVec.ofNat 8 a]
  | a :: b :: rest =>
    if four then BitVec.ofNat 8 (a % 16 + 16 * (b % 16)) :: packRow four rest
    else BitVec.ofNat 8 a :: BitVec.ofNat 8 b :: packRow four rest

end Sys2Proof.Machine
end

