-- ==== Sys2Proof/Machine/VSlot.lean ====
section
/-! DEFINITION. The V slot of an engine lane: its operands and destinations, one meaning per operation, and the write
of results after their latency (R37, R46, R58, R64, R74). -/

namespace Sys2Proof.Machine

/-- Fields of a V slot (R74). -/
structure VOp where
  op : Nat
  vd : Nat
  vs1 : Nat
  vs2 : Nat
  vs3 : Nat
  ty : Nat
  tgt : Nat
  rnd : Rnd
  sat : Bool
  memSel : Bool
  kind : Nat
  idx : Nat
  immSel : Bool
  imm : Word
  deriving DecidableEq, Repr

def vDecode (w : BitVec 96) : VOp :=
  let n := w.toNat
  { op := bits n 95 90, vd := bits n 89 85, vs1 := bits n 84 80, vs2 := bits n 79 75, vs3 := bits n 74 70, ty := bits n 69 66,
    tgt := bits n 65 61, rnd := if n.testBit 60 then .towardZero else .nearestEven, sat := n.testBit 59, memSel := n.testBit 58,
    kind := bits n 57 56, idx := bits n 55 45, immSel := n.testBit 44, imm := BitVec.ofNat 32 (bits n 43 12) }

/-- The memory operand as 64 little-endian words: 4 accumulator rows, the payload of an operand slot, or 4 units. -/
def Tile.vRead (t : Tile) (kind idx : Nat) : List Word × Bool :=
  if kind = 0 then ((run idx 4).flatMap t.readAcc, (run idx 4).any t.accBad)
  else if kind = 1 then (bytesWords 64 (t.readSlot idx), t.slotBad idx)
  else (bytesWords 64 ((run idx 4).flatMap t.readUnit), (run idx 4).any t.unitBad)

/-- A vector result reaches its memory: pieces of bytes in an operand slot, 4 accumulator rows or 4 units. -/
def Tile.vWrite (t : Tile) (kind idx : Nat) (pieces : List (Nat × List Byte)) (poison int32 : Bool) : Tile :=
  if kind = 0 then
    (List.range 4).foldl (fun t k => t.writeAcc
      ⟨idx + k, bytesWords 16 ((pieces.flatMap Prod.snd).drop (64 * k)), int32, poison⟩) t
  else if kind = 1 then pieces.foldl (fun t e => if idx + e.1 / 272 < 960 then t.writeSlot (idx + e.1 / 272) (e.1 % 272) e.2 poison else t) t
  else (List.range 4).foldl (fun t k => t.writeUnit (idx + k) (((pieces.flatMap Prod.snd).drop (64 * k)).take 64) poison) t

/-- The slots that the operand slot of a V slot takes: QBLK to 16- and 32-bit elements fills more than one (log entry 26). -/
def VOp.slots (o : VOp) : List Nat :=
  if o.op = 0x13 && decide (0x10 ≤ o.tgt) && o.tgt != 0x12 then run o.idx 4
  else if o.op = 0x13 && (o.tgt == 5 || o.tgt == 6 || o.tgt == 0x12) then run o.idx 2
  else [o.idx]

/-- Whether a slot's destination is still being read by an issued operation (R46). -/
def State.vDestRead (s : State) (i : Issue) (o : VOp) : Bool :=
  if o.kind = 1 then meet o.slots (s.tileAt i.part i.lane).slotsRead
  else if o.kind = 2 then meet (run o.idx 4) (s.tileAt i.part i.lane).unitsRead
  else false

/-- Whether the memory of the slot has a write in flight (R46). -/
def State.vMemBusy (s : State) (i : Issue) (o : VOp) : Bool :=
  if o.kind = 0 then meet (run o.idx 4) (s.accInFlight i.part i.lane)
  else if o.kind = 1 then meet (o.slots) (s.slotsInFlight i.part i.lane)
  else meet (run o.idx 4) (s.unitsInFlight i.part i.lane)

/-- The registers an operation reads: source 1 unless memory replaces it, source 2 unless an immediate does. -/
def VOp.regs (o : VOp) (n : Nat) (store : Bool) : List Nat :=
  (if 1 ≤ n && (!o.memSel || store) then [o.vs1] else []) ++ (if 2 ≤ n && !o.immSel then [o.vs2] else []) ++
  (if 3 ≤ n then [o.vs3] else [])

/-- Sources 1 to 3 as words, and whether any of the `n` read is poisoned. -/
structure VSrc where
  a : List Word
  b : List Word
  c : List Word
  poison : Bool

def State.vSources (s : State) (i : Issue) (o : VOp) (n : Nat) (store : Bool) : VSrc :=
  let r := (s.lane i.part i.lane).arch
  let (m, mb) := (s.tileAt i.part i.lane).vRead o.kind o.idx
  let mem := o.memSel && !store
  { a := if mem then m else r.readV o.vs1
    b := if o.immSel then List.replicate 64 o.imm else r.readV o.vs2
    c := r.readV o.vs3
    poison := (mem && mb) || (o.regs n store).any r.vBad }

/-- A register result, written after its latency. -/
def State.vToReg (s : State) (i : Issue) (o : VOp) (words : List Word) (flags : Nat) (poison : Bool) : State :=
  ((s.supersede i.part i.lane [o.vd]).modLane i.part i.lane fun x => { x with iss := { x.iss with vNew := x.iss.vNew ++ [.reg o.vd words poison] } }).setAsw
    i.part i.lane (flags ||| (if poison then 32 else 0))

/-- A memory result, written after its latency. -/
def State.vToMem (s : State) (i : Issue) (o : VOp) (pieces : List (Nat × List Byte)) (flags : Nat) (poison : Bool) : State :=
  let s1 := if o.kind = 1 then s.modTileAt i.part i.lane fun t =>
      t.startSlots ((pieces.map fun e => o.idx + e.1 / 272).filter (· < 960)) else s
  (s1.modLane i.part i.lane fun x => { x with iss :=
    { x.iss with vPend := x.iss.vPend ++ [.mem o.kind o.idx pieces poison (o.ty == 3)] } }).setAsw
    i.part i.lane (flags ||| (if poison then 32 else 0))

/-- What holds an operation with `n` sources back: a source or the destination with a write in flight. -/
def State.vHeld (s : State) (i : Issue) (o : VOp) (n : Nat) (store : Bool) : Bool :=
  meet (o.regs n store ++ (if store then [] else [o.vd])) (s.regsInFlight i.part i.lane) ||
  (o.memSel && (s.vMemBusy i o || (store && s.vDestRead i o)))

/-- An operation over `n` sources that gives one word and flags for each lane `k`; 128 free values are taken. -/
def State.vMap (s : State) (i : Issue) (o : VOp) (n : Nat) (f : Nat → Word → Word → Word → Word × Nat) : State :=
  s.onSlot i 4 [] (fun t => t.vHeld i o n false) fun t =>
    let v := t.vSources i o n false
    let (seed, t1) := t.take 128
    let r := (List.range 64).map fun k => f (seed + k) (nth 0 v.a k) (nth 0 v.b k) (nth 0 v.c k)
    t1.vToReg i o (r.map Prod.fst) (r.foldl (fun a x => a ||| x.2) 0) v.poison

/-- The result of an operation in TYPE as a lane and its flags. -/
def inType (ty seed : Nat) (r : Nat × Nat) : Word × Nat := (vLane ty seed r.1, r.2)

/-- The V slot command of opcode `op`. -/
def vRes (op : Nat) (mn : String) (i : Issue) (o : VOp) (s : State) : Res := slotRes (o.op == op && i.lane != 255) mn s

def execVNop (i : Issue) (w : BitVec 96) (s : State) : Res :=
  vRes 0 "V_NOP" i (vDecode w) (s.onSlot i 4 [] free id)

def execVFma (i : Issue) (w : BitVec 96) (s : State) : Res :=
  let o := vDecode w
  vRes 1 "V_FMA" i o (s.vMap i o 3 fun k a b c => inType o.ty k (vFma o.ty o.sat (k + 64) a b c))

def execVAdd (i : Issue) (w : BitVec 96) (s : State) : Res :=
  let o := vDecode w
  vRes 2 "V_ADD" i o (s.vMap i o 2 fun k a b _ => inType o.ty k (vAdd o.ty o.sat (k + 64) a b))

def execVSub (i : Issue) (w : BitVec 96) (s : State) : Res :=
  let o := vDecode w
  vRes 3 "V_SUB" i o (s.vMap i o 2 fun k a b _ => inType o.ty k (vSub o.ty o.sat (k + 64) a b))

def execVMul (i : Issue) (w : BitVec 96) (s : State) : Res :=
  let o := vDecode w
  vRes 4 "V_MUL" i o (s.vMap i o 2 fun k a b _ => inType o.ty k (vMul o.ty o.sat (k + 64) a b))

def execVMax (i : Issue) (w : BitVec 96) (s : State) : Res :=
  let o := vDecode w
  vRes 5 "V_MAX" i o (s.vMap i o 2 fun k a b _ => inType o.ty k (vPick o.ty true (k + 64) a b))

def execVMin (i : Issue) (w : BitVec 96) (s : State) : Res :=
  let o := vDecode w
  vRes 6 "V_MIN" i o (s.vMap i o 2 fun k a b _ => inType o.ty k (vPick o.ty false (k + 64) a b))

def execCmplt (i : Issue) (w : BitVec 96) (s : State) : Res :=
  let o := vDecode w
  vRes 7 "CMPLT" i o (s.vMap i o 2 fun _ a b _ => (if vLess o.ty a b then 1 else 0, 0))

def execCmpeq (i : Issue) (w : BitVec 96) (s : State) : Res :=
  let o := vDecode w
  vRes 8 "CMPEQ" i o (s.vMap i o 2 fun _ a b _ => (if vEqual o.ty a b then 1 else 0, 0))

def execSel (i : Issue) (w : BitVec 96) (s : State) : Res :=
  let o := vDecode w
  vRes 9 "SEL" i o (s.vMap i o 3 fun _ a b c => (if vNonZero o.ty c then a else b, 0))

def execVLogic (i : Issue) (w : BitVec 96) (s : State) : Res :=
  let o := vDecode w
  vRes 0x0A "V_LOGIC" i o (s.vMap i o 2 fun k a b _ => (vLogic (o.imm.toNat % 4) k a b, 0))

def execVShl (i : Issue) (w : BitVec 96) (s : State) : Res :=
  let o := vDecode w
  vRes 0x0C "V_SHL" i o (s.vMap i o 2 fun k a b _ => (vLane o.ty k (vShift o.ty false (k + 64) a b), 0))

def execVShr (i : Issue) (w : BitVec 96) (s : State) : Res :=
  let o := vDecode w
  vRes 0x0D "V_SHR" i o (s.vMap i o 2 fun k a b _ => (vLane o.ty k (vShift o.ty true (k + 64) a b), 0))

def execExp2 (i : Issue) (w : BitVec 96) (s : State) : Res :=
  let o := vDecode w
  vRes 0x0E "EXP2" i o (s.vMap i o 1 fun k a _ _ => inType 0 k (vExp2 (k + 64) a))

def execLog2 (i : Issue) (w : BitVec 96) (s : State) : Res :=
  let o := vDecode w
  vRes 0x0F "LOG2" i o (s.vMap i o 1 fun k a _ _ => inType 0 k (vLog2 (k + 64) a))

def execRcp (i : Issue) (w : BitVec 96) (s : State) : Res :=
  let o := vDecode w
  vRes 0x10 "RCP" i o (s.vMap i o 1 fun k a _ _ => inType 0 k (vRcp (k + 64) a))

def execRsq (i : Issue) (w : BitVec 96) (s : State) : Res :=
  let o := vDecode w
  vRes 0x11 "RSQ" i o (s.vMap i o 1 fun k a _ _ => inType 0 k (vRsq (k + 64) a))

/-- CVT: each lane converted from TYPE to TGT, unscaled (log entry 25). -/
def execCvt (i : Issue) (w : BitVec 96) (s : State) : Res :=
  let o := vDecode w
  vRes 0x12 "CVT" i o (s.vMap i o 1 fun k a _ _ =>
    let r := convert o.rnd o.tgt (k + 64) (vVal o.ty a)
    let tw := tgtWidth o.tgt
    (BitVec.ofNat 32 (r.1 % 2 ^ tw ||| (Config.freeWord k).toNat % 2 ^ 32 / 2 ^ tw * 2 ^ tw), r.2))

/-- An unscaled target of QBLK (R53): BF16, FP16, and the codes from 0x10 on. -/
def qblkPlain (tgt : Nat) : Bool := tgt == 5 || tgt == 6 || decide (0x10 ≤ tgt)

/-- The rows QBLK forms of 64 lanes (R58): 4 rows of 16, or 2 rows of 32 for a 4-bit target; rows past 15 do not exist. -/
def qblkRows (o : VOp) : List Nat :=
  (List.range (if tgt4 o.tgt then 2 else 4)).filter fun r => (if tgt4 o.tgt then 2 else 4) * (o.imm.toNat % 8) + r < 16

/-- A row of an unscaled target (R53, R42): 16 elements rounded to nearest even and saturated, with scale byte 0x7F. Rows of
16-bit elements stand 8 to a payload unit, as in a 16-bit tile; rows of 32-bit elements 4 to a unit (log entry 26). -/
def qblkPlainRow (tgt seed row : Nat) (v : List FVal) : List (Nat × List Byte) × Nat :=
  let w := tgtWidth tgt / 8
  let per := 16 / w
  let u := 272 * (row / per)
  let es := v.map (convert .nearestEven tgt seed)
  ([(u + 16 * w * (row % per), es.flatMap fun e => leBytes w e.1), (u + 256 + row % per, [0x7F])], orAll (es.map Prod.snd))

/-- What QBLK writes from the slot on: rows 4g to 4g + 3 of an 8-bit tile, or 2g and 2g + 1 of a 4-bit one, and their scale
bytes. -/
def qblkPieces (o : VOp) (seed : Nat) (a : List Word) : List (Nat × List Byte) × Nat :=
  let four := tgt4 o.tgt
  let per := if four then 32 else 16
  let first := (if four then 2 else 4) * (o.imm.toNat % 8)
  let lanes := fun r => ((a.drop (per * r)).take per).map (vVal o.ty)
  if qblkPlain o.tgt then
    let rs := (qblkRows o).map fun r => qblkPlainRow o.tgt seed (first + r) (lanes r)
    (rs.flatMap Prod.fst, orAll (rs.map Prod.snd))
  else
    let rs := (qblkRows o).map fun r => (first + r, quantBlock o.tgt seed (lanes r))
    (rs.flatMap fun e => [(16 * e.1, packRow four e.2.2.1), (256 + e.1, [BitVec.ofNat 8 e.2.1])],
     rs.foldl (fun f e => f ||| e.2.2.2) 0)

/-- QBLK: the destination is the operand slot MEMIDX names; without one nothing is written (log entry 26). -/
def execQblk (i : Issue) (w : BitVec 96) (s : State) : Res :=
  let o := vDecode w
  vRes 0x13 "QBLK" i o (s.onSlot i 4 [] (fun t => t.vHeld i o 1 true) fun t =>
    let v := t.vSources i o 1 true
    let (seed, t1) := t.take 128
    let (ps, f) := qblkPieces o seed v.a
    if o.memSel && o.kind == 1 then t1.vToMem i o ps f v.poison else t1.setAsw i.part i.lane f)

/-- A cross-lane result stands in lane 0; the other lanes are left open (log entry 27). -/
def State.vReduce (s : State) (i : Issue) (w : BitVec 96) (f : VOp → Nat → List Word → Nat × Nat) : State :=
  let o := vDecode w
  s.onSlot i 4 [] (fun t => t.vHeld i o 1 false) fun t =>
    let v := t.vSources i o 1 false
    let (seed, t1) := t.take 128
    let (r, fl) := f o (seed + 64) v.a
    let others := (List.range 63).map fun k => (BitVec.ofNat 32 (Config.freeWord (seed + 1 + k)).toNat : Word)
    t1.vToReg i o (vLane o.ty seed r :: others) fl v.poison

/-- The sum of 64 lanes: in floating point in an order left open (R62), the partial sums of BF16 and FP16 lanes in FP32 or in
the type as the implementation has it (Config.wideSum) and the sum rounded to the type; exact and then wrapped or saturated
for integers. -/
def sumLanes (o : VOp) (seed : Nat) (a : List Word) : Nat × Nat :=
  if vIsFp o.ty then
    let wide := o.ty == 0 || Config.wideSum
    let (v, f) := sumBy (if wide then add32 else (vFmt o.ty).addIn) 3 (a.map (vFp o.ty))
    let e := (vFmt o.ty).encode .nearestEven seed v
    (e.bits, if o.ty = 0 then f else f &&& 2)
  else vIntOut o.ty o.sat ((a.map (vInt o.ty)).foldl (· + ·) 0)

def execRsum (i : Issue) (w : BitVec 96) (s : State) : Res :=
  vRes 0x14 "RSUM" i (vDecode w) (s.vReduce i w sumLanes)

/-- The largest of 64 lanes. -/
def maxLanes (o : VOp) (seed : Nat) (a : List Word) : Nat × Nat :=
  (a.tail.foldl (fun m x => BitVec.ofNat 32 (vPick o.ty true seed m x).1) (nth 0 a 0) |>.toNat, 0)

def execRmax (i : Issue) (w : BitVec 96) (s : State) : Res :=
  vRes 0x15 "RMAX" i (vDecode w) (s.vReduce i w maxLanes)

def execVMov (i : Issue) (w : BitVec 96) (s : State) : Res :=
  let o := vDecode w
  vRes 0x16 "V_MOV" i o (s.vMap i o 1 fun _ a _ _ => (a, 0))

/-- VST: the register's 64 words go to the tile memory MEMKIND and MEMIDX name; without MEMSEL nothing is written. -/
def execVst (i : Issue) (w : BitVec 96) (s : State) : Res :=
  let o := vDecode w
  vRes 0x17 "VST" i o (s.onSlot i 4 [] (fun t => t.vHeld i o 1 true) fun t =>
    let v := t.vSources i o 1 true
    if o.memSel then t.vToMem i o [(0, wordBytes v.a)] 0 v.poison else t)

/-- VECTOR_RESULT_READY: the oldest result of the lane's vector unit is written. -/
def execVectorResultReady (part lane : Nat) (s : State) : Res :=
  .next (match (s.lane part lane).iss.vPend with
    | [] => s
    | r :: rest =>
      let s1 := s.modLane part lane fun x => { x with iss := { x.iss with vPend := rest } }
      match r with
      | .reg d words poison => s1.modLane part lane fun x => { x with arch := x.arch.writeV d words poison }
      | .mem kind idx pieces poison int32 => s1.modTileAt part lane fun t => t.vWrite kind idx pieces poison int32)

end Sys2Proof.Machine
end

