-- ==== Sys2Proof/Machine/XSlot.lean ====
section
/-! DEFINITION. The X slot: PUT, SIGNAL, HALO, TINC, TSET and XFENCE (R73, R74, R113, R122 to R125). -/

namespace Sys2Proof.Machine

/-! ### Fields of the X slot (R74) -/

def xOp (w : DWord) : Nat := bits w.toNat 63 60
/-- The D registers HREG and OREG name, as scalar register numbers. -/
def xHreg (w : DWord) : Nat := 16 + bits w.toNat 59 56
def xOreg (w : DWord) : Nat := 16 + bits w.toNat 55 52
def xKind (w : DWord) : Nat := bits w.toNat 51 50
def xIdx (w : DWord) : Nat := bits w.toNat 49 39
def xLen (w : DWord) : Nat := bits w.toNat 38 31 + 1
def xTctr (w : DWord) : Nat := bits w.toNat 30 23
def xTamt (w : DWord) : Nat := bits w.toNat 22 15

/-- `n` 64-byte units of a source and the poison of each. Operand slots give their 272-byte tiles packed back to back;
a vector register gives 4 units, an accumulator row or line-buffer unit one (R74). -/
def State.tileUnits (s : State) (p l kind idx n : Nat) : List Byte × List Bool :=
  let t := s.tileAt p l
  let a := (s.lane p l).arch
  if kind = 0 then
    let k := ceilDiv (64 * n) 272
    (((run idx k).flatMap t.readSlot).take (64 * n),
     (List.range n).map fun u => t.slotBad (idx + 64 * u / 272) || t.slotBad (idx + (64 * u + 63) / 272))
  else if kind = 1 then ((run idx n).flatMap t.readUnit, (run idx n).map t.unitBad)
  else if kind = 2 then
    (((run idx (ceilDiv n 4)).flatMap fun r => wordBytes (a.readV r)).take (64 * n), (List.range n).map fun u => a.vBad (idx + u / 4))
  else ((run idx n).flatMap fun r => wordBytes (t.readAcc r), (run idx n).map t.accBad)

/-- Whether any source of a tile's units has a write in flight (R46). -/
def State.unitsHeld (s : State) (p l kind idx n : Nat) : Bool :=
  if kind = 0 then meet (run idx (ceilDiv (64 * n) 272)) (s.slotsInFlight p l)
  else if kind = 1 then meet (run idx n) (s.unitsInFlight p l)
  else if kind = 2 then meet (run idx (ceilDiv n 4)) (s.regsInFlight p l)
  else meet (run idx n) (s.accInFlight p l)

/-- What a PUT or HALO takes from its source; none where a scratchpad source is misaligned or outside its region. -/
def State.xSource (s : State) (i : Issue) (w : DWord) : Option (List Byte × List Bool) :=
  if xKind w = 3 then
    let a := (s.lx i (xIdx w % 16)).toNat
    if a % 64 != 0 || !(s.part i.part).inRegion a (64 * xLen w) then none
    else
      let ls := s.readLines i.part a (xLen w)
      some (ls.flatMap Prod.fst, ls.map Prod.snd)
  else some (s.tileUnits i.part i.lane (xKind w) (xIdx w) (xLen w))

/-- The gather entries of a scratchpad source's lines issue ahead of it (R99). -/
def State.xFlush (s : State) (i : Issue) (w : DWord) : State :=
  if xKind w = 3 then s.flushRun i.part (s.lx i (xIdx w % 16)).toNat (64 * xLen w) else s

/-- Whether the source of a PUT or HALO is held: by a write in flight to a tile's memory (R46), or by the lane's own earlier
accesses to a scratchpad line (R97). -/
def State.xSourceHeld (s : State) (i : Issue) (w : DWord) : Bool :=
  if xKind w = 3 then s.lineHeld i (s.lx i (xIdx w % 16)).toNat (64 * xLen w)
  else s.unitsHeld i.part i.lane (xKind w) (xIdx w) (xLen w)

/-- Scalar registers an X slot with a source reads. -/
def xRegs (w : DWord) (src : Bool) : List Nat :=
  xHreg w :: xOreg w :: (if src && xKind w == 3 then [xIdx w % 16] else [])

/-- A remote write finds the tracker full (R125). -/
def State.trackerFull (s : State) (h : DWord) : Bool :=
  !s.isOwn (hDevice h) && hReserved h == 0 && decide (1024 ≤ s.remoteOut)

/-- Reading poison sets POISON_SEEN. -/
def State.sawPoison (s : State) (i : Issue) (poison : List Bool) : State :=
  if poison.contains true then s.setAsw i.part i.lane 32 else s

/-- The X slot command of opcode `op`. -/
def xRes (op : Nat) (mn : String) (w : DWord) (s : State) : Res := slotRes (xOp w == op) mn s

/-- PUT: the source's units are written into the window at the offset, with an increment behind them. DESIGN CHOICE (log entry
165): an offset that is no multiple of 64 is a misaligned access of R74. -/
def State.issuePut (s0 : State) (i : Issue) (w : DWord) : State := (s0.xFlush i w).ifLive i fun s =>
  let off := (s.lx i (xOreg w)).toNat
  match s.xSource i w with
  | none => s.addrFault i.part i.lane
  | some (data, poison) =>
    if off % 64 != 0 then s.addrFault i.part i.lane
    else
      ((s.sawPoison i poison).issueWrite
        { id := 0, src := .lane i.part i.lane, op := .put, part := i.part, handle := s.lx i (xHreg w), off := off,
          data := data, poison := poison, tctr := xTctr w, tamt := xTamt w }).2

def execPut (i : Issue) (w : DWord) (s : State) : Res :=
  xRes 0 "PUT" w (s.onSlot i 5 (xRegs w true)
    (fun t => t.xSourceHeld i w || t.trackerFull (t.lx i (xHreg w)))
    fun t => t.issuePut i w)

/-- SIGNAL: an increment with no data; with TAMT = 0 nothing is sent (R12). -/
def execSignal (i : Issue) (w : DWord) (s : State) : Res :=
  xRes 1 "SIGNAL" w (s.onSlot i 5 [xHreg w] (fun t => t.trackerFull (t.lx i (xHreg w))) fun t =>
    if xTamt w = 0 then t
    else (t.issueWrite
      { id := 0, src := .lane i.part i.lane, op := .signal, part := i.part, handle := t.lx i (xHreg w),
        tctr := xTctr w, tamt := xTamt w }).2)

/-- HALO: units into the line buffer of another engine lane of the stream, with an increment on that lane's counter
(R122). -/
def State.issueHalo (s0 : State) (i : Issue) (w : DWord) : State := (s0.xFlush i w).ifLive i fun s =>
  let lane := (s.lx i (xHreg w)).toNat
  let unit := (s.lx i (xOreg w)).toNat
  let lanes := ((s.onEngines i.part).image.map (·.needs.lanes)).getD 0
  match s.xSource i w with
  | none => s.addrFault i.part i.lane
  | some (data, poison) =>
    if lanes ≤ lane || 1024 < unit + xLen w then s.addrFault i.part i.lane
    else
      let (n, s1) := (s.sawPoison i poison).newId
      s1.addWrite
        { id := n, src := .lane i.part i.lane, op := .halo, part := i.part, dst := lane, off := unit,
          data := data, poison := poison, tctr := s.tokBase i.part lane + xTctr w, tamt := xTamt w }

def execHalo (i : Issue) (w : DWord) (s : State) : Res :=
  xRes 2 "HALO" w (s.onSlot i 5 (xRegs w true)
    (fun t => t.xSourceHeld i w) fun t => t.issueHalo i w)

/-- TINC: TAMT is added to one of the lane's own counters. -/
def execTinc (i : Issue) (w : DWord) (s : State) : Res :=
  xRes 3 "TINC" w (s.onSlot i 5 [] free fun t =>
    t.increment i.part i.lane (t.tokBase i.part i.lane + xTctr w) (xTamt w))

/-- TSET: one of the lane's own counters takes the value of OREG; a poisoned one is replaced. -/
def execTset (i : Issue) (w : DWord) (s : State) : Res :=
  xRes 4 "TSET" w (s.onSlot i 5 [xOreg w] free fun t =>
    let c := t.tokBase i.part i.lane + xTctr w
    let u := t.setCounter i.part i.lane c ((t.lx i (xOreg w)).extractLsb' 0 32)
    { u with tokBad := Map.set false u.tokBad (u.tokKey i.part i.lane c) false })

/-- Whether a write of the lane has not returned its completion: its own, and on the shared lane the record writes of its W
posts (R74, R75). -/
def State.laneWrites (s : State) (p l : Nat) : Bool :=
  s.fab.writes.any fun w => w.src == .lane p l || (l == 255 && w.op == .record && w.src.ofPart p)

/-- XFENCE: the lane stands until every write it issued has returned its completion. -/
def execXfence (i : Issue) (w : DWord) (s : State) : Res :=
  slotRes (xOp w == 5) "XFENCE" (match s.gate i 5 with
    | .idle => s
    | .held t => t
    | .go t => if t.laneWrites i.part i.lane then t.countXfence i.part i.lane else t.slotDone i 5)

end Sys2Proof.Machine
end

