-- ==== Sys2Proof/Machine/WSlot.lean ====
section
/-! DEFINITION. The W slot: write-back to the scratchpad or to a window with optional pooling, and the shared lane's
record post (R74, R75, R190, R191). -/

namespace Sys2Proof.Machine

/-- Fields of a W slot (R74). -/
structure WOpd where
  kind : Nat
  idx : Nat
  len : Nat
  dreg : Nat
  oreg : Nat
  pool : Nat
  pwh : Nat
  pww : Nat
  pstr : Nat
  tctr : Nat
  tamt : Nat
  deriving DecidableEq, Repr

def wDecode (w : DWord) : WOpd :=
  let n := w.toNat
  { kind := bits n 59 58, idx := bits n 57 47, len := bits n 46 39 + 1, dreg := bits n 38 35, oreg := bits n 34 31,
    pool := bits n 30 28, pwh := bits n 27 24 + 1, pww := bits n 23 20 + 1, pstr := bits n 19 16 + 1, tctr := bits n 15 8,
    tamt := bits n 7 0 }

def wOp (w : DWord) : Nat := bits w.toNat 63 60

/-- SRCKIND of the W slot in the numbering of `tileUnits`: 0 accumulator rows, 1 vector registers, 2 operand slots. -/
def WOpd.src (o : WOpd) : Nat := if o.kind = 0 then 3 else if o.kind = 1 then 2 else 0

/-- Rows that pooled pixel `x` covers (R190): lines of L rows each, or every row for the global average. -/
def WOpd.window (o : WOpd) (x : Nat) : List Nat :=
  if o.pool = 3 then run o.idx (o.pwh * o.len)
  else (List.range o.pwh).flatMap fun i => run (o.idx + i * o.len + x * o.pstr) o.pww

/-- Pooled pixels of a line. -/
def WOpd.pixels (o : WOpd) : Nat := if o.pool = 3 then 1 else (o.len - o.pww) / o.pstr + 1

/-- A row's word as an exact value; an INT32 row of a mixed window is first rounded to FP32 (R191). -/
def poolVal (int mixed : Bool) (w : Word) : FVal :=
  if int then (if mixed then (round32 (FVal.ofInt w.toInt)).1 else FVal.ofInt w.toInt) else fp32 w

/-- The integer nearest to `a ÷ n`, ties to even. -/
def divRne (a : Int) (n : Nat) : Int :=
  let q := a.natAbs / n
  let r := a.natAbs % n
  let m := if n < 2 * r || (2 * r = n && q % 2 = 1) then q + 1 else q
  if a < 0 then -(m : Int) else (m : Int)

/-- One channel of a pooled pixel and the ASW flags it raises (R190, R191). -/
def poolCell (o : WOpd) (seed : Nat) (rows : List (Bool × Word)) : Word × Nat :=
  let ints := rows.all (·.1)
  let mixed := !ints && rows.any (·.1)
  let vs := rows.map fun r => poolVal r.1 mixed r.2
  let big := vs.tail.foldl FVal.max (nth (.fin false 0 0) vs 0)
  if ints then
    let m := rows.tail.foldl (fun (a : Int) r => max a r.2.toInt) ((nth (true, 0) rows 0).2.toInt)
    if o.pool = 1 then (BitVec.ofInt 32 m, 0)
    else (BitVec.ofInt 32 (divRne ((rows.map fun r => r.2.toInt).foldl (· + ·) 0) rows.length), 0)
  else if o.pool = 1 then (BitVec.ofNat 32 (toFp32 seed big).bits, 0)
  else
    let t := vs.foldl (fun (x : FRes) v => let y := FVal.add x.val v; ⟨y.val, x.invalid || y.invalid⟩)
      ⟨.fin true 0 0, false⟩
    let e := Fmt.divNat .fp32 seed t.val rows.length
    (BitVec.ofNat 32 e.bits, (if t.invalid then 2 else 0) ||| (if e.ovf then 4 else 0))

/-- The units a pooling write-back forms, their poison, and flags. -/
def Tile.pooled (t : Tile) (o : WOpd) (seed : Nat) : List Byte × List Bool × Nat :=
  let units := (List.range o.pixels).map fun x =>
    let rows := o.window x
    let cells := (List.range 16).map fun c =>
      poolCell o (seed + 16 * x + c) (rows.map fun r => (Map.get false t.accInt r, nth 0 (t.readAcc r) c))
    (wordBytes (cells.map Prod.fst), rows.any t.accBad, cells.foldl (fun f c => f ||| c.2) 0)
  (units.flatMap (·.1), units.map (·.2.1), units.foldl (fun f u => f ||| u.2.2) 0)

/-- Accumulator rows a W slot reads, or the units of its source. -/
def State.wHeld (s : State) (i : Issue) (o : WOpd) : Bool :=
  if o.pool = 0 then s.unitsHeld i.part i.lane o.src o.idx o.len
  else meet ((List.range o.pixels).flatMap o.window) (s.accInFlight i.part i.lane)

/-- The data of a W slot: its units, or the pooled ones; flags enter the ASW. -/
def State.wData (s : State) (i : Issue) (o : WOpd) : List Byte × List Bool × State :=
  if o.pool = 0 then
    let (d, p) := s.tileUnits i.part i.lane o.src o.idx o.len
    (d, p, s.sawPoison i p)
  else
    let (seed, s1) := s.take (16 * o.pixels)
    let (d, p, f) := (s1.tileAt i.part i.lane).pooled o seed
    (d, p, (s1.setAsw i.part i.lane f).sawPoison i p)

/-- WB: 64-byte aligned scratchpad address A[DREG]; its increment is on the lane's own counter. -/
def State.issueWb (s : State) (i : Issue) (o : WOpd) : State :=
  let a := (s.lx i o.dreg).toNat
  let (d, p, s1) := s.wData i o
  if a % 64 != 0 || !(s.part i.part).inRegion a d.length then s.addrFault i.part i.lane
  else
    let (n, s2) := s1.newId
    s2.addWrite
      { id := n, src := .lane i.part i.lane, op := .wb, part := i.part, dst := a, data := d, poison := p,
        tctr := s.tokBase i.part i.lane + o.tctr, tamt := o.tamt }

def execWb (i : Issue) (w : DWord) (s : State) : Res :=
  let o := wDecode w
  slotRes (wOp w == 0 && i.lane != 255) "WB" (s.onSlot i 6 [o.dreg] (fun t => t.wHeld i o) fun t => t.issueWb i o)

/-- WBW: to the window whose handle D[DREG] holds, at offset D[OREG]; a misaligned offset as in PUT (log entry 165). -/
def State.issueWbw (s : State) (i : Issue) (o : WOpd) : State :=
  let off := (s.lx i (16 + o.oreg)).toNat
  if off % 64 != 0 then s.addrFault i.part i.lane
  else
    let (d, p, s1) := s.wData i o
    (s1.issueWrite
      { id := 0, src := .lane i.part i.lane, op := .wbw, part := i.part, handle := s.lx i (16 + o.dreg), off := off,
        data := d, poison := p, tctr := o.tctr, tamt := o.tamt }).2

def execWbw (i : Issue) (w : DWord) (s : State) : Res :=
  let o := wDecode w
  slotRes (wOp w == 1 && i.lane != 255) "WBW"
    (s.onSlot i 6 [16 + o.dreg, 16 + o.oreg] (fun t => t.wHeld i o || t.trackerFull (t.lx i (16 + o.dreg))) fun t => t.issueWbw i o)

/-- The shared lane's W post: a record of LEN_M1 + 1 units written at offset 0 of a unit window with an increment of 1
on its target counter 0; its own increment follows the completion of that write (R75). -/
def State.issueRecord (s0 : State) (i : Issue) (w : DWord) : State :=
  let n := w.toNat
  let a := (s0.lx i (bits n 59 56)).toNat
  let len := bits n 35 28 + 1
  (s0.flushRun i.part a (64 * len)).ifLive i fun s =>
  if a % 64 != 0 || !(s.part i.part).inRegion a (64 * len) then s.addrFault i.part i.lane
  else
    let ls := s.readLines i.part a len
    let (pid, s1) := s.newId
    let c := ((s.part i.part).running).getD 0
    let post : Post :=
      { id := pid, queue := .record, part := i.part, tctr := s.tokBase i.part 255 + bits n 51 44, tamt := bits n 43 36, ctx := c }
    let s2 := { s1 with fab := { s1.fab with posts := s1.fab.posts ++ [post] } }
    (s2.issueWrite
      { id := 0, src := .post i.part pid, op := .record, part := i.part, handle := s.lx i (16 + bits n 55 52),
        data := ls.flatMap Prod.fst, poison := ls.map Prod.snd, tctr := 0, tamt := 1 }).2

/-- A W post waits while the write tracker is full (R125), or for the lane's own earlier writes to the record (R97). -/
def State.recordHeld (s : State) (i : Issue) (w : DWord) : Bool :=
  s.trackerFull (s.lx i (16 + bits w.toNat 55 52)) ||
  s.lineHeld i (s.lx i (bits w.toNat 59 56)).toNat (64 * (bits w.toNat 35 28 + 1))

def execUnitRecordPost (i : Issue) (w : DWord) (s : State) : Res :=
  slotRes (wOp w == 0 && i.lane == 255) "UNIT_RECORD_POST"
    (s.onSlot i 6 [bits w.toNat 59 56, 16 + bits w.toNat 55 52] (fun t => t.recordHeld i w) fun t => t.issueRecord i w)

end Sys2Proof.Machine
end

