-- ==== Sys2Proof/Machine/Loader.lean ====
section
/-! DEFINITION. The loader: an image read into its parts, and checks 2 to 10 of R86, which concern the image alone
(R39, R41, R44, R52, R54, R69 to R75, R81, R83, R84, R192, R212, R475). -/

namespace Sys2Proof.Machine

/-- The code of a fault, if it holds. -/
def flag (c : Bool) (code : Nat) : List Nat := if c then [code] else []

/-! ### Lane words (R69) -/

/-- A lane word of an image: header, and its slots (0 S, 1 L0, 2 L1, 3 M, 4 V, 5 X, 6 W). -/
structure LWord where
  hdr : Nat
  slots : List (Nat × Nat)
  deriving DecidableEq, Repr

def LWord.rep (w : LWord) : Nat := bits w.hdr 14 7
def LWord.tag (w : LWord) : Nat := bits w.hdr 22 15
def LWord.isYield (w : LWord) : Bool := w.hdr.testBit 23
/-- The S slot, NOP where there is none. -/
def LWord.s (w : LWord) : Nat := ((w.slots.find? fun e => e.1 == 0).map Prod.snd).getD 0
def LWord.sOp (w : LWord) : Nat := bits w.s 63 58
def LWord.imm (w : LWord) : Nat := bits w.s 31 0

/-- Slots read in order from the bytes behind a header. -/
def readSlots : List Nat → List Byte → List (Nat × Nat)
  | [], _ => []
  | k :: ks, b =>
    let n := if k = 3 || k = 4 then 12 else 8
    (k, uN n b 0) :: readSlots ks (b.drop n)

/-- The lane words of a lane's code; none where the last runs past it. `fuel` bounds them. -/
def laneWords : Nat → List Byte → Option (List LWord)
  | 0, b => if b.isEmpty then some [] else none
  | fuel + 1, b =>
    if b.isEmpty then some []
    else
      let h := u32 b 0
      let n := 4 * wordGranules (h % 128)
      if b.length < n then none
      else (laneWords fuel (b.drop n)).map (⟨h, readSlots (bitList (h % 128) 7) (b.drop 4)⟩ :: ·)

/-! ### The header and the sections -/

def hLanes (b : List Byte) : Nat := u8 b 0x10
def hYieldPoints (b : List Byte) : Nat := u32 b 0x18
def hLiveRanges (b : List Byte) : Nat := u32 b 0xB0
def hModels (b : List Byte) : Nat := u16 b 0xB4
def hSection (b : List Byte) (k : Nat) : Nat := u64 b (0x60 + 8 * k)

/-- The needs a header declares. -/
def hNeeds (b : List Byte) : ImageNeeds :=
  { lanes := hLanes b, yieldInterval := u32 b 0x14, raggedMax := u32 b 0x1C, scratch := u64 b 0x20, ddr5 := u64 b 0x28,
    kvPages := u32 b 0x30, nand := u64 b 0x38, hostSwap := u64 b 0x40, liveMax := u64 b 0x48, engineTokens := u8 b 0x50,
    peers := u8 b 0x51, sharedTokens := u16 b 0x52, windows := u16 b 0x54, codeDst := u64 b 0xA0, handleTable := u64 b 0xA8 }

/-- Entry `i` of the lane table: code offset, granules, wait-table entries, reserved. -/
def laneEntry (b : List Byte) (i : Nat) : Nat × Nat × Nat × Nat :=
  let o := hSection b 0 + 16 * i
  (u64 b o, u32 b (o + 8), u16 b (o + 12), u16 b (o + 14))

/-- The lane table, engine lanes and then the shared lane. -/
def laneTable (b : List Byte) : List (Nat × Nat × Nat × Nat) := (List.range (hLanes b + 1)).map (laneEntry b)

/-- The code area: from the lowest code offset to the end of the highest lane's code. -/
def codeArea (b : List Byte) : Nat × Nat :=
  let l := laneTable b
  let lo := l.foldl (fun m e => min m e.1) (2 ^ 64)
  (lo, l.foldl (fun m e => max m (e.1 + 4 * e.2.1)) 0 - lo)

/-- Lengths of the first seven sections (R475). -/
def sectionLens (b : List Byte) : List Nat :=
  [16 * (hLanes b + 1), 4 * sumNat ((laneTable b).map fun e => e.2.2.1), 16 * hYieldPoints b + 16 * hLiveRanges b, 4096,
   32 * u16 b 0x54, 32 * hModels b, 8 * hLanes b + 32]

/-- Whether two of the runs overlap. -/
def overlap : List (Nat × Nat) → Bool
  | [] => false
  | r :: rs => (rs.any fun q => decide (r.1 < q.1 + q.2) && decide (q.1 < r.1 + r.2)) || overlap rs

/-- Header, lane table and sections that break R69, R84 or R475. DESIGN CHOICE (log entry 166): the header's own 256 bytes are
an area that no section and no code may overlap. -/
def shapeBad (b : List Byte) : Bool :=
  let n := hNeeds b
  let lens := sectionLens b
  let secs := (List.range 7).map fun k => (hSection b k, nth 0 lens k)
  let used := codeArea b :: (0, 0x100) :: secs.filter fun e => e.2 != 0
  let limit := u64 b 8 - 4096
  u32 b 0 != 0x31494743 || u16 b 4 != 1 || u16 b 6 != 0x100 || u64 b 8 != b.length || decide (b.length < 4096) ||
  decide (64 < n.lanes) || decide (4 < u8 b 0x11) || decide (2 ^ 10 ≤ u16 b 0x12) || n.yieldInterval == 0 ||
  u32 b 0x34 != 0 || !allZero b 0x56 10 || !allZero b 0xB6 74 || decide (64 < n.engineTokens) || decide (256 < n.sharedTokens) ||
  decide (4096 < n.windows) || decide (256 < hModels b) || n.codeDst % 64 != 0 || n.handleTable % 8 != 0 ||
  (n.windows == 0 && n.handleTable != 0) ||
  (secs.any fun e => if e.2 = 0 then e.1 != 0 else e.1 % 16 != 0) || hSection b 7 != limit || limit % 16 != 0 ||
  (used.any fun e => decide (limit < e.1 + e.2)) || overlap used ||
  (laneTable b).any fun e => e.1 % 64 != 0 || e.2.1 == 0 || decide (255 < e.2.2.1) || e.2.2.2 != 0

/-- Section `k`. -/
def hBytes (b : List Byte) (k : Nat) : List Byte := slice b (hSection b k) (nth 0 (sectionLens b) k)

/-- A lane as the loader walks it: its words, wait table, external counters, and how many counters it declares. -/
structure LLane where
  id : Nat
  shared : Bool
  words : List LWord
  wct : List Nat
  ext : Nat
  own : Nat
  deriving DecidableEq, Repr

/-- The lanes of an image; none where lane words do not fill a lane's code. -/
def loadLanes (b : List Byte) : Option (List LLane) :=
  let n := hNeeds b
  let t := laneTable b
  let wct := hBytes b 1
  let ext := hBytes b 6
  (List.range (n.lanes + 1)).mapM fun i =>
    let e := nth (0, 0, 0, 0) t i
    let first := sumNat ((t.take i).map fun x => x.2.2.1)
    let shared := i == n.lanes
    (laneWords e.2.1 (slice b e.1 (4 * e.2.1))).map fun ws =>
      { id := if shared then 255 else i, shared := shared, words := ws
        wct := (List.range e.2.2.1).map fun k => u32 wct (4 * (first + k))
        ext := if shared then uN 32 ext (8 * i) else u64 ext (8 * i)
        own := if shared then n.sharedTokens else n.engineTokens }

/-! ### Loops and branches (R74, R83) -/

/-- A LOOP or RAGGED: its lane word, loop register, count, and body length. -/
def LWord.site (w : LWord) (lane i raggedMax : Nat) : Option LoopSite :=
  if w.sOp = 0x15 then some ⟨lane, i, bits w.s 54 53, w.imm % 65536 + 1, bits w.imm 27 16 + 1⟩
  else if w.sOp = 0x18 then some ⟨lane, i, bits w.imm 31 30, raggedMax, bits w.imm 27 16 + 1⟩
  else none

def LLane.sites (l : LLane) (raggedMax : Nat) : List LoopSite :=
  l.words.zipIdx.filterMap fun e => e.1.site l.id e.2 raggedMax

/-- Whether a lane word lies in a body. -/
def LoopSite.holds (x : LoopSite) (i : Nat) : Bool := decide (x.word < i) && decide (i ≤ x.word + x.body)

/-- Bodies must end within the lane and nest. -/
def nestBad (n : Nat) (l : List LoopSite) : Bool :=
  l.any fun x => decide (n ≤ x.word + x.body) ||
    l.any fun y => x.holds y.word && decide (x.word + x.body < y.word + y.body)

/-- The branch of a lane word, if it has one. -/
def LWord.branch (w : LWord) (i : Nat) : Option Int :=
  if w.sOp = 0x12 || w.sOp = 0x13 || w.sOp = 0x14 then some ((i : Int) + sext 32 w.imm) else none

/-- A branch off the lane, out of a body, or into one but at its first lane word. -/
def branchBad (n : Nat) (l : List LoopSite) (i : Nat) (t : Int) : Bool :=
  decide (t < 0) || decide ((n : Int) ≤ t) ||
  l.any fun x => if x.holds i then !x.holds t.toNat else x.holds t.toNat && t.toNat != x.word + 1

/-! ### Yield distances (R83) -/

/-- The larger of two distances; none where there is no path. -/
def omax : Option Nat → Option Nat → Option Nat
  | none, y => y
  | x, none => x
  | some x, some y => some (max x y)

def oadd (a : Nat) (x : Option Nat) : Option Nat := x.map (a + ·)
def osum : Option Nat → Option Nat → Option Nat
  | some x, some y => some (x + y)
  | _, _ => none

/-- Longest distances over a run of lane words: from its start to its end with no yield point, from its start to the first,
between two, and from the last to its end. -/
structure Span where
  thru : Option Nat
  head : Option Nat
  inner : Option Nat
  tail : Option Nat

/-- A body run `c` times behind its LOOP lane word: through it, into it, inside it, out of it. -/
def Span.times (x : Span) (c : Nat) : Span :=
  let more := x.thru.map fun t => (c - 1) * t
  { thru := x.thru.map fun t => 1 + c * t
    head := match more with
      | some m => oadd (1 + m) x.head
      | none => oadd 1 x.head
    inner := if 2 ≤ c then
        omax x.inner (match x.thru with
          | some t => oadd ((c - 2) * t) (osum x.tail x.head)
          | none => osum x.tail x.head)
      else x.inner
    tail := match more with
      | some m => oadd m x.tail
      | none => x.tail }

/-- Whether lane word `i` is a yield point: flagged, the lane's first, or an END. -/
def LLane.yieldAt (l : LLane) (i : Nat) : Bool :=
  i == 0 || match l.words[i]? with
    | some w => w.isYield || w.sOp == 0x19
    | none => false

/-- The lane words of a run that lie in no body of it, from `i` on; `fuel` bounds them. -/
def topWords (l : List LoopSite) : Nat → Nat → Nat → List Nat
  | 0, _, _ => []
  | fuel + 1, i, hi =>
    if hi ≤ i then []
    else
      let j := match l.find? fun x => x.word == i with
        | some x => i + 1 + x.body
        | none => i + 1
      i :: topWords l fuel j hi

/-- What is known of a lane word: steps to the next yield point, steps to the end of the run without one, lane words to the
first of them. -/
structure Reach where
  yieldIn : Option Nat := none
  endIn : Option Nat := none
  len : Nat := 0
  deriving DecidableEq, Repr

/-- Arrival at lane word `t` of a run that ends at `hi`. -/
def LLane.arrive (l : LLane) (hi : Nat) (known : List (Nat × Reach)) (t : Nat) : Reach :=
  if hi ≤ t then { endIn := some 0 } else if l.yieldAt t then { yieldIn := some 0 }
  else ((known.find? fun e => e.1 == t).map Prod.snd).getD {}

def Reach.join (a b : Reach) : Reach := ⟨omax a.yieldIn b.yieldIn, omax a.endIn b.endIn, max a.len b.len⟩
def Reach.after (a : Reach) (n : Nat) : Reach := ⟨oadd n a.yieldIn, oadd n a.endIn, a.len + 1⟩

/-- One round of relaxation at lane word `i`; `comp` gives the summary of a LOOP's body. -/
def LLane.relax (l : LLane) (sites : List LoopSite) (comp : Nat → Option Span) (hi : Nat) (known : List (Nat × Reach)) (i : Nat) : Reach :=
  let w := nth ⟨0, []⟩ l.words i
  match comp i, sites.find? fun x => x.word == i with
  | some c, some x =>
    let go : Reach := match c.thru with
      | some t => (l.arrive hi known (i + 1 + x.body)).after t
      | none => {}
    go.join ⟨c.head, none, 0⟩
  | _, _ =>
    let br : Reach := match w.branch i with
      | none => {}
      | some t =>
        let k := t.toNat
        match sites.find? fun (x : LoopSite) => x.word + 1 == k && !x.holds i with
        | some x =>
          let r : Reach := ((known.find? fun e => e.1 == x.word).map Prod.snd).getD {}
          ⟨r.yieldIn.map (· - 1), r.endIn.map (· - 1), r.len⟩
        | none => l.arrive hi known k
    let next : Reach := if w.sOp = 0x12 || w.sOp = 0x19 then {} else l.arrive hi known (i + 1)
    (br.join next).after (w.rep + 1)

/-- `n` rounds of relaxation over the lane words of a run. -/
def LLane.rounds (l : LLane) (sites : List LoopSite) (comp : Nat → Option Span) (hi : Nat) (ns : List Nat) : Nat → List (Nat × Reach)
  | 0 => ns.map fun i => (i, {})
  | n + 1 =>
    let known := LLane.rounds l sites comp hi ns n
    ns.map fun i => (i, l.relax sites comp hi known i)

/-- The summary of lane words `lo` to `hi - 1`; none where a path without a yield point never ends, or bodies nest deeper
than `depth`. -/
def LLane.span (l : LLane) (sites : List LoopSite) : Nat → Nat → Nat → Option Span
  | 0, _, _ => none
  | depth + 1, lo, hi =>
    let ns := topWords sites (hi - lo) lo hi
    let comps := ns.filterMap fun i => (sites.find? fun x => x.word == i).map fun x =>
      (i, (l.span sites depth (i + 1) (i + 1 + x.body)).map fun y => y.times x.count)
    if comps.any fun c => c.2.isNone then none
    else
      let comp := fun i => ((comps.find? fun c => c.1 == i).map Prod.snd).getD none
      let known := l.rounds sites comp hi ns (ns.length + 1)
      let again := ns.map fun i => (i, l.relax sites comp hi known i)
      if again != known then none
      else
        let at_ := fun i => ((known.find? fun e => e.1 == i).map Prod.snd).getD ({} : Reach)
        let step := fun (x : Option Nat × Option Nat) (i : Nat) =>
          let a := if l.yieldAt i then (omax x.1 (at_ i).yieldIn, omax x.2 (at_ i).endIn) else x
          match comp i, sites.find? fun y => y.word == i with
          | some c, some y =>
            let r := l.arrive hi known (i + 1 + y.body)
            (omax a.1 (omax c.inner (osum c.tail r.yieldIn)), omax a.2 (osum c.tail r.endIn))
          | _, _ => a
        let (inner, tail) := ns.foldl step (none, none)
        if l.yieldAt lo then some ⟨none, some 0, inner, tail⟩ else some ⟨(at_ lo).endIn, (at_ lo).yieldIn, inner, tail⟩

/-! ### Slots -/

/-- What the slot checks of one image refer to. -/
structure LoadCtx where
  formats : Nat
  raggedMax : Nat
  engTok : Nat

/-- An S slot (R74, R212). -/
def sFaults (x : LoadCtx) (l : LLane) (rep n : Nat) : List Nat :=
  let op := bits n 63 58
  let rd := bits n 57 53
  let rs1 := bits n 52 48
  let rs2 := bits n 47 43
  let imm := bits n 31 0
  let mode := bits imm 29 28
  flag (bits n 41 32 != 0) rcImageMalformed ++ flag (decide (0x19 < op)) rcReservedOpcode ++
  flag ((op == 0x0F && decide (15 < rd)) || ((op == 0x10 || op == 0x18) && decide (15 < rs1)) ||
    ((op == 0x10 || op == 0x11) && decide (2 < rs2)) || (op == 0x11 && decide (15 < rd)) || (op == 0x15 && decide (3 < rd)) ||
    (op == 0x17 && decide (1 < rs1)) || (op == 0x16 && (decide (511 < imm) || (decide (6 < imm) && decide (imm < 256))))) rcSlotField ++
  flag (op == 0x16 && imm / 256 == 1 && decide (l.own ≤ imm % 256)) rcImageMalformed ++
  (if op = 0x18 then
    flag (x.raggedMax == 0) rcImageMalformed ++ flag (mode == 3) rcReservedOpcode ++
    flag (decide (rd < 16) || decide (29 < rd) || n.testBit 42 || (decide (mode < 2) && rs2 != 0) || (mode == 2 && decide (rs2 < 16)))
      rcSlotField
  else []) ++
  flag (rep != 0 && ((decide (0x12 ≤ op) && decide (op ≤ 0x15)) || op == 0x18 || op == 0x19)) rcRepeatControl

/-- An engine lane's L slot (R74). -/
def lFaults (n : Nat) : List Nat :=
  let op := bits n 63 60
  let last := bits n 55 45 + bits n 44 37 + 1
  flag (bits n 36 32 != 0) rcImageMalformed ++ flag (decide (3 < op)) rcReservedOpcode ++
  flag (decide (nth 2048 [960, 1024, 32, 960] op < last) || (op == 3 && decide (960 < bits n 9 0 + bits n 44 37 + 1))) rcAccRange

/-- A shared-lane post in L0, L1, M or V (R75). -/
def postFaults (l : LLane) (slot n : Nat) : List Nat :=
  let sel := bits n 39 32
  flag (decide ((if slot < 3 then 5 else 0) < bits n 63 60)) rcReservedOpcode ++
  flag (n / 2 ^ 64 != 0 || decide ((if slot = 3 then 3 else 0) < sel) || (bits n 47 40 != 0 && decide (l.own ≤ bits n 55 48)))
    rcImageMalformed

/-- A shared-lane W post (R75). -/
def recordFaults (l : LLane) (n : Nat) : List Nat :=
  flag (bits n 63 60 != 0) rcReservedOpcode ++
  flag (bits n 27 0 != 0 || (bits n 43 36 != 0 && decide (l.own ≤ bits n 51 44))) rcImageMalformed

/-- FP8 and MXFP6 codes (R40). -/
def isFp8 (c : Nat) : Bool := c == 2 || c == 3 || c == 8 || c == 9

/-- Operand pairs of R41 with their accumulation. -/
def pairOk (a w : Nat) (fp : Bool) : Bool :=
  (a == 0 && w == 0) || (a == 0 && w == 1) || (a == 1 && w == 1) ||
  (fp && ((isFp8 a && isFp8 w) || (a == w && (a == 4 || a == 5 || a == 6 || a == 7))))

/-- Operand pairs of the Winograd modes (R54). -/
def winoOk (wino a w : Nat) : Bool :=
  (isFp8 a && isFp8 w) || (if wino = 1 then (a == 0 && w == 0) || (a == 0 && w == 1) || (a == 1 && w == 1) else a == 5 && w == 5)

/-- One past the last activation slot or unit that a MATMUL reads. -/
def MOp.actEnd (o : MOp) : Nat :=
  if o.wino = 0 then
    o.abase + (o.kg - 1) * o.astride + (if o.line then ceilDiv (o.rows * o.rowBytes) 64 else ceilDiv o.rows 16 * (o.rowBytes / 16))
  else
    let m := if o.wino = 1 then 2 else 4
    o.abase + (m + 1) * o.astride + ceilDiv ((m * o.rows + 2) * o.rowBytes) (if o.line then 64 else 256)

/-- One past the last weight slot that a MATMUL loads. -/
def MOp.weightEnd (o : MOp) : Nat :=
  let arrays := if o.wino = 2 then min 16 (36 - o.posBase) else 16
  if arrays = 0 then 0 else o.wbase + (arrays - 1) * o.wstride + (if is16 o.wfmt then 2 else 1)

/-- One past the last accumulator row that an operation writes or reads. -/
def MOp.accEnd (o : MOp) : Nat :=
  o.accBase + (if o.wino = 0 then o.ng * o.rows else if o.wino = 1 then 4 * o.rows else 36 * o.rows)

/-- An M slot (R41, R44, R52, R54, R74, R188). -/
def mFaults (x : LoadCtx) (n : Nat) : List Nat :=
  let o := mDecode (BitVec.ofNat 96 n)
  let op := bits n 95 92
  let used := fun c => x.formats.testBit c
  flag (bits n 12 0 != 0) rcImageMalformed ++
  flag (decide (1 < op) || decide (4 < o.shape) || o.wino == 3 || decide (9 < o.afmt) || decide (9 < o.wfmt) ||
    (op == 0 && !(used o.afmt && used o.wfmt))) rcReservedOpcode ++
  flag (op == 0 && (!pairOk o.afmt o.wfmt o.fp || (o.wino != 0 && (!winoOk o.wino o.afmt o.wfmt || o.shape != 0)))) rcOperandPair ++
  (if op = 0 then
    flag (decide (2048 < o.accEnd) || decide ((if o.line then 1024 else 960) < o.actEnd) || decide (960 < o.weightEnd)) rcAccRange
  else flag (decide (2048 < o.accBase + 36 * o.rows) || decide (2048 < o.abase + 16 * o.rows)) rcAccRange) ++
  flag (o.pair && (o.wino != 0 || o.kg % 2 == 1)) rcMxPairing ++ flag (o.wino == 0 && o.posBase != 0) rcSlotField

/-- A V slot (R74). -/
def vFaults (x : LoadCtx) (n : Nat) : List Nat :=
  let o := vDecode (BitVec.ofNat 96 n)
  let cvt := o.op == 0x12 || o.op == 0x13
  flag (bits n 11 0 != 0) rcImageMalformed ++
  flag (o.op == 0x0B || decide (0x17 < o.op) || decide (5 < o.ty) || o.kind == 3 ||
    (decide (9 < o.tgt) && !([0x10, 0x11, 0x12].contains o.tgt)) || (cvt && decide (o.tgt ≤ 9) && !x.formats.testBit o.tgt))
    rcReservedOpcode ++
  flag (o.memSel && ((o.kind == 0 && decide (2044 < o.idx)) || (o.kind == 1 && decide (959 < o.idx)) || (o.kind == 2 && decide (1020 < o.idx))))
    rcAccRange

/-- One past the last source of `len` units from `idx`, in sources of `size` bytes. -/
def srcEnd (idx len size : Nat) : Nat := idx + ceilDiv (64 * len) size

/-- An X slot (R74, R75, R81). -/
def xFaults (x : LoadCtx) (l : LLane) (n : Nat) : List Nat :=
  let w : DWord := BitVec.ofNat 64 n
  let op := xOp w
  let k := xKind w
  let moves := op == 0 || op == 2
  flag (bits n 14 0 != 0) rcImageMalformed ++ flag (decide (5 < op)) rcReservedOpcode ++ flag (l.shared && k != 3) rcSlotField ++
  flag (moves && decide (k < 3) && decide (nth 0 [960, 1024, 32] k < srcEnd (xIdx w) (xLen w) (nth 1 [272, 64, 256] k))) rcAccRange ++
  flag (((op == 3 && xTamt w != 0) || op == 4) && decide (l.own ≤ xTctr w)) rcImageMalformed ++
  flag (op == 2 && xTamt w != 0 && decide (x.engTok ≤ xTctr w)) rcImageMalformed ++
  flag (op == 4 && l.ext.testBit (xTctr w)) rcWaitNotYield

/-- An engine lane's W slot (R74, R192); the reserved SRCKIND 3 is a slot field out of range (log entry 64). -/
def wFaults (l : LLane) (n : Nat) : List Nat :=
  let w : DWord := BitVec.ofNat 64 n
  let o := wDecode w
  flag (decide (1 < wOp w) || decide (3 < o.pool)) rcReservedOpcode ++
  flag (o.kind == 3 || (wOp w == 0 && o.oreg != 0) || decide (o.pwh < o.pstr) || decide (o.pww < o.pstr)) rcSlotField ++
  (if o.pool = 0 then
    flag (o.pwh != 1 || o.pww != 1 || o.pstr != 1) rcSlotField ++
    flag (decide (o.kind < 3) && decide (nth 0 [2048, 32, 960] o.kind < srcEnd o.idx o.len (nth 1 [64, 256, 272] o.kind))) rcAccRange
  else
    flag (o.kind != 0 || (decide (o.pool < 3) && decide (o.len < o.pww)) || (o.pool == 3 && (o.pww != 1 || o.pstr != 1))) rcSlotField ++
    flag (decide (2048 < o.idx + o.pwh * o.len)) rcAccRange) ++
  flag (wOp w == 0 && o.tamt != 0 && decide (l.own ≤ o.tctr)) rcImageMalformed

/-- One slot of a lane word. -/
def slotFaults (x : LoadCtx) (l : LLane) (rep : Nat) (e : Nat × Nat) : List Nat :=
  if e.1 = 0 then sFaults x l rep e.2
  else if e.1 = 5 then xFaults x l e.2
  else if l.shared then (if e.1 = 6 then recordFaults l e.2 else postFaults l e.1 e.2)
  else if e.1 = 3 then mFaults x e.2
  else if e.1 = 4 then vFaults x e.2
  else if e.1 = 6 then wFaults l e.2
  else lFaults e.2

/-- One lane word: its header, wait and slots (R69, R72, R81). -/
def wordFaults (x : LoadCtx) (l : LLane) (w : LWord) : List Nat :=
  let e := nth 0 l.wct (w.tag - 1)
  flag (bits w.hdr 31 24 != 0 || decide (l.wct.length < w.tag)) rcImageMalformed ++
  flag (w.tag != 0 && decide (w.tag ≤ l.wct.length) && l.ext.testBit (bits e 7 0) && (!w.isYield || (w.rep != 0 && e.testBit 9)))
    rcWaitNotYield ++
  w.slots.flatMap (slotFaults x l w.rep)

/-- One lane (R69 to R83). -/
def laneFaults (x : LoadCtx) (interval depth : Nat) (l : LLane) : List Nat :=
  let n := l.words.length
  let sites := l.sites x.raggedMax
  let deepest := (List.range n).foldl (fun m i => max m (sites.filter fun y => y.holds i).length) 0
  let shape := (l.words.getLast?.map (·.sOp)) != some 0x19 || nestBad n sites ||
    (l.words.zipIdx.any fun e => (e.1.branch e.2).any (branchBad n sites e.2)) ||
    (l.wct.any fun e => bits e 15 10 != 0 || decide (l.own ≤ bits e 7 0)) || decide (2 ^ l.own ≤ l.ext)
  flag shape rcImageMalformed ++ l.words.flatMap (wordFaults x l) ++
  flag (decide (depth < deepest) || (!shape && match l.span sites 5 0 n with
    | none => true
    | some y => y.inner.any (interval < ·))) rcYieldUnproven

/-! ### Tables -/

/-- Whether a compiled DST lists a region. -/
def dstNames (dst : List Byte) (r : Nat) : Bool := u8 dst (0x80 + 8 * r) == 1

/-- A reserved field of a compiled DST that is not zero (R476). -/
def dstReserved (d : List Byte) : Bool :=
  u8 d 3 != 0 || u32 d 0x0C != 0 || !allZero d 0x38 8 || !allZero d 0xDF8 520 ||
  ((List.range 16).any fun i => u8 d (0x83 + 8 * i) != 0 || u16 d (0x86 + 8 * i) != 0) ||
  (List.range 255).any fun i => u8 d (0x603 + 8 * i) != 0

/-- A yield entry that stands on no YIELD lane word, or whose ranges run past LIVE_RANGES. -/
def yieldBad (lanes : List LLane) (n ranges : Nat) (e : List Byte) : Bool :=
  let lane := u8 e 0
  let words := if lane = 255 then (lanes.getLast?.map (·.words)).getD []
    else if lane < n then (lanes[lane]?.map (·.words)).getD [] else []
  u8 e 1 != 0 || u32 e 0x0C != 0 || decide (ranges < u32 e 8 + u16 e 2) || !((words[u32 e 4]?.map LWord.isYield).getD false)

/-- A live range. -/
def liveBad (dst e : List Byte) : Bool :=
  decide (15 < u8 e 0) || !allZero e 1 3 || u32 e 0x0C != 0 || u32 e 4 % 64 != 0 || u32 e 8 % 64 != 0 || u32 e 8 == 0 || !dstNames dst (u8 e 0)

/-- A window entry's fields (R114, R475). -/
def winEntryBad (n : ImageNeeds) (dst e : List Byte) : Bool :=
  let back := u8 e 1
  u8 e 0 != 0 || decide (1 < back) || (if back = 1 then u8 e 2 != 0 else decide (15 < u8 e 2) || !dstNames dst (u8 e 2)) ||
  decide (7 < u8 e 3) || u32 e 4 != 0 || u64 e 8 % 64 != 0 || u64 e 0x10 % 64 != 0 || u32 e 0x1C != 0 ||
  (u8 e 0x18 != 0xFF && decide (n.lanes ≤ u8 e 0x18)) ||
  (u16 e 0x1A != 0 && decide ((if u8 e 0x18 = 0xFF then n.sharedTokens else n.engineTokens) < u8 e 0x19 + u16 e 0x1A))

/-- Records of `n` bytes. -/
def recordsOf (n : Nat) (b : List Byte) : List (List Byte) := (List.range (b.length / n)).map fun i => slice b (n * i) n

/-- The faults of the tables of an image. -/
def tablesBad (b : List Byte) (lanes : List LLane) : Bool :=
  let n := hNeeds b
  let dst := hBytes b 3
  let y := recordsOf 16 (hBytes b 2)
  dstReserved dst || !dstNames dst (bits n.codeDst 31 28) || (n.windows != 0 && !dstNames dst (bits n.handleTable 31 28)) ||
  ((y.take (hYieldPoints b)).any (yieldBad lanes n.lanes (hLiveRanges b))) || ((y.drop (hYieldPoints b)).any (liveBad dst)) ||
  ((recordsOf 32 (hBytes b 4)).any (winEntryBad n dst)) ||
  ((recordsOf 32 (hBytes b 5)).any fun e => decide (1 < u8 e 0x18) || !allZero e 0x19 7)

/-- Checks 2 to 10, in order. -/
def loadOrder : List Nat :=
  [rcImageMalformed, rcReservedOpcode, rcOperandPair, rcAccRange, rcMxPairing, rcSlotField, rcRepeatControl, rcWaitNotYield,
   rcYieldUnproven]

/-- The first of checks 2 to 10 that an image fails. -/
def imageCheck (b : List Byte) : Option Nat :=
  if shapeBad b then some rcImageMalformed
  else match loadLanes b with
    | none => some rcImageMalformed
    | some lanes =>
      let n := hNeeds b
      let x : LoadCtx := ⟨u16 b 0x12, n.raggedMax, n.engineTokens⟩
      let fs := flag (tablesBad b lanes) rcImageMalformed ++ lanes.flatMap (laneFaults x n.yieldInterval (u8 b 0x11))
      loadOrder.find? fs.contains

/-- The image that a slot's bytes hold; its windows and data area are still to be given. -/
def buildImage (slot : Nat) (b : List Byte) : Image :=
  let n := hNeeds b
  let lanes := (loadLanes b).getD []
  let area := codeArea b
  let y := recordsOf 16 (hBytes b 2)
  { slot := slot, needs := n, codeLow := area.1, codeSize := area.2
    code := lanes.zipIdx.map fun e => ⟨(laneEntry b e.2).1, (laneEntry b e.2).2.1, e.1.wct.map (BitVec.ofNat 32)⟩
    loops := lanes.flatMap fun l => (l.sites n.raggedMax).filter fun x => ((l.words[x.word]?).map LWord.sOp) == some 0x15
    yields := (y.take (hYieldPoints b)).map fun e => ⟨u8 e 0, u32 e 4, u32 e 8, u16 e 2⟩
    live := (y.drop (hYieldPoints b)).map fun e => ⟨u8 e 0, u32 e 4, u32 e 8⟩
    dst := hBytes b 3
    models := (recordsOf 32 (hBytes b 5)).map fun e => ⟨slice e 0 16, u64 e 0x10, bitAt (u8 e 0x18) 0⟩
    external := lanes.map (·.ext) }

/-- The window entries of an image. -/
def imageWindows (b : List Byte) : List (List Byte) := recordsOf 32 (hBytes b 4)

end Sys2Proof.Machine
end

