-- ==== Sys2Proof/Machine/CmdTable.lean ====
section
/-! DEFINITION. The host's command set: opcodes, where each may be submitted, the layout of its inline arguments, the
size of its argument block and of its returned data (R319, R330, R473; log entry 40 for the widths of inline
arguments that no rule states). -/

namespace Sys2Proof.Machine

/-- Column Q of R330: Q00 only, a queue bound to the command's partition, any queue. -/
inductive Col where
  | admin
  | bound
  | any
  deriving DecidableEq, Repr

/-- Where a command's partition stands. -/
inductive PartAt where
  | nowhere
  | inline (o : Nat)
  | block (o : Nat)
  deriving DecidableEq, Repr

/-- A command: opcode, column Q, inline arguments (offset, size, highest value), size of its argument block (none where a
count gives it), least DATA_LEN (0 where it returns no data), and where its partition stands. -/
structure CmdSpec where
  op : Nat
  col : Col
  args : List (Nat × Nat × Nat) := []
  block : Option Nat := some 0
  data : Nat := 0
  part : PartAt := .nowhere
  deriving DecidableEq, Repr

def aPart : Nat × Nat × Nat := (0, 1, 15)
def aCtx : Nat × Nat × Nat := (1, 1, 7)
def aAny (o n : Nat) : Nat × Nat × Nat := (o, n, 2 ^ (8 * n) - 1)

def cmdDevice : List CmdSpec := [
  { op := 0x0101, col := .admin, data := 64 },
  { op := 0x0102, col := .admin, args := [(0, 1, 1)] },
  { op := 0x0103, col := .admin, args := [aAny 0 8], block := some 1008 },
  { op := 0x0104, col := .admin, block := some 32 },
  { op := 0x0105, col := .admin, args := [(0, 1, 63)] },
  { op := 0x0106, col := .admin, args := [(0, 1, 63)] },
  { op := 0x0107, col := .any, args := [(0, 1, 63)] },
  { op := 0x0108, col := .admin, args := [(0, 1, 7), aAny 2 2, aAny 4 4] }]

def cmdPart : List CmdSpec := [
  { op := 0x0201, col := .admin, block := some 128, part := .block 0 },
  { op := 0x0202, col := .admin, args := [aPart], part := .inline 0 },
  { op := 0x0203, col := .admin, args := [aPart], part := .inline 0 },
  { op := 0x0204, col := .admin, args := [aPart], part := .inline 0 },
  { op := 0x0205, col := .admin, args := [aPart, aAny 1 1], part := .inline 0 },
  { op := 0x0206, col := .bound, args := [aPart], data := 4096, part := .inline 0 },
  { op := 0x0301, col := .bound, args := [aPart, aCtx, (2, 2, 4095)], part := .inline 0 },
  { op := 0x0302, col := .bound, args := [aPart, aCtx], part := .inline 0 },
  { op := 0x0401, col := .bound, args := [aPart, (2, 2, 4095), (4, 1, 1)], part := .inline 0 },
  { op := 0x0402, col := .bound, args := [aPart, aAny 16 16], part := .inline 0 },
  { op := 0x0403, col := .bound, args := [aPart, aAny 16 16], part := .inline 0 },
  { op := 0x0404, col := .bound, args := [aPart], data := 2048, part := .inline 0 },
  { op := 0x0501, col := .bound, block := none, part := .block 0 },
  { op := 0x0502, col := .bound, args := [aPart, aCtx], part := .inline 0 },
  { op := 0x0503, col := .bound, args := [aPart, aCtx], part := .inline 0 }]

def cmdMem : List CmdSpec := [
  { op := 0x0601, col := .admin, block := some 96, part := .block 0 },
  { op := 0x0602, col := .admin, args := [aPart, (1, 1, 15)], part := .inline 0 },
  { op := 0x0603, col := .admin, args := [aPart, (1, 1, 15), aAny 4 4], part := .inline 0 },
  { op := 0x0604, col := .bound, args := [aPart, (1, 1, 15), aAny 4 4, aAny 8 4, aAny 12 4], part := .inline 0 },
  { op := 0x0605, col := .bound, args := [aPart, (1, 1, 15), (2, 1, 15), aAny 4 4, aAny 8 4, aAny 12 4], part := .inline 0 },
  { op := 0x0606, col := .admin, args := [(0, 2, 543)], data := 32 },
  { op := 0x0607, col := .admin, args := [(0, 1, 7)], data := 128 },
  { op := 0x0608, col := .bound, args := [aPart], data := 40, part := .inline 0 },
  { op := 0x0609, col := .admin, args := [aPart, aAny 8 8, aAny 16 8], part := .inline 0 },
  { op := 0x060A, col := .bound, block := some 32, part := .block 0 },
  { op := 0x060B, col := .bound, args := [aAny 0 8] },
  { op := 0x060C, col := .admin, args := [aAny 0 2] },
  { op := 0x060D, col := .admin, block := none },
  { op := 0x060E, col := .admin, args := [(0, 1, 3)] },
  { op := 0x060F, col := .admin, args := [(0, 1, 3)], data := 64 }]

def cmdKv : List CmdSpec := [
  { op := 0x0610, col := .bound, block := some 16, part := .block 0 },
  { op := 0x0611, col := .bound, block := some 48, part := .block 0 },
  { op := 0x0612, col := .bound, args := [aPart, aAny 2 2, aAny 4 4, aAny 8 8], part := .inline 0 },
  { op := 0x0613, col := .bound, args := [aPart, aAny 2 2, aAny 4 2], part := .inline 0 },
  { op := 0x0614, col := .bound, args := [aPart, aAny 2 2, aAny 4 4], part := .inline 0 },
  { op := 0x0615, col := .bound, args := [aPart, aAny 2 2], part := .inline 0 },
  { op := 0x0616, col := .bound, args := [aPart, aAny 2 2], part := .inline 0 },
  { op := 0x0617, col := .bound, args := [aPart, (1, 1, 4)], part := .inline 0 },
  { op := 0x0618, col := .bound, args := [aPart, (1, 1, 4)], part := .inline 0 },
  { op := 0x0619, col := .bound, args := [aPart], data := 64, part := .inline 0 }]

def cmdSense : List CmdSpec := [
  { op := 0x0701, col := .admin, block := some 64 },
  { op := 0x0702, col := .admin, block := some 96 },
  { op := 0x0703, col := .admin, block := none },
  { op := 0x0704, col := .admin, block := some 16 },
  { op := 0x0705, col := .admin, args := [aAny 0 1, aAny 2 2], block := none },
  { op := 0x0706, col := .admin, args := [(0, 1, 15)], data := 120 },
  { op := 0x0707, col := .admin, block := some 128 },
  { op := 0x0708, col := .admin, args := [(0, 1, 3)] },
  { op := 0x0709, col := .admin, args := [(0, 1, 3)] }]

def cmdPlan : List CmdSpec := [
  { op := 0x0801, col := .admin, args := [aAny 0 4, aAny 4 4, aAny 8 4, aAny 12 1] },
  { op := 0x0802, col := .admin, block := none },
  { op := 0x0803, col := .admin },
  { op := 0x0804, col := .admin, args := [(0, 2, 4095)] },
  { op := 0x0805, col := .admin },
  { op := 0x0806, col := .admin, args := [aAny 0 1, aAny 1 1], block := none },
  { op := 0x0807, col := .admin, block := none },
  { op := 0x0808, col := .bound, args := [aPart], part := .inline 0 },
  { op := 0x0809, col := .admin, data := 80 }]

def cmdLoop : List CmdSpec := [
  { op := 0x0901, col := .admin, block := some 192 },
  { op := 0x0902, col := .admin, args := [aAny 0 2], block := none },
  { op := 0x0903, col := .admin, args := [(0, 1, 15)], block := some 512 },
  { op := 0x0904, col := .admin, args := [(0, 1, 15)] },
  { op := 0x0905, col := .admin, args := [(0, 1, 15)] },
  { op := 0x0906, col := .admin, args := [(0, 1, 15), aAny 4 4] },
  { op := 0x0907, col := .admin, args := [(0, 1, 15), (1, 1, 15), (2, 1, 15), aAny 4 4, aAny 8 4, (12, 1, 7), (16, 4, 10000000)] },
  { op := 0x0908, col := .admin, args := [(0, 1, 15)] },
  { op := 0x0909, col := .admin, args := [(0, 1, 3)] },
  { op := 0x090A, col := .admin, args := [(0, 1, 15)], data := 80 },
  { op := 0x090B, col := .admin, block := some 64 }]

def cmdService : List CmdSpec := [
  { op := 0x0A01, col := .admin, args := [aAny 0 2] },
  { op := 0x0A02, col := .admin, args := [aPart, aAny 2 2] },
  { op := 0x0A03, col := .admin, args := [aPart, (1, 1, 1)] },
  { op := 0x0A04, col := .admin, data := 1024 },
  { op := 0x0B01, col := .admin, block := none },
  { op := 0x0B02, col := .admin, args := [(0, 2, 4095)] },
  { op := 0x0B03, col := .admin, data := 48 },
  { op := 0x0B04, col := .admin, block := none },
  { op := 0x0B05, col := .admin, args := [aAny 0 32], data := 1 },
  { op := 0x0B06, col := .admin, args := [aAny 0 32] },
  { op := 0x0B07, col := .admin, args := [aAny 0 8] },
  { op := 0x0B08, col := .admin, data := 64 },
  { op := 0x0C01, col := .any, args := [aAny 0 32], data := 4096 },
  { op := 0x0C02, col := .admin, args := [(0, 2, 4095), aAny 2 1] },
  { op := 0x0C03, col := .admin, block := some 3200 },
  { op := 0x0C04, col := .admin, block := some 1344 },
  { op := 0x0C05, col := .admin, block := some 3200 },
  { op := 0x0C06, col := .admin, args := [aAny 0 1, aAny 1 1] },
  { op := 0x0D01, col := .admin, args := [aAny 0 8, aAny 8 4], data := 128 },
  { op := 0x0D02, col := .admin, data := 256 }]

/-- Every command of R330. -/
def cmdTable : List CmdSpec := cmdDevice ++ cmdPart ++ cmdMem ++ cmdKv ++ cmdSense ++ cmdPlan ++ cmdLoop ++ cmdService

def cmdSpec (op : Nat) : Option CmdSpec := cmdTable.find? (·.op == op)

/-- The 32 inline bytes. -/
def inlOf (e : Entry) : List Byte := fit 0 32 e.inline

/-- Inline bytes that no argument of the command uses. -/
def CmdSpec.unused (c : CmdSpec) (o : Nat) : Bool := c.args.all fun a => decide (o < a.1) || decide (a.1 + a.2.1 ≤ o)

/-- An inline argument outside its range, or a non-zero unused INLINE byte (R473). -/
def CmdSpec.inlineBad (c : CmdSpec) (l : List Byte) : Bool :=
  (c.args.any fun a => decide (a.2.2 < uN a.2.1 l a.1)) ||
  (List.range 32).any fun o => c.unused o && u8 l o != 0

end Sys2Proof.Machine
end

