-- ==== Sys2Proof/Machine/Cmds.lean ====
section
/-! DEFINITION. The CP's course through a queue: which command's turn it is, the common checks, and how a command ends
(R319, R323, R326 to R330, R387, R473). -/

namespace Sys2Proof.Machine

/-- What a command's own meaning answers: a refusal; a refusal with what the attempt leaves behind (a log record, a slot erased); completion with a RESULT; completion of an empty one; data returned with
a RESULT; completion with another status; it runs on and completes later; it still waits for host data, or for
what the attempt has set going. -/
inductive Done where
  | refuse (code : Nat)
  | refuseWith (code : Nat) (s : State)
  | ok (result : Nat) (s : State)
  | empty (s : State)
  | data (b : List Byte) (result : Nat) (s : State)
  | ends (status : Nat) (s : State)
  | runs (s : State)
  | stay
  | waits (s : State)

/-- The job, and the start of a staging: the next command starts without waiting for their completion (R327). -/
def lets (op : Nat) : Bool := op == 0x0501 || op == 0x0401

/-- Whether a command stands behind none that must complete first (R326, R327). -/
def Queue.free (x : Queue) (before : List Cmd) : Bool :=
  if x.cont then before.all fun c => c.phase == .done || (c.phase == .running && lets c.entry.opcode)
  else !x.stopped && before.all fun c => c.phase == .done && decide (c.status ≤ 1)

/-- The CP runs. -/
def State.cpUp (s : State) : Bool := s.host.bar.cpReady && !s.host.bar.cpRestarting

/-- Whether every command that the fence of `c` names has completed (R328). -/
def State.fenceOpen (s : State) (c : Cmd) : Bool :=
  match c.fence with
  | none => true
  | some (t, n) => (s.queue t).cmds.all fun x => x.phase == .done || decide (n ≤ x.no)

/-- The command of queue `q` whose turn it is. -/
def State.turn (s : State) (q : Nat) : Option Cmd :=
  let x := s.queue q
  let l := x.cmds.filter fun c => !c.held
  match l.find? (·.phase == .waiting) with
  | none => none
  | some c =>
    if x.live && s.cpUp && x.free (l.takeWhile fun d => d.phase != .waiting) && s.fenceOpen c then some c else none

/-- The partition that a command names; none where its block has not been read. -/
def CmdSpec.partition (c : CmdSpec) (inl : List Byte) (blk : Option (List Byte)) : Option Nat :=
  match c.part with
  | .nowhere => none
  | .inline o => some (u8 inl o)
  | .block o => blk.map fun b => u8 b o

/-- Queue `q` is bound to partition `p` (R221, R330). -/
def State.bound (s : State) (q p : Nat) : Bool :=
  decide (p < 16) && q != 0 && (s.part p).state != .free && (s.part p).cfg.queueMask.testBit q

/-- A command of column P on another queue than Q00 names, in its entry and in its arguments, a partition that binds the
queue. -/
def State.notBound (s : State) (c : CmdSpec) (q : Nat) (e : Entry) (blk : Option (List Byte)) : Bool :=
  c.col == .bound && q != 0 &&
  (!s.bound q e.partition || match c.partition (inlOf e) blk with
    | none => false
    | some p => !s.bound q p)

/-- Whether ARG_LEN is the size of the command's argument block; a count that stands in a block not yet read lets any length
pass (R319). -/
def argLenOk (c : CmdSpec) (e : Entry) (blk : Option (List Byte)) : Bool :=
  let n := e.argLen
  let inl := (inlOf e)
  decide (n ≤ 1048576) &&
  match c.block with
  | some k => n == k
  | none =>
    if c.op = 0x0501 then decide (64 ≤ n) && blk.all fun b => n == 64 + 8 * u16 b 0x20
    else if c.op = 0x060D then n % 4 == 0
    else if c.op = 0x0703 then decide (80 ≤ n) && blk.all fun b => n == 2128 + 16 * u8 b 0x01
    else if c.op = 0x0705 then n == u16 inl 2
    else if c.op = 0x0802 then n % 48 == 0
    else if c.op = 0x0806 then n == 16 * u8 inl 1
    else if c.op = 0x0807 then decide (32 ≤ n) && blk.all fun b => n == 32 + 256 * u16 b 0x02
    else if c.op = 0x0902 then n % 8 == 0
    else if c.op = 0x0B01 then decide (32 ≤ n) && blk.all fun b => n == 32 + u32 b 0x10
    else decide (64 ≤ n) && blk.all fun b => n == 64 + u32 b 0x20

/-- Fields of the blocks that chapter 13 owns (R319, R324, R331). -/
def blockBad (op : Nat) (b : List Byte) : Bool :=
  if op = 0x0501 then
    !allZero b 3 5 || !allZero b 0x22 6 || !allZero b 0x30 16 || decide (15 < u8 b 0) || decide (7 < u8 b 1) ||
    decide (7 < u8 b 2) || decide (256 < u16 b 0x20) || (u64 b 8 == 0 && u64 b 0x10 != 0)
  else if op = 0x0103 then (List.range 126).any fun i => u64 b (8 * i) % 4096 != 0
  else false

/-- The entry rules of R319 and R473 (3). -/
def entryBad (c : CmdSpec) (e : Entry) (blk : Option (List Byte)) : Bool :=
  e.reserved != 0 || decide (1 < e.flags) || e.argAddr % 64 != 0 || e.dataAddr % 64 != 0 ||
  (e.argLen == 0 && e.argAddr != 0) || (c.data == 0 && e.dataAddr != 0) ||
  !argLenOk c e blk || c.inlineBad (inlOf e) || blk.any (blockBad c.op)

/-- Commands that are refused unless their partition is ENABLED, and those whose own checks govern (R473). -/
def needsEnabled (op : Nat) : Bool := [0x0501, 0x060A, 0x0808].contains op
def ownState (op : Nat) : Bool := [0x0201, 0x0202, 0x0203].contains op

def State.badState (s : State) (c : CmdSpec) (p : Nat) : Bool :=
  decide (p < 16) &&
  (if needsEnabled c.op then (s.part p).state != .enabled
   else decide (0x0200 ≤ c.op) && decide (c.op < 0x0700) && !ownState c.op && (s.part p).state == .free)

/-- Commands that the CP accepts in RETIRED (R387). -/
def retiredOk (op : Nat) : Bool := (decide (0x0101 ≤ op) && decide (op ≤ 0x0107)) || [0x0A04, 0x0B08, 0x0D01, 0x0D02].contains op

/-- The common checks of R473, in order, with R387 behind them. -/
def State.common (s : State) (q : Nat) (e : Entry) (blk : Option (List Byte)) : Option Nat :=
  match cmdSpec e.opcode with
  | none => some rcUnknownCommand
  | some c => firstFail [
      (q == 0 && s.host.session.isNone && !(decide (0x0101 ≤ c.op) && decide (c.op ≤ 0x0103)), rcNoSession),
      (c.col == .admin && q != 0, rcAdminOnly),
      (s.notBound c q e blk, rcNotBound),
      (entryBad c e blk, rcEntryMalformed),
      (c.data != 0 && e.dataLen == 0, rcZeroSize),
      (decide (e.dataLen < c.data), rcDataShort),
      ((c.partition (inlOf e) blk).any (s.badState c), rcPartitionState),
      (s.lan.life == .retired && !retiredOk c.op, rcLifecycle)]

/-- The inline bytes and the argument block. -/
def Cmd.inl (c : Cmd) : List Byte := (inlOf c.entry)
def Cmd.blk (c : Cmd) : List Byte := c.block.getD []

/-- An accepted command is measured (R398): its arguments are the inline bytes, then the block. -/
def State.accept (s : State) (c : Cmd) : State := s.measureArgs c.entry.opcode (c.inl ++ c.blk)

/-- A command is refused, with no effect (R320). -/
def State.refuse (s : State) (q no code : Nat) : State := s.finish q no stRefused code 0 0

/-- The end of a command's turn. -/
def State.settle (s : State) (q : Nat) (c : Cmd) : Done → State
  | .refuse code => s.refuse q c.no code
  | .refuseWith code t => t.refuse q c.no code
  | .ok r t => (t.accept c).finishOk q c.no r
  | .empty t => (t.accept c).finish q c.no stOkEmpty 0 0 0
  | .data b r t => ((t.accept c).hostWrite c.entry.dataAddr b).finishOk q c.no r
  | .ends st t => t.finish q c.no st 0 0 0
  | .runs t => (t.accept c).modCmd q c.no fun x => if x.phase = .waiting then { x with phase := .running } else x
  | .stay => s
  | .waits t => t

/-- Whether the argument block of a command is here. -/
def Cmd.ready (c : Cmd) : Bool := c.entry.argLen == 0 || c.block.isSome

/-- The turn of a command of opcode `op` that is `mine`: the common checks, then its own meaning. -/
def State.serve (s : State) (q op : Nat) (mine : Cmd → Bool) (f : State → Cmd → Done) : State :=
  match s.turn q with
  | none => s
  | some c =>
    if c.entry.opcode != op || !c.ready || !mine c then s
    else match s.common q c.entry c.block with
      | some code => s.refuse q c.no code
      | none => s.settle q c (f s c)

/-- Every command of the opcode. -/
def always (_ : Cmd) : Bool := true

/-- A meaning that answers at once from the inline bytes and the block. -/
def State.serveArgs (s : State) (q op : Nat) (f : State → List Byte → List Byte → Done) : State :=
  s.serve q op always fun t c => f t c.inl c.blk

end Sys2Proof.Machine
end

