-- ==== Sys2Proof/Machine/HostEvents.lean ====
section
/-! DEFINITION. The endpoint, BAR0, the rings and MSI-X: what the host's register writes do, the fetch of a command, the
posting of completions, and reads from host memory (R315 to R328). -/

namespace Sys2Proof.Machine

def State.modHost (s : State) (f : HostIf → HostIf) : State := { s with host := f s.host }
def State.modBar (s : State) (f : Bar0 → Bar0) : State := s.modHost fun h => { h with bar := f h.bar }

/-- A message of a vector: sent, or kept in the PBA while the vector is masked (R321). -/
def State.message (s : State) (v : Nat) : State :=
  if Map.get true s.host.bar.msixMasked v then s.modBar fun b => { b with pba := Map.set false b.pba v true }
  else s.emit (.msix v)

/-- SQ_TAIL: entries become ready; a tail at or above the ring size sets the queue FAULTED (R318). -/
def execSqTail (q v : Nat) (s : State) : Res :=
  let x := s.queue q
  let t := v % 8192
  if !x.live || x.faulted then .next s
  else if x.sqSize ≤ t then
    .next ((s.setQueue q { x with faulted := true }).notice noticeQueueFaulted 0xFF [BitVec.ofNat 8 q])
  else .next (s.setQueue q { x with sqTail := t })

/-- CQ_HEAD: entries are consumed and the message of this CQ is armed again; a head at or above the ring size is ignored
(R318, R321; log entry 41). -/
def execCqHead (q v : Nat) (s : State) : Res :=
  let x := s.queue q
  let h := v % 8192
  if !x.live || x.cqSize ≤ h then .next s
  else
    let n := (h + x.cqSize - x.cqHead) % x.cqSize
    let took := if n = 0 && x.unconsumed = x.cqSize then x.cqSize else n
    .next (s.setQueue q { x with cqHead := h, unconsumed := x.unconsumed - took, signalled := false })

/-- NOTICE_HEAD: notices are consumed (R322). -/
def execNoticeHead (v : Nat) (s : State) : Res :=
  let r := s.host.notices
  let n := s.host.bar.noticeSize
  let h := v % 8192
  if !s.host.bar.adminUp || n ≤ h then .next s
  else
    let k := (h + n - r.head) % n
    let took := if k = 0 && r.count = n then n else k
    .next (s.modHost fun x => { x with notices := { r with head := h, count := r.count - took } })

/-- Whether the admin rings may start (R317). -/
def Bar0.ringsOk (b : Bar0) : Bool :=
  let ok := fun (n : Nat) => decide (2 ≤ n) && decide (n ≤ 4096)
  b.cpReady && b.adminSqBase % 4096 == 0 && b.adminCqBase % 4096 == 0 && b.noticeBase % 4096 == 0 &&
  ok (b.adminSize % 65536) && ok (b.adminSize / 65536) && ok b.noticeSize

/-- ADMIN_ENABLE is set: Q00 and the notice ring start, or ADMIN_FAULT is set (R317); WAKE_N is released (R437). -/
def execAdminEnableSet (s : State) : Res :=
  let b := s.host.bar
  if b.adminUp then .next s
  else if !b.ringsOk then .next (s.modBar fun b => { b with adminEnable := true, adminFault := true })
  else
    let s1 := s.modBar fun b => { b with adminEnable := true, adminFault := false, adminUp := true }
    let old := s.queue 0
    let q0 : Queue :=
      { live := true, cont := true, vector := 0, sqSize := b.adminSize % 65536, cqSize := b.adminSize / 65536,
        sqBase := b.adminSqBase, cqBase := b.adminCqBase, fetched := old.fetched, cmds := old.cmds }
    let s2 := s1.modHost fun h => { h with notices := { dropped := h.notices.dropped } }
    .next { (s2.setQueue 0 q0) with module := { s.module with wake := false } }

/-! ### Detaching (R324) -/

/-- A command that has not started completes with ST_HOST_RESET; one that has, runs on (R324 step 2; log entry 42). -/
def Cmd.hostReset (now : Nat) (c : Cmd) : Cmd :=
  if c.phase == .waiting then { c with phase := .done, status := stHostReset, time := now } else c

/-- The session is detached: the admin rings stop, every queue holds its completions, swap transfers pause. -/
def State.detach (s : State) : State :=
  let attached := s.host.session.isSome
  let ended := s.host.queues.flatMap fun e => ((e.2.cmds.map (Cmd.hostReset s.now)).filter (·.phase == .done)).map fun c => (e.1, c.no)
  let qs := s.host.queues.map fun e =>
    let x := e.2
    let cs := x.cmds.map (Cmd.hostReset s.now)
    if e.1 = 0 then
      (0, { x with live := false, cmds := if attached then cs.map fun c => { c with held := true } else cs.filter (·.held) })
    else (e.1, { x with cmds := cs })
  let s1 := s.modHost fun h => { h with
    bar := { h.bar with adminUp := false, adminEnable := false }
    queues := qs
    session := none
    detached := if attached then h.session else h.detached
    swapPaused := true }
  if attached then ended.foldl (fun t c => t.recWrite (.held c.1 c.2)) s1 else s1

/-- ADMIN_ENABLE is cleared (R317, R324). -/
def execAdminEnableClear (s : State) : Res :=
  if s.host.bar.adminUp then .next s.detach
  else .next (s.modBar fun b => { b with adminEnable := false })

/-- PERST_N, hot reset, FLR, D3hot exit: BAR0 returns to its reset values and the MSI-X table is cleared (R315, R324). -/
def execEndpointReset (kind : EndpointReset) (s : State) : Res :=
  let s1 := match kind with
    | .perst => s.detach
    | .hotReset => s.detach
    | .flr => s.detach
    | .d3hotExit => s.detach
  .next (s1.modBar fun b => { cpReady := b.cpReady, cpRestarting := b.cpRestarting })

/-! ### BAR0 (R317) -/

/-- A 32-bit write at word `w` of the MSI-X table; bit 0 of a vector's control word masks it (R321). -/
def State.msixWord (s : State) (w v : Nat) : State :=
  let s1 := s.modBar fun b => { b with msixTable := Map.set 0 b.msixTable w (BitVec.ofNat 32 v) }
  if w % 4 != 3 then s1
  else
    let k := w / 4
    let s2 := s1.modBar fun b => { b with msixMasked := Map.set true b.msixMasked k (v % 2 == 1) }
    if v % 2 == 0 && Map.get false s.host.bar.pba k then
      (s2.modBar fun b => { b with pba := Map.set false b.pba k false }).message k
    else s2

/-- The high or low half of a 64-bit register is replaced. -/
def highHalf (old v : Nat) : Nat := old % 2 ^ 32 + 2 ^ 32 * (v % 2 ^ 32)
def lowHalf (old v : Nat) : Nat := v % 2 ^ 32 + 2 ^ 32 * (old / 2 ^ 32)

/-- A 32-bit write of an ADMIN or NOTICE register, or of half of one; other offsets ignore it. -/
def Bar0.write32 (b : Bar0) (offset v : Nat) : Bar0 :=
  match offset with
  | 0x10 => { b with adminSqBase := lowHalf b.adminSqBase v }
  | 0x14 => { b with adminSqBase := highHalf b.adminSqBase v }
  | 0x18 => { b with adminCqBase := lowHalf b.adminCqBase v }
  | 0x1C => { b with adminCqBase := highHalf b.adminCqBase v }
  | 0x20 => { b with adminSize := v % 2 ^ 32 }
  | 0x24 => { b with noticeSize := v % 2 ^ 32 }
  | 0x28 => { b with noticeBase := lowHalf b.noticeBase v }
  | 0x2C => { b with noticeBase := highHalf b.noticeBase v }
  | _ => b

/-- A 32-bit write where BAR0 has no behaviour of its own: the ADMIN and NOTICE registers ignore it while the admin ring is
up. -/
def State.barWrite32 (s : State) (offset v : Nat) : State :=
  if 0x8000 ≤ offset && offset < 0x8400 then s.msixWord ((offset - 0x8000) / 4) (v % 2 ^ 32)
  else if s.host.bar.adminUp then s
  else s.modBar fun b => b.write32 offset v

/-- REGISTER_WRITE: an aligned write of 32 bits, or of 64 as its two words, low half first; every other offset ignores it. -/
def execRegisterWrite (offset : Nat) (v : BarValue) (s : State) : Res :=
  if v.wide then
    .next (if offset % 8 = 0 then (s.barWrite32 offset v.value).barWrite32 (offset + 4) (v.value / 2 ^ 32) else s)
  else .next (if offset % 4 = 0 then s.barWrite32 offset v.value else s)

/-- DEV_STATUS; its reserved bits read 0. -/
def State.devStatus (s : State) : Nat :=
  let h := s.host
  let held := h.detached.isSome && h.queues.any fun e => !e.2.cmds.isEmpty
  h.bar.cpReady.toNat + 2 * h.bar.adminUp.toNat + 4 * h.session.isSome.toNat + 8 * held.toNat + 16 * h.bar.cpRestarting.toNat +
  32 * h.bar.adminFault.toNat + 256 * s.lan.life.code

/-- Bit `i` of a word for each `i` below 64 that a test names. -/
def maskWord (f : Nat → Bool) : Nat := sumNat ((List.range 64).map fun i => (f i).toNat * 2 ^ i)

/-- The registers of 64 bits. -/
def State.barWide (s : State) (offset : Nat) : Option Nat :=
  match offset with
  | 0x10 => some s.host.bar.adminSqBase
  | 0x18 => some s.host.bar.adminCqBase
  | 0x28 => some s.host.bar.noticeBase
  | 0x30 => some (s.clk.cp % 2 ^ 64)
  | 0x38 => some (maskWord fun q => (s.queue q).unconsumed != 0)
  | 0x9000 => some (maskWord fun v => Map.get false s.host.bar.pba v)
  | _ => none

/-- What a 32-bit read of BAR0 returns, but for the latch: the current value of RO and RW registers, the value last written of
the MSI-X table with the mask bit as it stands, 0 of WO registers, of reserved bits and of offsets not listed (R8, R9, R317). -/
def State.barWord (s : State) (offset : Nat) : Nat :=
  match offset with
  | 0x00 => 0xA6400001
  | 0x04 => s.devStatus
  | 0x08 => s.host.bar.adminEnable.toNat
  | 0x20 => s.host.bar.adminSize
  | 0x24 => s.host.bar.noticeSize
  | _ =>
    if 0x8000 ≤ offset && offset < 0x8400 then
      let w := (offset - 0x8000) / 4
      let v := (Map.get 0 s.host.bar.msixTable w).toNat
      if w % 4 = 3 then v - v % 2 + (Map.get true s.host.bar.msixMasked (w / 4)).toNat else v
    else match s.barWide offset with
      | some v => v % 2 ^ 32
      | none => ((s.barWide (offset - 4)).map fun v => v / 2 ^ 32).getD 0

/-- A read of BAR0, of 64 bits where `wide`: what it returns, and the state after it. A 32-bit read of the low half of a 64-bit
register latches the high half, which the next read of the high half returns (R317). No row of the table is a read: log
entry 172. -/
def State.barRead (s : State) (offset : Nat) (wide : Bool) : Nat × State :=
  if wide then (s.barWord offset + 2 ^ 32 * s.barWord (offset + 4), s)
  else match s.barWide offset with
    | some v => (v % 2 ^ 32, s.modBar fun b => { b with latch := some (offset + 4, v / 2 ^ 32) })
    | none => match s.host.bar.latch with
      | some (o, v) => if o = offset then (v, s.modBar fun b => { b with latch := none }) else (s.barWord offset, s)
      | none => (s.barWord offset, s)

/-- MSIX_UNMASK: a vector is unmasked, and its pending message is sent (R321). -/
def execMsixUnmask (vector : Nat) (s : State) : Res :=
  if vector < 64 then .next (s.msixWord (4 * vector + 3) 0) else .next s

/-! ### Fetch and completion -/

/-- Whether the CP may fetch from queue `q` (R318, R324). -/
def State.mayFetch (s : State) (q : Nat) : Bool :=
  let x := s.queue q
  x.live && !x.faulted && s.cpUp && s.host.bar.adminUp && (q == 0 || s.host.session.isSome) && x.sqHead != x.sqTail &&
  decide (x.cmds.length + x.unconsumed < x.cqSize)

/-- COMMAND_FETCH: an entry is fetched. After a failure under the stop policy it completes as aborted (R326). It is refused
at once for an unknown opcode, and for any other common check when no command fetched before it is still to run; else the
checks are made as its turn comes. -/
def execCommandFetch (q : Nat) (e : Entry) (s : State) : Res :=
  if !s.mayFetch q then .next s
  else
    let x := s.queue q
    let no := x.fetched
    let fence := if e.opcode = 0x0107 then
        let t := u8 (inlOf e) 0
        some (t, if t = q then no else (s.queue t).fetched)
      else none
    let c : Cmd := { no := no, entry := e, fence := fence }
    let first := (x.cmds.filter fun d => !d.held).all (·.phase == .done)
    let s1 := s.setQueue q { x with sqHead := (x.sqHead + 1) % x.sqSize, fetched := no + 1, cmds := x.cmds ++ [c] }
    if x.stopped then .next (s1.finish q no stAbortedByPredecessor 0 0 0)
    else match s.common q e none with
      | some code => .next (if code = rcUnknownCommand || first then s1.refuse q no code else s1)
      | none => .next s1

/-- The completion of a command is written to its CQ, and its vector's message sent (R320, R321). -/
def State.postEntry (s : State) (q : Nat) (c : Cmd) : State :=
  let x := s.queue q
  let s1 := s.emit (.completion q c.entry.cid x.sqHead c.status (if c.status = stRefused then c.reason else 0)
    (if c.status = stRefused then 0 else c.result) c.time c.aux x.phase)
  let wraps := x.cqTail + 1 == x.cqSize
  let quiet := bitAt c.entry.flags 0 || x.signalled
  let y := { x with
    cqTail := if wraps then 0 else x.cqTail + 1
    phase := if wraps then !x.phase else x.phase
    unconsumed := x.unconsumed + 1
    signalled := x.signalled || !quiet
    cmds := x.cmds.filter (·.no != c.no) }
  let s2 := s1.setQueue q y
  if quiet then s2 else s2.message x.vector

/-- After a failure of a queue under the stop policy it is stopped, and what was fetched after it is aborted (R326). -/
def State.stopQueue (s : State) (q : Nat) (c : Cmd) : State :=
  let x := s.queue q
  if x.cont || c.status ≤ 1 then s
  else s.setQueue q { x with
    stopped := true
    cmds := x.cmds.map fun d => if d.no ≤ c.no then d
      else { d with phase := .done, status := stAbortedByPredecessor, reason := 0, result := 0, aux := 0, time := s.now } }

/-- The command of queue `q` whose completion comes next: in the order of the SQ; commands of an earlier Q00 ring have an
order of their own (R325). -/
def State.nextPost (s : State) (q : Nat) : Option Cmd :=
  let up := s.host.bar.adminUp && s.cpUp
  let attached := s.host.session.isSome
  let l := (s.queue q).cmds
  let front := fun (x : List Cmd) => x.head?.filter fun c => c.phase == .done
  if !up || !(s.queue q).live then none
  else
    let a := if q == 0 || attached then front (l.filter fun c => !c.held) else none
    if a.isSome then a else if attached then front (l.filter (·.held)) else none

/-- COMPLETION_POST (R316, R325). -/
def execCompletionPost (q : Nat) (s : State) : Res :=
  match s.nextPost q with
  | none => .next s
  | some c => .next ((s.stopQueue q c).postEntry q c)

/-- HOST_READ_RETURN: a poisoned TLP ends the command that issued the read with ST_HOST_READ_FAULT (R315). -/
def execHostReadReturn (r : HostRead) (s : State) : Res :=
  match s.cmd r.q r.cmd with
  | none => .next s
  | some c =>
    if !s.host.bar.adminUp then .next s
    else if r.what = 3 then
      if r.poisoned && c.phase == .running then
        .next ((List.range 16).foldl (fun t p => (List.range 8).foldl (fun u k =>
          if ((u.ctx p k).job.bind (·.cmd)) == some (r.q, r.cmd) then u.endJob p k stHostReadFault else u) t) s)
      else .next s
    else if c.phase != .waiting then .next s
    else if r.poisoned then .next (s.finish r.q r.cmd stHostReadFault 0 0 0)
    else .next (s.modCmd r.q r.cmd fun d =>
      if r.what = 0 then { d with block := if d.block.isNone then some (fit 0 d.entry.argLen r.bytes) else d.block }
      else if r.what = 1 then { d with table := if d.table.isNone then some r.bytes else d.table }
      else if r.what = 2 then { d with tokens := if d.tokens.isNone then some r.bytes else d.tokens }
      else d)

end Sys2Proof.Machine
end

