-- ==== Sys2Proof/Machine/SessionCmds.lean ====
section
/-! DEFINITION. Device, session and queue commands, and device.arbiter_configure (R239, R323 to R330). -/

namespace Sys2Proof.Machine

/-- `n` bytes that the spec leaves open, from the free value numbered `seed`. -/
def openBytes (seed n : Nat) : List Byte := (List.range n).map fun k => (Config.freeWord (seed + k)).truncate 8

/-- device.identify: the layout of the 64-byte record is not laid down (log entry 43). -/
def execDeviceIdentify (q : Nat) (s : State) : Res :=
  .next (s.serveArgs q 0x0101 fun t _ _ => .data (openBytes (t.take 64).1 64) 0 (t.take 64).2)

/-- A queue that is gone keeps only the number of its next fetch. -/
def Queue.gone (x : Queue) : Queue := { fetched := x.fetched }

/-- DISCARD: the jobs of Q01 to Q63 end, held completions go, and the queues are destroyed (R323). -/
def State.discard (s : State) : State :=
  let drop := fun (t : State) (p c : Nat) =>
    let t1 := t.modCtx p c fun x => { x with waiting := x.waiting.filter (·.queue == 0) }
    if ((t1.ctx p c).job.map fun j => j.queue != 0).getD false then t1.endJob p c stAborted else t1
  let s1 := (List.range 16).foldl (fun t p => (List.range 8).foldl (fun u c => drop u p c) t) s
  s1.modHost fun h => { h with queues := h.queues.map fun e =>
    if e.1 = 0 then (0, { e.2 with cmds := e.2.cmds.filter fun c => !c.held }) else (e.1, e.2.gone) }

/-- session.open (R323). -/
def State.openSession (s : State) (inl _blk : List Byte) : Done :=
  let discard := u8 inl 0 == 1
  if s.host.session.isSome || (s.host.detached.isSome && !discard) then .refuse rcSession
  else
    let (k, s1) := (if s.host.detached.isSome then s.discard else s).take 1
    let id := (Config.freeWord k).toNat
    .ok id (s1.modHost fun h => { h with session := some id, detached := none, swapPaused := false })

def execSessionOpen (q : Nat) (s : State) : Res := .next (s.serveArgs q 0x0102 State.openSession)

/-- A held completion as it reads back: one that is poisoned is posted with ST_POISON_CONSUMED in its place (R420). -/
def State.readBack (s : State) (q : Nat) (c : Cmd) : Cmd :=
  if s.recBad (.held q c.no) then { c with status := stPoisonConsumed, reason := 0, result := 0, aux := 0 } else c

/-- Held completions of queue `q` are posted in order while there are any; the number posted (R324 step 6). -/
def State.postHeld : Nat → State → Nat → Nat × State
  | 0, s, _ => (0, s)
  | n + 1, s, q =>
    match ((s.queue q).cmds.filter fun c => q != 0 || c.held).head? with
    | none => (0, s)
    | some c =>
      if c.phase != .done then (0, s)
      else
        let d := s.readBack q c
        let (k, t) := State.postHeld n ((s.stopQueue q d).postEntry q d) q
        (k + 1, t)

/-- The queues restart from the base block (R324 step 5); one missing from it is destroyed. -/
def restartQueue (blk : List Byte) (e : Nat × Queue) : Nat × Queue :=
  let x := e.2
  let sq := u64 blk (16 * (e.1 - 1))
  let cq := u64 blk (16 * (e.1 - 1) + 8)
  if e.1 = 0 || !x.live then e
  else if sq = 0 && cq = 0 then (e.1, x.gone)
  else (e.1, { x with
    sqBase := sq, cqBase := cq, sqHead := 0, sqTail := 0, cqTail := 0, cqHead := 0, phase := true, unconsumed := 0
    signalled := false })

/-- session.resume (R324). -/
def State.resumeSession (s : State) (inl blk : List Byte) : Done :=
  if s.host.session.isSome || s.host.detached != some (u64 inl 0) then .refuse rcSession
  else
    let s1 := s.modHost fun h => { h with
      queues := h.queues.map (restartQueue blk)
      session := h.detached
      detached := none
      swapPaused := false }
    let (n, t) := (List.range 64).foldl (fun (a : Nat × State) q =>
      let (k, u) := State.postHeld (a.2.queue q).cmds.length a.2 q
      (a.1 + k, u)) (0, s1)
    .ok n t

def execSessionResume (q : Nat) (s : State) : Res := .next (s.serveArgs q 0x0103 State.resumeSession)

/-- queue.create (R323). -/
def State.createQueue (s : State) (_inl blk : List Byte) : Done :=
  let n := u8 blk 0
  let sq := u16 blk 4
  let cq := u16 blk 6
  match firstFail [
    (sq == 0 || cq == 0, rcZeroSize),
    (n == 0 || decide (63 < n) || decide (1 < u8 blk 1) || decide (63 < u8 blk 2) || u8 blk 3 != 0 || !allZero blk 0x18 8 ||
      decide (sq < 2) || decide (4096 < sq) || decide (cq < 2) || decide (4096 < cq) || u64 blk 8 % 4096 != 0 ||
      u64 blk 0x10 % 4096 != 0, rcQueueMalformed),
    ((s.queue n).live, rcQueueBusy)] with
  | some code => .refuse code
  | none =>
    .ok 0 (s.setQueue n
      { live := true, cont := u8 blk 1 == 1, vector := u8 blk 2, sqSize := sq, cqSize := cq, sqBase := u64 blk 8,
        cqBase := u64 blk 0x10, fetched := (s.queue n).fetched })

def execQueueCreate (q : Nat) (s : State) : Res := .next (s.serveArgs q 0x0104 State.createQueue)

/-- Whether an enabled partition binds the queue. -/
def State.boundByEnabled (s : State) (n : Nat) : Bool :=
  (List.range 16).any fun p => (s.part p).state == .enabled && (s.part p).cfg.queueMask.testBit n

/-- queue.destroy (R323); Q00, or a queue that does not exist, is malformed (log entry 44). -/
def State.destroyQueue (s : State) (inl _blk : List Byte) : Done :=
  let n := u8 inl 0
  let x := s.queue n
  if n = 0 || !x.live then .refuse rcQueueMalformed
  else if !x.cmds.isEmpty || s.boundByEnabled n then .refuse rcQueueBusy
  else .ok 0 (s.setQueue n x.gone)

def execQueueDestroy (q : Nat) (s : State) : Res := .next (s.serveArgs q 0x0105 State.destroyQueue)

/-- queue.restart: RESULT is the SQ index of the first entry the device will execute (R326). -/
def State.restartStopped (s : State) (inl _blk : List Byte) : Done :=
  let n := u8 inl 0
  let x := s.queue n
  if n = 0 || !x.live then .refuse rcQueueMalformed
  else if !x.stopped then .refuse rcQueueBusy
  else .ok x.sqHead (s.setQueue n { x with stopped := false })

def execQueueRestart (q : Nat) (s : State) : Res := .next (s.serveArgs q 0x0106 State.restartStopped)

/-- queue.fence: its turn comes when all it waits for has completed (R328). -/
def execQueueFence (q : Nat) (s : State) : Res :=
  .next (s.serveArgs q 0x0107 fun t inl _ => if (t.queue (u8 inl 0)).live then .ok 0 t else .refuse rcQueueMalformed)

/-! ### device.arbiter_configure (R239) -/

/-- Class bits of slot `s` in a configuration word. -/
def wordClass (w s : Nat) : Nat := bits w (17 + 2 * s) (16 + 2 * s)

/-- A word that the arbiters of a type do not take. -/
def arbWordBad (ty w : Nat) : Bool :=
  bits w 15 12 != 0 || decide (1 < w % 4) || decide (bits w 11 2 < 15) ||
  (List.range 8).any fun k =>
    ((arbFixed ty).contains k || decide (arbSlots ty ≤ k)) && wordClass w k != wordClass (arbReset ty).toNat k

/-- The word of one arbiter is set; a change of MODE clears its wait counts and promotions and starts the ranking. -/
def Arbiter.configure (a : Arbiter) (ty w : Nat) : Arbiter :=
  let v := if BitVec.ofNat 32 w = arbReset ty then none else some (BitVec.ofNat 32 w)
  if a.cfg ty % 4 = w % 4 then { a with word := v } else { a with word := v, waits := [], promo := [], rank := [] }

def State.configureArbiter (s : State) (inl _blk : List Byte) : Done :=
  let ty := u8 inl 0
  let inst := u16 inl 2
  let w := u32 inl 4
  if arbWordBad ty w || (inst != 0xFFFF && decide (arbInstances ty ≤ inst)) then .refuse rcArbiterMalformed
  else
    let l := if inst = 0xFFFF then List.range (arbInstances ty) else [inst]
    .ok 0 (l.foldl (fun t k => t.setArb ty k ((t.arb ty k).configure ty w)) s)

def execDeviceArbiterConfigure (q : Nat) (s : State) : Res := .next (s.serveArgs q 0x0108 State.configureArbiter)

end Sys2Proof.Machine
end

