-- ==== Sys2Proof/Machine/Clash.lean ====
section
/-! DEFINITION. The test of a swept machine against the world (R271, R274, R280, R281, R284, R285): poses, shapes, and the distance
of a segment from a shape in fixed point of 2^-40 m. A distance more than 1 mm under the limit is a sure contact, one more than
1 mm over it is none, each with 2^-20 m to spare for the fixed point, and between them, as beyond 10 km from the world origin, R285
leaves either (log entry 55). -/

namespace Sys2Proof.Machine

/-! ### Fields (points in units of 2^-40 m) -/

/-- An FP32 word of a record in units of 2^-149. -/
def unitsAt (p : List Byte) (o : Nat) : Int := (fp32 (BitVec.ofNat 32 (u32 p o))).scaled (-149)

/-- `n` mm in units of 2^-40 m. -/
def mmUnits (n : Int) : Int := n * ((2 ^ 40 : Nat) : Int) / 1000

/-- An FP32 word of a record in units of 2^-40 m; an angle, its whole turns taken off, in units of 2^-80. -/
def lenAt (b : List Byte) (o : Nat) : Int := unitsAt b o / ((2 ^ 109 : Nat) : Int)
def angleAt (b : List Byte) (o : Nat) : Int :=
  ((unitsAt b o * ((2 ^ 151 : Nat) : Int) + piWide) % (2 * piWide : Nat) - piWide) / ((2 ^ 220 : Nat) : Int)
def pointAt (b : List Byte) (o : Nat) : V3 := ⟨lenAt b o, lenAt b (o + 4), lenAt b (o + 8)⟩

/-- Whether the FP32 words of a run are all finite. -/
def finiteAt (b : List Byte) (o n : Nat) : Bool := (List.range n).all fun k => (fp32 (BitVec.ofNat 32 (u32 b (o + 4 * k)))).isFin

/-- Within 10 km of the world origin, where R285 bounds the distance. -/
def V3.inBounds (p : V3) : Bool :=
  let far : Nat := 10000 * 2 ^ 40
  decide (p.x.natAbs ≤ far) && decide (p.y.natAbs ≤ far) && decide (p.z.natAbs ≤ far)

/-! ### Shapes -/

/-- What a candidate is tested against: a box given by its centre, the nine entries of its rotation over their common divisor, and
its half extents; a ball; or a triangle. -/
inductive Shape where
  | box (c : V3) (rot : List Int) (norm : Int) (h : V3)
  | ball (c : V3) (r : Int)
  | tri (a b c : V3)
  deriving DecidableEq, Repr

/-- The rotation of a quaternion w, x, y, z, row by row, times its squared norm. -/
def quatRows (w x y z : Int) : List Int :=
  [w * w + x * x - y * y - z * z, 2 * (x * y - w * z), 2 * (x * z + w * y),
   2 * (x * y + w * z), w * w - x * x + y * y - z * z, 2 * (y * z - w * x),
   2 * (x * z - w * y), 2 * (y * z + w * x), w * w - x * x - y * y + z * z]

/-- A primitive record's shape (R271). -/
def shapeOf (b : List Byte) : Shape :=
  let half := fun (o : Nat) => mmUnits (10 * u16 b o : Nat)
  let q := fun (k : Nat) => sext 16 (u16 b (0x18 + 2 * k))
  if u8 b 0 = 1 then .ball (pointAt b 4) (half 0x10)
  else .box (pointAt b 4) (quatRows (q 0) (q 1) (q 2) (q 3)) (q 0 * q 0 + q 1 * q 1 + q 2 * q 2 + q 3 * q 3)
    ⟨half 0x10, half 0x12, half 0x14⟩

/-- Whether R285 bounds distances from a shape. -/
def Shape.inBounds : Shape → Bool
  | .box c _ _ _ => c.inBounds
  | .ball c _ => c.inBounds
  | .tri a b c => a.inBounds && b.inBounds && c.inBounds

/-- A vector in a box's own axes: the rotation's transpose. -/
def toBox (rot : List Int) (norm : Int) (d : V3) : V3 :=
  let m := fun (k : Nat) => nth 0 rot k
  ⟨(m 0 * d.x + m 3 * d.y + m 6 * d.z) / norm, (m 1 * d.x + m 4 * d.y + m 7 * d.z) / norm, (m 2 * d.x + m 5 * d.y + m 8 * d.z) / norm⟩

/-- A value held within ±h. -/
def clampTo (h v : Int) : Int := max (-h) (min h v)

/-- The point of the segment `a b` nearest to `p`. -/
def nearOnEdge (a b p : V3) : V3 :=
  let ab := b.sub a
  let n := (p.sub a).dot ab
  let d := ab.dot ab
  if n ≤ 0 then a else if d ≤ n then b else a.add (ab.frac n d)

/-- The point of a triangle nearest to `p`: on an edge, or within where the foot of the perpendicular lies inside. -/
def nearOnTri (a b c p : V3) : V3 :=
  let best := fun (u v : V3) => if (p.sub v).dot (p.sub v) < (p.sub u).dot (p.sub u) then v else u
  let edge := best (best (nearOnEdge a b p) (nearOnEdge b c p)) (nearOnEdge a c p)
  let ab := b.sub a
  let ac := c.sub a
  let ap := p.sub a
  let d1 := ab.dot ap
  let d2 := ac.dot ap
  let e := ab.dot ab
  let f := ab.dot ac
  let g := ac.dot ac
  let den := e * g - f * f
  let v := g * d1 - f * d2
  let w := e * d2 - f * d1
  if 0 < den && 0 ≤ v && 0 ≤ w && v + w ≤ den then best edge ((a.add (ab.frac v den)).add (ac.frac w den)) else edge

/-- The squared distance from the segment `a b` to a convex body whose nearest point is `near`: the distance along the segment is
convex, and its minimum is bisected by the sign of its slope. -/
def segDist2 (near : V3 → V3) (a b : V3) : Nat :=
  let d := b.sub a
  let at_ := fun (k : Nat) => a.add (d.frac (k : Int) ((2 ^ 40 : Nat) : Int))
  let gap := fun (k : Nat) => (at_ k).sub (near (at_ k))
  let r := (List.range 40).foldl (fun (e : Nat × Nat) _ =>
    let m := (e.1 + e.2) / 2
    if (gap m).dot d < 0 then (m, e.2) else (e.1, m)) (0, 2 ^ 40)
  min ((gap r.1).dot (gap r.1)).toNat ((gap r.2).dot (gap r.2)).toNat

/-- The squared distance from a segment to a shape's body, and the radius that the body carries. -/
def Shape.dist2 (a b : V3) : Shape → Nat × Int
  | .box c rot norm h =>
    (segDist2 (fun p => ⟨clampTo h.x p.x, clampTo h.y p.y, clampTo h.z p.z⟩) (toBox rot norm (a.sub c)) (toBox rot norm (b.sub c)), 0)
  | .ball c r => (segDist2 (fun _ => c) a b, r)
  | .tri u v w => (segDist2 (nearOnTri u v w) a b, 0)

/-! ### The machine (R280, R281) -/

/-- A pose in the plane: position in units of 2^-40 m, cosine and sine in units of 2^-80. -/
structure MPose where
  x : Int
  y : Int
  cos : Int
  sin : Int
  deriving DecidableEq, Repr

/-- `v` in units of 2^-80 times a length. -/
def turned (c l : Int) : Int := c * l / ((2 ^ 80 : Nat) : Int)

/-- The pose of a lattice state. -/
def Lattice.pose (l : Lattice) (x y : Int) (h : Nat) : MPose :=
  let k := h * (64 / l.headings)
  { x := lenAt l.header 8 + mmUnits (x * (l.res : Int)), y := lenAt l.header 12 + mmUnits (y * (l.res : Int)), cos := cos64 k, sin := cos64 (k + 48) }

/-- The poses of a primitive's samples from a start pose. -/
def MPose.samples (p : MPose) (prim : List Byte) : List MPose :=
  (List.range (u8 prim 7)).map fun i =>
    let o := 16 + 12 * i
    let sx := lenAt prim o
    let sy := lenAt prim (o + 4)
    let (c, s) := cosSin (angleAt prim (o + 8))
    { x := p.x + turned p.cos sx - turned p.sin sy, y := p.y + turned p.sin sx + turned p.cos sy
      cos := turned p.cos c - turned p.sin s, sin := turned p.sin c + turned p.cos s }

/-- Where a point of the machine stands at a pose. -/
def MPose.place (p : MPose) (c : V3) : V3 :=
  ⟨p.x + turned p.cos c.x - turned p.sin c.y, p.y + turned p.sin c.x + turned p.cos c.y, c.z⟩

/-- A machine model's spheres: centre and radius. -/
def spheresOf (b : List Byte) : List (V3 × Int) := (List.range (b.length / 16)).map fun i => (pointAt b (16 * i), lenAt b (16 * i + 12))

/-- Consecutive poses; one pose alone stands still. -/
def legs : List MPose → List (MPose × MPose)
  | [p] => [(p, p)]
  | p :: q :: [] => [(p, q)]
  | p :: q :: r => (p, q) :: legs (q :: r)
  | [] => []

/-! ### Contacts (R285) -/

/-- Something of the world that a candidate may meet: its HIT_ID, and whether it is sure to. -/
structure Contact where
  id : Nat
  sure : Bool
  deriving DecidableEq, Repr

/-- How one sphere on one leg stands to a shape at a clearance in mm: none where it cannot clash, else whether it is sure to. -/
def meets (clear : Nat) (shape : Shape) (e : V3 × Int) (l : MPose × MPose) : Option Bool :=
  let a := l.1.place e.1
  let b := l.2.place e.1
  if !(a.inBounds && b.inBounds && shape.inBounds) then some false
  else
    let (d2, r) := shape.dist2 a b
    let limit := e.2 + r + mmUnits (clear : Int)
    let slack := mmUnits 1 - ((2 ^ 20 : Nat) : Int)
    if limit + slack < 0 || (limit + slack).natAbs ^ 2 < d2 then none
    else some (decide (0 < limit - slack) && decide (d2 < (limit - slack).natAbs ^ 2))

/-- How far a sphere on a leg stays from a shape, the sphere's radius taken off, in units of 2^-40 m; none beyond the bounds of R285. -/
def gapOf (shape : Shape) (e : V3 × Int) (l : MPose × MPose) : Option Int :=
  let a := l.1.place e.1
  let b := l.2.place e.1
  let (d2, r) := shape.dist2 a b
  if a.inBounds && b.inBounds && shape.inBounds then some ((rootFloor d2 : Nat) - r - e.2) else none

/-- The smallest such gap of a swept machine in a world; none where there is nothing to meet. -/
def leastGap (spheres : List (V3 × Int)) (world : List (Nat × Shape)) (poses : List MPose) : Option Int :=
  let all := world.flatMap fun w => spheres.flatMap fun e => (legs poses).map fun l => gapOf w.2 e l
  if all.contains none then none else (all.filterMap id).min?

/-- The contact of a swept machine with one thing of the world. -/
def contactOf (clear : Nat) (spheres : List (V3 × Int)) (poses : List MPose) (w : Nat × Shape) : Option Contact :=
  let all := spheres.flatMap fun e => (legs poses).filterMap fun l => meets clear w.2 e l
  if all.isEmpty then none else some ⟨w.1, all.contains true⟩

/-! ### The world of a buffer and the mesh -/

/-- The leaves of a mesh below node `i`; `fuel` bounds the depth. -/
def meshLeaves : Nat → List Byte → Nat → List Nat
  | 0, _, _ => []
  | fuel + 1, b, i =>
    let n := slice b (u64 b 0x10 + 32 * i) 32
    if u16 n 0x1C = 0 then meshLeaves fuel b (u32 n 0x18) ++ meshLeaves fuel b (u32 n 0x18 + 1) else [i]

/-- The triangles of a leaf with their HIT_ID (R274): millimetres above its MIN. -/
def leafShapes (b : List Byte) (i : Nat) : List (Nat × Shape) :=
  let n := slice b (u64 b 0x10 + 32 * i) 32
  let base := pointAt n 0
  (List.range (u16 n 0x1C)).map fun k =>
    let t := u32 n 0x18 + k
    let r := slice b (u64 b 0x18 + 20 * t) 20
    let at_ := fun (o : Nat) => base.add ⟨mmUnits (u16 r o : Nat), mmUnits (u16 r (o + 2) : Nat), mmUnits (u16 r (o + 4) : Nat)⟩
    (0x40000000 + t, .tri (at_ 0) (at_ 6) (at_ 12))

/-- Everything that a buffer and the mesh hold, with its HIT_ID (R287). A record with a word that is no number is met nowhere for
sure. -/
def worldShapes (b : Buffer) (mesh : Option (List Byte)) : List (Nat × Shape) :=
  let shape := fun (r : List Byte) => if finiteAt r 4 3 then shapeOf r else .ball ⟨(2 ^ 60 : Nat), 0, 0⟩ 0
  b.host.map (fun e => (e.1, shape e.2)) ++
  ((List.range 4).flatMap fun g => (Map.get [] b.sets g).zipIdx.map fun e => (0x80000000 + g * 65536 + e.2, shape e.1)) ++
  (match mesh with
    | some m => (meshLeaves (u32 m 8) m 0).flatMap (leafShapes m)
    | none => [])

/-- The contacts of a swept machine. -/
def contactsOf (clear : Nat) (spheres : List (V3 × Int)) (world : List (Nat × Shape)) (poses : List MPose) : List Contact :=
  world.filterMap (contactOf clear spheres poses)

/-- Whether the contacts make a clash: a sure one does, and one within the millimetre may (a free value). -/
def clashes (free : Bool) (l : List Contact) : Bool := (l.any (·.sure)) || (!l.isEmpty && free)

end Sys2Proof.Machine
end

