-- ==== Sys2Proof/Machine/Fusion.lean ====
section
/-! DEFINITION. What Cupola computes from points, images and calibration: constant-velocity motion, projection, colours, depth,
registration and the per-sensor checks (R250, R251, R259 to R263). The spec states formulas and no precision: numbers are formed
in fixed point of 2^-80, and what reaches a record is rounded to one of the two FP32 neighbours (log entry 176). -/

namespace Sys2Proof.Machine

/-! ### Motion (R260) -/

/-- A motion (T, ω): p at t_k is R(ω) p + T at t_{k−1}; T in units of 2^-80 m, ω in units of 2^-80 rad. -/
structure Twist where
  trans : V3 := ⟨0, 0, 0⟩
  rot : V3 := ⟨0, 0, 0⟩
  deriving DecidableEq, Repr

/-- The motion over `n ÷ d` of its interval, at constant velocity. -/
def Twist.part (m : Twist) (n d : Int) : Twist := ⟨m.trans.frac n d, m.rot.frac n d⟩

/-- A point given at the end of a motion, as it stands at its start; and the other way round. -/
def Twist.back (m : Twist) (p : V3) : V3 := (rotVec m.rot p).add m.trans
def Twist.ahead (m : Twist) (p : V3) : V3 := rotVec m.rot.neg (p.sub m.trans)

/-- The interval of a frame: its instant, its length, and the motion over it. -/
structure Course where
  t : Int
  span : Int
  motion : Twist
  deriving DecidableEq, Repr

/-- The motion from the anchor time `t` to the frame's instant. -/
def Course.since (c : Course) (t : Int) : Twist := if c.span = 0 then {} else c.motion.part (c.t - t) c.span

/-- The FP32 words of a motion: T, then ω. -/
def Twist.words (m : Twist) : List Word := [m.trans.x, m.trans.y, m.trans.z, m.rot.x, m.rot.y, m.rot.z].map (fpNear 80)

/-! ### Calibration and projection (R259) -/

/-- From the sensor's frame to the machine's: ROT p + TRANS. -/
def toMachine (b : List Byte) (p : V3) : V3 := (rowsMul [fx3At b 4, fx3At b 0x10, fx3At b 0x1C] p).add (fx3At b 0x28)
/-- From the machine's frame to the sensor's: ROTᵀ (p − TRANS). -/
def toSensor (b : List Byte) (p : V3) : V3 := colsMul [fx3At b 4, fx3At b 0x10, fx3At b 0x1C] (p.sub (fx3At b 0x28))

/-- A camera of a frame: the sensor, its calibration, and the time and ingest number of its image. -/
structure Camera where
  no : Nat
  x : Sensor
  calib : List Byte
  time : Int
  seq : Nat
  deriving DecidableEq, Repr

/-- Where a point of the machine frame falls in a camera: column, row and q_z; none where q_z is not above Z_NEAR or the pixel lies
outside the image. -/
def Camera.pixel (c : Camera) (p : V3) : Option (Nat × Nat × Int) :=
  let q := toSensor c.calib p
  if q.z ≤ fxAt c.calib 0x58 then none
  else
    let f := fxAt c.calib
    let x := fxDiv q.x q.z
    let y := fxDiv q.y q.z
    let r2 := fxMul x x + fxMul y y
    let k := fxOne + fxMul (f 0x44) r2 + fxMul (f 0x48) (fxMul r2 r2) + fxMul (f 0x4C) (fxMul r2 (fxMul r2 r2))
    let xd := fxMul x k + fxMul (2 * f 0x50) (fxMul x y) + fxMul (f 0x54) (r2 + 2 * fxMul x x)
    let yd := fxMul y k + fxMul (f 0x50) (r2 + 2 * fxMul y y) + fxMul (2 * f 0x54) (fxMul x y)
    let u := nearestInt (fxMul (f 0x34) xd + f 0x3C) (2 ^ 80)
    let v := nearestInt (fxMul (f 0x38) yd + f 0x40) (2 ^ 80)
    if 0 ≤ u && 0 ≤ v && u < c.x.width && v < c.x.height then some (u.toNat, v.toNat, q.z) else none

/-- Where a point at the frame's instant falls in a camera's image, at the machine's pose of the image's time. -/
def Camera.sees (c : Camera) (w : Course) (p : V3) : Option (Nat × Nat × Int) := c.pixel ((w.since c.time).back p)

/-- A component of an image's pixel: what the ingest ring holds of the image, or, where it holds that line no more and for a
component the camera does not have, a free value (log entry 180). -/
def Camera.comp (c : Camera) (k u v : Nat) : Nat :=
  let l := Map.get {} c.x.ring (v % c.x.depth)
  match (if l.frame = c.seq && l.y = v && l.complete then (Map.get [] l.comps k)[u]? else none) with
  | some n => n
  | none => Config.unitValue 35 ((((c.seq * 16 + c.no) * 8 + k) * 4096 + v) * 4096 + u) % 2 ^ c.x.compBits

/-- A component scaled to 8 bits: its leading eight. -/
def Camera.byte (c : Camera) (k u v : Nat) : Nat := c.comp k u v >>> (c.x.compBits - 8)

/-- R, G, B and NIR that a camera gives to a point: components 0 to 2 of a colour camera, gate 0 of a gated one. -/
def Camera.colours (c : Camera) (u v : Nat) : List Nat :=
  if c.x.kind = 2 then [c.byte 4 u v, c.byte 5 u v, c.byte 6 u v, c.byte 0 u v]
  else [c.byte 0 u v, c.byte 1 u v, c.byte 2 u v, c.byte 7 u v]

/-- The camera of lowest number, of those listed, into whose image a point falls, with its pixel. -/
def firstSeeing (cams : List Camera) (w : Course) (p : V3) : Option (Camera × Nat × Nat) :=
  cams.findSome? fun c => (c.sees w p).map fun e => (c, e.1, e.2.1)

/-- The cameras that give colours, and the thermal ones. -/
def colourCams (l : List Camera) : List Camera := l.filter fun c => c.x.kind != 1
def thermalCams (l : List Camera) : List Camera := l.filter fun c => c.x.kind == 1

/-- The middle of a list of numbers; of an even count either middle one (a free value). -/
def medianOf (k : Nat) (l : List Nat) : Nat :=
  let s := sortNat l
  nth 0 s (if l.length % 2 = 1 then l.length / 2 else l.length / 2 - 1 + (freeBit 37 k).toNat)

/-- DUST_THERMAL (R251): in the 7 × 7 pixels of the image around the projection none differs from their median by more than
THERMAL_BAND. -/
def flatThermal (cams : List Camera) (w : Course) (band : Nat) (p : V3) : Bool :=
  match firstSeeing (thermalCams cams) w p with
  | none => false
  | some (c, u, v) =>
    let vals := (List.range 7).flatMap fun dy => (List.range 7).filterMap fun dx =>
      if 3 ≤ u + dx && u + dx < c.x.width + 3 && 3 ≤ v + dy && v + dy < c.x.height + 3 then some (c.comp 0 (u + dx - 3) (v + dy - 3)) else none
    let m := medianOf (4096 * v + u) vals
    vals.all fun n => decide (n ≤ m + band) && decide (m ≤ n + band)

/-- A camera's depth image: the smallest q_z of the points that land in each pixel, in whole millimetres on either side (a free
value), 65,535 at most; 0 where none lands. -/
def Camera.depthImage (c : Camera) (w : Course) (shift : Nat) (pts : List V3) : List Byte :=
  let cols := c.x.width >>> shift
  let near := pts.foldl (fun (m : Map (Option Int)) p =>
    match c.sees w p with
    | some (u, v, z) =>
      if u >>> shift < cols then Map.modify none m ((v >>> shift) * cols + (u >>> shift)) fun e => some (min z (e.getD z)) else m
    | none => m) []
  (List.range (cols * (c.x.height >>> shift))).flatMap fun k => leBytes 2 (match Map.get none near k with
    | some z =>
      let d := z * 1000
      min 65535 ((d / fxOne).toNat + (d % fxOne != 0 && freeBit 38 d.toNat).toNat)
    | none => 0)

/-! ### Registration (R260) -/

/-- A lidar point as it was measured: its sensor, its anchor time, and its place in the machine frame of that time. -/
structure Shot where
  sensor : Nat
  time : Int
  pos : V3
  deriving DecidableEq, Repr

/-- The voxel of a point. -/
def voxelOf (mm : Nat) (p : V3) : V3 := ⟨p.x * 1000 / (mm * fxOne), p.y * 1000 / (mm * fxOne), p.z * 1000 / (mm * fxOne)⟩

/-- A plane: a point of it and its normal. -/
structure Plane where
  mean : V3
  normal : V3
  deriving DecidableEq, Repr

/-- The plane of a voxel's points: at least 5, the smallest eigenvalue of their covariance at most 1 % of the largest. -/
def planeOf (l : List V3) : Option Plane :=
  if l.length < 5 then none
  else
    let n : Int := l.length
    let sum := fun (f : V3 → Int) => sumInt (l.map f)
    let m : V3 := ⟨sum V3.x / n, sum V3.y / n, sum V3.z / n⟩
    let d := l.map (·.sub m)
    let axes : List (V3 → Int) := [V3.x, V3.y, V3.z]
    let cov := axes.map fun f => axes.map fun g => sumInt (d.map fun p => f p * g p) / (n * fxOne)
    let (e, v) := eigen3 cov
    let ev := [matAt e 0 0, matAt e 1 1, matAt e 2 2]
    let lo := ev.foldl min (matAt e 0 0)
    let hi := ev.foldl max (matAt e 0 0)
    let k := ev.idxOf lo
    if 100 * lo ≤ hi then some ⟨m, ⟨matAt v 0 k, matAt v 1 k, matAt v 2 k⟩⟩ else none

/-- What a registration works with: VOXEL_MM, the previous frame's map, the interval, and the shots. -/
structure RegIn where
  voxel : Nat
  map : List V3
  t : Int
  span : Int
  shots : List Shot
  deriving DecidableEq, Repr

/-- A match: the point's sensor, its distance from the plane, and the distance's derivatives by T and ω. -/
structure Match where
  sensor : Nat
  dist : Int
  jac : List Int
  deriving DecidableEq, Repr

/-- The shots de-skewed to the frame's instant. -/
def RegIn.deskew (a : RegIn) (m : Twist) : List (Nat × V3) :=
  a.shots.map fun s => (s.sensor, ((Course.mk a.t a.span m).since s.time).ahead s.pos)

/-- The first point of each voxel. -/
def firstOfVoxels (mm : Nat) : List V3 → List (Nat × V3) → List (Nat × V3)
  | _, [] => []
  | seen, e :: rest =>
    let v := voxelOf mm e.2
    if seen.contains v then firstOfVoxels mm seen rest else e :: firstOfVoxels mm (v :: seen) rest

/-- The matches under a motion: up to 65,536 registration points, each against the plane of its voxel in the map, within half a
voxel of it. -/
def RegIn.matched (a : RegIn) (m : Twist) : List Match :=
  ((firstOfVoxels a.voxel [] (a.deskew m)).take 65536).filterMap fun e =>
    let q := rotVec m.rot e.2
    let w := q.add m.trans
    (planeOf (a.map.filter fun p => voxelOf a.voxel p == voxelOf a.voxel w)).bind fun f =>
      let r := f.normal.dot (w.sub f.mean) / fxOne
      let j := leftJacT m.rot (q.cross f.normal)
      if 2000 * r.natAbs ≤ a.voxel * 2 ^ 80 then some ⟨e.1, r, [f.normal.x, f.normal.y, f.normal.z, j.x, j.y, j.z]⟩ else none

/-- JᵀJ of the matches, in units of 2^-160. -/
def normalRows (l : List Match) : List (List Int) :=
  (List.range 6).map fun i => (List.range 6).map fun j => sumInt (l.map fun e => nth 0 e.jac i * nth 0 e.jac j)

/-- One Gauss–Newton step; none where the matches do not determine it. -/
def stepOf (l : List Match) : Option Twist :=
  let rows := (normalRows l).zipIdx.map fun e => e.1 ++ [-sumInt (l.map fun m => nth 0 m.jac e.2 * m.dist)]
  (eliminate 6 rows).map fun (x, det) =>
    let d := fun (i : Nat) => matAt x i 6 * fxOne / det
    ⟨⟨d 0, d 1, d 2⟩, ⟨d 3, d 4, d 5⟩⟩

/-- Whether a length lies below a bound of a descriptor. -/
def belowBound (v : Int) (b : FVal) : Bool := !b.isFin || decide (v < b.units 80)
/-- Whether it exceeds one. -/
def overBound (v : Int) (b : FVal) : Bool := b.isFin && decide (b.units 80 < v)

/-- The outcome of a registration: the motion, the iterations run, whether a step's change stayed below the bounds. -/
structure RegOut where
  motion : Twist
  iterations : Nat
  settled : Bool
  deriving DecidableEq, Repr

/-- Up to `fuel` iterations; they end where a step's change stays below the bounds, in mm and mrad, or where there is no step. -/
def RegIn.run (a : RegIn) (settles : Twist → Bool) : Nat → Nat → Twist → RegOut
  | 0, n, m => ⟨m, n, false⟩
  | fuel + 1, n, m =>
    match stepOf (a.matched m) with
    | none => ⟨m, n + 1, false⟩
    | some d =>
      let m1 : Twist := ⟨m.trans.add d.trans, m.rot.add d.rot⟩
      if settles d then ⟨m1, n + 1, true⟩ else RegIn.run a settles fuel (n + 1) m1

/-- The root of the mean square distance of the matches, in units of 2^-80 m. -/
def rmsOf (l : List Match) : Int :=
  if l.isEmpty then 0 else ((rootFloor ((sumInt (l.map fun m => m.dist * m.dist)).toNat / l.length) : Nat) : Int)

/-- The covariance σ² (JᵀJ)⁻¹ with σ² = Σr² ÷ (matches − 6): its upper triangle row by row; none where JᵀJ has no inverse. -/
def covOf (l : List Match) : Option (List Word) :=
  let rows := (normalRows l).zipIdx.map fun e => e.1 ++ (List.range 6).map fun j => if j = e.2 then 1 else 0
  (eliminate 6 rows).map fun (x, det) =>
    let r2 := sumInt (l.map fun m => m.dist * m.dist)
    (List.range 6).flatMap fun i => ((List.range 6).filter (i ≤ ·)).map fun j =>
      fpNear 160 (r2 * matAt x i (6 + j) * ((2 ^ 160 : Nat) : Int) / (det * ((l.length : Int) - 6)))

/-! ### The per-sensor checks (R263) -/

/-- The range edges of the lidars' points: of two neighbouring returns of one ring whose ranges differ by more than 10 %, the
nearer one's place. -/
def rangeEdges : List ((Nat × Nat) × Nat × V3) → List ((Nat × Nat) × Nat × V3) → List V3
  | _, [] => []
  | seen, e :: rest =>
    let more := rangeEdges (e :: seen.filter (·.1 != e.1)) rest
    match seen.find? (·.1 == e.1) with
    | some o =>
      if 121 * o.2.1 < 100 * e.2.1 then o.2.2 :: more else if 121 * e.2.1 < 100 * o.2.1 then e.2.2 :: more else more
    | none => more

/-- A verdict on a member: whether it is inconsistent, and its residual as STATUS gives it. -/
structure Verdict where
  bad : Bool
  residual : Nat
  deriving DecidableEq, Repr

/-- A residual × 256 ÷ QUAR_BOUND, rounded down, saturating. -/
def residualField (v : Int) (bound : FVal) : Nat :=
  if !bound.isFin then 0 else if bound.units 80 = 0 then (if v = 0 then 0 else 0xFFFF) else min 0xFFFF (v * 256 / bound.units 80).toNat

/-- A lidar is judged by the RMS distance, in mm, of its own matches, and by a 2-iteration registration of its points alone; it is
not evaluated with fewer than MIN_CORR matches. -/
def lidarVerdict (x : Sensor) (minCorr : Nat) (own : List Match) (alone : RegIn) (motion : Twist) : Option Verdict :=
  if own.length < minCorr then none
  else
    let rms := 1000 * rmsOf own
    let r := alone.run (fun _ => false) 2 0 motion
    some ⟨overBound rms x.quarBound || overBound (1000 * (r.motion.trans.sub motion.trans).length) x.motionBound, residualField rms x.quarBound⟩

/-- A camera is judged by the median distance, in pixels, from up to 1,024 range edges to the nearest gradient maximum of their row
within ±32 pixels; it is not evaluated with fewer than 64 edges. The spec defines no gradient: each distance is a free value
(log entry 181). -/
def cameraVerdict (c : Camera) (w : Course) (edges : List V3) : Option Verdict :=
  let seen := (edges.filterMap fun p => c.sees w p).take 1024
  if seen.length < 64 then none
  else
    let m := medianOf (c.seq * 16 + c.no) (seen.zipIdx.map fun e =>
      Config.unitValue 36 (((c.seq * 16 + c.no) * 4096 + e.1.2.1) * 4096 + e.1.1) % 33)
    let v := (m : Int) * fxOne
    some ⟨overBound v c.x.quarBound, residualField v c.x.quarBound⟩

end Sys2Proof.Machine
end

