-- ==== Sys2Proof/Machine/Frames.lean ====
section
/-! DEFINITION. Fusion frames: instants, assembly, levels and quarantine, the grid and its boxes, the output records
(R250, R251, R256 to R268). -/

namespace Sys2Proof.Machine

/-! ### Instants (R257) -/

/-- Whether a group's anchor lets frames be issued. -/
def State.anchorOk (s : State) (g : Nat) : Bool :=
  let a := s.sensor (s.group g).anchor
  a.time.timed && !a.stopped

/-- The next instant is taken up once no frame is in progress. -/
def Group.takeUp (x : Group) : Group :=
  match x.frame, x.instants with
  | none, t :: rest => { x with frame := some { t := t }, instants := rest }
  | _, _ => x

/-- A calibration that waits takes effect from the instant `t` on (R259). -/
def Sensor.calibFrom (t : Int) (z : Sensor) : Sensor :=
  match z.calibNext with
  | some b => { z with calibDue := z.calibDue ++ [(t, b)], calibNext := none }
  | none => z

/-- FRAME_INSTANT: the anchor's event at a FRAME_DIV multiple, the earliest not yet taken, is instant t_k; new calibrations of the
members take effect from it (R257, R259). -/
def execFrameInstant (g t : Nat) (s : State) : Res :=
  let x := s.group g
  match x.due with
  | [] => .next s
  | d :: rest =>
    if 4 ≤ g || !x.started || x.stopping.isSome || x.broken || !s.anchorOk g || wrapI 64 d != t then .next s
    else
      let s1 := x.members.foldl (fun (u : State) i => u.modSensor i (Sensor.calibFrom d)) s
      .next (s1.modGroup g fun y => { y with due := rest, instants := y.instants ++ [d] }.takeUp).noteReady

/-- FRAME_DEADLINE: Cupola's copy of the anchor counter has reached t_k + DEADLINE; members still incomplete are marked late. -/
def execFrameDeadline (g : Nat) (s : State) : Res :=
  match (s.group g).frame with
  | some f =>
    if f.closed || f.assembled || decide (((s.group g).count : Int) < f.t + (s.group g).deadline) then .next s
    else .next (s.modGroup g fun x => { x with frame := some { f with closed := true, lateMask := s.incomplete g f.t } }).noteReady
  | none => .next s

/-! ### Points, dust and sorting (R251, R258) -/

/-- A free word of a frame: field `k` of item `j`. -/
def freeWordAt (seed k j : Nat) : Word := (Config.freeWord (seed + 16 * j + k)).truncate 32

/-- `n` free bytes. -/
def freeBytes (seed n : Nat) : List Byte := (List.range n).map fun k => (Config.freeWord (seed + k)).truncate 8

/-- Whether `√b − √a > g` mm, squares in units of 2^-596 m². -/
def beyond (a b g : Nat) : Bool :=
  -- in mm: A = 10^6 a, B = 10^6 b, G = g² 2^596; B − A − G > 2 g 2^298 √A
  let d : Int := (1000000 * b : Nat) - (1000000 * a : Nat) - (g * g * 2 ^ 596 : Nat)
  decide (0 < d) && decide (d.natAbs * d.natAbs > 4 * g * g * 2 ^ 596 * (1000000 * a))

/-- DUST_ECHO, DUST_REFL and DUST_THERMAL of a return, bits 0 to 2 (R251); `flat` is the thermal test. -/
def Group.dust (g : Group) (flat : Bool) (p : Pt) : Nat :=
  if g.dustRange * g.dustRange * 2 ^ 596 ≤ 1000000 * p.range2 then 0
  else
    let echo := p.behind.any fun e => beyond p.range2 e.2 g.echoGap && decide (p.refl < e.1)
    echo.toNat + (decide (p.refl < g.reflMin)).toNat * 2 + flat.toNat * 4

/-- How many dust flags are set. -/
def dustCount (d : Nat) : Nat := d % 2 + d / 2 % 2 + d / 4 % 2

/-- A point of a frame: its sensor, its place in the machine frame of its own time and of the frame's instant, its dust flags, and
whether it is rejected. -/
structure FPt where
  sensor : Nat
  pt : Pt
  raw : V3
  pos : V3
  dust : Nat
  rejected : Bool
  deriving DecidableEq, Repr

/-- What registration takes of it. -/
def FPt.shot (p : FPt) : Shot := ⟨p.sensor, p.pt.time, p.raw⟩
/-- X, Y, Z of its record. -/
def FPt.words (p : FPt) : List Word := [p.pos.x, p.pos.y, p.pos.z].map (fpNear 80)

/-- What a member gives to a frame: its points and image, and the counts of late samples used and discarded. -/
structure Joined where
  points : List Pt := []
  image : Option Img := none
  lateUsed : Nat := 0
  lateGone : Nat := 0
  deriving DecidableEq, Repr

/-- The latest of a list of images. -/
def latest : List Img → Option Img
  | [] => none
  | m :: ms => match latest ms with
    | some n => if m.time < n.time then some n else some m
    | none => some m

/-- The samples of a member that join the frame at `t` (R258). -/
def Sensor.joined (x : Sensor) (t : Int) (stale : Nat) : Joined :=
  let fresh := fun (time : Int) => decide (t - time ≤ (stale : Int))
  let pts := x.member.points.filter fun p => (p.late && fresh p.time) || (!p.late && decide (p.time ≤ t))
  let ims := x.member.images.filter fun m => (m.late && fresh m.time) || (!m.late && decide (m.time ≤ t))
  { points := pts, image := latest ims
    lateUsed := (pts.filter (·.late)).length + (ims.filter (·.late)).length
    lateGone := (x.member.points.filter fun p => p.late && !fresh p.time).length + (x.member.images.filter fun m => m.late && !fresh m.time).length }

/-- A member after the frame at `t` has taken its samples. -/
def Member.taken (m : Member) (t : Int) : Member :=
  { m with
    points := m.points.filter fun p => !p.late && decide (t < p.time)
    images := m.images.filter fun e => !e.late && decide (t < e.time)
    quiet := if m.sent then 0 else min 255 (m.quiet + 1), sent := false }

/-- Whether a sensor's data of the frame at `t` can be fused (R262): it is timed, calibrated and not SILENT, and its data joined. -/
def Sensor.usable (x : Sensor) (t : Int) (j : Joined) : Bool :=
  x.time.timed && (x.calibAt t).isSome && !x.member.silent && (!j.points.isEmpty || j.image.isSome)

/-- Whether a sensor contributes to a frame (R262). -/
def Sensor.contributes (x : Sensor) (t : Int) (j : Joined) : Bool := x.usable t j && !x.member.quarantined

/-- Quarantine (R263) after a verdict on the frame; a member that was not evaluated keeps its run. -/
def Member.judge (m : Member) (x : Sensor) (v : Option Verdict) : Member × Option Bool :=
  match v with
  | none => (m, none)
  | some ⟨bad, residual⟩ =>
    let m1 := { m with residual := residual }
    if m.quarantined then
      if bad then ({ m1 with quarRun := 0 }, none)
      else if x.reentry ≤ m.quarRun + 1 then ({ m1 with quarantined := false, quarRun := 0 }, some false)
      else ({ m1 with quarRun := m.quarRun + 1 }, none)
    else if bad then
      if x.quarCount ≤ m.quarRun + 1 then ({ m1 with quarantined := true, quarRun := 0 }, some true)
      else ({ m1 with quarRun := m.quarRun + 1 }, none)
    else ({ m1 with quarRun := 0 }, none)

/-! ### Levels (R262) -/

/-- The modality of a sensor: colour, thermal, gated NIR, lidar. -/
def Sensor.modality (x : Sensor) : Nat := x.kind

/-- The level of a frame that is no time break: 4, 3, 2, 1 or 0. A first frame takes no part in the hold. -/
def levelOf (noPrev measured : Bool) (hold holdFrames : Nat) (configured contributing : List Nat) (missing : Bool) : Nat :=
  if contributing.isEmpty || (!measured && !noPrev && decide (holdFrames < hold + 1)) then 4
  else if !measured then 3
  else if decide (2 ≤ (dedup configured).length) && (dedup contributing).length == 1 then 2
  else if missing then 1
  else 0

/-! ### The grid and its boxes (R266, R267) -/

/-- A coordinate in units of 2^-149 mm; none where it is no number. -/
def mm149 (w : Word) : Option Int := if (fp32 w).isFin then some ((fp32 w).scaled (-149) * 1000) else none

/-- The cell a coordinate lies in. -/
def cellOf (w : Word) (origin : Int) (cell n : Nat) : Option Nat :=
  (mm149 w).bind fun v =>
    let k := (v - origin * 2 ^ 149) / ((cell * 2 ^ 149 : Nat) : Int)
    if 0 ≤ k && k < (n : Int) then some k.toNat else none

/-- A grid cell under construction. -/
structure GCell where
  count : Nat := 0
  top : Nat := 0
  below : Bool := false
  above : Bool := false
  deriving DecidableEq, Repr

/-- A point's part in the grid, at its coordinates as its record gives them. -/
def Group.gridPoint (g : Group) (m : Map GCell) (p : FPt) : Map GCell :=
  match cellOf (nth 0 p.words 0) g.originX g.cellMm g.gridX, cellOf (nth 0 p.words 1) g.originY g.cellMm g.gridY, mm149 (nth 0 p.words 2) with
  | some i, some j, some z =>
    Map.modify {} m (j * g.gridX + i) fun c =>
      if z < g.zMin * 2 ^ 149 then { c with below := true }
      else if g.zMax * 2 ^ 149 < z then { c with above := true }
      else { c with
        count := satAdd 63 c.count 1
        top := max c.top (min 255 ((z - g.zMin * 2 ^ 149) / ((g.heightMm * 2 ^ 149 : Nat) : Int)).toNat) }
  | _, _, _ => m

/-- STATE of a cell: 2 occupied, 1 free (returns below Z_MIN only), 0 unknown. -/
def GCell.state (c : GCell) (occMin : Nat) : Nat :=
  if occMin ≤ c.count then 2 else if c.below && c.count == 0 && !c.above then 1 else 0

/-- The grid's bytes. -/
def Group.gridBytes (g : Group) (m : Map GCell) : List Byte :=
  (List.range (g.gridX * g.gridY)).flatMap fun k =>
    let c := Map.get {} m k
    leBytes 2 (c.state g.occMin + 4 * c.count + 256 * c.top)

/-- The occupied cells (column, row). -/
def Group.occupiedCells (g : Group) (m : Map GCell) : List (Nat × Nat) :=
  (m.filter fun e => e.2.state g.occMin == 2).map fun e => (e.1 % g.gridX, e.1 / g.gridX)

/-- The maximal runs of a row: columns rising, each with its TOP. -/
def rowRuns : List (Nat × Nat) → List (Nat × Nat × Nat)
  | [] => []
  | (i, t) :: rest => match rowRuns rest with
    | (a, b, u) :: more => if a = i + 1 then (i, b, max t u) :: more else (i, i, t) :: (a, b, u) :: more
    | [] => [(i, i, t)]

/-- A run extends the open box of its columns or opens one. -/
def addRun (j : Nat) (boxes : List GBox) (r : Nat × Nat × Nat) : List GBox :=
  if boxes.any fun b => b.i0 == r.1 && b.i1 == r.2.1 && b.j1 + 1 == j then
    boxes.map fun b => if b.i0 = r.1 && b.i1 = r.2.1 && b.j1 + 1 = j then { b with j1 := j, top := max b.top r.2.2 } else b
  else boxes ++ [⟨r.1, r.2.1, j, j, r.2.2⟩]

/-- Run merging over the grid, row by row. -/
def Group.mergeBoxes (g : Group) (m : Map GCell) : List GBox :=
  let occ := m.filter fun e => e.2.state g.occMin == 2
  (List.range g.gridY).foldl (fun boxes j =>
    let row := (occ.filter fun e => e.1 / g.gridX == j).map fun e => (e.1 % g.gridX, e.2.top)
    (rowRuns row).foldl (addRun j) boxes) []

/-- The squared distance in mm² of the origin from the cells `i0..i1` by `j0..j1`. -/
def Group.dist2 (g : Group) (i0 i1 j0 j1 : Nat) : Nat :=
  let gap := fun (o : Int) (a b : Nat) =>
    let lo := o + ((a * g.cellMm : Nat) : Int)
    let hi := o + (((b + 1) * g.cellMm : Nat) : Int)
    if 0 < lo then lo.natAbs else if hi < 0 then hi.natAbs else 0
  gap g.originX i0 i1 ^ 2 + gap g.originY j0 j1 ^ 2

/-- Whether box `a` is kept before `b`: nearer the origin, then lower row, then lower column. -/
def Group.nearer (g : Group) (a b : GBox) : Bool :=
  let da := g.dist2 a.i0 a.i1 a.j0 a.j1
  let db := g.dist2 b.i0 b.i1 b.j0 b.j1
  decide (da < db) || (da == db && (decide (a.j0 < b.j0) || (a.j0 == b.j0 && decide (a.i0 < b.i0))))

/-- At most MAX_BOXES boxes, the nearest, and whether any was left out. -/
def Group.keepBoxes (g : Group) (l : List GBox) : List GBox × Bool :=
  (l.filter fun b => decide ((l.filter fun c => g.nearer c b).length < g.maxBoxes), decide (g.maxBoxes < l.length))

/-- The cell into which the motion carries a cell of the previous frame: its centre at z = 0 is carried (log entry 182). -/
def Group.carried (g : Group) (m : Twist) (c : Nat × Nat) : Int × Int :=
  let at_ := fun (o : Int) (k : Nat) => (2 * o + ((2 * k + 1) * g.cellMm : Nat)) * fxOne / 2000
  let p := m.ahead ⟨at_ g.originX c.1, at_ g.originY c.2, 0⟩
  let cell := fun (v o : Int) => (v * 1000 - o * fxOne) / (g.cellMm * fxOne)
  (cell p.x g.originX, cell p.y g.originY)

/-- URGENT (R267): an occupied cell within URGENT_MM of the origin without an occupied cell of the previous frame, carried by the
motion, within one cell of it. -/
def Group.isUrgent (g : Group) (occ : List (Nat × Nat)) (m : Twist) : Bool :=
  let old := g.occupied.map (g.carried m)
  g.urgentMm != 0 && occ.any fun c => decide (g.dist2 c.1 c.1 c.2 c.2 ≤ g.urgentMm * g.urgentMm) &&
    !old.any fun o => decide ((o.1 - c.1).natAbs ≤ 1) && decide ((o.2 - c.2).natAbs ≤ 1)

/-! ### Output records (R250, R264, R265) -/

/-- A point record; a rejected point takes no part in projection. -/
def pointRecord (cams : List Camera) (w : Course) (p : FPt) : List Byte :=
  let colour := if p.rejected then none else firstSeeing (colourCams cams) w p.pos
  let thermal := if p.rejected then none else firstSeeing (thermalCams cams) w p.pos
  let flags := p.dust + p.rejected.toNat * 8 + p.pt.late.toNat * 16 + p.pt.arrival.toNat * 32 + colour.isSome.toNat * 64
  (p.words.flatMap fun v => leBytes 4 v.toNat) ++ leBytes 4 (wrapI 32 (p.pt.time - w.t)) ++
  leBytes 1 p.pt.refl ++ leBytes 1 (p.pt.echo % 16 + 16 * (p.pt.echoes % 16)) ++ leBytes 1 p.sensor ++ leBytes 1 flags ++
  (match colour with
    | some (c, u, v) => (c.colours u v).flatMap (leBytes 1)
    | none => zeros 4) ++
  (match thermal with
    | some (c, u, v) => leBytes 2 (c.comp 0 u v)
    | none => zeros 2) ++
  leBytes 2 (if p.pt.cart then 0 else p.pt.ring) ++ leBytes 1 ((colour.map fun e => e.1.no).getD 0xFF) ++ zeros 3

/-- A sensor's depth image size in pixels. -/
def Group.depthPixels (g : Group) (x : Sensor) : Nat := (x.width >>> g.depthShift) * (x.height >>> g.depthShift)
/-- Bytes of the depth images of the group's cameras. -/
def Group.depthBytes (g : Group) (xs : List Sensor) : Nat :=
  sumNat ((xs.filter Sensor.isCamera).map fun x => roundUp 64 (2 * g.depthPixels x))

/-- A status entry (R265): the sensor as the frame found it, the member as the frame's evaluation leaves it. -/
def Sensor.status (x : Sensor) (m : Member) (contrib late : Bool) : Nat :=
  let timing := match x.time.state with
    | .idle => 0
    | .unaligned => 1
    | .aligned => 2
    | .arrival => 3
  timing + m.quarantined.toNat * 4 + x.member.silent.toNat * 8 + contrib.toNat * 16 + late.toNat * 32 +
  x.lastDamaged.toNat * 64 + (min 255 (if x.time.state == .unaligned then x.time.run else m.quarRun)) * 256 + m.residual * 65536

/-- What the header says of a frame. -/
structure Head where
  level : Nat
  flags : Nat
  t : Int
  tPrev : Int
  points : Nat := 0
  boxes : Nat := 0
  contrib : Nat := 0
  late : Nat := 0
  quar : Nat := 0
  arrival : Nat := 0
  hold : Nat := 0
  iterations : Nat := 0
  slot : Nat := 0
  matched : Nat := 0
  motion : List Word := []
  cov : List Word := []
  residual : Word := 0
  status : List Nat := []
  dust : Nat := 0
  lateUsed : Nat := 0
  lateGone : Nat := 0

/-- The 256 bytes of a frame header. -/
def Head.bytes (h : Head) (g sequence : Nat) : List Byte :=
  leBytes 1 g ++ leBytes 1 h.level ++ leBytes 2 h.flags ++ leBytes 4 sequence ++ leBytes 8 (wrapI 64 h.t) ++
  leBytes 8 (wrapI 64 h.tPrev) ++ leBytes 4 h.points ++ leBytes 4 h.boxes ++ leBytes 2 h.contrib ++ leBytes 2 h.late ++
  leBytes 2 h.quar ++ leBytes 2 h.arrival ++ leBytes 2 h.hold ++ leBytes 1 h.iterations ++ leBytes 1 h.slot ++
  leBytes 4 h.matched ++ (fit 0 6 h.motion).flatMap (fun w => leBytes 4 w.toNat) ++
  (fit 0 21 h.cov).flatMap (fun w => leBytes 4 w.toNat) ++ leBytes 4 h.residual.toNat ++
  (fit 0 16 h.status).flatMap (leBytes 4) ++ leBytes 4 h.dust ++ leBytes 4 h.lateUsed ++ leBytes 4 h.lateGone ++ zeros 20

/-- Positions of the diagonal in the upper triangle of a 6 × 6 matrix, row by row. -/
def diagonal : List Nat := [0, 6, 11, 15, 18, 20]

/-- The last measured motion scaled to an interval (R260, R261); free while none has been measured. -/
def Group.predicted (g : Group) (seed : Nat) (span : Int) : Twist :=
  match g.motion with
  | some m => (Twist.mk m.trans m.rot).part span m.span
  | none => ⟨freePlace (2 ^ 40 + 2 * seed), freePlace (2 ^ 40 + 2 * seed + 1)⟩

/-- The covariance of a frame whose motion is not measured (R261): with NO_PREV a diagonal of +infinity, what stands beside it
open; else the last measured one and the growth over the hold count. -/
def Group.heldCov (g : Group) (seed : Nat) (noPrev : Bool) (hold : Nat) : List Word :=
  let free := fun k => freeWordAt seed 7 (32 + k)
  if noPrev then (List.range 21).map fun k => if diagonal.contains k then 0x7F800000 else free k
  else match g.motion with
    | none => (List.range 21).map free
    | some m => m.cov.zipIdx.map fun e =>
      if diagonal.contains e.2 then
        let q := if e.2 < 15 then g.qTrans else g.qRot
        BitVec.ofNat 32 (toFp32 (seed + 8) ((fp32 e.1).add ((fp32 q).mul (FVal.ofInt hold)).val).val).bits
      else e.1

/-! ### A frame's course -/

/-- A group stops: its sensors are idle, its anchor counter is no longer followed (R255, R256). -/
def State.stopGroup (s : State) (g : Nat) : State :=
  let s1 := (s.group g).members.foldl (fun (t : State) i => t.modSensor i fun x =>
    { x with time := {}, member := {}, calib := { x with calibNext := none }.calibLatest, calibDue := [], sweepPast := none }) s
  { s1 with cup := { s1.cup with ready := s1.cup.ready.erase g } }.modGroup g fun x =>
    { x with started := false, stopping := none, frame := none, instants := [], due := [], broken := false }

/-- The frame in progress is over; a stop that waited for it takes place, otherwise the next instant is taken up. -/
def State.frameDone (s : State) (g : Nat) : State :=
  match (s.group g).stopping with
  | some (q, n) => (s.stopGroup g).finishOk q n
  | none => s.modGroup g fun x => { x with frame := none }.takeUp

/-- A frame's output fault is counted, and logged at most once a second (R264). -/
def State.outputFault (s : State) (g : Nat) : State :=
  let x := s.group g
  let due := match x.faultLogged with
    | some t => decide (t + 1000000 ≤ s.now)
    | none => true
  let s1 := s.modGroup g fun y => { y with fault := y.fault + 1, faultLogged := if due then some s.now else y.faultLogged }
  if due then s1.log g 0x0804 x.part (leBytes 1 x.anchor ++ leBytes 4 x.sequence) else s1

/-- The length of one slot of a window: slots are equal (R264). -/
def State.slotBytes (s : State) (h : DWord) (slots : Nat) : Nat := (s.win (hWindow h)).len / slots

/-- The line of a window at an offset, with its poison. -/
def State.windowLine (s : State) (x : Win) (off : Nat) : List Byte × Bool :=
  if x.ddr5 then (s.ddrRead (ddrLine x.part (x.off + off)), s.ddrBad (ddrLine x.part (x.off + off)))
  else (s.readLine ((s.part x.part).line (x.spAddr off)), s.linePoison ((s.part x.part).line (x.spAddr off)))

/-- Bytes at an offset of a window as whole lines: where they start, the lines, and their poison; what the bytes do not cover of
the first and last line stays. -/
def State.wholeLines (s : State) (x : Win) (off : Nat) (b : List Byte) : Nat × List Byte × List Bool :=
  let lo := off / 64 * 64
  let hi := roundUp 64 (off + b.length)
  let head := off - lo
  let tail := hi - off - b.length
  let first := s.windowLine x lo
  let last := s.windowLine x (hi - 64)
  let n := (hi - lo) / 64
  (lo, first.1.take head ++ b ++ last.1.drop (64 - tail),
   (List.range n).map fun k => (k = 0 && head != 0 && first.2) || (k + 1 = n && tail != 0 && last.2))

/-- A write into a frame's slot of output window `k`. -/
def State.outWrite (s : State) (g k : Nat) (f : Frame) (data : List Byte) (tctr tamt : Nat) : Nat × State :=
  let x := s.group g
  let h := x.handle k
  let (off, b, poison) := s.wholeLines (s.win (hWindow h)) (f.slot * s.slotBytes h x.slots) data
  s.issueWrite { id := 0, src := .unit g, op := .unit, part := x.part, handle := h, off := off, data := b, poison := poison,
                 tctr := tctr, tamt := tamt }

/-- A unit's write into a slot of an output window; no bytes, no write. -/
def State.frameWrite (s : State) (g k : Nat) (data : List Byte) : State :=
  match (s.group g).frame with
  | none => s
  | some f =>
    if data.isEmpty then s
    else
      let (n, s1) := s.outWrite g k f data 0 0
      s1.modGroup g fun y => { y with frame := some { f with writes := f.writes ++ [n] } }

/-- The header write, with TCTR and TAMT. -/
def State.headerWrite (s : State) (g : Nat) (f : Frame) : State :=
  let (n, s1) := s.outWrite g 0 f f.header (s.group g).tctr (s.group g).tamt
  s1.modGroup g fun y => { y with frame := some { f with headerWrite := some n } }

/-- A group's map is cleared: its next frame carries NO_PREV (R261, R421). -/
def State.clearMap (s : State) (g : Nat) : State := s.modGroup g fun x => { x with hasPrev := false, map := [], occupied := [] }

/-- A frame is issued with its header: it takes its SEQUENCE, and is written where a slot is free, otherwise counted in
OUTPUT_BLOCKED (R264). -/
def State.issueFrame (s : State) (g : Nat) (h : Head) (lost : Bool) (points grid depth : List Byte) : State :=
  let x := s.group g
  let slot := x.written % x.slots
  let bytes := { h with slot := slot }.bytes g (x.sequence % 2 ^ 32)
  let s1 := s.modGroup g fun y => { y with sequence := y.sequence + 1, tLast := h.t }
  if x.written < x.released + x.slots then
    let f : Frame := { t := h.t, closed := true, assembled := true, header := bytes, slot := slot, lost := lost }
    let s2 := s1.modGroup g fun y => { y with frame := some f, written := y.written + 1 }
    ((s2.frameWrite g 1 points).frameWrite g 2 grid).frameWrite g 3 depth
  else
    let s2 := s1.modGroup g fun y => { y with blocked := y.blocked + 1 }
    (if lost then (s2.outputFault g).clearMap g else s2).frameDone g

/-- The mask of the members for which `f` holds. -/
def maskOf (l : List Nat) (f : Nat → Bool) : Nat := sumNat ((l.filter f).map (2 ^ ·))

/-- Whether the group is the first of those whose frame has ended step 2, and no frame is in steps 3 to 6. -/
def State.mayAssemble (s : State) (g : Nat) : Bool :=
  s.cup.ready.head? == some g && s.stepTwoOver g && (List.range 4).all fun k => !(((s.group k).frame.map (·.assembled)).getD false)

/-- A quarantine or re-entry is counted and logged (R263). -/
def State.judged (s : State) (g i : Nat) (v : Option Bool) : State :=
  match v with
  | none => s
  | some bad =>
    let s1 := if bad then s.modSensor i fun x => { x with stats := { x.stats with quarantines := x.stats.quarantines + 1 } } else s
    s1.log g (if bad then 0x0801 else 0x0802) (s.group g).part (leBytes 1 i ++ leBytes 4 (s.group g).sequence)

/-- A member's standing after a frame: its samples taken, its verdict, its late counts, and the calibration in force. -/
def State.closeMember (s : State) (g i : Nat) (t : Int) (j : Joined) (verdict : Option Verdict) (rejected : Nat) : State :=
  let x := s.sensor i
  let (m, v) := (x.member.taken t).judge x verdict
  let s1 := s.modSensor i fun z => { z with
    member := m, calib := z.calibAt t, calibDue := z.calibDue.filter fun e => decide (t < e.1)
    stats := { z.stats with
      lateUsed := z.stats.lateUsed + BitVec.ofNat 64 j.lateUsed, lateDiscarded := z.stats.lateDiscarded + BitVec.ofNat 64 j.lateGone
      rejected := z.stats.rejected + BitVec.ofNat 64 rejected } }
  s1.judged g i v

/-- What a frame works with (R257 step 3): its members' samples, the cameras whose image joined, the motion it starts from, and the
points of the members that can be fused, dust-tested. -/
structure Gathered where
  joined : List (Nat × Joined)
  contrib : List Nat
  cams : List Camera
  course : Course
  points : List FPt

/-- The samples that join the frame at `t`. The thermal test projects with the motion the frame starts from (log entry 182). -/
def State.gatherFrame (s : State) (g : Nat) (t : Int) : Gathered :=
  let x := s.group g
  let js := x.members.map fun i => (i, (s.sensor i).joined t x.stale)
  let con := (js.filter fun e => (s.sensor e.1).contributes t e.2).map Prod.fst
  let cams := js.filterMap fun e => match e.2.image, (s.sensor e.1).calibAt t with
    | some m, some b => if (s.sensor e.1).usable t e.2 then some (Camera.mk e.1 (s.sensor e.1) b m.time m.seq) else none
    | _, _ => none
  let start : Twist := match x.motion with
    | some m => (Twist.mk m.trans m.rot).part (t - x.tLast) m.span
    | none => {}
  let w : Course := if x.hasPrev then ⟨t, t - x.tLast, start⟩ else ⟨t, 0, {}⟩
  let usable := js.filter fun e => (s.sensor e.1).usable t e.2
  let pts := usable.flatMap fun e => e.2.points.map fun p =>
    let raw := toMachine (((s.sensor e.1).calibAt t).getD []) p.pos
    let pos := (w.since p.time).ahead raw
    let d := x.dust (flatThermal (cams.filter fun c => con.contains c.no) w x.thermalBand pos) p
    FPt.mk e.1 p raw pos d (x.dustRule != 0 && decide (x.dustRule ≤ dustCount d))
  ⟨js, con, cams, w, pts⟩

/-- The registration of a frame's live points (R260): its outcome, the matches under it, and the covariance. -/
def Group.register (x : Group) (a : RegIn) (start : Twist) : RegOut × List Match × Option (List Word) :=
  let o := a.run (fun d => belowBound (1000 * d.trans.length) x.convMm && belowBound (1000 * d.rot.length) x.convMrad) x.iterMax 0 start
  let ms := a.matched o.motion
  (o, ms, if x.minCorr ≤ ms.length then covOf ms else none)

/-- The verdict of a frame on a member (R263). -/
def State.verdict (s : State) (x : Group) (w : Course) (a : RegIn) (gathered : Gathered) (live : List FPt) (i : Nat) : Option Verdict :=
  let z := s.sensor i
  let con := gathered.contrib.contains i
  if z.isLidar then
    let own := (live.filter (·.sensor == i)).map FPt.shot
    let alone := { a with shots := own }
    let ms := if con then (a.matched w.motion).filter (·.sensor == i) else alone.matched w.motion
    lidarVerdict z x.minCorr ms alone w.motion
  else
    let edges := rangeEdges [] ((live.filter fun p => gathered.contrib.contains p.sensor).map fun p => ((p.sensor, p.pt.ring), p.pt.range2, p.pos))
    (gathered.cams.find? (·.no == i)).bind fun c => cameraVerdict c w edges

/-- Steps 3 to 5 of a frame (R257): dust, motion, quarantine, level, grid, boxes, and the writes. -/
def State.assemble (s0 : State) (g : Nat) (f : Frame) : State :=
  let (seed, s) := s0.take (2 ^ 32)
  let x := s.group g
  let ms := x.members
  let d := s.gatherFrame g f.t
  let con := d.contrib
  let noPrev := !x.hasPrev
  let span := f.t - x.tLast
  -- registration, and the motion the frame carries
  let liveAll := d.points.filter fun p => !p.rejected
  let fused := liveAll.filter fun p => con.contains p.sensor
  let a : RegIn := ⟨x.voxelMm, if noPrev then [] else x.map, f.t, span, fused.map FPt.shot⟩
  let (reg, matched, cov) := if noPrev || fused.isEmpty then (⟨{}, 0, false⟩, [], none) else x.register a d.course.motion
  let measured := reg.settled && cov.isSome
  let motion : Twist := if noPrev then {} else if measured then reg.motion else x.predicted seed span
  let w : Course := ⟨f.t, d.course.span, motion⟩
  let placed := d.points.map fun p => { p with pos := (w.since p.pt.time).ahead p.raw }
  let pts := placed.filter fun p => con.contains p.sensor
  let live := pts.filter fun p => !p.rejected
  let cams := d.cams.filter fun c => con.contains c.no
  let verdict := s.verdict x w a d (placed.filter fun p => !p.rejected)
  let kind := fun i => (s.sensor i).modality
  let level := levelOf noPrev measured x.hold x.holdFrames (ms.map kind) (con.map kind) (con.length != ms.length)
  let hold := if measured then 0 else if noPrev || decide (x.holdFrames < x.hold + 1) then x.hold else x.hold + 1
  let covWords := if measured then cov.getD [] else x.heldCov seed noPrev hold
  -- output
  let out := if x.emitDust then pts else live
  let sent := out.take x.maxPoints
  let free := decide (x.written < x.released + x.slots)
  let cells := if x.gridOn then live.foldl x.gridPoint [] else []
  let occ := x.occupiedCells cells
  let feed := x.boxesOn && x.gridOn && free && level != 4
  let (boxes, cut) := if feed then x.keepBoxes (x.mergeBoxes cells) else ([], false)
  let urgent := feed && x.isUrgent occ motion
  let late := if f.closed then f.lateMask else 0
  let s1 := d.joined.foldl (fun (t : State) e => t.closeMember g e.1 f.t e.2 (verdict e.1)
    (pts.filter fun p => p.sensor == e.1 && p.rejected).length) s
  let head : Head :=
    { level := level
      flags := measured.toNat + noPrev.toNat * 2 + urgent.toNat * 8 + cut.toNat * 16 + (decide (x.maxPoints < out.length)).toNat * 32
      t := f.t, tPrev := if noPrev then 0 else x.tLast, points := sent.length, boxes := boxes.length
      contrib := maskOf ms con.contains, late := late
      quar := maskOf ms fun i => (s1.sensor i).member.quarantined
      arrival := maskOf ms fun i => (s.sensor i).time.state == .arrival
      hold := hold, iterations := reg.iterations, matched := matched.length
      motion := motion.words, cov := covWords
      residual := if matched.isEmpty then freeWordAt seed 13 0 else fpNear 80 (rmsOf matched)
      status := (List.range 16).map fun i =>
        if ms.contains i then (s.sensor i).status (s1.sensor i).member (con.contains i) (late.testBit i) else 0
      dust := pts.length - live.length, lateUsed := sumNat (d.joined.map fun e => e.2.lateUsed)
      lateGone := sumNat (d.joined.map fun e => e.2.lateGone) }
  let s2 := s1.modGroup g fun y => { y with
    hasPrev := true, hold := hold, occupied := if x.gridOn then occ else y.occupied, map := live.map (·.pos)
    motion := if measured then some ⟨motion.trans, motion.rot, covWords, span⟩ else y.motion }
  let s3 := if feed then s2.modGroup g fun y => { y with
      boxes := boxes, boxMotion := if noPrev then none else some (motion.trans, motion.rot), boxTime := f.t, boxesReady := true, urgent := urgent }
    else s2
  let depth := if x.depthOn then (ms.filter fun i => (s.sensor i).isCamera).flatMap fun i =>
      let image := match cams.find? (·.no == i) with
        | some c => c.depthImage w x.depthShift (live.map (·.pos))
        | none => zeros (2 * x.depthPixels (s.sensor i))
      fit 0 (roundUp 64 image.length) image
    else []
  s3.issueFrame g head f.lost (sent.flatMap (pointRecord cams w)) (if x.gridOn then x.gridBytes cells else []) depth

/-- FRAME_ASSEMBLY. -/
def execFrameAssembly (g : Nat) (s0 : State) : Res :=
  let s := s0.noteReady
  match (s.group g).frame with
  | some f =>
    .next (if s.mayAssemble g then ({ s with cup := { s.cup with ready := s.cup.ready.erase g } }.assemble g f).noteReady else s)
  | none => .next s

/-- Whether the group's box feed has completed: Steeple has taken the set, and it waits for no publication (R257, R277). -/
def State.boxesFed (s : State) (g : Nat) : Bool :=
  !(s.group g).boxesReady && !s.stp.waitingOps.any fun o => match o with
    | .boxes k _ _ _ _ => k == g
    | .edit _ _ _ => false

/-- FRAME_HEADER_WRITE: once all data writes and the box feed have completed, the header is written; a frame with a failed write gets none. -/
def execFrameHeaderWrite (g : Nat) (s : State) : Res :=
  match (s.group g).frame with
  | some f =>
    if f.assembled && f.writes.isEmpty && f.headerWrite.isNone && s.boxesFed g then
      if f.lost then .next (((s.outputFault g).clearMap g).frameDone g).noteReady
      else .next (if f.failed then ((s.outputFault g).frameDone g).noteReady else s.headerWrite g f)
    else .next s
  | none => .next s

/-- A completion of one of a frame's writes returns to Cupola. -/
def State.cupolaDone (s : State) (g id status : Nat) : State :=
  match (s.group g).frame with
  | none => s
  | some f =>
    if f.headerWrite = some id then ((if status != 0 then s.outputFault g else s).frameDone g).noteReady
    else s.modGroup g fun x => { x with
      frame := some { f with writes := f.writes.filter (· != id), failed := f.failed || status != 0 } }

/-- Slots are released in order; releases beyond the frames written are ignored (R264). -/
def State.releaseSlots (s : State) (g amount : Nat) : State :=
  s.modGroup g fun x => { x with released := min x.written (x.released + amount) }

/-- TIME_BREAK: one frame with TIME_BREAK at level F4 and the last anchor count, without points, grid or boxes; every
strobe-timed member is UNALIGNED (R262). A frame not yet assembled is given up. -/
def execTimeBreak (g : Nat) (s : State) : Res :=
  let x := s.group g
  if !x.broken || !x.started || ((x.frame.map (·.assembled)).getD false) then .next s
  else
    let ms := x.members
    let s1 := ms.foldl (fun t i => t.modSensor i fun z =>
      if z.strobeTimed then { z with time := { z.time with state := .unaligned, pairs := [], run := 0, missed := 0 } } else z) s
    let (seed, s2) := s1.take 4096
    let noPrev := !x.hasPrev
    let motion : Twist := if noPrev then {} else x.predicted seed ((x.count : Int) - x.tLast)
    let head : Head :=
      { level := 4, flags := 4 + noPrev.toNat * 2, t := (x.count : Int), tPrev := if noPrev then 0 else x.tLast, hold := x.hold
        quar := maskOf ms fun i => (s2.sensor i).member.quarantined
        arrival := maskOf ms fun i => (s2.sensor i).time.state == .arrival
        motion := motion.words, cov := x.heldCov seed noPrev x.hold, residual := freeWordAt seed 13 0
        status := (List.range 16).map fun i => if ms.contains i then (s2.sensor i).status (s2.sensor i).member false false else 0 }
    let s3 := s2.modGroup g fun y => { y with broken := false, hasPrev := false, instants := [], due := [], frame := none, occupied := [], map := [] }
    let s4 := s3.log g 0x0803 x.part (leBytes 1 x.anchor ++ leBytes 4 x.sequence)
    .next ({ s4 with cup := { s4.cup with ready := s4.cup.ready.erase g } }.issueFrame g head false [] [] []).noteReady

end Sys2Proof.Machine
end

