-- ==== Sys2Proof/Machine/Steeple.lean ====
section
/-! DEFINITION. Steeple: the three buffers and their publication, box sets, queries and their results (R270 to R289).
Whether a candidate clashes follows from its distance, free only within the millimetre that R285 leaves. -/

namespace Sys2Proof.Machine

/-! ### Buffers (R272, R276, R277) -/

/-- The third buffer: neither published nor building. -/
def Steeple.retained (t : Steeple) : Nat := 3 - t.published - t.building

def Steeple.buffer (t : Steeple) (k : Nat) : Buffer := Map.get {} t.buffers k
def State.modStp (s : State) (f : Steeple → Steeple) : State := { s with stp := f s.stp }
def Steeple.modBuilding (t : Steeple) (f : Buffer → Buffer) : Steeple :=
  { t with buffers := Map.modify {} t.buffers t.building f }

/-- Primitives of the sets of the groups listed. -/
def Buffer.setCount (b : Buffer) (gs : List Nat) : Nat := sumNat (gs.map fun g => (Map.get [] b.sets g).length)

/-- The mode of a group: 0 not taken, 1 taken, 2 taken and published. -/
def Steeple.mode (t : Steeple) (g : Nat) : Nat := bits t.modes (2 * g + 1) (2 * g)

def Steeple.pose (t : Steeple) (g : Nat) : Pose := Map.get {} t.poses g

/-- Whether a query is queued or running: the busy rule of world.load and its like (R274). -/
def Steeple.busy (t : Steeple) : Bool := t.running.isSome || !t.queue.isEmpty

/-- A publication is triggered, with the command that waits for it; a trigger joins a pending one (R277). -/
def Steeple.trigger (t : Steeple) (urgent : Bool) (waiter : Option (Nat × Nat)) : Steeple :=
  { t with pubPending := true, pubUrgent := t.pubUrgent || urgent, pubWaiters := t.pubWaiters ++ waiter.toList }

/-! ### Box sets (R270, R279) -/

/-- A pose's position and its quaternion, of length 1, in fixed point. -/
def Pose.place (p : Pose) : V3 :=
  let f := fun (k : Nat) => (fp32 (nth 0 p.pos k)).units 80
  ⟨f 0, f 1, f 2⟩
def Pose.turn (p : Pose) : Int × V3 :=
  let f := fun (k : Nat) => (fp32 (nth 0 p.quat k)).units 80
  quatUnit (f 0, ⟨f 1, f 2, f 3⟩)

/-- The pose after a frame's motion (R270): position + Q T, then Q R(ω), normalised; each an FP32 word on either side (log entry
176). -/
def Pose.moved (p : Pose) (motion : Option (V3 × V3)) : Pose :=
  match motion with
  | none => p
  | some (t, w) =>
    let pos := p.place.add (quatTurn p.turn t)
    let q := quatUnit (quatMul p.turn (quatVec w))
    { pos := [pos.x, pos.y, pos.z].map (fpNear 80), quat := [q.1, q.2.x, q.2.y, q.2.z].map (fpNear 80) }

/-- A number in fixed point as signed Q1.15: exact where it is one, else either neighbour (a free value), held within the format. -/
def q15 (v : Int) : Nat :=
  let d := v * 32768
  wrapI 16 (max (-32768) (min 32767 (d / fxOne + (d % fxOne != 0 && freeBit 40 (2 * v.natAbs + (decide (v < 0)).toNat)).toNat)))

/-- A box of a set as a primitive record: half extents rounded up to 10 mm, the centre carried by the group's pose into the world,
and the pose's rotation (R271, R279). -/
def Group.boxRecord (g : Group) (p : Pose) (b : GBox) : List Byte :=
  let half := fun (n : Int) => n * fxOne / 2000
  let c := p.place.add (quatTurn p.turn
    ⟨half (2 * g.originX + ((b.i0 + b.i1 + 1) * g.cellMm : Nat)), half (2 * g.originY + ((b.j0 + b.j1 + 1) * g.cellMm : Nat)),
     half (2 * g.zMin + ((b.top + 1) * g.heightMm : Nat))⟩)
  let centre := [c.x, c.y, c.z].map (fpNear 80)
  let quat := [p.turn.1, p.turn.2.x, p.turn.2.y, p.turn.2.z].map q15
  zeros 2 ++ leBytes 2 0xFFFF ++ (centre.flatMap fun w => leBytes 4 w.toNat) ++
  leBytes 2 (ceilDiv ((b.i1 + 1 - b.i0) * g.cellMm) 20) ++ leBytes 2 (ceilDiv ((b.j1 + 1 - b.j0) * g.cellMm) 20) ++
  leBytes 2 (ceilDiv ((b.top + 1) * g.heightMm) 20) ++ zeros 2 ++ quat.flatMap (leBytes 2)

/-! ### The index (R275) -/

/-- The index cell of a place along one axis: INDEX_CELL_MM on a side from the index origin, clamped onto the edge. -/
def Steeple.cellAt (t : Steeple) (axis : Nat) (v : Int) : Nat :=
  let o := (fp32 (nth 0 t.origin axis)).units 40
  min 255 ((v - o) * 1000 / ((t.cell * 2 ^ 40 : Nat) : Int)).toNat

/-- The half sides of a shape's box along x and y. -/
def Shape.reach : Shape → Int × Int
  | .box _ rot norm h =>
    let side := fun (r : Nat) => (((nth 0 rot r).natAbs * h.x + (nth 0 rot (r + 1)).natAbs * h.y + (nth 0 rot (r + 2)).natAbs * h.z + norm - 1) / norm : Int)
    (side 0, side 3)
  | .ball _ r => (r, r)
  | .tri _ _ _ => (0, 0)

/-- The cells that a primitive's x–y bounding box overlaps. -/
def Steeple.cellsOf (t : Steeple) (r : List Byte) : List Nat :=
  let c := pointAt r 4
  let (dx, dy) := (shapeOf r).reach
  let span := fun (axis : Nat) (v d : Int) => (List.range (t.cellAt axis (v + d) + 1 - t.cellAt axis (v - d))).map (t.cellAt axis (v - d) + ·)
  (span 1 c.y dy).flatMap fun j => (span 0 c.x dx).map fun i => 256 * j + i

/-- A primitive is listed in its cells, or goes on the overflow list where that would make more than 262,144 listings. -/
def Steeple.enlist (t : Steeple) (b : Buffer) (id : Nat) (r : List Byte) : Buffer :=
  let cs := t.cellsOf r
  if 262144 < sumNat (b.cells.map fun e => e.2.length) + cs.length then { b with overflow := b.overflow ++ [id] }
  else { b with cells := cs.foldl (fun (m : Map (List Nat)) c => Map.modify [] m c (· ++ [id])) b.cells }

/-- The primitives for which `f` holds leave the index. -/
def Buffer.delist (b : Buffer) (f : Nat → Bool) : Buffer :=
  { b with
    cells := b.cells.filterMap fun e => if (e.2.filter fun i => !f i).isEmpty then none else some (e.1, e.2.filter fun i => !f i)
    overflow := b.overflow.filter fun i => !f i }

/-- The number by which HIT_ID names box `i` of group `g`, and whether a number names a box of the group (R287). -/
def boxId (g i : Nat) : Nat := 0x80000000 + g * 65536 + i
def isBoxOf (g n : Nat) : Bool := decide (boxId g 0 ≤ n) && decide (n < boxId (g + 1) 0)

/-- A box set replaces its group's boxes in the building buffer; boxes beyond the room are left out, nearest first. -/
def State.placeBoxes (s : State) (g : Nat) (set : List GBox) (motion : Option (V3 × V3)) (time : Int) (urgent : Bool) : State :=
  let t := s.stp
  let x := s.group g
  let p := (t.pose g).moved motion
  let b := t.buffer t.building
  let room := 32768 - b.host.length - b.setCount ((List.range 4).filter (· != g))
  let kept := set.filter fun c => decide ((set.filter fun d => x.nearer d c).length < room)
  let recs := kept.map (x.boxRecord p)
  let t1 := t.modBuilding fun c =>
    let c1 := { c.delist (isBoxOf g) with sets := Map.set [] c.sets g recs, heads := Map.set {} c.heads g ⟨time, motion, urgent⟩ }
    recs.zipIdx.foldl (fun (m : Buffer) e => t.enlist m (boxId g e.2) e.1) c1
  { s with stp := { t1 with
      poses := Map.set {} t1.poses g p
      stats := { t1.stats with
        boxSets := satAdd 0xFFFFFFFF t1.stats.boxSets 1, boxOverflow := satAdd 0xFFFFFFFF t1.stats.boxOverflow (set.length - kept.length) } } }

/-- What a box set triggers once it is placed: mode 2 publishes after every set, and an urgent set of a taken group publishes at
once (R277, R278). -/
def State.boxTrigger (s : State) (g : Nat) (urgent : Bool) : State :=
  if s.stp.mode g = 2 || (s.stp.mode g = 1 && urgent) then s.modStp fun t => t.trigger urgent none else s

/-- BOX_SET_TAKE: Steeple takes a group's box set. While a publication is under way the set waits in order, and triggers the next
one once it is placed; before its step 3 an urgent set makes the publication under way urgent too (R277, R278). -/
def execBoxSetTake (g : Nat) (s : State) : Res :=
  let x := s.group g
  if !x.boxesReady || 4 ≤ g then .next s
  else
    let s1 := s.modGroup g fun y => { y with boxesReady := false }
    let mode := s.stp.mode g
    if mode = 0 then .next s1
    else
      .next (if s1.stp.pubPending || s1.stp.copying then
          s1.modStp fun t => { t with
            waitingOps := t.waitingOps ++ [.boxes g x.boxes x.boxMotion x.boxTime x.urgent], pubUrgent := t.pubUrgent || (x.urgent && !t.copying) }
        else (s1.placeBoxes g x.boxes x.boxMotion x.boxTime x.urgent).boxTrigger g x.urgent)

/-! ### Edits (R273) -/

/-- One edit record applied to a buffer and its index; none where a PUT finds no free slot. -/
def Steeple.editBuffer (t : Steeple) (b : Buffer) (r : List Byte) : Option Buffer :=
  let id := u16 r 2
  if u8 r 0 = 0 then
    let b1 : Buffer := { b.delist (· == id) with host := Map.insert b.host id (slice r 16 32) }
    if 32768 < b1.host.length + b1.setCount [0, 1, 2, 3] then none else some (t.enlist b1 id (slice r 16 32))
  else if u8 r 0 = 1 then some { b.delist (· == id) with host := Map.erase b.host id }
  else if u8 r 0 = 2 then some { b.delist (isBoxOf (u8 r 1)) with
    sets := Map.set [] b.sets (u8 r 1) [], heads := Map.set {} b.heads (u8 r 1) {} }
  else some b

/-- The pose a SET_POSE record gives: its quaternion as FP32 words is a free value of its Q1.15 fields. -/
def Steeple.editPose (t : Steeple) (r : List Byte) : Steeple :=
  if u8 r 0 = 3 then
    let quat := (List.range 4).map fun k => u16 r (28 + 2 * k)
    let words := if quat = [0x7FFF, 0, 0, 0] then [0x3F800000, 0, 0, 0]
      else quat.map fun v => ((FVal.ofInt (sext 16 v)).scale (-15) |> toFp32 0).bits
    let p : Pose := { pos := (List.range 3).map fun k => BitVec.ofNat 32 (u32 r (16 + 4 * k)), quat := words.map (BitVec.ofNat 32) }
    { t with poses := Map.set {} t.poses (u8 r 1) p }
  else t

/-- An edit list applied whole to the building buffer; none where it does not fit. -/
def Steeple.applyEdits (t : Steeple) (rs : List (List Byte)) : Option Steeple :=
  (rs.foldl (fun (b : Option Buffer) r => b.bind fun x => t.editBuffer x r) (some (t.buffer t.building))).map fun b =>
    rs.foldl Steeple.editPose (t.modBuilding fun _ => b)

/-- The edit of a command takes place, or is refused with RC_WORLD_FULL. -/
def State.editWorld (s : State) (q n : Nat) (rs : List (List Byte)) : State :=
  match s.stp.applyEdits rs with
  | some t => { s with stp := t }.finishOk q n
  | none => s.finish q n stRefused rcWorldFull 0 0

/-- What waited for the building buffer takes place. -/
def State.buildOp (s : State) : BuildOp → State
  | .edit q n rs => s.editWorld q n rs
  | .boxes g set motion time urgent => (s.placeBoxes g set motion time urgent).boxTrigger g urgent

/-! ### Publication (R277, R278) -/

/-- PUBLICATION: building becomes published with the next epoch, published becomes retained, retained becomes building. It waits
while the retained buffer is pinned, unless it is urgent: then the running query, pinned to an older epoch, is obsolete. A buffer marked bad becomes, or stays, the
building one, so that the copy rebuilds it (R422). -/
def execPublication (s : State) : Res :=
  let t := s.stp
  let pinned := match t.running with
    | some r => r.buffer == t.retained && !r.stale
    | none => false
  if !t.pubPending || t.copying || (pinned && !t.pubUrgent) then .next s
  else
    let roles := if (t.buffer t.building).bad then (t.published, t.building)
      else if (t.buffer t.published).bad then (t.building, t.published) else (t.building, t.retained)
    .next (s.modStp fun t => { t with
      published := roles.1, building := roles.2, epoch := (t.epoch + 1) % 2 ^ 32, copying := true
      running := if t.pubUrgent then t.running.map fun r => { r with stale := true } else t.running
      stats := { t.stats with publishes := satAdd 0xFFFFFFFF t.stats.publishes 1 } })

/-- BUILDING_COPY_DONE: the new building buffer holds what was published; what waited is applied in arrival order, and the
triggers complete with the new epoch. -/
def execBuildingCopyDone (s : State) : Res :=
  let t := s.stp
  if !t.copying then .next s
  else
    let ops := t.waitingOps
    let s1 := s.modStp fun t => { t.modBuilding fun _ => { t.buffer t.published with bad := false } with
      copying := false, pubPending := false, pubUrgent := false, pubWaiters := [], waitingOps := [] }
    .next ((ops.foldl State.buildOp s1).finishAll t.pubWaiters t.epoch)

/-! ### Queries (R282, R283) -/

def qMachine (b : List Byte) : Nat := u8 b 0
def qLattice (b : List Byte) : Nat := u8 b 1
def qClear (b : List Byte) : Nat := u16 b 0x24
def qForward (b : List Byte) : Bool := bitAt (u8 b 2) 0
def qBudget (b : List Byte) : Nat := u32 b 4
def qMaxExp (b : List Byte) : Nat := u32 b 8
def qStartX (b : List Byte) : Int := sext 32 (u32 b 0x10)
def qStartY (b : List Byte) : Int := sext 32 (u32 b 0x14)
def qGoalX (b : List Byte) : Int := sext 32 (u32 b 0x1C)
def qGoalY (b : List Byte) : Int := sext 32 (u32 b 0x20)
def qResult (b : List Byte) : DWord := BitVec.ofNat 64 (u64 b 0x28)
def qResultOff (b : List Byte) : Nat := u64 b 0x30
def qWorkspace (b : List Byte) : DWord := BitVec.ofNat 64 (u64 b 0x38)
def qFwd (b : List Byte) : DWord := BitVec.ofNat 64 (u64 b 0x40)
def qMaxPath (b : List Byte) : Nat := u32 b 0x48

/-- Whether a handle names an open scratchpad window of the partition with WRITE and FOREIGN (R282). -/
def State.unitWindow (s : State) (p : Nat) (h : DWord) : Bool :=
  let w := s.win (hWindow h)
  hReserved h == 0 && s.isOwn (hDevice h) && w.isOpen && hGen h == w.gen && hFlags h == w.hFlags && w.kind == .partition && w.part == p &&
  !w.ddr5 && w.flags.testBit 0 && w.flags.testBit 2

/-- Whether a query record keeps R8, R282 and its ranges. -/
def State.queryOk (s : State) (p : Nat) (b : List Byte) : Bool :=
  let l := Map.get {} s.stp.lattices (qLattice b)
  decide (qMachine b ≤ 7) && !(Map.get [] s.stp.machines (qMachine b)).isEmpty && decide (qLattice b ≤ 3) && l.set &&
  decide (u8 b 2 ≤ 1) && u8 b 3 == 0 && decide (1 ≤ qBudget b) && decide (qBudget b ≤ 50000) && u32 b 0xC == 0 &&
  decide (u8 b 0x18 < l.headings) && decide (u8 b 0x19 < l.headings) && decide (u8 b 0x1B ≤ l.headings / 2) &&
  qResultOff b % 64 == 0 && (qForward b || qFwd b == 0) && decide (1 ≤ qMaxPath b) && decide (qMaxPath b ≤ 4096) && allZero b 0x50 48 &&
  s.unitWindow p (qResult b) && s.unitWindow p (qWorkspace b) &&
  decide (qResultOff b + 64 + 16 * qMaxPath b ≤ (s.win (hWindow (qResult b))).len)

/-- Slots of a partition in use. -/
def Steeple.slotsUsed (t : Steeple) (p : Nat) : Nat :=
  (t.queue.filter (·.part == p)).length + ((t.running.map fun r => (r.query.part == p).toNat).getD 0) +
  (t.ended.filter fun e => e.query.part == p && e.status != stPlanBusy && e.status != stQueryMalformed).length

/-- A query record that has landed in a query window is taken into a slot, or ends at once as busy or malformed. -/
def State.takeQuery (s : State) (w : Write) (p : Nat) : State :=
  let post := match w.src with
    | .post _ n => n
    | _ => 0
  let q : Query := { part := p, post := post, reserved := (s.part p).cfg.reserved, record := fit 0 128 w.data }
  let (seed, s1) := s.take 4
  let fail := fun st : Nat => s1.modStp fun t => { t with
    ended := t.ended ++ [{ query := q, status := st, cost := Config.freeNat seed % 2 ^ 32, elapsed := Config.freeNat (seed + 1) % 2 ^ 32,
                           clear := Config.freeNat (seed + 2) % 2 ^ 32 }] }
  if 4 ≤ s.stp.slotsUsed p then fail stPlanBusy
  else if w.data.length != 128 || w.poison.contains true || !s.queryOk p q.record then fail stQueryMalformed
  else s1.modStp fun t => { t with queue := t.queue ++ [q] }

/-- QUERY_POST: the record of a post has landed in a partition's query window, and its increment makes Steeple take it. -/
def execQueryPost (id : Nat) (s : State) : Res :=
  match s.write id with
  | some w =>
    match (s.win (hWindow w.handle)).kind with
    | .query p =>
      .next (if w.phase == .landed && w.tamt != 0 && w.op != .halo && w.op != .wb then
          (s.takeQuery w p).modWrite id fun x => { x with phase := .applied }
        else s)
    | _ => .next s
  | none => .next s

/-! ### The search (R284 to R286) -/

/-- Sphere–primitive tests made for a check (R291): none where the index and the mesh hold nothing; how many the index and the mesh
nodes leave is open (a free value). -/
def State.testsMade (s : State) (buffer seed : Nat) : Nat :=
  let b := s.stp.buffer buffer
  if b.cells.isEmpty && b.overflow.isEmpty && s.stp.mesh.isNone then 0 else Config.freeNat seed

/-- Tests are counted. -/
def State.countTests (s : State) (n : Nat) : State :=
  s.modStp fun t => { t with stats := { t.stats with tests := t.stats.tests + BitVec.ofNat 64 n } }

/-- What a query's machine meets along poses in a buffer's world. -/
def State.contacts (s : State) (buffer : Nat) (b : List Byte) (poses : List MPose) : List Contact :=
  contactsOf (qClear b) (spheresOf (Map.get [] s.stp.machines (qMachine b))) (worldShapes (s.stp.buffer buffer) s.stp.mesh) poses

/-- What the primitive numbered `e.2` meets from a node. -/
def State.sweep (s : State) (buffer : Nat) (b : List Byte) (l : Lattice) (n : SNode) (prim : List Byte) : List Contact :=
  let p := l.pose n.x n.y n.h
  s.contacts buffer b (p :: p.samples prim)

/-- The integer square root. -/
def isqrt (n : Nat) : Nat :=
  (List.range 64).foldl (fun r k => if (r + 2 ^ (63 - k)) ^ 2 ≤ n then r + 2 ^ (63 - k) else r) 0

def satCost (a b : Nat) : Nat := satAdd 0xFFFFFFFF a b

/-- The heuristic: H_PER_CELL times the Euclidean distance to the goal cell, rounded down. -/
def qHeuristic (b : List Byte) (x y : Int) : Nat :=
  let d := (x - qGoalX b).natAbs ^ 2 + (y - qGoalY b).natAbs ^ 2
  min 0xFFFFFFFF (isqrt ((u16 b 0x26) ^ 2 * d))

/-- in_goal. -/
def inGoal (b : List Byte) (headings : Nat) (n : SNode) : Bool :=
  let d := (n.h + headings - u8 b 0x19) % headings
  decide ((n.x - qGoalX b).natAbs ≤ u8 b 0x1A) && decide ((n.y - qGoalY b).natAbs ≤ u8 b 0x1A) &&
  decide (min d (headings - d) ≤ u8 b 0x1B)

/-- The best g of a state seen so far. -/
def Running.bestG (r : Running) (k : Int × Int × Nat) : Option Nat := (r.best.find? (·.1 == k)).map Prod.snd

/-- A node is pushed under its key; without room the push is dropped. -/
def Running.push (r : Running) (n : SNode) : Running :=
  let k := (n.x, n.y, n.h)
  let r1 := { r with best := (k, n.g) :: r.best.filter (·.1 != k) }
  if 262144 ≤ r.pq.length || r.capacity ≤ r.nodes.length then { r1 with full := true }
  else { r1 with
    nodes := r.nodes ++ [n], pushed := r.pushed + 1
    pq := r.pq ++ [⟨satCost n.g (qHeuristic r.query.record n.x n.y), r.nodes.length⟩] }

/-- The entry of lowest key, the earlier insert at a tie. -/
def pqMin : List PqEnt → Option PqEnt
  | [] => none
  | e :: es => match pqMin es with
    | some m => if m.key < e.key then some m else some e
    | none => some e

/-- The queue without its minimum. -/
def Running.pop (r : Running) (e : PqEnt) : Running := { r with pq := r.pq.filter (· != e) }

/-- The node of an entry. -/
def Running.node (r : Running) (k : Nat) : SNode := nth ⟨0, 0, 0, 0, 0, 0, 0⟩ r.nodes k

/-- The segments from the start to a node; `fuel` bounds them. -/
def Running.pathTo : Nat → Running → Nat → List (Int × Int × Nat × Nat × Nat × Nat)
  | 0, _, _ => []
  | fuel + 1, r, k =>
    if k = 0 then []
    else
      let n := r.node k
      Running.pathTo fuel r n.parent ++ [(n.x, n.y, n.h, n.prim, n.dir, n.g)]

/-- The poses of a path's legs, one list for each segment. -/
def Lattice.pathPoses (l : Lattice) : Int × Int × Nat → List (Int × Int × Nat × Nat × Nat × Nat) → List (List MPose)
  | _, [] => []
  | (x, y, h), (x1, y1, h1, prim, _, _) :: rest =>
    (l.pose x y h :: (l.pose x y h).samples (nth [] l.prims prim)) :: l.pathPoses (x1, y1, h1) rest

/-- MIN_CLEAR_MM (R287): the smallest distance less r along the written path, rounded down, where the world is within the bounds of
R285; the FP32 of the device may give a millimetre either way (a free value). -/
def State.minClear (s : State) (r : Running) (path : List (Int × Int × Nat × Nat × Nat × Nat)) : Option Nat :=
  let b := r.query.record
  let world := worldShapes (s.stp.buffer r.buffer) s.stp.mesh
  let l := Map.get {} s.stp.lattices (qLattice b)
  let all := (l.pathPoses (qStartX b, qStartY b, u8 b 0x18) (path.take (qMaxPath b))).map
    (leastGap (spheresOf (Map.get [] s.stp.machines (qMachine b))) world)
  if all.contains none then none
  else (all.filterMap id).min?.map fun d =>
    let mm := d * 1000 / ((2 ^ 40 : Nat) : Int)
    wrapI 32 (mm + (Config.unitValue 39 (2 * mm.natAbs + (decide (mm < 0)).toNat) % 3 : Nat) - 1)

/-- The running query ends with an outcome, and the node its path leads to. -/
def State.endQuery (s : State) (r : Running) (status : Nat) (elapsed : Option Nat) (node : Option Nat) (hit : Nat := 0xFFFFFFFF) : State :=
  let (seed, s1) := s.take 4
  let path := (node.map fun k => Running.pathTo r.nodes.length r k).getD []
  s1.modStp fun t => { t with
    running := none
    ended := t.ended ++ [{
      query := r.query, status := status, epoch := r.epoch, path := path
      expansions := r.expansions, pushed := r.pushed
      cost := match node with
        | some k => (r.node k).g
        | none => Config.freeNat seed % 2 ^ 32
      elapsed := elapsed.getD (Config.freeNat (seed + 1) % 2 ^ 32)
      hit := hit, clear := (s.minClear r path).getD (Config.freeNat (seed + 2) % 2 ^ 32) }] }

/-- The query that starts next: a reserved partition's ahead of the others, then arrival order (R283). -/
def Steeple.nextQuery (t : Steeple) : Option Query :=
  match t.queue.find? (·.reserved) with
  | some q => some q
  | none => t.queue.head?

/-- QUERY_START: the published epoch is pinned, start and goal are checked, and the start is pushed. The workspace is Steeple's
from here on: what stands in it is open. -/
def State.startQuery (s0 : State) (q : Query) : State :=
  let (seed, s) := s0.take 8
  let b := q.record
  let t := s.stp
  let ws := s.win (hWindow (qWorkspace b))
  let r : Running := { query := q, epoch := t.epoch, buffer := t.published, capacity := min 262144 (ws.len / 48) }
  let s1 := (s.modStp fun t => { t with queue := t.queue.erase q, running := some r }).countTests (s.testsMade t.published (seed + 3))
  let l := Map.get {} t.lattices (qLattice b)
  let start := s.contacts t.published b [l.pose (qStartX b) (qStartY b) (u8 b 0x18)]
  let goal := s.contacts t.published b [l.pose (qGoalX b) (qGoalY b) (u8 b 0x19)]
  -- which of the contacts the result names is open
  let hit := fun (c : List Contact) => nth 0xFFFFFFFF (c.map (·.id)) (Config.freeNat (seed + 2) % max 1 c.length)
  let n : SNode := ⟨qStartX b, qStartY b, u8 b 0x18, 0, 0, 0, 0⟩
  if clashes ((Config.freeWord seed).getLsbD 0) start then s1.endQuery r stStartInCollision none none (hit start)
  else
    let s1 := s1.countTests (s.testsMade t.published (seed + 4))
    let r1 := r.push n
    if clashes ((Config.freeWord (seed + 1)).getLsbD 0) goal then s1.endQuery r stGoalInCollision none none (hit goal)
    else if inGoal b l.headings n then s1.endQuery { r1 with pushed := 0 } stPathFound none (some 0)
    else
      let (fseed, s2) := s1.take ws.len
      let s3 := if s.unitWindow q.part (qWorkspace b) then s2.landLines q.part (ws.spAddr 0) (freeBytes fseed ws.len) [] else s2
      s3.modStp fun t => { t with running := some r1 }

def execQueryStart (s : State) : Res :=
  if s.stp.running.isSome then .next s
  else match s.stp.nextQuery with
  | some q => .next (s.startQuery q)
  | none => .next s

/-- The candidates of a node: the primitives of its heading, in table order. -/
def Lattice.from (l : Lattice) (h : Nat) : List (List Byte × Nat) := l.prims.zipIdx.filter fun e => u8 e.1 0 == h

/-- One candidate: a better way to its state that does not clash is pushed. -/
def State.candidate (s : State) (l : Lattice) (seed parent : Nat) (n : SNode) (r : Running) (e : List Byte × Nat) : Running :=
  let x := n.x + sext 16 (u16 e.1 2)
  let y := n.y + sext 16 (u16 e.1 4)
  let h := u8 e.1 1
  let g := satCost n.g (u32 e.1 8)
  let worse := match r.bestG (x, y, h) with
    | some v => decide (v ≤ g)
    | none => false
  if worse || clashes ((Config.freeWord (seed + e.2)).getLsbD 0) (s.sweep r.buffer r.query.record l n e.1) then r
  else r.push ⟨x, y, h, g, parent, e.2, u8 e.1 6⟩

/-- check_budgets at an expansion boundary. -/
def State.checkBudgets (s : State) (r : Running) (elapsed : Nat) : State :=
  let b := r.query.record
  if qBudget b ≤ elapsed || (qMaxExp b != 0 && decide (qMaxExp b ≤ r.expansions)) || r.full then
    match pqMin r.pq with
    | some e => s.endQuery r stBudgetExhausted (some elapsed) (some e.node)
    | none => s.endQuery r stNoPath (some elapsed) none
  else s.modStp fun t => { t with running := some r }

/-- The node of lowest key is expanded; superseded entries are passed over; `fuel` bounds them. -/
def State.expand : Nat → State → Running → Nat → Nat → State
  | 0, s, r, elapsed, _ => s.endQuery r stNoPath (some elapsed) none
  | fuel + 1, s, r, elapsed, seed =>
    match pqMin r.pq with
    | none => s.endQuery r stNoPath (some elapsed) none
    | some e =>
      let n := r.node e.node
      let r1 := r.pop e
      let l := Map.get {} s.stp.lattices (qLattice r.query.record)
      if (r.bestG (n.x, n.y, n.h)).any fun v => decide (v < n.g) then State.expand fuel s r1 elapsed seed
      else if inGoal r.query.record l.headings n then s.endQuery r1 stPathFound (some elapsed) (some e.node)
      else
        let r2 := (l.from n.h).foldl (s.candidate l seed e.node n) { r1 with expansions := r1.expansions + 1 }
        let s1 := (s.modStp fun t => { t with stats := { t.stats with expansions := t.stats.expansions + 1 } }).countTests
          (s.testsMade r.buffer (seed + 256))
        s1.checkBudgets r2 elapsed

/-- What ends a running query before its next expansion: its world is obsolete, or its workspace has gone. -/
def State.queryLost (s : State) (r : Running) : Option Nat :=
  if r.stale then some stStaleWorld
  else if r.lost || !s.unitWindow r.query.part (qWorkspace r.query.record) then some stWorkspaceFault
  else none

/-- QUERY_EXPANSION. -/
def execQueryExpansion (elapsedUs : Nat) (s : State) : Res :=
  match s.stp.running with
  | none => .next s
  | some r => match s.queryLost r with
    | some st => .next (s.endQuery r st (some elapsedUs) none)
    | none =>
      let (seed, s1) := s.take 512
      .next (State.expand (r.pq.length + 1) s1 r elapsedUs seed)

/-- QUERY_BUDGET_EXPIRY: the time budget has passed at an expansion boundary; before it has, nothing happens. -/
def execQueryBudgetExpiry (elapsedUs : Nat) (s : State) : Res :=
  match s.stp.running with
  | none => .next s
  | some r =>
    if elapsedUs < qBudget r.query.record then .next s
    else match s.queryLost r with
    | some st => .next (s.endQuery r st (some elapsedUs) none)
    | none => .next (s.checkBudgets r elapsedUs)

/-! ### Results (R287, R288) -/

/-- The first `n` path entries, 16 bytes each. -/
def Ended.entries (e : Ended) (n : Nat) : List Byte :=
  (e.path.take n).flatMap fun (x, y, h, prim, dir, g) =>
    leBytes 4 (wrapI 32 x) ++ leBytes 4 (wrapI 32 y) ++ leBytes 1 h ++ leBytes 1 prim ++ leBytes 1 dir ++ zeros 1 ++ leBytes 4 g

/-- The result header with the FLAGS given. -/
def Ended.header (e : Ended) (flags : Nat) : List Byte :=
  leBytes 2 e.status ++ leBytes 2 flags ++ leBytes 4 (u32 e.query.record 0x4C) ++ leBytes 4 e.epoch ++ leBytes 4 e.path.length ++
  leBytes 4 e.expansions ++ leBytes 4 e.pushed ++ leBytes 4 e.cost ++ leBytes 4 e.elapsed ++ leBytes 4 e.hit ++ leBytes 4 e.clear ++ zeros 24

/-- A record padded to whole lines: what follows its last entry is open. -/
def padLine (seed : Nat) (b : List Byte) : List Byte := b ++ freeBytes seed (roundUp 64 b.length - b.length)

def State.modEnded (s : State) (e f : Ended) : State :=
  s.modStp fun t => { t with ended := t.ended.map fun x => if x = e then f else x }

/-- A query is finished: its outcome is counted and its post's increment applied. -/
def State.finishQuery (s : State) (e : Ended) (outcome : Nat) : State :=
  let s1 := s.modStp fun t => { t with
    ended := t.ended.erase e, stats := { t.stats with outcomes := Map.modify 0 t.stats.outcomes outcome (satAdd 0xFFFFFFFF 1) } }
  match s1.post e.query.post with
  | some x => if x.part = e.query.part then s1.postDone x else s1
  | none => s1

/-- The result record is written. -/
def State.writeResult (s : State) (e : Ended) : State :=
  let b := e.query.record
  let cut := decide (qMaxPath b < e.path.length)
  let (seed, s1) := s.take 64
  let data := padLine seed (e.header (e.flags + cut.toNat) ++ e.entries (qMaxPath b))
  let (n, s2) := s1.issueWrite
    { id := 0, src := .unit 100, op := .unit, part := e.query.part, handle := qResult b, off := qResultOff b, data := data }
  s2.modEnded e { e with write := some n, forwarded := true }

/-- The forwarded record is written at offset 0 of the FWD window, as much as it holds, with an increment of 1. -/
def State.forward (s : State) (e : Ended) : State :=
  let b := e.query.record
  let len := (s.win (hWindow (qFwd b))).len
  let n := min 252 ((len - 64) / 16)
  let cut := decide (n < e.path.length)
  let e1 := { e with flags := e.flags + (if cut then 8 else 0) }
  if !s.isOwn (hDevice (qFwd b)) || !(s.win (hWindow (qFwd b))).isOpen then
    (s.modEnded e { e1 with flags := e.flags + 4 }).writeResult { e1 with flags := e.flags + 4 }
  else
    let (seed, s1) := s.take 64
    let (w, s2) := s1.issueWrite
      { id := 0, src := .unit 100, op := .unit, part := e.query.part, handle := qFwd b, data := padLine seed (e.header cut.toNat ++ e.entries n),
        tctr := 0, tamt := 1 }
    s2.modEnded e { e1 with write := some w }

/-- QUERY_RESULT_WRITE: a found path is forwarded first where the query asks for it; then the result is written. -/
def execQueryResultWrite (s : State) : Res :=
  match s.stp.ended.find? (·.write.isNone) with
  | none => .next s
  | some e =>
    .next (if qForward e.query.record && e.status == stPathFound && !e.forwarded then s.forward e else s.writeResult e)

/-- A completion returns to Steeple: after the forwarded record the result is written; after the result the query is finished. -/
def State.steepleDone (s : State) (id status : Nat) : State :=
  match s.stp.ended.find? (·.write == some id) with
  | none => s
  | some e =>
    if e.forwarded then s.finishQuery e (if status = 0 then e.status else stQueryMalformed)
    else
      let f := { e with write := none, forwarded := true
                        flags := if status = 0 then e.flags + 2 else e.flags % 8 + 4 }
      (s.modEnded e f).writeResult f

/-- Queries of a partition are ended and discarded: nothing is written, nothing applied (R289). -/
def State.dropQueries (s : State) (p : Nat) : State :=
  s.modStp fun t => { t with
    queue := t.queue.filter (·.part != p), ended := t.ended.filter (·.query.part != p)
    running := t.running.bind fun r => if r.query.part = p then none else some r }

end Sys2Proof.Machine
end

