-- ==== Sys2Proof/Machine/WriteEvents.lean ====
section
/-! DEFINITION. The course of a tracked write: its home check, its landing, its increment, its completion
(R75, R117, R119 to R125, R164, R264, R307). -/

namespace Sys2Proof.Machine

/-- Whether a write goes through a window. -/
def Write.windowed (w : Write) : Bool := w.op != .halo && w.op != .wb

/-- An accepted write spoils the shadow copy of its setpoint window (R307). -/
def State.noteAccept (s : State) (w : Write) : State :=
  match (s.win (hWindow w.handle)).kind with
  | .setpoint n => s.spoilCopy n
  | _ => s

/-- WINDOW_WRITE_ARRIVAL: the home check (R119); a write that fails is discarded whole, and counted as late where its owner has
closed its window (R120). -/
def execWindowWriteArrival (id : Nat) (s : State) : Res :=
  match s.write id with
  | none => .next s
  | some w =>
    if w.phase != .issued || !w.windowed || !s.isOwn (hDevice w.handle) then .next s
    else match s.homeCheck w with
      | some st => .next ((s.failWrite id st).lateArrival w.handle st)
      | none => .next ((s.noteAccept w).modWrite id fun x => { x with phase := .accepted })

/-- A HALO waits until issued operations have read the units it writes (R46). -/
def State.haloHeld (s : State) (w : Write) : Bool :=
  w.op == .halo && meet (run w.off (w.data.length / 64)) (s.tileAt w.part w.dst).unitsRead

/-- SCRATCHPAD_WRITE_COMPLETE: the data of the write are visible at their place: in the scratchpad, or for HALO in the line
buffer; behind what the same requester issued before to the same lines (R97, R124). -/
def execScratchpadWriteComplete (id : Nat) (s : State) : Res :=
  match s.write id with
  | none => .next s
  | some w =>
    let ready := (if w.windowed then w.phase == .accepted && w.missing == 0 && (!s.toDdr w || w.data.isEmpty)
      else w.phase == .issued && !s.haloHeld w) && s.writeTurn w
    if !ready then .next s
    else .next ((if w.data.isEmpty then s else s.landWrite w).modWrite id fun x => { x with phase := .landed })

/-! ### Increments (R122, R123) -/

/-- The increment of a landed write reaches its counter or unit. -/
def State.applyIncrement (s : State) (w : Write) : State :=
  let done := s.modWrite w.id fun x => { x with phase := .applied }
  if w.op = .wb then done.increment w.part (match w.src with
    | .lane _ l => l
    | _ => 255) w.tctr w.tamt
  else if w.op = .halo then done.increment w.part w.dst w.tctr w.tamt
  else
    let x := s.win (hWindow w.handle)
    if x.tokCount ≤ w.tctr then s.failWrite w.id stTokenRange
    else match x.kind with
      | .partition => done.increment x.part x.target (x.tokFirst + w.tctr) w.tamt
      | .release g => done.releaseSlots g w.tamt
      | .query p => (s.takeQuery w p).modWrite w.id fun y => { y with phase := .applied }
      | .setpoint n => done.startCopy n

/-- INCREMENT_APPLY: every line of the write has been acknowledged; its tracker applies the increment, if it carries one. -/
def execIncrementApply (id : Nat) (s : State) : Res :=
  match s.write id with
  | none => .next s
  | some w =>
    if w.phase != .landed then .next s
    else
      let s1 := if w.tamt = 0 then s.modWrite id fun x => { x with phase := .applied } else s.applyIncrement w
      .next (if w.windowed then s1.freeClosed (hWindow w.handle) else s1)

/-- RELEASE_SIGNAL: a SIGNAL that has landed in the group's release window releases output slots (R264). -/
def execReleaseSignal (g amount : Nat) (s : State) : Res :=
  match s.fab.writes.find? fun w =>
      w.phase == .landed && w.windowed && (s.win (hWindow w.handle)).kind == .release g && w.tamt == amount with
  | some w => .next (if amount = 0 then s else (s.applyIncrement w).freeClosed (hWindow w.handle))
  | none => .next s

/-! ### Completions (R125) -/

/-- A completion returns to a DMA post: a fault ends its descriptor, and the chain goes on (R164). -/
def State.dmaDone (s : State) (x : Post) (status : Nat) : State :=
  let s1 := s.modPost x.id fun y => { y with write := none }
  if status != 0 || x.moved == dLen x.cur then s1.nextDesc x.id State.loadDma else s1

/-- A completion returns to the issuer of a write. -/
def State.answer (s : State) (w : Write) : State :=
  match w.src with
  | .lane p l =>
    let s1 := if w.status = 0 then s else s.modLane p l fun x => x.fault w.status
    if w.status = stPoisonConsumed then s1.markPoison p else s1
  | .post p n =>
    let s1 := if w.status = 0 then s else s.modLane p 255 fun x => x.fault w.status
    let s2 := if w.status = stPoisonConsumed then s1.markPoison p else s1
    match s2.post n with
    | none => s2
    | some x =>
      if w.op = .record then
        let held := match (s.win (hWindow w.handle)).kind with
          | .query _ => w.status == 0
          | _ => false
        if held then s2 else s2.postDone x
      else s2.dmaDone x w.status
  | .unit n =>
    if n < 4 then s.cupolaDone n w.id w.status
    else if n = 100 then s.steepleDone w.id w.status
    else if 200 ≤ n && n < 216 && w.status != 0 then
      s.modLoop (n - 200) fun x => { x with counts := { x.counts with reportFaults := x.counts.reportFaults + 1 } }
    else s
  | .peer dev tag => s.sendCompletion dev tag w.status

/-- The oldest remote write that waits for a tracker entry goes out (R125). -/
def State.sendWaiting (s : State) : State :=
  match s.fab.writes.find? fun w => w.phase == .issued && w.windowed && !s.isOwn (hDevice w.handle) with
  | some w => s.sendRemote w.id w
  | none => s

/-- WRITE_COMPLETION: the completion, or the fault status, returns to the issuer; the tracker entry is free. -/
def execWriteCompletion (id : Nat) (s : State) : Res :=
  match s.write id with
  | none => .next s
  | some w =>
    if w.phase != .applied && w.phase != .faulted then .next s
    else .next ((s.dropWrite id).answer w).sendWaiting.kickDma

/-- WRITE_TRACKER_TIMEOUT: no device has reported the remote write within 100 ms. -/
def execWriteTrackerTimeout (id : Nat) (s : State) : Res :=
  match s.write id with
  | some w => .next (if w.phase == .sent then s.failWrite id stLinkDown else s)
  | none => .next s

/-- REMOTE_WRITE_ABANDON: the next frame has not come within 10 ms: what has come stays, the increment is never applied, and the
write counts as late (R123). -/
def execRemoteWriteAbandon (id : Nat) (s : State) : Res :=
  match s.write id with
  | none => .next s
  | some w =>
    if w.missing = 0 || (w.phase != .accepted && w.phase != .issued) then .next s
    else
      let s1 := if w.phase = .issued then s
        else if s.toDdr w then
          (List.range (w.data.length / 64)).foldl (fun t k => if k < w.acked then t else t.landDdrLine { w with acked := k }) s
        else s.landWrite w
      .next ((((s1.failWrite id stLinkDown).modWrite id fun x => { x with missing := 0 }).countLate (hWindow w.handle) stWindowClosed).freeClosed
        (hWindow w.handle))

end Sys2Proof.Machine
end

