-- ==== Sys2Proof/Machine/PartCmds.lean ====
section
/-! DEFINITION. Partition commands: configure, enable, disable, reset, policy, device size table
(R25, R148, R221, R222, R233, R332, R441, R443, R476). -/

namespace Sys2Proof.Machine

/-! ### partition.configure (R148, R221) -/

/-- The configuration record's fields. -/
def partRecord (b : List Byte) : PartCfg :=
  { reserved := bitAt (u8 b 1) 0, tiers := u8 b 2, quantumUs := u32 b 4, engineMask := u64 b 8, preemptTimeoutUs := u32 b 0x10,
    jobTimeoutMs := u32 b 0x14, waitSwitchUs := u32 b 0x18, yieldLimit := u32 b 0x1C, windowBudget := u16 b 0x20,
    arbClass := u16 b 0x22, scratchBytes := u64 b 0x28, scratchWeightBytes := u64 b 0x30, ddr5Bytes := u64 b 0x38,
    kvPages := u32 b 0x40, nandBytes := u64 b 0x48, hostSwapBytes := u64 b 0x50, queueMask := u64 b 0x58 }

/-- The size of the image store, 544 GiB (R360). -/
def imageStore : Nat := 544 * 2 ^ 30

/-- The quotas of a record in TIERS order: value, granule, highest. -/
def PartCfg.quotas (c : PartCfg) : List (Nat × Nat × Nat) :=
  [(c.scratchBytes, 524288, 2 ^ 28), (c.scratchWeightBytes, 524288, c.scratchBytes), (c.ddr5Bytes, 2 ^ 26, 127 * 2 ^ 30),
   (c.kvPages, 1, 16252928), (c.nandBytes, 2 ^ 22, imageStore), (c.hostSwapBytes, 2 ^ 21, 2 ^ 40)]

/-- A time field: 0 in a reserved partition, else within its range, or 0 where that means none. -/
def timeBad (c : PartCfg) (zeroOk : Bool) (lo hi v : Nat) : Bool :=
  if c.reserved then v != 0 else !(zeroOk && v == 0) && (decide (v < lo) || decide (hi < v))

def partBad (b : List Byte) : Bool :=
  let c := partRecord b
  u8 b 3 != 0 || u32 b 0x24 != 0 || u32 b 0x44 != 0 || !allZero b 0x60 32 || decide (15 < u8 b 0) || decide (1 < u8 b 1) ||
  decide (63 < c.tiers) || timeBad c false 50 100000 c.quantumUs || timeBad c false 100 1000000 c.preemptTimeoutUs ||
  decide (86400000 < c.jobTimeoutMs) || timeBad c true 10 100000 c.waitSwitchUs || c.yieldLimit == 0 ||
  decide (4096 < c.windowBudget) || decide (1023 < c.arbClass) ||
  (c.quotas.zipIdx.any fun e => if c.tiers.testBit e.2 then e.1.1 % e.1.2.1 != 0 || decide (e.1.2.2 < e.1.1) else e.1.1 != 0)

/-- A granted quota of zero. -/
def PartCfg.zeroQuota (c : PartCfg) : Bool := c.quotas.zipIdx.any fun e => c.tiers.testBit e.2 && e.1.1 == 0

/-- The partition's DDR5 key pair is created when DDR5_BYTES is first granted, and destroyed when the grant is withdrawn
(R154); so is its swap key, and the records of its units with it (R218). -/
def State.keyPair (s : State) (p : Nat) : State :=
  let c := (s.part p).cfg
  let s1 := if c.quota 2 c.ddr5Bytes = 0 then s.ddrForget p else s.ddrKey p
  if c.quota 5 c.hostSwapBytes = 0 then s1.modPart p fun q => { q with host := { epoch := q.host.epoch + 1 } }
  else if (s1.part p).host.key = 0 then
    let k := s1.lan.nextKey
    { s1.modPart p fun q => { q with host := { q.host with key := k } } with lan := { s1.lan with nextKey := k + 1 } }
  else s1

/-- A change of the quotas releases the KV pool (R199): its sequences, its tree and its segments. -/
def Part.releasePool (q : Part) : Part :=
  { q with
    kv := { q.kv with pool := {}, seqs := [], pages := [], segs := 0, nodes := [], victim := none }
    host := { q.host with units := q.host.units.map fun e => (e.1, { e.2 with used := false, seq := 0, key := 0 }) } }

/-- Whether two records grant other quotas (R148). -/
def PartCfg.poolDiffers (a b : PartCfg) : Bool :=
  a.tiers != b.tiers || a.scratchBytes != b.scratchBytes || a.scratchWeightBytes != b.scratchWeightBytes ||
  a.ddr5Bytes != b.ddr5Bytes || a.kvPages != b.kvPages || a.nandBytes != b.nandBytes || a.hostSwapBytes != b.hostSwapBytes

/-- partition.configure: the record is set, the partition is DISABLED (in A2), and the policy table is the default. -/
def State.configurePartition (s : State) (_inl blk : List Byte) : Done :=
  let p := u8 blk 0
  let c := partRecord blk
  match firstFail [(partBad blk, rcPartitionMalformed), (c.zeroQuota, rcZeroSize), ((s.part p).state == .enabled, rcPartitionBusy)] with
  | some code => .refuse code
  | none => .ok 0 ((s.modPart p fun q0 =>
      let q := if q0.cfg.poolDiffers c then q0.releasePool else q0
      { q with cfg := c, state := .disabled, policy := 0xF4, low := .a2 }).keyPair p)

def execPartitionConfigure (q : Nat) (s : State) : Res := .next (s.serveArgs q 0x0201 State.configurePartition)

/-! ### partition.enable (R332) -/

def State.enabled (s : State) : List Nat := (List.range 16).filter fun p => (s.part p).state == .enabled

/-- The sum of a field over the enabled partitions and `p`. -/
def State.sumWith (s : State) (p : Nat) (f : Part → Nat) : Nat := sumNat ((s.enabled ++ [p]).map fun k => f (s.part k))

/-- Sequencers neither bound nor lost (R25, R418). -/
def State.freeSequencers (s : State) : List Nat :=
  (List.range 16).filter fun k => !s.module.lostSequencers.contains k &&
    !(s.parts.any fun e => e.2.sequencer == some k)

/-- The sequencers a partition may be bound to: those of the base die that carries most of its engines, a tie going to BD0;
where none of them is free, those of the other. -/
def State.sequencersFor (s : State) (p : Nat) : List Nat :=
  let dies := (s.part p).cfg.engines.map fun e => baseOfDie (e / 16)
  let home := if (dies.filter (· == 0)).length < (dies.filter (· == 1)).length then 1 else 0
  let near := s.freeSequencers.filter fun k => k / 8 == home
  if near.isEmpty then s.freeSequencers else near

/-- A free sequencer of those a partition may have is bound; which of them is open (R25). -/
def State.bindSequencer (s : State) (p : Nat) : State :=
  let l := s.sequencersFor p
  let (k, s1) := s.take 1
  s1.modPart p fun q => { q with sequencer := l[Config.freeNat k % max 1 l.length]? }

/-- Window IDs that belong to Cupola, Steeple or Campanile, or are retired (R118). -/
def State.idsGone (s : State) : Nat :=
  (s.fab.wins.filter fun e => e.2.retired || ((e.2.isOpen || e.2.closing) && e.2.kind != .partition)).length

/-- Engines of a partition after the rebind that enable or reset makes (R224). -/
def State.bindSpares (s : State) (p : Nat) : State := (s.part p).cfg.engines.foldl (fun t e => t.bindSpare p e) s

/-- The consistency check (R150, R332), in its order; `t` is the state after the rebind. -/
def State.enableCheck (s t : State) (p : Nat) : Option Nat :=
  let q := s.part p
  let c := q.cfg
  let regions := (List.range 16).map q.region |>.filter (·.defined)
  let scratch := c.tiers.testBit 0
  firstFail [
    (q.state == .free, rcPartitionState),
    (q.state == .enabled, rcPartitionBusy),
    ((c.engineMask != 0 || scratch) && regions.isEmpty, rcZeroSize),
    (s.enabled.any fun k => (s.part k).cfg.engineMask &&& c.engineMask != 0, rcEngineConflict),
    (!t.allTiles p, rcNoTile),
    (c.queueMask.testBit 0 || s.enabled.any fun k => (s.part k).cfg.queueMask &&& c.queueMask != 0, rcQueueConflict),
    (regions.any fun r => r.banks.any fun b => (s.bank b).state == .fenced, rcBankNotInService),
    (decide (c.scratchBytes < sumNat (regions.map Region.size)) || (!scratch && !regions.isEmpty) ||
      decide (2 ^ 28 < s.sumWith p fun k => k.cfg.scratchBytes), rcQuotaScratchpad),
    (decide (c.ddr5Bytes < q.ddr5Held) ||
      decide ((2032 - s.ddr.withdrawn.length) * 2 ^ 26 < s.sumWith p fun k => k.cfg.ddr5Bytes), rcQuotaDdr5),
    (decide (c.ddr5Bytes < c.kvPages * 8192), rcQuotaKv),
    (decide (imageStore < s.sumWith p fun k => k.cfg.nandBytes), rcQuotaNand),
    (decide (2 ^ 38 < s.sumWith p fun k => k.cfg.hostSwapBytes), rcQuotaHostSwap),
    (decide (4096 - s.idsGone < s.sumWith p fun k => k.cfg.windowBudget), rcWindowBudget),
    (decide (s.pwr.capW < s.sumWith p fun k => k.power.budgetW), rcPowerBudget),
    (s.freeSequencers.isEmpty, rcNoSequencer)]

/-- The banks of a partition at retention voltage, or out of it (R443). -/
def State.retainBanks (s : State) (p : Nat) (on : Bool) : State :=
  let bs := (s.part p).regions.flatMap fun r => if r.2.defined then r.2.banks else []
  bs.foldl (fun t b => t.modBank b fun x => { x with retention := on, awake := !on }) s

/-- partition.enable: out of A2; sequencer, device size table, images checked again, ENABLED. -/
def State.enablePartition (s : State) (inl _blk : List Byte) : Done :=
  let p := u8 inl 0
  let t := s.bindSpares p
  match s.enableCheck t p with
  | some code => .refuse code
  | none =>
    let s1 := ((t.retainBanks p false).bindSequencer p).recheck p
    .ok (((s1.part p).sequencer).getD 0)
      (s1.modPart p fun q => { q with state := .enabled, low := .a0 })

def execPartitionEnable (q : Nat) (s : State) : Res := .next (s.serveArgs q 0x0202 State.enablePartition)

/-! ### partition.disable (R222, R443) -/

/-- Registers and tile memories of a lane are lost: free values from `k` on. -/
def Lane.lose (_l : Lane) (k : Nat) : Lane :=
  { arch := { x := (List.range 32).foldl (fun m i => Map.set 0 m i (Config.freeWord (k + i))) [], fill := some (k + 32) } }

/-- The values a lane and its tile take when they are lost. -/
def lostValues : Nat := 2 ^ 23

/-- Registers and tile memories of a partition's tiles are lost (R441 step 4, R443). -/
def State.loseTiles (s : State) (p : Nat) : State :=
  (List.range (s.part p).cfg.engines.length).foldl (fun t l =>
    let (k, t1) := t.take (2 * lostValues)
    let n := t1.laneTile p l
    (t1.setTile n { fill := some k }).setLane p l
      ((t1.lane p l).lose (k + lostValues))) s

/-- Whether a context of a partition holds a job. -/
def Part.holdsJob (q : Part) : Bool := q.ctxs.any fun e => e.2.job.isSome || !e.2.waiting.isEmpty

/-- The partition is DISABLED and enters A2; its token counters are kept. -/
def State.enterA2 (s : State) (p : Nat) : State :=
  ((s.loseTiles p).retainBanks p true).modPart p fun q => { q with state := .disabled, low := .a2, sequencer := none }

def State.disablePartition (s : State) (inl _blk : List Byte) : Done :=
  let p := u8 inl 0
  match (s.part p).state with
  | .free => .refuse rcPartitionState
  | .disabled => .empty s
  | .enabled => if (s.part p).holdsJob then .refuse rcPartitionBusy else .ok 0 (s.enterA2 p)

def execPartitionDisable (q : Nat) (s : State) : Res := .next (s.serveArgs q 0x0203 State.disablePartition)

/-! ### partition.reset (R441) -/

/-- A write accepted at a window of `p` lands; one that still misses frames is abandoned (step 3). -/
def State.settleWrite (s : State) (w : Write) : State :=
  let s1 :=
    if w.phase != .accepted || w.data.isEmpty then s
    else if s.toDdr w then
      (List.range (w.data.length / 64)).foldl (fun t k => if k < w.acked then t else t.landDdrLine { w with acked := k }) s
    else s.landWrite w
  if w.missing = 0 then s1.modWrite w.id fun x => { x with phase := .applied }
  else (s1.failWrite w.id stLinkDown).modWrite w.id fun x => { x with missing := 0 }

/-- Windows of a partition: its own, its query window, and setpoint slots on it. -/
def State.windowsOf (s : State) (p : Nat) : List Nat :=
  (s.fab.wins.filter fun e => (e.2.isOpen || e.2.closing) && e.2.part == p && match e.2.kind with
    | .release _ => false
    | _ => true).map Prod.fst

/-- A setpoint slot is closed, its window apart. -/
def State.closeSp (s : State) (n : Nat) : State :=
  s.modSp n fun x => { x with isOpen := false, current := none, copying := none, want := false }

/-- Steps 2 and 3: windows closed, accepted writes landed, queries ended. -/
def State.shutWindows (s : State) (p : Nat) : State :=
  let ids := s.windowsOf p
  let ws := s.fab.writes.filter fun w =>
    w.windowed && (w.phase == .accepted || w.phase == .landed) && ids.contains (hWindow w.handle)
  let s1 := ws.foldl State.settleWrite s
  let s2 := ids.foldl (fun t k => (match (t.win k).kind with
    | .setpoint n => t.closeSp n
    | _ => t).closeWindow k) s1
  (ids.foldl State.freeClosed s2).dropQueries p

/-- Step 4: token counters cleared, spares bound. -/
def State.resetTiles (s : State) (p : Nat) : State :=
  let s1 := s.bindSpares p
  let keys := (List.range (s1.part p).cfg.engines.length).flatMap (fun l => (List.range 64).map (s1.tokKey p l)) ++
    (List.range 256).map (s1.tokKey p 255)
  let s2 := { s1 with
    tok := keys.foldl (fun m k => Map.set 0 m k 0) s1.tok
    tokBad := keys.foldl (fun m k => Map.set false m k false) s1.tokBad }
  (s2.loseTiles p).setLane p 255 {}

/-- Step 6: jobs end, images go, the model cache is dropped. -/
def State.endJobs (s : State) (p : Nat) : State :=
  let s1 := (List.range 8).foldl (fun t c => (t.endAll p c stPartitionReset).unloadImage p c) s
  s1.modPart p fun q => { q with models := { q.models with cache := [] }, kv := { q.kv with victim := none } }

/-- The reset of partition `p` (R418, R441). -/
def State.resetPartition (s : State) (p : Nat) : State :=
  let stopped := { (s.part p) with state := PState.disabled }
  let was := (s.part p).state
  let s1 := (s.setPart p stopped).clearEngines p
  let s2 := ((s1.shutWindows p).resetTiles p)
  let s3 := ((s2.part p).regions.flatMap fun r => if r.2.defined then r.2.banks else []).foldl State.zeroBank s2
  (s3.endJobs p).modPart p fun q => { q with state := was }

def execPartitionReset (q : Nat) (s : State) : Res :=
  .next (s.serveArgs q 0x0204 fun t inl _ => .ok 0 (t.resetPartition (u8 inl 0)))

/-! ### Policy and table -/

/-- partition.policy_set (R233). -/
def execPartitionPolicySet (q : Nat) (s : State) : Res :=
  .next (s.serveArgs q 0x0205 fun t inl _ =>
    if u8 inl 1 % 4 = 3 then .refuse rcPartitionMalformed
    else .ok 0 (t.modPart (u8 inl 0) fun x => { x with policy := u8 inl 1 }))

/-- partition.dst (R476). -/
def execPartitionDst (q : Nat) (s : State) : Res :=
  .next (s.serveArgs q 0x0206 fun t inl _ => .data (t.dst (u8 inl 0)) 0 t)

end Sys2Proof.Machine
end

