-- ==== Sys2Proof/Machine/ProgCmds.lean ====
section
/-! DEFINITION. Program, model and job commands (R84 to R86, R115, R165 to R168, R176, R178, R210, R211, R225, R330,
R331). -/

namespace Sys2Proof.Machine

/-! ### program.load (R86, R115, R475) -/

/-- The counters that a window entry may name at its lane, relative to the context: those its lane's map declares external
(check 24). -/
def Image.externalAt (im : Image) (e : List Byte) : Bool :=
  (List.range (u16 e 0x1A)).all fun k => (nth 0 im.external (im.laneIndex (u8 e 0x18))).testBit (u8 e 0x19 + k)

/-- A window entry's range runs past its backing (check 25). -/
def Part.backingBad (q : Part) (im : Image) (e : List Byte) : Bool :=
  let r := q.region (u8 e 2)
  decide (2 ^ 28 < u64 e 0x10) ||
  (if u8 e 1 = 1 then decide (im.needs.ddr5 < u64 e 8 + u64 e 0x10) else !r.defined || decide (r.size < u64 e 8 + u64 e 0x10))

/-- A window entry's targets run past the counters of its lane (check 26). -/
def targetsBad (base : Nat) (e : List Byte) : Bool :=
  decide ((if u8 e 0x18 = 0xFF then 256 else 64) < base + u8 e 0x19 + u16 e 0x1A)

/-- The bases of the counter runs that the loader gives a context (R72). -/
def Part.counterBases (q : Part) (c : Nat) (n : ImageNeeds) : Nat × Nat :=
  ((freeRun (q.engineRuns c) n.engineTokens 64).getD 0, (freeRun (q.sharedRuns c) n.sharedTokens 256).getD 0)

/-- Checks 11 to 26 of R86. -/
def State.loadFit (s : State) (p c : Nat) (im : Image) (ws : List (List Byte)) : Option Nat :=
  let q := s.part p
  let bases := q.counterBases c im.needs
  let base := fun (e : List Byte) => if u8 e 0x18 = 0xFF then bases.2 else bases.1
  let fit := s.fitCode p c im
  let early := fit.any [rcEngineCount, rcDistanceClass, rcPeer, rcYieldInterval].contains
  if early then fit
  else if ws.any fun e => u64 e 0x10 == 0 then some rcZeroSize
  else if fit.isSome then fit
  else firstFail [
    (ws.any fun e => !im.externalAt e, rcTokenExternal),
    (ws.any (q.backingBad im), rcWindowBacking),
    (ws.any fun e => targetsBad (base e) e, rcTokenRange)]

/-- A window of an image: DDR5 offsets count from the data area, counters from the context's base. -/
def imageWindow (p c dataBase eng sh : Nat) (e : List Byte) : Win :=
  { kind := .partition, part := p, ddr5 := u8 e 1 == 1, region := u8 e 2, flags := u8 e 3,
    off := u64 e 8 + (if u8 e 1 = 1 then dataBase else 0), len := u64 e 0x10, target := u8 e 0x18,
    tokFirst := u8 e 0x19 + (if u8 e 0x18 = 0xFF then sh else eng), tokCount := u16 e 0x1A, ctx := c }

/-- The windows of an image are opened in table order: their IDs. -/
def State.openAll (s : State) : List Win → State × List Nat
  | [] => (s, [])
  | w :: rest => match s.freeWindow with
    | none => (s, [])
    | some id => match (s.openWindow id w).openAll rest with
      | (t, ids) => (t, id :: ids)

/-- The image of a slot is bound to context `c`: counters, data area, code, windows, handles. -/
def State.install (s : State) (p c slot : Nat) (b : List Byte) : State :=
  let im := buildImage slot b
  let q := s.part p
  let bases := q.counterBases c im.needs
  let base := q.freeBase im.needs.ddr5
  let ws := (imageWindows b).map (imageWindow p c base bases.1 bases.2)
  let r := s.openAll ws
  let hs := r.2.flatMap fun id => leBytes 8 (r.1.handle id).toNat
  let s1 := r.1.wideWrite p im.needs.codeDst (slice b im.codeLow im.codeSize)
  let s2 := if hs.isEmpty then s1 else s1.wideWrite p im.needs.handleTable hs
  let im' : Image := { im with dataBase := base, wins := r.2.map fun id => (id, (r.1.win id).gen) }
  s2.modCtx p c fun x => { x with state := .loaded, image := some im', engBase := bases.1, shBase := bases.2, refuse := 0 }

/-- program.load: checks in the order of R225, R372 and R86. -/
def State.programLoad (s : State) (inl _blk : List Byte) : Done :=
  let p := u8 inl 0
  let c := u8 inl 1
  let n := u16 inl 2
  let b := (s.slot n).data
  if (s.ctx p c).image.isSome then .refuse rcContextBusy
  else match s.slotCheck n 0 p with
    | some code => .refuse code
    | none =>
      if s.mediaBad n then .ends stMediaError (s.mediaDone n)
      else match s.lan.sigCheck b 0 p with
        | some code => .refuseWith code (s.logSignature code 0 n p)
        | none => match imageCheck b with
          | some code => .refuse code
          | none => match s.loadFit p c (buildImage n b) (imageWindows b) with
            | some code => .refuse code
            | none =>
              let t := s.install p c n b
              .ok (((t.ctx p c).image.map (·.dataBase)).getD 0) (t.measureSlot 0x0301 n (digest (s.slot n).body))

def execProgramLoad (q : Nat) (s : State) : Res := .next (s.serveArgs q 0x0301 State.programLoad)

/-- Whether a context holds a job, waiting ones with it. -/
def Ctx.holdsJob (x : Ctx) : Bool := x.job.isSome || !x.waiting.isEmpty

/-- program.unload (R225); a context that holds no image is refused (R333). -/
def State.programUnload (s : State) (inl _blk : List Byte) : Done :=
  let p := u8 inl 0
  let c := u8 inl 1
  match (s.ctx p c).image with
  | none => .refuse rcNoImage
  | some im =>
    if (s.ctx p c).holdsJob then .refuse rcContextBusy
    else .ok 0 ((s.unloadImage p c).measureSlot 0x0302 im.slot (digest (s.slot im.slot).body))

def execProgramUnload (q : Nat) (s : State) : Res := .next (s.serveArgs q 0x0302 State.programUnload)

/-! ### Models (R165, R168, R178) -/

/-- A free place among the 64. -/
def Models.room (m : Models) : Option Nat := (List.range 64).find? fun k => !(Map.get {} m.staged k).used

/-- What model.stage refuses on its own account. -/
def Part.stageCheck (q : Part) (id : List Byte) (bytes mode : Nat) : Option Nat :=
  firstFail [
    (q.models.staged.any fun e => e.2.used && e.2.id == id, rcModelBusy),
    (q.models.room.isNone, rcModelLimit),
    (mode == 0 && decide (q.cfg.quota 2 q.cfg.ddr5Bytes < q.ddr5Held + roundUp 65536 bytes), rcQuotaDdr5)]

/-- The check of a slot for model.stage, and the model it would stage. -/
def State.stageModel (s : State) (inl : List Byte) (mode : Nat) (f : State → Nat → Staged → Done) : Done :=
  let p := u8 inl 0
  let n := u16 inl 2
  let x := s.slot n
  match s.slotCheck n 1 p with
  | some code => .refuse code
  | none =>
    if s.mediaBad n then .ends stMediaError (s.mediaDone n)
    else match s.lan.sigCheck x.data 1 p with
      | some code => .refuseWith code (s.logSignature code 1 n p)
      | none =>
        let id := digest16 x.body
        match (s.part p).stageCheck id x.body.length mode with
        | some code => .refuse code
        | none =>
          let m : Staged := { used := true, id := id, slot := n, nandDirect := mode == 1, bytes := x.body.length, ready := mode == 1 }
          f (s.measureSlot 0x0401 n (digest x.body)) p m

/-- A model is put in its place. -/
def State.putModel (s : State) (p : Nat) (m : Staged) : State :=
  s.modPart p fun q =>
    let k := (q.models.room).getD 0
    { q with models := { q.models with staged := Map.set {} q.models.staged k m } }

/-- model.stage with MODE 1 spells the NAND-direct row; every other MODE the DDR5 row. -/
def nandDirect (c : Cmd) : Bool := u8 c.inl 4 == 1

/-- model.stage MODE 0: the copy is under way. -/
def execModelStageDdr5 (q : Nat) (s : State) : Res :=
  .next (s.serve q 0x0401 (fun c => !nandDirect c) fun t c =>
    t.stageModel c.inl 0 fun u p m => .runs (u.putModel p m))

def execModelStageNandDirect (q : Nat) (s : State) : Res :=
  .next (s.serve q 0x0401 nandDirect fun t c => t.stageModel c.inl 1 fun u p m => .ok 0 (u.putModel p m))

/-- The running model.stage commands of a partition and slot: queue, fetch number. -/
def State.stagers (s : State) (p slot : Nat) : List (Nat × Nat) :=
  s.host.queues.flatMap fun e => (e.2.cmds.filter fun c =>
    c.phase == .running && c.entry.opcode == 0x0401 && u8 c.inl 0 == p && u16 c.inl 2 == slot).map fun c => (e.1, c.no)

/-- MODEL_STAGE_COPY_DONE: the model's stream stands in the partition's model area, line by line under its key pair. -/
def execModelStageCopyDone (p modelId : Nat) (s : State) : Res :=
  match (s.part p).models.staged.find? fun e => e.2.used && !e.2.ready && leNat 16 e.2.id == modelId with
  | none => .next s
  | some (k, m) =>
    let m' : Staged := { m with ready := true }
    let s1 := (s.ddrFill (modelLine p k 0) (s.slot m.slot).body).modPart p fun q => { q with models := { q.models with staged := Map.set {} q.models.staged k m' } }
    .next (s1.finishAll (s.stagers p m.slot) (roundUp 65536 m.bytes))

/-- Whether a job of the partition is bound to a staged model: a running one, or one of a pre-empted context (R168). -/
def Part.modelBusy (q : Part) (k : Nat) : Bool :=
  q.ctxs.any fun e => e.2.job.any fun j => j.bound.contains k

/-- model.unstage. -/
def State.modelUnstage (s : State) (inl _blk : List Byte) : Done :=
  let p := u8 inl 0
  let q := s.part p
  match q.models.find (slice inl 16 16) with
  | none => .refuse rcModelNotStaged
  | some k =>
    if q.modelBusy k then .refuse rcModelBusy
    else
      let n := (Map.get {} q.models.staged k).slot
      let t := s.modPart p fun x => { x with models := { x.models with
        staged := Map.erase x.models.staged k, cache := x.models.cache.filter fun e => e.model != k } }
      .ok 0 (t.measureSlot 0x0402 n (digest (s.slot n).body))

def execModelUnstage (q : Nat) (s : State) : Res := .next (s.serveArgs q 0x0402 State.modelUnstage)

/-- model.evict: of one model, or of all. -/
def State.modelEvict (s : State) (inl _blk : List Byte) : Done :=
  let p := u8 inl 0
  let id := slice inl 16 16
  let m := (s.part p).models
  if id.all (· == 0xFF) then
    if m.list.isEmpty then .empty s else .ok 0 (s.modPart p fun x => { x with models := { x.models with cache := [] } })
  else match m.find id with
    | none => .refuse rcModelNotStaged
    | some k => .ok 0 (s.modPart p fun x => { x with models := { x.models with cache := x.models.cache.filter fun e => e.model != k } })

def execModelEvict (q : Nat) (s : State) : Res := .next (s.serveArgs q 0x0403 State.modelEvict)

/-- model.list: 64 entries; the places without a model are zero. -/
def Models.record64 (m : Models) : List Byte :=
  (List.range 64).flatMap fun k =>
    let e := Map.get {} m.staged k
    if e.used && e.ready then e.id ++ leBytes 8 e.bytes ++ [BitVec.ofNat 8 e.nandDirect.toNat] ++ zeros 7 else zeros 32

def execModelList (q : Nat) (s : State) : Res :=
  .next (s.serveArgs q 0x0404 fun t inl _ => .data (t.part (u8 inl 0)).models.record64 0 t)

/-! ### Jobs (R210, R211, R225, R330, R331) -/

/-- The refusals of R166 for one model of an image. -/
def Models.refCode (m : Models) (r : ModelRef) : Option Nat :=
  match m.find r.id with
  | none => some rcModelNotStaged
  | some k =>
    let e := Map.get {} m.staged k
    if e.bytes != r.bytes then some rcModelMismatch
    else if e.nandDirect && !r.nandOk then some rcModelTier
    else none

/-- The first of R166's refusals over an image's models. -/
def Models.bindCode (m : Models) (l : List ModelRef) : Option Nat := (l.filterMap m.refCode).head?

/-- The MAX_SEQ of a length table (R211). -/
def Part.ltLimit (q : Part) : Nat := if q.kv.pool.configured then q.kv.pool.maxSeq else 4096

/-- A length table is refused (R211). -/
def tableBad (limit : Nat) (b : List Byte) : Bool :=
  let es := tableEntry b
  !allZero b 4 12 || decide (limit < u32 b 0) || decide (b.length < 16 + 16 * u32 b 0) ||
  (List.range (u32 b 0)).any (fun i => !allZero b (16 + 16 * i + 10) 6) ||
  es.any (fun e => decide (limit ≤ e.seq) || decide (65536 < e.new) || decide (1048576 < e.ctxLen + e.new)) ||
  hasDup (es.map (·.seq))
where
  /-- The entries of a table. -/
  tableEntry (b : List Byte) : List LtEntry :=
    (List.range (u32 b 0)).map fun i => ⟨u32 b (16 + 16 * i), u32 b (20 + 16 * i), u16 b (24 + 16 * i)⟩

/-- A copy's destination: 64-byte aligned, its bytes within one region of the partition. -/
def Part.copyOk (q : Part) (dst n : Nat) : Bool := dst % 64 == 0 && (n == 0 || q.inRegion dst n)

/-- The job that a block describes. -/
def jobOf (q : Nat) (c : Cmd) (lt : List Byte) : Job :=
  let b := c.blk
  let n := 16 + 16 * u32 lt 0
  { cmd := some (q, c.no), queue := q, prio := u8 b 2, hasLt := u64 b 8 != 0
    lt := if u64 b 8 = 0 then [] else tableBad.tableEntry lt
    ltBytes := if u64 b 8 = 0 then [] else lt.take n
    ltDst := u64 b 0x10, argsDst := u64 b 0x18, args := slice b 64 (8 * u16 b 0x20), statsAddr := u64 b 0x28 }

/-- The refusals of job.submit behind the length table's arrival, in order (R331, R166, R211). -/
def State.submitCheck (s : State) (p : Nat) (im : Image) (b lt : List Byte) : Option Nat :=
  let q := s.part p
  let has := u64 b 8 != 0
  firstFail [
    (!has && im.needs.raggedMax != 0, rcLengthTable),
    ((has && !q.copyOk (u64 b 0x10) (16 + 16 * u32 lt 0)) || (!has && u64 b 0x10 != 0) ||
      !q.copyOk (u64 b 0x18) (8 * u16 b 0x20), rcRange)] |>.or
  ((q.models.bindCode im.models).or (if has && tableBad q.ltLimit lt then some rcLengthTable else none))

/-- job.submit: the job joins its context's queue; a table without entries completes it at once. -/
def State.jobSubmit (s : State) (q : Nat) (c : Cmd) : Done :=
  let b := c.blk
  let p := u8 b 0
  let k := u8 b 1
  let x := s.ctx p k
  if x.refuse != 0 then .refuse x.refuse
  else match x.image with
    | none => .refuse rcNoImage
    | some im =>
      if u64 b 8 != 0 && c.table.isNone then .stay
      else
        let lt := c.table.getD []
        match s.submitCheck p im b lt with
        | some code => .refuse code
        | none =>
          if u64 b 8 != 0 && u32 lt 0 == 0 then .empty s
          else .runs (s.modCtx p k fun y => { y with waiting := y.waiting ++ [jobOf q c lt] })

def execJobSubmit (q : Nat) (s : State) : Res := .next (s.serve q 0x0501 always fun t c => t.jobSubmit q c)

/-- job.preempt: a context on the engines is asked to stop, and the command waits for it. -/
def State.jobPreempt (s : State) (q : Nat) (c : Cmd) : Done :=
  let p := u8 c.inl 0
  let k := u8 c.inl 1
  if (s.part p).cfg.reserved then .refuse rcPartitionReserved
  else if !(s.ctx p k).resident then .empty s
  else .runs ((s.preempt p).modCmd q c.no fun x => { x with await := some (p, k) })

def execJobPreempt (q : Nat) (s : State) : Res := .next (s.serve q 0x0502 always fun t c => t.jobPreempt q c)

/-- job.abort: the context's job ends with ST_ABORTED. -/
def State.jobAbort (s : State) (inl _blk : List Byte) : Done :=
  let p := u8 inl 0
  let k := u8 inl 1
  if (s.ctx p k).job.isNone then .empty s else .ok 0 (s.endJob p k stAborted)

def execJobAbort (q : Nat) (s : State) : Res := .next (s.serveArgs q 0x0503 State.jobAbort)

end Sys2Proof.Machine
end

