-- ==== Sys2Proof/Machine/MemCmds.lean ====
section
/-! DEFINITION. Memory, window and fabric commands (R90 to R95, R103, R109, R114, R117, R133, R135, R137, R140, R159, R176,
R178, R218). -/

namespace Sys2Proof.Machine

/-! ### Regions (R90 to R92, R95) -/

/-- The banks that a descriptor names, in order. -/
def namedBanks (b : List Byte) : List Nat := (List.range 544).filter fun k => bitAt (u8 b (0x10 + k / 8)) (k % 8)

/-- A descriptor whose reserved fields, MODE, BANK_COUNT, BANK_MAP, NEAR_WIDTH or SEED break R8 or R90. -/
def regionBad (b : List Byte) : Bool :=
  decide (15 < u8 b 0) || decide (15 < u8 b 1) || decide (1 < u8 b 2) || !allZero b 0x0A 6 || !allZero b 0x54 12 ||
  (namedBanks b).length != u16 b 8 || decide (512 < u16 b 8) ||
  (if u8 b 2 = 0 then !([1, 2, 4, 8].contains (u8 b 3)) || u32 b 4 != 0 else u8 b 3 != 0)

/-- A bank group that gives a near region another number of banks than 0 or its width. -/
def nearShapeBad (banks : List Nat) (w : Nat) : Bool :=
  (List.range 68).any fun g =>
    let n := (banks.filter fun k => k / 8 == g).length
    n != 0 && n != w

/-- The refusals of region.define (R91). -/
def State.defineCheck (s : State) (b : List Byte) : Option Nat :=
  let q := s.part (u8 b 0)
  let banks := namedBanks b
  firstFail [
    (regionBad b, rcRegionMalformed),
    (banks.isEmpty, rcZeroSize),
    (q.state == .enabled || (q.region (u8 b 1)).defined, rcRegionBusy),
    (banks.any fun k => (s.bank k).state != .inService, rcBankNotInService),
    (banks.any fun k => (s.bankOwner k).isSome, rcBankInUse),
    (u8 b 2 == 0 && nearShapeBad banks (u8 b 3), rcNearShape)]

/-- region.define: the banks enter the region with zeros in every line (R92), at retention voltage with their partition in A2
(R443). -/
def State.defineRegion (s : State) (_inl b : List Byte) : Done :=
  match s.defineCheck b with
  | some code => .refuse code
  | none =>
    let p := u8 b 0
    let banks := namedBanks b
    let r : Region := { defined := true, mode := u8 b 2, nearWidth := u8 b 3, seed := u32 b 4, banks := banks }
    let s1 := s.zeroBanks banks
    let s2 := banks.foldl (fun t k => t.modBank k fun x => { x with retention := true, awake := false }) s1
    .ok 0 (s2.modPart p fun q => { q with regions := Map.set {} q.regions (u8 b 1) r })

def execRegionDefine (q : Nat) (s : State) : Res := .next (s.serveArgs q 0x0601 State.defineRegion)

/-- Model-cache entries of a partition that meet a range of its scratchpad are dropped (R176). -/
def State.dropCached (s : State) (p addr n : Nat) : State :=
  s.modPart p fun q => { q with models := { q.models with
    cache := q.models.cache.filter fun e => !(decide (e.dst < addr + n) && decide (addr < e.dst + 272 * e.tiles)) } }

/-- region.release: the region's banks are filled with zeros and return to the free pool. -/
def State.releaseRegion (s : State) (inl _b : List Byte) : Done :=
  let p := u8 inl 0
  let i := u8 inl 1
  let r := (s.part p).region i
  if !r.defined then .refuse rcRegion
  else if (s.part p).state == .enabled then .refuse rcRegionBusy
  else
    let s1 := (s.zeroBanks r.banks).dropCached p (2 ^ 28 * i) (2 ^ 28)
    let s2 := r.banks.foldl (fun t k => t.modBank k fun x => { x with retention := false, awake := true, hot := false }) s1
    .ok 0 (s2.modPart p fun q => { q with regions := Map.erase q.regions i })

def execRegionRelease (q : Nat) (s : State) : Res := .next (s.serveArgs q 0x0602 State.releaseRegion)

/-- Whether a pre-empted context has a live range in a region: at the yield points where its lanes stopped (R95). -/
def Ctx.liveIn (x : Ctx) (region : Nat) : Bool :=
  x.state == .saved && match x.image with
  | none => false
  | some im => im.yields.any fun y =>
      (Map.get {} x.saved y.lane).run == .stopped && (Map.get {} x.saved y.lane).arch.pc == y.word &&
      ((im.live.drop y.first).take y.count).any fun r => r.region == region

/-- region.reseed: the region is filled with zeros under its new seed. -/
def State.reseedRegion (s : State) (inl _b : List Byte) : Done :=
  let p := u8 inl 0
  let i := u8 inl 1
  let q := s.part p
  let r := q.region i
  if !r.defined then .refuse rcRegion
  else if r.mode = 0 then .refuse rcRegionMalformed
  else if q.running.isSome || (q.ctxs.any fun e => e.2.liveIn i) then .refuse rcRegionBusy
  else .ok 0 (((s.zeroBanks r.banks).dropCached p (2 ^ 28 * i) (2 ^ 28)).modPart p
    fun x => { x with regions := Map.set {} x.regions i { r with seed := u32 inl 4 } })

def execRegionReseed (q : Nat) (s : State) : Res := .next (s.serveArgs q 0x0603 State.reseedRegion)

/-! ### Fill and copy (R103) -/

/-- A range of whole lines within a region. -/
def Region.lines (r : Region) (off n : Nat) : Bool := off % 64 == 0 && n % 64 == 0 && decide (off + n ≤ r.size)

/-- mem.fill. -/
def State.memFill (s : State) (inl _b : List Byte) : Done :=
  let p := u8 inl 0
  let r := (s.part p).region (u8 inl 1)
  let off := u32 inl 4
  let n := u32 inl 8
  let addr := 2 ^ 28 * u8 inl 1 + off
  match firstFail [(!r.defined, rcRegion), (!r.lines off n, rcRange), ((s.part p).running.isSome, rcRegionBusy)] with
  | some code => .refuse code
  | none =>
    if n = 0 then .empty s
    else
      let line := (List.replicate 16 (slice inl 12 4)).flatten
      .ok 0 (((s.flushRun p addr n).writeLines p addr (List.replicate (n / 64) (line, false))).dropCached p addr n)

def execMemFill (q : Nat) (s : State) : Res := .next (s.serveArgs q 0x0604 State.memFill)

/-- mem.copy: lines with their poison. -/
def State.memCopy (s : State) (inl _b : List Byte) : Done :=
  let p := u8 inl 0
  let q := s.part p
  let a := u8 inl 1
  let b := u8 inl 2
  let x := u32 inl 4
  let y := u32 inl 8
  let n := u32 inl 12
  match firstFail [
    (!(q.region a).defined || !(q.region b).defined, rcRegion),
    (!(q.region a).lines x n || !(q.region b).lines y n, rcRange),
    (a == b && decide (x < y + n) && decide (y < x + n) && n != 0, rcCopyOverlap),
    (q.running.isSome, rcRegionBusy)] with
  | some code => .refuse code
  | none =>
    if n = 0 then .empty s
    else
      let src := 2 ^ 28 * a + x
      let dst := 2 ^ 28 * b + y
      let s1 := (s.flushRun p src n).flushRun p dst n
      .ok 0 ((s1.writeLines p dst (s1.readLines p src (n / 64))).dropCached p dst n)

def execMemCopy (q : Nat) (s : State) : Res := .next (s.serveArgs q 0x0605 State.memCopy)

/-! ### Statistics (R109, R159, R178) -/

def BankState.code : BankState → Nat
  | .inService => 0
  | .spare => 1
  | .retired => 2
  | .fenced => 3

/-- Whether a bank waits for its retirement. -/
def Bank.retiring (x : Bank) : Bool := x.state == .inService && (x.ceTrigger || x.ueTrigger)

/-- The bank statistics record. -/
def State.bankRecord (s : State) (b : Nat) : List Byte :=
  let x := s.bank b
  let o := (s.bankOwner b).getD (0xFF, 0xFF)
  leBytes 2 b ++ leBytes 1 x.state.code ++ leBytes 1 (x.hot.toNat + 2 * x.retiring.toNat) ++ leBytes 1 o.1 ++ leBytes 1 o.2 ++ zeros 2 ++
  leBytes 8 x.grants.toNat ++ leBytes 8 x.waitCycles.toNat ++ leBytes 2 x.corrected ++ leBytes 2 x.uncorrectable ++ leBytes 4 x.windowGrants

def execMemBankStats (q : Nat) (s : State) : Res :=
  .next (s.serveArgs q 0x0606 fun t inl _ => .data (t.bankRecord (u16 inl 0)) 0 t)

def execMemDdr5Stats (q : Nat) (s : State) : Res :=
  .next (s.serveArgs q 0x0607 fun t inl _ =>
    let x := (Map.get {} t.ddr.subs (u8 inl 0) : SubChannel)
    .data ((List.range 16).flatMap fun p => leBytes 8 (Map.get 0 x.grants p).toNat) 0 t)

/-- The model-cache record: entries, bytes, hits, misses, full misses. -/
def Models.cacheRecord (m : Models) : List Byte :=
  [m.cache.length, sumNat (m.cache.map fun e => 272 * e.tiles), m.hits.toNat, m.misses.toNat, m.fullMisses.toNat].flatMap (leBytes 8)

def execMemCacheStats (q : Nat) (s : State) : Res :=
  .next (s.serveArgs q 0x0608 fun t inl _ => .data (t.part (u8 inl 0)).models.cacheRecord 0 t)

/-! ### The host swap area (R150, R218) -/

/-- Units that host areas register, partition `p` apart. -/
def State.hostUnits (s : State) (p : Nat) : Nat :=
  sumNat ((s.parts.filter fun e => e.1 != p).map fun e => e.2.host.bytes / 8192)

/-- Whether a range meets the host area of some partition. -/
def State.hostOverlap (s : State) (base n : Nat) : Bool :=
  s.parts.any fun e => decide (e.2.host.base < base + n) && decide (base < e.2.host.base + e.2.host.bytes)

/-- mem.host_register: the partition's host swap area; its units have not been written (log entry 47 for a second
registration). -/
def State.hostRegister (s : State) (inl _b : List Byte) : Done :=
  let p := u8 inl 0
  let base := u64 inl 8
  let n := u64 inl 16
  match firstFail [
    (n == 0, rcZeroSize),
    (base % 8192 != 0 || n % 8192 != 0 || s.hostOverlap base n, rcHostArea),
    (decide ((s.part p).cfg.quota 5 (s.part p).cfg.hostSwapBytes < n) || decide (2 ^ 25 < s.hostUnits p + n / 8192), rcQuotaHostSwap)] with
  | some code => .refuse code
  | none => .ok 0 (s.modPart p fun q =>
      let keep := (q.host.units.filter fun e => e.2.used).map fun e => (e.1, { e.2 with written := false })
      { q with host := { q.host with base := base, bytes := n, units := keep } })

def execMemHostRegister (q : Nat) (s : State) : Res := .next (s.serveArgs q 0x0609 State.hostRegister)

/-! ### Windows (R114, R117) -/

/-- The first four checks of R114, which every window opens under. -/
def State.windowChecks (s : State) (b : List Byte) : List (Bool × Nat) :=
  let p := u8 b 0
  let q := s.part p
  let lane := u8 b 0x18
  let r := q.region (u8 b 2)
  let off := u64 b 8
  let n := u64 b 0x10
  [ (decide (15 < p) || decide (1 < u8 b 1) || (if u8 b 1 = 1 then u8 b 2 != 0 else decide (15 < u8 b 2)) || decide (7 < u8 b 3) ||
      u32 b 4 != 0 || off % 64 != 0 || n % 64 != 0 || u32 b 0x1C != 0 || decide (256 < u16 b 0x1A) ||
      (lane != 0xFF && decide (q.cfg.engines.length ≤ lane)), rcWindowMalformed),
    (n == 0, rcZeroSize),
    (decide (2 ^ 28 < n) || (if u8 b 1 = 1 then !q.inDataArea off n else !r.defined || decide (r.size < off + n)), rcWindowBacking),
    (decide ((if lane = 0xFF then 256 else 64) < u8 b 0x19 + u16 b 0x1A), rcTokenRange)]

/-- What window.open refuses. -/
def State.openCheck (s : State) (b : List Byte) : Option Nat :=
  firstFail (s.windowChecks b ++
    [(decide ((s.part (u8 b 0)).cfg.windowBudget ≤ s.openWindows (u8 b 0)) || s.freeWindow.isNone, rcWindowBudget)])

/-- The ID for a window: the one wanted, if it is free (R438), else the one that has been closed longest. -/
def State.windowId (s : State) (want : Option Nat) : Option Nat :=
  match want with
  | none => s.freeWindow
  | some id => if (s.win id).isFree then some id else none

/-- window.open of a descriptor, under a wanted ID where there is one. -/
def State.windowOpen (s : State) (want : Option Nat) (b : List Byte) : Done :=
  match s.openCheck b with
  | some code => .refuse code
  | none => match s.windowId want with
    | none => .refuse rcWindowBudget
    | some id =>
      let w : Win := { kind := .partition, part := u8 b 0, ddr5 := u8 b 1 == 1, region := u8 b 2, flags := u8 b 3, off := u64 b 8,
                       len := u64 b 0x10, target := u8 b 0x18, tokFirst := u8 b 0x19, tokCount := u16 b 0x1A }
      let t := s.openWindow id w
      .ok (t.handle id).toNat t

def execWindowOpen (q : Nat) (s : State) : Res := .next (s.serveArgs q 0x060A fun t _ b => t.windowOpen none b)

/-- Whether a handle is open at its generation. -/
def State.handleOpen (s : State) (h : DWord) : Bool :=
  hDevice h == s.huv.devId && hReserved h == 0 && (s.win (hWindow h)).isOpen && (s.win (hWindow h)).gen == hGen h

/-- What else a window's close does: a setpoint slot is closed with its window. -/
def State.closeUnit (s : State) (id : Nat) : State :=
  match (s.win id).kind with
  | .setpoint n => s.closeSp n
  | _ => s

/-- window.close: the window of another partition than the queue's is not its to close (R330). -/
def State.windowClose (s : State) (q : Nat) (c : Cmd) : Done :=
  let h := BitVec.ofNat 64 (u64 c.inl 0)
  let id := hWindow h
  let w := s.win id
  if !s.handleOpen h then .refuse rcWindowStale
  else if q != 0 && !s.bound q w.part then .refuse rcNotBound
  else .runs (((s.closeUnit id).setWin id { w with closer := some (q, c.no) }).closeWindow id)

def execWindowClose (q : Nat) (s : State) : Res := .next (s.serve q 0x060B always fun t c => t.windowClose q c)

/-! ### The fabric (R133, R135, R137, R140) -/

/-- Whether a port has got past step 3 of its bring-up (R134, R135; log entry 48). -/
def Port.isUp (x : Port) : Bool :=
  x.state == .up || x.state == .retraining || (x.state == .attesting && x.session.step != .bringup)

/-- fabric.set_id; ports that stand at step 3 start again with the new ID. -/
def State.setId (s : State) (id : Nat) : Done :=
  if id = 0xFFFF || (List.range 4).any fun h => (s.port h).isUp then .refuse rcDeviceId
  else
    let s1 := { s with huv := { s.huv with devId := id } }
    .ok 0 ((List.range 4).foldl (fun t h => t.modPort h fun x =>
      if x.state == .attesting then { x with state := .training, session := {} } else x) s1)

def execFabricSetId (q : Nat) (s : State) : Res := .next (s.serveArgs q 0x060C fun t inl _ => t.setId (u16 inl 0))

/-- The entries of a route list: TABLE, ENTRY, DST_ID. -/
def routeList (b : List Byte) : List (Nat × Nat × Nat) :=
  (List.range (b.length / 4)).map fun i => (u8 b (4 * i), u8 b (4 * i + 1), u16 b (4 * i + 2))

def routeBad (e : Nat × Nat × Nat) : Bool :=
  !([1, 4, 5, 6, 7].contains e.1) || decide (15 < e.2.1) || e.2.2 == 0xFFFF || e.2.1 % 8 == 2 || e.2.1 % 8 == 3

/-- fabric.route: the whole list is checked, then written, each entry once the writes to its destination have passed. -/
def State.setRoutes (s : State) (_inl b : List Byte) : Done :=
  let l := routeList b
  if l.isEmpty then .empty s
  else if l.any routeBad then .refuse rcRouteMalformed
  else
    let held := l.foldl (fun m e =>
      let k := 65536 * e.1 + e.2.2
      (m.filter fun r => r.1 != k) ++ [(k, e.2.1)]) s.huv.heldRoutes
    let s1 := { s with huv := { s.huv with heldRoutes := held } }
    .ok 0 (State.applyRoutes held.length s1)

def execFabricRoute (q : Nat) (s : State) : Res := .next (s.serveArgs q 0x060D State.setRoutes)

/-- fabric.retrain: the lanes return; a port that is up retrains, any other starts at step 1. -/
def execFabricRetrain (q : Nat) (s : State) : Res :=
  .next (s.serveArgs q 0x060E fun t inl _ =>
    let h := u8 inl 0
    .ok 0 (t.modPort h fun x =>
      if x.state == .up || x.state == .retraining then { x with state := .retraining, lanes := 8, laneMask := 0xFF, usable := 0xFF }
      else { x with state := .training, laneMask := 0xFF, usable := 0xFF, session := {}, failedRetrains := 0 }))

/-- The port statistics record. -/
def State.portRecord (s : State) (h : Nat) : List Byte :=
  let x := s.port h
  let st := x.stats
  leBytes 1 h ++ leBytes 1 x.code ++ leBytes 1 x.lanes ++ leBytes 1 x.laneMask ++ leBytes 2 x.peerId ++ zeros 2 ++
  leBytes 8 st.framesTx.toNat ++ leBytes 8 st.framesRx.toNat ++ leBytes 8 st.fecCorrected.toNat ++
  [st.fecUncorrectable, st.crcFail, st.tagFail, st.replays, st.retrains, st.degrades, st.dropped, 0].flatMap (leBytes 4)

def execFabricPortStats (q : Nat) (s : State) : Res :=
  .next (s.serveArgs q 0x060F fun t inl _ => .data (t.portRecord (u8 inl 0)) 0 t)

end Sys2Proof.Machine
end

