-- ==== Sys2Proof/Machine/KvCmds.lean ====
section
/-! DEFINITION. KV commands: the pool, sequences, domains, statistics (R198 to R200, R203 to R208, R217, R220). -/

namespace Sys2Proof.Machine

def State.modKv (s : State) (p : Nat) (f : Kv → Kv) : State := s.modPart p fun q => { q with kv := f q.kv }

/-! ### The pool (R198, R199) -/

def poolBad (b : List Byte) : Bool :=
  decide (15 < u8 b 0) || decide (2 < u8 b 1) || decide (256 < u16 b 2) || decide (256 < u16 b 4) || decide (4096 < u16 b 6) ||
  u32 b 12 != 0

/-- kv.pool_configure: the earlier pool is released, the new one holds nothing. -/
def State.poolConfigure (s : State) (_inl b : List Byte) : Done :=
  let p := u8 b 0
  let q := s.part p
  let c := q.cfg
  match firstFail [
    (poolBad b || (q.kv.seqs.any fun e => e.2.isOpen), rcKvPool),
    (u16 b 2 == 0 || u16 b 4 == 0 || u16 b 6 == 0, rcZeroSize),
    (c.quota 3 c.kvPages == 0, rcQuotaKv),
    (decide (c.quota 5 c.hostSwapBytes < 8192 * u32 b 8), rcQuotaHostSwap)] with
  | some code => .refuse code
  | none =>
    let pool : KvPool := { configured := true, format := u8 b 1, layers := u16 b 2, heads := u16 b 4, maxSeq := u16 b 6, swapUnits := u32 b 8 }
    .ok 0 (s.modPart p fun x => { x.releasePool with kv := { x.releasePool.kv with pool := pool } })

def execKvPoolConfigure (q : Nat) (s : State) : Res := .next (s.serveArgs q 0x0610 State.poolConfigure)

/-! ### Sequences (R205, R206) -/

/-- Whether a slot is within the pool. -/
def Kv.hasSlot (k : Kv) (q : Nat) : Bool := k.pool.configured && decide (q < k.pool.maxSeq)

/-- An open sequence that no job holds. -/
def Kv.idle (k : Kv) (q : Nat) : Bool := k.hasSlot q && (k.seq q).isOpen && (k.seq q).busy.isNone

/-- The token IDs of a list: 4 bytes each. -/
def tokenIds (b : List Byte) (n : Nat) : List Nat := (List.range n).map fun i => u32 b (4 * i)

/-- The table entries of matched nodes: node j gives the pages of block j in every layer and head. -/
def Kv.blockRefs (k : Kv) (nodes : List Node) : List (Nat × Nat) :=
  nodes.zipIdx.flatMap fun e => (k.pool.heads2.zip e.1.pages).map fun x => (pageKey x.1.1 x.1.2 e.2, x.2)

/-- A sequence opens with its recorded IDs and the longest matching prefix; each matched page gains a reference (R208). -/
def Kv.openSeq (k : Kv) (q dom prio : Nat) (model : List Byte) (ids : List Nat) (nodes : List Node) : Kv :=
  let refs := k.blockRefs nodes
  let k1 := refs.foldl (fun x e => x.addRef e.2) k
  let sq : Seq :=
    { isOpen := true, domain := dom, prio := prio, model := model, ids := ids, length := 16 * nodes.length, opened := k.nextOpen
      table := refs.foldl (fun m e => Map.set .none m e.1 (.resident e.2)) [] }
  let k2 := k1.setSeq q sq
  let hit := nodes.map (·.id)
  { k2 with
    nextOpen := k.nextOpen + 1
    clock := k.clock + 1
    nodes := k2.nodes.map fun n => if hit.contains n.id then { n with matched := k.clock + 1 } else n
    stats := { k.stats with prefixBlocks := satAdd 0xFFFFFFFF k.stats.prefixBlocks nodes.length } }

/-- kv.seq_open. -/
def State.seqOpen (s : State) (c : Cmd) : Done :=
  let b := c.blk
  let p := u8 b 0
  let k := (s.part p).kv
  let q := u16 b 4
  let dom := u8 b 1
  let n := u32 b 8
  let model := slice b 0x10 16
  if decide (15 < p) || u8 b 3 != 0 || u16 b 6 != 0 || u32 b 12 != 0 || u64 b 0x28 != 0 || decide (7 < u8 b 2) || decide (2 ^ 20 < n) ||
      !k.hasSlot q || (k.seq q).isOpen || ((s.part p).models.find model).isNone then .refuse rcKvSeq
  else if dom != 0 && !k.domains.contains dom then .refuse rcKvDomain
  else if n != 0 && c.tokens.isNone then .stay
  else
    let ids := tokenIds (c.tokens.getD []) n
    let nodes := if dom = 0 then [] else k.matchPrefix dom model 65536 0 0 ids
    if 16777216 < s.tableEntries + (k.blockRefs nodes).length then .refuse rcKvTableFull
    else .ok (16 * nodes.length) ((s.modKv p fun x => x.openSeq q dom (u8 b 2) model ids nodes).entriesWritten p q
      ((k.blockRefs nodes).map Prod.fst))

def execKvSeqOpen (q : Nat) (s : State) : Res := .next (s.serve q 0x0611 always State.seqOpen)

/-- kv.seq_extend. -/
def State.seqExtend (s : State) (c : Cmd) : Done :=
  let p := u8 c.inl 0
  let q := u16 c.inl 2
  let n := u32 c.inl 4
  let sq := (s.part p).kv.seq q
  if !(s.part p).kv.idle q || decide (2 ^ 20 < sq.ids.length + n) then .refuse rcKvSeq
  else if n = 0 then .empty s
  else if c.tokens.isNone then .stay
  else
    let ids := sq.ids ++ tokenIds (c.tokens.getD []) n
    .ok ids.length (s.modKv p fun k => k.setSeq q { sq with ids := ids })

def execKvSeqExtend (q : Nat) (s : State) : Res := .next (s.serve q 0x0612 always State.seqExtend)

/-- The answer of a command whose pages run short: the page event, or RC_KV_EXHAUSTED (R217). -/
def State.shortCommand (s : State) (p need : Nat) (named : List Nat) : Done :=
  let (t, waits) := s.shortOfPages p need named
  if waits then .waits t else .refuseWith rcKvExhausted t

/-- A command needs a sequence's swapped pages back: they are called for, one page at a time as there is room (R206, R216). -/
def State.recallSeq (s : State) (p q : Nat) : Done :=
  if (s.allocPage p).isSome then .waits (s.modKv p fun k => k.setSeq q { k.seq q with backWanted := true })
  else s.shortCommand p 1 [q]

/-- Table entries of a sequence that a page alone makes writable, and those it shares. -/
def Kv.ownPages (k : Kv) (q : Nat) (own : Bool) : List (Nat × Nat) :=
  (k.seq q).table.filterMap fun e => match e.2 with
    | .resident g => if (Map.get {} k.pages g).readOnly = own then none else some (e.1, g)
    | _ => none

/-- Whether a command that copies pages of a sequence would read poison: in a page, or in its table entry (R415, R420). -/
def State.copiesPoison (s : State) (p q : Nat) (l : List (Nat × Nat)) : Bool :=
  l.any fun e => s.pageBad p e.2 || s.recBad (.pageEntry p q e.1)

/-- kv.seq_fork: read-only pages are shared, private ones copied; swapped pages come back first. A poisoned page to copy ends it
with ST_POISON_CONSUMED. -/
def State.seqFork (s : State) (inl _b : List Byte) : Done :=
  let p := u8 inl 0
  let a := u16 inl 2
  let b := u16 inl 4
  let k := (s.part p).kv
  let sq := k.seq a
  let own := k.ownPages a true
  let shared := k.ownPages a false
  if !k.idle a || !k.hasSlot b || (k.seq b).isOpen then .refuse rcKvSeq
  else if 16777216 < s.tableEntries + sq.table.length then .refuse rcKvTableFull
  else if k.hasSwapped a then s.recallSeq p a
  else if s.copiesPoison p a own then .ends stPoisonConsumed s
  else
    let child : Seq := { sq with table := shared.foldl (fun m e => Map.set .none m e.1 (.resident e.2)) [], opened := k.nextOpen }
    let s1 := (s.modKv p fun x =>
      let y := (shared.foldl (fun z e => z.addRef e.2) x).setSeq b child
      { y with nextOpen := x.nextOpen + 1 }).entriesWritten p b (shared.map Prod.fst)
    match s1.allocKeys p b (own.map Prod.fst) with
    | none => s.shortCommand p own.length [a, b]
    | some t =>
      let t1 := own.foldl (fun (u : State) e => match (u.part p).kvPage b e.1 with
        | some g => u.copyPage p e.2 g 16
        | none => u) t
      .ok 0 (shared.foldl (fun (u : State) e =>
        if u.recBad (.pageEntry p a e.1) then u.recPoison (.pageEntry p b e.1) else u) t1)

def execKvSeqFork (q : Nat) (s : State) : Res := .next (s.serveArgs q 0x0613 State.seqFork)

/-- A table entry's reference is dropped: its page's, or its swap unit's. -/
def Part.dropEntry (q : Part) (r : PRef) : Part :=
  match r with
  | .none => q
  | .resident g => { q with kv := q.kv.dropRef g }
  | .swapped u =>
    let x := Map.get {} q.host.units u
    { q with host := { q.host with units := Map.set {} q.host.units u { x with used := false, seq := 0, key := 0 } } }

/-- Entries of a sequence's table that a test names are dropped. -/
def Part.dropEntries (q : Part) (sq : Nat) (f : Nat → Bool) : Part :=
  let x := q.kv.seq sq
  let q1 := (x.table.filter fun e => f e.1).foldl (fun y e => y.dropEntry e.2) q
  { q1 with kv := q1.kv.setSeq sq { x with table := x.table.filter fun e => !f e.1 } }

/-- kv.seq_truncate. A tail page that is swapped out stays so: it comes back private, with zeros past the length (R200). A poisoned
tail page that is rewritten or copied ends it with ST_POISON_CONSUMED. -/
def State.seqTruncate (s : State) (inl _b : List Byte) : Done :=
  let p := u8 inl 0
  let q := u16 inl 2
  let l := u32 inl 4
  let k := (s.part p).kv
  let sq := k.seq q
  let last := (l - 1) / 16
  if !k.idle q || decide (sq.length < l) then .refuse rcKvSeq
  else if l = sq.length then .empty s
  else if l % 16 != 0 && s.copiesPoison p q ((sq.table.filter fun e => e.1 % 65536 = last).filterMap fun e =>
      ((s.part p).kvPage q e.1).map fun g => (e.1, g)) then .ends stPoisonConsumed s
  else
    let s1 := s.modPart p fun x =>
      let y := x.dropEntries q fun key => decide (pagesOf l ≤ key % 65536)
      { y with kv := (y.kv.setSeq q { y.kv.seq q with length := l, ids := sq.ids.take l }).settle q }
    if l % 16 = 0 then .ok 0 s1
    else
      let x := s1.part p
      let tail := (x.kv.seq q).table.filterMap fun e => if e.1 % 65536 = last then (x.kvPage q e.1).map fun g => (e.1, g) else none
      let shared := tail.filter fun e => (Map.get {} x.kv.pages e.2).readOnly
      let alone := tail.filter fun e => !(Map.get {} x.kv.pages e.2).readOnly
      let s2 := alone.foldl (fun t e => t.copyPage p e.2 e.2 (l % 16)) s1
      match s2.allocKeys p q (shared.map Prod.fst) with
      | none => s.shortCommand p shared.length [q]
      | some t => .ok 0 (shared.foldl (fun u e => match (u.part p).kvPage q e.1 with
          | some g => (u.copyPage p e.2 g (l % 16)).modKv p fun z => z.dropRef e.2
          | none => u) t)

def execKvSeqTruncate (q : Nat) (s : State) : Res := .next (s.serveArgs q 0x0614 State.seqTruncate)

/-- kv.seq_close: every reference goes, and the slot is free; a page event that had chosen it has no victim any more. -/
def State.seqClose (s : State) (inl _b : List Byte) : Done :=
  let p := u8 inl 0
  let q := u16 inl 2
  if !(s.part p).kv.idle q then .refuse rcKvSeq
  else
    let s1 := s.modPart p fun x =>
      let y := x.dropEntries q fun _ => true
      { y with kv := { (y.kv.setSeq q {}) with victim := if y.kv.victim = some q then none else y.kv.victim } }
    .ok 0 (s1.retryStarts p)

def execKvSeqClose (q : Nat) (s : State) : Res := .next (s.serveArgs q 0x0615 State.seqClose)

/-- kv.seq_swap_out: every page the sequence holds alone. -/
def State.seqSwapOut (s : State) (inl _b : List Byte) : Done :=
  let p := u8 inl 0
  let q := u16 inl 2
  let k := (s.part p).kv
  if !k.idle q || (k.seq q).swapped then .refuse rcKvSeq
  else if (k.alone q).isEmpty then .empty s
  else match s.swapOut p q with
    | none => .refuse rcKvExhausted
    | some t => .ok (k.alone q).length (t.retryStarts p)

def execKvSeqSwapOut (q : Nat) (s : State) : Res := .next (s.serveArgs q 0x0616 State.seqSwapOut)

/-! ### Domains (R206, R207) and statistics (R220) -/

/-- kv.domain_create: DOMAIN 1 to 4. -/
def State.domainCreate (s : State) (inl _b : List Byte) : Done :=
  let p := u8 inl 0
  let d := u8 inl 1
  if d = 0 then .refuse rcEntryMalformed
  else if (s.part p).kv.domains.contains d then .refuse rcKvDomain
  else
    let n := s.lan.nextKey
    .ok 0 ((s.modKv p fun k => { k with domains := k.domains ++ [d], keys := Map.set 0 k.keys d n }).modLan
      fun l => { l with nextKey := n + 1 })

def execKvDomainCreate (q : Nat) (s : State) : Res := .next (s.serveArgs q 0x0617 State.domainCreate)

/-- kv.domain_destroy: a domain that does not exist is refused as one in use is (log entry 49). -/
def State.domainDestroy (s : State) (inl _b : List Byte) : Done :=
  let p := u8 inl 0
  let d := u8 inl 1
  let k := (s.part p).kv
  if d = 0 then .refuse rcEntryMalformed
  else if !k.domains.contains d || (k.seqs.any fun e => e.2.isOpen && e.2.domain == d) then .refuse rcKvDomain
  else .ok 0 ((s.modKv p fun x =>
    let y := (x.nodes.filter fun n => n.domain == d).foldl Kv.dropNode x
    { y with domains := y.domains.filter (· != d), keys := Map.erase y.keys d }).retryStarts p)

def execKvDomainDestroy (q : Nat) (s : State) : Res := .next (s.serveArgs q 0x0618 State.domainDestroy)

/-- The KV statistics record. -/
def Part.kvRecord (q : Part) (p : Nat) : List Byte :=
  let k := q.kv
  let treeOnly := (k.pages.filter fun e => e.2.refs == e.2.tree).length
  leBytes 1 p ++ leBytes 1 (if k.pool.configured then k.pool.format else 0xFF) ++ leBytes 2 (k.seqs.filter fun e => e.2.isOpen).length ++
  [k.allocated, (k.pages.filter fun e => e.2.readOnly).length, treeOnly, (q.host.units.filter fun e => e.2.used).length,
   k.nodes.length].flatMap (leBytes 4) ++
  [k.stats.pageEvents, k.stats.swapOut, k.stats.swapIn].flatMap (fun v => leBytes 8 v.toNat) ++
  leBytes 4 k.stats.tagFailures ++ leBytes 4 k.stats.prefixBlocks ++ zeros 8

def execKvStats (q : Nat) (s : State) : Res :=
  .next (s.serveArgs q 0x0619 fun t inl _ => .data ((t.part (u8 inl 0)).kvRecord (u8 inl 0)) 0 t)

end Sys2Proof.Machine
end

