-- ==== Sys2Proof/Machine/SenseCmds.lean ====
section
/-! DEFINITION. Sensor and group commands (R242 to R244, R247, R248, R255, R256, R259, R264, R268). -/

namespace Sys2Proof.Machine

/-- Whether an FP32 field holds a number above 0. -/
def above0 (w : Nat) : Bool := (FVal.ofInt 0).lt (fp32 (BitVec.ofNat 32 w))

/-! ### sensor.configure (R243) -/

/-- Data types of R241. -/
def dataTypes : List Nat := [0x2A, 0x2B, 0x2C, 0x2E, 0x1E, 0x24]

def cameraBad (b : List Byte) : Bool :=
  let kind := u8 b 1
  decide (7 < u8 b 2) || decide (3 < u8 b 3) || (if kind = 2 then u8 b 4 == 0 || decide (4 < u8 b 3 + u8 b 4) else u8 b 4 != 1) ||
  !dataTypes.contains (u8 b 5) || decide (4 < u8 b 6) ||
  (u8 b 6 != 0 && (kind != 0 || !([0x2A, 0x2B, 0x2C, 0x2E].contains (u8 b 5)))) || u8 b 7 != 0 ||
  decide (u16 b 8 < 16) || decide (4096 < u16 b 8) || decide (u16 b 0xA < 1) || decide (4096 < u16 b 0xA) || decide (4096 < u16 b 0xC) ||
  u16 b 0xE != 0 || u32 b 0x30 != 0

def lidarBad (b : List Byte) : Bool :=
  decide (u8 b 2 < 8) || decide (11 < u8 b 2) || u8 b 3 != 0 || u8 b 4 != 1 || u8 b 5 != 0 || u8 b 6 != 0 || decide (7 < u8 b 7) ||
  u16 b 8 != 0 || u16 b 0xA != 0 || u16 b 0xC != 0 || u16 b 0xE == 0 || u32 b 0x2C != 0 || !above0 (u32 b 0x30)

def timingBad (b : List Byte) : Bool :=
  if u8 b 0x10 = 0 then decide (15 < u8 b 0x11) || u64 b 0x18 == 0 || u32 b 0x20 == 0 || u32 b 0x24 == 0 || u32 b 0x28 != 0
  else u8 b 0x10 != 1 || u8 b 0x11 != 0 || u32 b 0x20 != 0 || u32 b 0x24 != 0

def sensorBad (b : List Byte) : Bool :=
  decide (15 < u8 b 0) || decide (3 < u8 b 1) || !allZero b 0x34 12 || u8 b 0x12 == 0 || u8 b 0x13 == 0 || !above0 (u32 b 0x14) ||
  timingBad b || (if u8 b 1 = 3 then lidarBad b else cameraBad b)

/-- Whether two sensors share a virtual channel of a CSI port, or a UDP port of an Ethernet port. -/
def Sensor.clashes (x y : Sensor) : Bool :=
  x.kind != 0xFF && y.kind != 0xFF && x.port == y.port &&
  (if x.isLidar then x.udpPort == y.udpPort else decide (x.vc < y.vc + y.gates) && decide (y.vc < x.vc + x.gates))

/-- Bytes of the ingest rings of the configured cameras, sensor `i` apart. -/
def State.ringBytes (s : State) (i : Nat) : Nat :=
  sumNat (((List.range 16).filter (· != i)).map fun k =>
    let x := s.sensor k
    if x.isCamera then x.depth * x.lineBytes else 0)

/-- sensor.configure of a sensor: it starts afresh under its descriptor; its counters stand, and its calibration where it
stays a camera or a lidar (log entry 50). -/
def State.sensorConfigure (s : State) (_inl b : List Byte) : Done :=
  let i := u8 b 0
  let y : Sensor := { cfg := b }
  match firstFail [
    (sensorBad b, rcSensorMalformed),
    (y.isCamera && y.depth == 0, rcZeroSize),
    ((s.groupOf i).isSome, rcSensorBusy),
    ((List.range 16).any fun k => k != i && y.clashes (s.sensor k), rcSensorPort),
    (y.isCamera && decide (8388608 < s.ringBytes i + y.depth * y.lineBytes), rcIngestSpace)] with
  | some code => .refuse code
  | none => .ok 0 (s.modSensor i fun x =>
      let same := x.kind != 0xFF && x.isLidar == y.isLidar
      { y with
        stopped := s.cup.portsDown.contains y.port
        calib := if same then x.calib else none
        calibNext := if same then x.calibNext else none
        calibDue := if same then x.calibDue else []
        stats := x.stats })

/-- KIND 0xFF spells the release row. -/
def releasing (c : Cmd) : Bool := u8 c.blk 1 == 0xFF

def execSensorConfigure (q : Nat) (s : State) : Res :=
  .next (s.serve q 0x0701 (fun c => !releasing c) fun t c => t.sensorConfigure c.inl c.blk)

/-- sensor.configure with KIND 0xFF: the sensor and its ring are released. -/
def State.sensorRelease (s : State) (b : List Byte) : Done :=
  let i := u8 b 0
  if decide (15 < i) || !allZero b 0x34 12 then .refuse rcSensorMalformed
  else if (s.groupOf i).isSome then .refuse rcSensorBusy
  else .ok 0 (s.modSensor i fun x => { stats := x.stats })

def execSensorRelease (q : Nat) (s : State) : Res :=
  .next (s.serve q 0x0701 releasing fun t c => t.sensorRelease c.blk)

/-! ### sensor.calibrate (R259) -/

/-- Entry (i, j) of ROT in units of 2^-149. -/
def rotAt (b : List Byte) (i j : Nat) : Int := (fp32 (BitVec.ofNat 32 (u32 b (4 + 4 * (3 * i + j))))).scaled (-149)

/-- ROT is orthonormal to within 10⁻⁴: every product of two rows is that close to 1 or 0. -/
def rotOk (b : List Byte) : Bool :=
  ((List.range 9).all fun k => (fp32 (BitVec.ofNat 32 (u32 b (4 + 4 * k)))).isFin) &&
  (List.range 3).all fun i => (List.range 3).all fun j =>
    let dot := rotAt b i 0 * rotAt b j 0 + rotAt b i 1 * rotAt b j 1 + rotAt b i 2 * rotAt b j 2
    let one : Nat := if i = j then 2 ^ 298 else 0
    decide ((dot - (one : Int)).natAbs * 10000 ≤ 2 ^ 298)

def calibBad (x : Sensor) (b : List Byte) : Bool :=
  x.kind == 0xFF || !allZero b 1 3 || !allZero b 0x5C 4 || !rotOk b ||
  (if x.isLidar then !allZero b 0x34 40 else !above0 (u32 b 0x58))

/-- sensor.calibrate: the record takes effect from the next instant. -/
def State.sensorCalibrate (s : State) (_inl b : List Byte) : Done :=
  let i := u8 b 0
  if decide (15 < i) || calibBad (s.sensor i) b then .refuse rcSensorMalformed
  else .ok 0 (s.modSensor i fun x => { x with calibNext := some b })

def execSensorCalibrate (q : Nat) (s : State) : Res := .next (s.serveArgs q 0x0702 State.sensorCalibrate)

/-! ### sensor.parse_table (R248) -/

/-- A match entry of a parse table that breaks its range or reads past MIN_LEN. -/
def matchBad (b : List Byte) (k : Nat) : Bool :=
  let e := slice b (0x18 + 12 * k) 12
  !([0, 2].contains (u8 e 2)) || u8 e 3 != 0 || decide (tMinLen b < u16 e 0 + 4)

/-- A field entry that breaks its range or reads past MIN_LEN in the last block and return. -/
def fieldBad (b : List Byte) (k : Nat) : Bool :=
  let e := tEntry b k
  decide (2 < u8 e 2) || decide (5 < u8 e 3) ||
  (if u8 e 3 < 4 then u8 e 5 == 0 || decide (32 < u8 e 4 + u8 e 5) else u8 e 4 != 0 || u8 e 5 != 0 || u8 e 6 == 7) ||
  decide (9 < u8 e 6) || u8 e 7 != 0 || decide (tMinLen b < entryAt b e (tBlocks b - 1) (tReturns b - 1) + 4)

/-- Whether a field stands in the table. -/
def hasField (b : List Byte) (f : Nat) : Bool := (List.range (tFields b)).any fun k => u8 (tEntry b k) 6 == f

def tableMalformed (b : List Byte) : Bool :=
  let az := fp32 (BitVec.ofNat 32 (u32 b 0x14))
  decide (7 < u8 b 0) || tFields b == 0 || decide (24 < tFields b) || decide (4 < tMatches b) || decide (1 < u8 b 3) ||
  tBlocks b == 0 || decide (256 < tBlocks b) || tReturns b == 0 || decide (256 < tReturns b) || u16 b 0x12 != 0 ||
  !az.isFin || az.lt (FVal.ofInt 0) || (fp32 0x40C90FDB).lt az || !allZero b 0x48 8 ||
  (List.range (tMatches b)).any (matchBad b) || (List.range (tFields b)).any (fieldBad b) || !hasField b 7 ||
  (if tCartesian b then !(hasField b 3 && hasField b 4 && hasField b 5)
   else !(hasField b 0 && hasField b 1 && (hasField b 2 || hasField b 8)))

/-- sensor.parse_table. -/
def State.parseTable (s : State) (_inl b : List Byte) : Done :=
  if tableMalformed b then .refuse rcParseTable
  else .ok 0 { s with cup := { s.cup with tables := Map.set [] s.cup.tables (u8 b 0) b } }

def execSensorParseTable (q : Nat) (s : State) : Res := .next (s.serveArgs q 0x0703 State.parseTable)

/-! ### sensor.trigger, sensor.eth_send, sensor.stats (R242, R247, R268) -/

def triggerBad (b : List Byte) : Bool :=
  let n := u8 b 2
  decide (7 < u8 b 0) || decide (1 < u8 b 1) || n == 0 || decide (16 < n) || decide (1 < u8 b 3) || decide (u32 b 4 < 7500) ||
  decide (u32 b 4 ≤ u32 b 8) || u16 b 0xC == 0 ||
  (if n = 1 then u16 b 0xE != 0 else decide (u16 b 0xE ≤ u16 b 0xC) || decide (u32 b 4 < n * u16 b 0xE))

/-- The next period boundary of an output from count `n` on; an output without a record yet has the new record's period. -/
def Trigger.boundary (x : Trigger) (b : List Byte) (n : Nat) : Nat := roundUp (if x.period = 0 then u32 b 4 else x.period) n

/-- sensor.trigger: the record waits for the next period boundary. -/
def State.sensorTrigger (s : State) (_inl b : List Byte) : Done :=
  if triggerBad b then .refuse rcSensorMalformed
  else .ok 0 { s with cup := { s.cup with triggers := Map.modify {} s.cup.triggers (u8 b 0) fun x =>
    { x with next := some b, nextAt := x.boundary b s.cup.cycles.toNat } } }

def execSensorTrigger (q : Nat) (s : State) : Res := .next (s.serveArgs q 0x0704 State.sensorTrigger)

/-- sensor.eth_send: ports are numbered 8 to 11 for ETH0 to ETH3, as in R243 (log entry 51). -/
def State.ethSend (s : State) (inl b : List Byte) : Done :=
  let p := u8 inl 0
  let n := u16 inl 2
  if n < 60 || 1518 < n || p < 8 || 11 < p || s.cup.portsDown.contains p then .refuse rcEthFrame
  else .ok 0 (s.emit (.eth p b))

def execSensorEthSend (q : Nat) (s : State) : Res := .next (s.serveArgs q 0x0705 State.ethSend)

/-- The group that a sensor is a member of, started or not. -/
def State.memberOf (s : State) (i : Nat) : Option Nat :=
  (List.range 4).find? fun g => (s.group g).configured && (s.group g).members.contains i

/-- The counters of a sensor and of its group. -/
def State.sensorRecord (s : State) (i : Nat) : List Byte :=
  let x := (s.sensor i).stats
  let g := (s.memberOf i).map s.group
  ([x.lines, x.lineDrops, x.damaged, x.packets, x.failed, x.parseOverrun, x.points, x.rejected, x.unalignedDrops, x.lateUsed,
    x.lateDiscarded, x.slips, x.quarantines, (g.map (·.blocked)).getD 0, (g.map (·.fault)).getD 0]).flatMap fun v => leBytes 8 v.toNat

def execSensorStats (q : Nat) (s : State) : Res :=
  .next (s.serveArgs q 0x0706 fun t inl _ => .data (t.sensorRecord (u8 inl 0)) 0 t)

/-! ### Groups (R255, R256, R264) -/

def groupBad (b : List Byte) : Bool :=
  let grid := bitAt (u8 b 3) 0
  let depth := bitAt (u8 b 3) 3
  let side := fun (v : Nat) => if grid then v % 16 != 0 || decide (1024 < v) else v != 0
  decide (3 < u8 b 0) || decide (15 < u8 b 1) || decide (15 < u8 b 2) || decide (15 < u8 b 3) || u8 b 6 == 0 || decide (16 < u8 b 6) ||
  u8 b 0x10 == 0 || decide (8 < u8 b 0x10) || decide (3 < u8 b 0x11) || decide (4 < u8 b 0x13) || decide (u16 b 0x14 < 50) ||
  decide (2000 < u16 b 0x14) || decide (u16 b 0x16 < 100) || decide (u16 b 0x1C < 16) || decide (8192 < u16 b 0x1E) ||
  side (u16 b 0x20) || side (u16 b 0x22) ||
  (if grid then u16 b 0x24 != 0 && (decide (u16 b 0x24 < 20) || decide (2000 < u16 b 0x24)) else u16 b 0x24 != 0) ||
  u8 b 0x26 == 0 || decide (63 < u8 b 0x26) || u8 b 0x27 != 0 || decide (sext 16 (u16 b 0x32) ≤ sext 16 (u16 b 0x30)) ||
  u16 b 0x36 == 0 || decide (1000 < u16 b 0x36) || !above0 (u32 b 0x38) || !above0 (u32 b 0x3C) || decide (1048576 < u32 b 0x48) ||
  u8 b 0x4D == 0 || u16 b 0x4E != 0 || (!grid && u64 b 0x60 != 0) || (!depth && u64 b 0x68 != 0) || decide (3 < u8 b 0x70) ||
  !allZero b 0x71 15

/-- Whether a handle names an open window of the partition with WRITE and FOREIGN whose slots hold `need` bytes. -/
def State.outputOk (s : State) (p slots need : Nat) (h : DWord) : Bool :=
  let w := s.win (hWindow h)
  s.handleOpen h && w.kind == .partition && w.part == p && w.flags.testBit 0 && w.flags.testBit 2 && decide (need ≤ w.len / slots)

/-- What group.configure refuses. -/
def State.groupCheck (s : State) (b : List Byte) : Option Nat :=
  let x : Group := { cfg := b }
  let me := u8 b 0
  let cams := (x.members.map s.sensor).filter Sensor.isCamera
  let ok := s.outputOk x.part x.slots
  firstFail [
    (groupBad b, rcGroupMalformed),
    (x.slots == 0 || x.maxPoints == 0 || (x.gridOn && (x.gridX == 0 || x.gridY == 0 || x.cellMm == 0)), rcZeroSize),
    ((s.group me).started, rcGroupBusy),
    (!x.members.contains x.anchor || (x.members.any fun i => (s.sensor i).kind == 0xFF) ||
      ((List.range 4).any fun g => g != me && (s.group g).configured && (s.group g).members.any x.members.contains), rcAnchor),
    (!ok 256 (x.handle 0) || !ok (32 * x.maxPoints) (x.handle 1) || decide ((s.win (hWindow (x.handle 0))).tokCount ≤ x.tctr) ||
      (x.gridOn && !ok (2 * x.gridX * x.gridY) (x.handle 2)) || (x.depthOn && !ok (x.depthBytes cams) (x.handle 3)), rcGroupWindow)]

/-- The release window of a group: SIGNAL and FOREIGN, one target that is the group. -/
def releaseWin (g p : Nat) : Win := { kind := .release g, part := p, flags := 6, tokCount := 1 }

/-- The group's earlier release window is closed. -/
def State.dropRelease (s : State) (g : Nat) : State :=
  let id := (s.group g).window
  if (s.group g).configured && (s.win id).kind == .release g then s.closeWindow id else s

/-- group.configure, the release window under a wanted ID where there is one. -/
def State.groupConfigure (s : State) (want : Option Nat) (b : List Byte) : Done :=
  let g := u8 b 0
  match s.groupCheck b with
  | some code => .refuse code
  | none => match s.windowId want with
    | none => .refuse rcWindowBudget
    | some id =>
      let t := ((s.dropRelease g).openWindow id (releaseWin g (u8 b 2))).modGroup g fun x =>
        { configured := true, cfg := b, window := id, blocked := x.blocked, fault := x.fault }
      .ok (t.handle id).toNat t

def execGroupConfigure (q : Nat) (s : State) : Res := .next (s.serveArgs q 0x0707 fun t _ b => t.groupConfigure none b)

/-- A group starts: every member leaves IDLE. -/
def State.startGroup (s : State) (g : Nat) : State :=
  let s1 := (s.group g).members.foldl (fun t i => t.modSensor i fun x =>
    { x with member := {}, sweepPast := none, time := { state := if x.strobeTimed then .unaligned else .arrival } }) s
  s1.modGroup g fun x =>
    { configured := true, started := true, cfg := x.cfg, window := x.window, blocked := x.blocked, fault := x.fault }

/-- group.start; a group that has not been configured has no members to start (log entry 52). -/
def State.groupStart (s : State) (inl _b : List Byte) : Done :=
  let g := u8 inl 0
  if !(s.group g).configured then .refuse rcGroupMalformed
  else if (s.group g).started then .refuse rcGroupBusy
  else .ok 0 (s.startGroup g)

def execGroupStart (q : Nat) (s : State) : Res := .next (s.serveArgs q 0x0708 State.groupStart)

/-- group.stop: the frame in progress is issued first. -/
def State.groupStop (s : State) (q : Nat) (c : Cmd) : Done :=
  let g := u8 c.inl 0
  let x := s.group g
  if !x.started || x.stopping.isSome then .refuse rcGroupBusy
  else if x.frame.isNone then .ok 0 (s.stopGroup g)
  else .runs (s.modGroup g fun y => { y with stopping := some (q, c.no) })

def execGroupStop (q : Nat) (s : State) : Res := .next (s.serve q 0x0709 always fun t c => t.groupStop q c)

end Sys2Proof.Machine
end

