-- ==== Sys2Proof/Machine/PlanCmds.lean ====
section
/-! DEFINITION. World and planning commands (R271 to R275, R277, R280 to R282, R291). -/

namespace Sys2Proof.Machine

/-! ### The world (R271 to R275) -/

/-- Whether a Q1.15 quaternion's norm is within 2^-10 of 1. -/
def quatOk (b : List Byte) (o : Nat) : Bool :=
  let n := sumNat ((List.range 4).map fun k => (sext 16 (u16 b (o + 2 * k))).natAbs ^ 2)
  decide (32736 ^ 2 ≤ n) && decide (n ≤ 32800 ^ 2)

/-- A primitive record that breaks R271. -/
def primBad (b : List Byte) (id : Nat) : Bool :=
  decide (1 < u8 b 0) || u8 b 1 != 0 || u16 b 2 != id || u16 b 0x16 != 0 || !finiteAt b 4 3 ||
  (if u8 b 0 = 1 then u16 b 0x12 != 0 || u16 b 0x14 != 0 || u64 b 0x18 != 0x7FFF else !quatOk b 0x18)

/-- An edit record that breaks R8 or R273. -/
def editBad (r : List Byte) : Bool :=
  let op := u8 r 0
  let body := slice r 16 32
  decide (3 < op) || !allZero r 4 12 ||
  (if op < 2 then u8 r 1 != 0 || decide (32767 < u16 r 2) else decide (3 < u8 r 1) || u16 r 2 != 0) ||
  (if op = 0 then primBad body (u16 r 2) else if op = 3 then !allZero body 20 12 || !finiteAt body 0 3 || !quatOk body 12
   else !allZero body 0 32)

/-- The publication that a command waits for. -/
def State.publishFor (s : State) (q no : Nat) : Done := .runs (s.modStp fun t => t.trigger false (some (q, no)))

def worldBad (l : List Byte) : Bool :=
  decide (u32 l 0 < 500) || decide (20000 < u32 l 0) || !finiteAt l 4 2 || ((List.range 4).any fun g => bits (u8 l 12) (2 * g + 1) (2 * g) == 3)

/-- A world configuration: empty primitives, identity poses, the mesh kept. -/
def Steeple.setWorld (t : Steeple) (l : List Byte) : Steeple :=
  { t with cell := u32 l 0, origin := [BitVec.ofNat 32 (u32 l 4), BitVec.ofNat 32 (u32 l 8)], modes := u8 l 12, poses := [], buffers := [] }

/-- world.configure; a publication follows. -/
def State.worldConfigure (s : State) (q : Nat) (c : Cmd) : Done :=
  if worldBad c.inl then .refuse rcPlanMalformed
  else if s.stp.busy then .refuse rcPlanBusy
  else (s.modStp fun t => t.setWorld c.inl).publishFor q c.no

def execWorldConfigure (q : Nat) (s : State) : Res := .next (s.serve q 0x0801 always fun t c => t.worldConfigure q c)

/-- The records of an edit list. -/
def editList (b : List Byte) : List (List Byte) := recordsOf 48 b

/-- world.edit: whole, at once or behind a publication under way (R277). -/
def State.worldEdit (s : State) (q : Nat) (c : Cmd) : Done :=
  let rs := editList c.blk
  if rs.isEmpty then .empty s
  else if rs.any editBad then .refuse rcPlanMalformed
  else if s.stp.pubPending || s.stp.copying then .runs (s.modStp fun t => { t with waitingOps := t.waitingOps ++ [.edit q c.no rs] })
  else match s.stp.applyEdits rs with
    | none => .refuse rcWorldFull
    | some t => .ok 0 { s with stp := t }

def execWorldEdit (q : Nat) (s : State) : Res := .next (s.serve q 0x0802 always fun t c => t.worldEdit q c)

/-- world.publish. -/
def execWorldPublish (q : Nat) (s : State) : Res := .next (s.serve q 0x0803 always fun t c => t.publishFor q c.no)

/-! ### World images (R274) -/

/-- The record of node `i`. -/
def meshNode (b : List Byte) (i : Nat) : List Byte := slice b (u64 b 0x10 + 32 * i) 32

/-- A bound of a node in units of 2^-149 m: k = 0 to 2 MIN, 3 to 5 MAX. -/
def nodeBound (n : List Byte) (k : Nat) : Int := (fp32 (BitVec.ofNat 32 (u32 n (4 * k)))).scaled (-149)

/-- Whether the bounds of `c` lie inside those of `n`. -/
def boundsInside (n c : List Byte) : Bool :=
  (List.range 3).all fun k => decide (nodeBound n k ≤ nodeBound c k) && decide (nodeBound c (k + 3) ≤ nodeBound n (k + 3))

/-- A node that breaks R274. -/
def meshNodeBad (b : List Byte) (nodes tris i : Nat) : Bool :=
  let n := meshNode b i
  let child := u32 n 0x18
  let count := u16 n 0x1C
  u16 n 0x1E != 0 || !finiteAt n 0 6 || decide (64 < count) ||
  (if count = 0 then decide (child ≤ i) || decide (nodes ≤ child + 1) ||
     !boundsInside n (meshNode b child) || !boundsInside n (meshNode b (child + 1))
   else decide (tris < child + count) ||
     (List.range 3).any fun k => decide (65535 * (2 ^ 149 : Nat) < (nodeBound n (k + 3) - nodeBound n k) * 1000))

/-- A header that breaks R274, or arrays that run past the image. -/
def meshHeaderBad (b : List Byte) : Bool :=
  u32 b 0 != 0x444C5257 || u16 b 4 != 1 || u16 b 6 != 0 || !allZero b 0x28 24 || u64 b 0x20 != b.length ||
  decide (98304 < u32 b 8) || decide (262144 < u32 b 12) ||
  decide (u64 b 0x20 < u64 b 0x10 + 32 * u32 b 8) || decide (u64 b 0x20 < u64 b 0x18 + 20 * u32 b 12)

/-- The refusals of a world image. -/
def meshCheck (b : List Byte) : Option Nat :=
  firstFail [
    (meshHeaderBad b, rcWorldImage),
    (u32 b 8 == 0 || u32 b 12 == 0, rcZeroSize),
    ((List.range (u32 b 8)).any (meshNodeBad b (u32 b 8) (u32 b 12)), rcWorldImage)]

/-- world.load: the slot's checks, the signature, the busy rule, the image. -/
def State.worldLoad (s : State) (q : Nat) (c : Cmd) : Done :=
  let n := u16 c.inl 0
  let b := (s.slot n).data
  match s.slotCheck n 2 0xFF with
  | some code => .refuse code
  | none =>
    if s.mediaBad n then .ends stMediaError (s.mediaDone n)
    else match s.lan.sigCheck b 2 0xFF with
      | some code => .refuseWith code (s.logSignature code 2 n 0xFF)
      | none =>
        if s.stp.busy then .refuse rcPlanBusy
        else match meshCheck b with
          | some code => .refuse code
          | none =>
            let t := s.modStp fun t => { t with mesh := some b, meshSlot := n }
            (t.measureSlot 0x0804 n (digest (s.slot n).body)).publishFor q c.no

def execWorldLoad (q : Nat) (s : State) : Res := .next (s.serve q 0x0804 always fun t c => t.worldLoad q c)

/-- world.unload: the mesh goes, where there is one, and a publication follows. -/
def State.worldUnload (s : State) (q : Nat) (c : Cmd) : Done :=
  if s.stp.busy then .refuse rcPlanBusy
  else
    let n := s.stp.meshSlot
    let t := if s.stp.mesh.isSome then s.measureSlot 0x0805 n (digest (s.slot n).body) else s
    (t.modStp fun t => { t with mesh := none, meshSlot := 0 }).publishFor q c.no

def execWorldUnload (q : Nat) (s : State) : Res := .next (s.serve q 0x0805 always fun t c => t.worldUnload q c)

/-! ### Machines and lattices (R280, R281) -/

/-- Queries that are queued or running. -/
def Steeple.live (t : Steeple) : List Query := t.queue ++ (t.running.map (·.query)).toList

/-- plan.machine. -/
def State.planMachine (s : State) (inl b : List Byte) : Done :=
  let m := u8 inl 0
  let n := u8 inl 1
  match firstFail [
    (decide (7 < m) || decide (32 < n) ||
      ((List.range n).any fun i => !finiteAt b (16 * i) 4 || !above0 (u32 b (16 * i + 12))), rcPlanMalformed),
    (n == 0, rcZeroSize),
    (s.stp.live.any fun x => qMachine x.record == m, rcPlanBusy)] with
  | some code => .refuse code
  | none => .ok 0 (s.modStp fun t => { t with machines := Map.set [] t.machines m b })

def execPlanMachine (q : Nat) (s : State) : Res := .next (s.serveArgs q 0x0806 State.planMachine)

/-- Whether the last sample, turned by the start heading, lies within 1 mm of (DX, DY) × XY_RES_MM. -/
def primEndOk (headings res : Nat) (p : List Byte) : Bool :=
  let o := 16 + 12 * (u8 p 7 - 1)
  let k := u8 p 0 * (64 / headings)
  let c := cos64 k
  let sn := cos64 (k + 48)
  let x := unitsAt p o
  let y := unitsAt p (o + 4)
  let one : Int := ((2 ^ 229 : Nat) : Int)
  let dx := (x * c - y * sn) * 1000 - sext 16 (u16 p 2) * (res : Int) * one
  let dy := (x * sn + y * c) * 1000 - sext 16 (u16 p 4) * (res : Int) * one
  decide (dx * dx + dy * dy ≤ one * one)

/-- Whether its θ lies within 1 mrad of the heading change, whole turns apart. -/
def primTurnOk (headings : Nat) (p : List Byte) : Bool :=
  let t := unitsAt p (16 + 12 * (u8 p 7 - 1) + 8)
  let change : Int := (u8 p 1 : Nat) - (u8 p 0 : Nat)
  let unit149 : Int := ((2 ^ 149 : Nat) : Int)
  let turn : Int := 2 * (piWide : Int) * (headings : Int) * unit149 * 1000
  let d := (t * (headings : Int) * ((2 ^ 300 : Nat) : Int) * 1000 - 2 * (piWide : Int) * change * unit149 * 1000) % turn
  decide (d ≤ (headings : Int) * ((2 ^ 449 : Nat) : Int)) || decide (turn - d ≤ (headings : Int) * ((2 ^ 449 : Nat) : Int))

/-- A motion primitive that breaks R281. -/
def motionBad (headings res : Nat) (p : List Byte) : Bool :=
  let n := u8 p 7
  decide (headings ≤ u8 p 0) || decide (headings ≤ u8 p 1) || decide (1 < u8 p 6) || n == 0 || decide (16 < n) || u32 p 8 == 0 ||
  u32 p 12 != 0 || !finiteAt p 16 (3 * n) || !allZero p (16 + 12 * n) (192 - 12 * n) || !allZero p 0xD0 48 ||
  !primEndOk headings res p || !primTurnOk headings p

/-- plan.lattice. -/
def State.planLattice (s : State) (_inl b : List Byte) : Done :=
  let n := u16 b 2
  let h := u8 b 1
  let res := u32 b 4
  let prims := (recordsOf 256 (b.drop 32)).take n
  match firstFail [
    (decide (3 < u8 b 0) || !([16, 32, 64].contains h) || decide (256 < n) || decide (res < 10) || decide (10000 < res) ||
      !finiteAt b 8 2 || !allZero b 0x10 16 || prims.any (motionBad h res), rcPlanMalformed),
    (n == 0, rcZeroSize),
    (s.stp.live.any fun x => qLattice x.record == u8 b 0, rcPlanBusy)] with
  | some code => .refuse code
  | none =>
    let l : Lattice := { set := true, headings := h, res := res, header := b.take 32, prims := prims }
    .ok 0 (s.modStp fun t => { t with lattices := Map.set {} t.lattices (u8 b 0) l })

def execPlanLattice (q : Nat) (s : State) : Res := .next (s.serveArgs q 0x0807 State.planLattice)

/-! ### Query windows and statistics (R282, R291) -/

/-- A partition's query window: it takes one query record, and its one target is Steeple (log entry 54). -/
def queryWin (p : Nat) : Win := { kind := .query p, part := p, flags := 1, len := 128, tokCount := 1 }

/-- The open query windows of a partition. -/
def State.queryWins (s : State) (p : Nat) : List Nat := (s.fab.wins.filter fun e => e.2.isOpen && e.2.kind == .query p).map Prod.fst

/-- plan.query_window: an earlier window of the partition is closed. -/
def State.queryWindow (s : State) (inl _b : List Byte) : Done :=
  let p := u8 inl 0
  match s.freeWindow with
  | none => .refuse rcWindowBudget
  | some id =>
    let t := ((s.queryWins p).foldl State.closeWindow s).openWindow id (queryWin p)
    .ok (t.handle id).toNat t

def execPlanQueryWindow (q : Nat) (s : State) : Res := .next (s.serveArgs q 0x0808 State.queryWindow)

/-- The Steeple statistics record. -/
def Steeple.record (t : Steeple) : List Byte :=
  leBytes 4 t.epoch ++ leBytes 4 t.stats.boxOverflow ++ leBytes 8 t.stats.expansions.toNat ++ leBytes 8 t.stats.tests.toNat ++
  leBytes 4 t.stats.boxSets ++ leBytes 4 t.stats.publishes ++
  ((List.range 9).flatMap fun k => leBytes 4 (Map.get 0 t.stats.outcomes (0x0601 + k))) ++ zeros 12

def execPlanStats (q : Nat) (s : State) : Res := .next (s.serveArgs q 0x0809 fun t _ _ => .data t.stp.record 0 t)

end Sys2Proof.Machine
end

