-- ==== Sys2Proof/Machine/LoopCmds.lean ====
section
/-! DEFINITION. Loop commands (R297 to R302, R307, R312, R314). -/

namespace Sys2Proof.Machine

/-! ### What loop.configure checks (R300, R301) -/

/-- An identifier that its EXT bit does not admit. -/
def identBad (ident : Nat) (ext : Bool) : Bool := !ext && decide (2048 ≤ ident)

def headerBad (b : List Byte) : Bool :=
  let t := u8 b 1
  let len := cProgLen b
  decide (15 < u8 b 0) || decide (3 < t) || decide (nth 0 [0, 3, 3, 15] t < u8 b 2) || decide (3 < u8 b 3) ||
  (if t = 1 then decide (2 ^ 29 ≤ u32 b 4) || identBad (u32 b 4) (bitAt (u8 b 3) 1) else u32 b 4 != 0) ||
  (if t = 0 then decide (u32 b 8 < 20000) else u32 b 8 != 0) || decide (cDeadline b < 16 * (len + 2)) ||
  decide (4096 ≤ cProgBase b) || decide (4096 < cProgBase b + len) || decide (2 < cTimeoutAction b) || decide (4096 < u16 b 0x16) ||
  (cReport b == 0 && (u8 b 0x15 != 0 || u16 b 0x16 != 0))

/-- BIG_ENDIAN asks for whole bytes. -/
def bytesBad (e : Nat) : Bool := eBig e && (eBit e % 8 != 0 || eWidth e % 8 != 0)

def sourceBad (e : Nat) : Bool :=
  bits e 63 60 != 0 ||
  match eKind e with
  | 0 => sCs e != 0
  | 1 => sCs e != 0 || bytesBad e || identBad (bits e 50 22) (bitAt e 51)
  | 2 => decide (1 < sPort e) || eBig e || sTimeoutMs e != 0
  | _ => true

/-- An output entry, its first 8 bytes and bytes 12 to 15. -/
def outputBad (e tail : Nat) : Bool :=
  bits e 63 57 != 0 || tail != 0 ||
  match eKind e with
  | 0 => oCs e != 0
  | 1 => decide (3 < oPort e) || oCs e != 0 || bytesBad e || identBad (bits e 50 22) (bitAt e 51) || (!oFd e && decide (8 < oDlc e)) ||
      decide (8 * dlcBytes (oFd e) (oDlc e) < eBit e + eWidth e)
  | 2 => decide (1 < oPort e) || eBig e
  | _ => oCs e != 0 || eBig e || eBit e != 0 || decide (24 < eWidth e)

def supBad (b : List Byte) : Bool :=
  decide (2 < u8 b 0) || decide (7 < u8 b 1) || decide (3 < u8 b 2) || decide (2 < u8 b 3) || (u8 b 0 != 0 && u8 b 4 == 0) ||
  decide (3 < u8 b 5) || u16 b 6 != 0 || (List.range 4).any fun k => decide (31 < u8 b (0x1C + k))

def loopBad (b : List Byte) : Bool :=
  headerBad b || ((List.range 8).any fun i => sourceBad (cSource b i)) ||
  ((List.range 4).any fun j => outputBad (cOutput b j) (u32 b (108 + 16 * j))) || supBad (cSup b)

/-- The outputs of a descriptor that are in use. -/
def usedOutputs (b : List Byte) : List Nat := ((List.range 4).map (cOutput b)).filter fun e => eKind e != 0

/-- Two outputs of different loops that write one PWM output, or one identifier of one port. -/
def outputsClash (e f : Nat) : Bool :=
  eKind e == eKind f && oPort e == oPort f && (eKind e == 3 || (eKind e == 1 && eIdent e == eIdent f))

/-- Two outputs of one loop that break the frame rule of R300. -/
def frameBroken (e f : Nat) : Bool :=
  eKind e == 1 && eKind f == 1 && oPort e == oPort f && bits e 50 22 == bits f 50 22 &&
  (bitAt e 51 != bitAt f 51 || oFd e != oFd f || oDlc e != oDlc f ||
    (decide (eBit e < eBit f + eWidth f) && decide (eBit f < eBit e + eWidth e)))

/-- Check 4 of R301 for a descriptor of loop `l`. -/
def State.outputTaken (s : State) (l : Nat) (b : List Byte) : Bool :=
  let mine := usedOutputs b
  ((List.range 16).any fun k => k != l && (usedOutputs (s.loop k).cfg).any fun f => mine.any (outputsClash · f)) ||
  (List.range mine.length).any fun i => (List.range i).any fun j => frameBroken (nth 0 mine i) (nth 0 mine j)

/-- loop.configure. A fenced loop returns to service by it and loop.start (R416). -/
def State.loopConfigure (s : State) (_inl b : List Byte) : Done :=
  let l := u8 b 0
  match firstFail [
    (loopBad b, rcLoopMalformed),
    (cProgLen b == 0 || (cReport b != 0 && u16 b 0x16 == 0), rcZeroSize),
    ((s.loop l).status.started, rcLoopBusy),
    (s.outputTaken l b, rcLoopOutput)] with
  | some code => .refuse code
  | none => .ok 0 (s.modLoop l fun x => { x with cfg := b, dropFault := 0, status := { x.status with fault := false } })

def execLoopConfigure (q : Nat) (s : State) : Res := .next (s.serveArgs q 0x0901 State.loopConfigure)

/-! ### loop.program, loop.coeffs (R298, R299) -/

/-- Whether a started loop runs a program of the range. -/
def State.programBusy (s : State) (first n : Nat) : Bool :=
  (List.range 16).any fun l =>
    let x := s.loop l
    x.status.started && decide (first < cProgBase x.cfg + cProgLen x.cfg) && decide (cProgBase x.cfg < first + n)

/-- loop.program. -/
def State.loopProgram (s : State) (inl b : List Byte) : Done :=
  let first := u16 inl 0
  let n := b.length / 8
  let words : List DWord := (List.range n).map fun i => BitVec.ofNat 64 (u64 b (8 * i))
  if n = 0 then .empty s
  else if 4096 < first + n || words.any (fun w => decide (0x10 < iOp w) || bits w.toNat 39 32 != 0) then .refuse rcLoopProgram
  else if s.programBusy first n then .refuse rcLoopBusy
  else .ok 0 { s with cmp := { s.cmp with prog := Map.setList 0 s.cmp.prog first words } }

def execLoopProgram (q : Nat) (s : State) : Res := .next (s.serveArgs q 0x0902 State.loopProgram)

/-- A coefficient table whose shifts or reserved bytes are out of range. -/
def coeffsBad (b : List Byte) : Bool := (List.range 64).any fun k => decide (31 < u8 b (8 * k + 4)) || !allZero b (8 * k + 5) 3

/-- loop.coeffs: the table is in place at once, or at the end of the run in progress. -/
def State.loopCoeffs (s : State) (q : Nat) (c : Cmd) : Done :=
  let l := u8 c.inl 0
  if coeffsBad c.blk then .refuse rcLoopMalformed
  else if (s.loop l).run.isNone then .ok 0 (s.modLoop l fun x => x.install c.blk)
  else .runs (s.modLoop l fun x => { x with newTable := x.newTable ++ [(c.blk, q, c.no)] })

def execLoopCoeffs (q : Nat) (s : State) : Res := .next (s.serve q 0x0903 always fun t c => t.loopCoeffs q c)

/-! ### loop.start, loop.stop, loop.clear (R297, R301, R314) -/

/-- CAN ports, SPI chip selects and PWM outputs that a descriptor uses: kind, port, chip select. -/
def loopPorts (b : List Byte) : List (Nat × Nat × Nat) :=
  (if cTrigger b = 1 then [(1, cTrigSrc b, 0)] else []) ++
  (((List.range 8).map (cSource b)).filter fun e => eKind e != 0).map (fun e => (eKind e, sPort e, sCs e)) ++
  (usedOutputs b).map fun e => (eKind e, oPort e, oCs e)

/-- Whether a port is configured under R302. -/
def State.portSet (s : State) (k : Nat × Nat × Nat) : Bool :=
  if k.1 = 1 then !(s.canPort k.2.1).record.isEmpty
  else if k.1 = 2 then !(Map.get [] s.cmp.spiCs (4 * k.2.1 + k.2.2)).isEmpty
  else (Map.get {} s.cmp.pwm k.2.1).nextPeriod != 0

/-- Check 5 of R301. -/
def State.sourceAbsent (s : State) (b : List Byte) : Bool :=
  let prog := s.programOf b
  (lawSources prog).any (fun i => eKind (cSource b i) == 0) || (lawOutputs prog).any (fun j => eKind (cOutput b j) == 0) ||
  (lawWords prog).any (fun e => !(s.spSlot e.1).isOpen || decide ((s.spSlot e.1).len < 4 * e.2 + 4)) ||
  (loopPorts b).any (fun k => !s.portSet k) ||
  (usedOutputs b).any fun e => eKind e == 1 && oFd e && !bitAt (u8 (s.canPort (oPort e)).record 0x12) 0

/-- What loop.start refuses; a loop that is fenced waits for its configuration (R416). -/
def State.startCheck (s : State) (l : Nat) : Option Nat :=
  let x := s.loop l
  firstFail [
    (x.status.started || x.cfg.isEmpty || x.status.fault, rcLoopBusy),
    (s.outputTaken l x.cfg, rcLoopOutput),
    (s.sourceAbsent x.cfg, rcLoopSource)]

/-- A loop starts: its registers are zero and its previous outputs are the safe values (R297, R308). -/
def State.startLoop (s : State) (l : Nat) : State :=
  s.modLoop l fun x => { x with
    z := [], prev := safeVals x.cfg, run := none, sup := {}, startedAt := s.cmp.cycles.toNat
    status := { x.status with started := true } }

/-- loop.start. -/
def State.loopStart (s : State) (inl _b : List Byte) : Done :=
  match s.startCheck (u8 inl 0) with
  | some code => .refuse code
  | none => .ok 0 (s.startLoop (u8 inl 0))

def execLoopStart (q : Nat) (s : State) : Res := .next (s.serveArgs q 0x0904 State.loopStart)

/-- loop.stop: the run in progress completes first. -/
def State.loopStop (s : State) (q : Nat) (c : Cmd) : Done :=
  let l := u8 c.inl 0
  let x := s.loop l
  if x.status.started && x.run.isSome then .runs (s.modLoop l fun y => { y with stopping := y.stopping ++ [(q, c.no)] })
  else .ok 0 (s.stopNow l)

def execLoopStop (q : Nat) (s : State) : Res := .next (s.serve q 0x0905 always fun t c => t.loopStop q c)

/-- loop.clear: W1C bits; clearing IMPLAUSIBLE ends the supervisor's drop (R310, R312). -/
def State.loopClear (s : State) (inl _b : List Byte) : Done :=
  let w := u32 inl 4
  .ok 0 (s.modLoop (u8 inl 0) fun x => { x with
    dropSup := if w.testBit 4 then 0 else x.dropSup
    status := { x.status with
      missed := x.status.missed && !w.testBit 1, overrun := x.status.overrun && !w.testBit 2
      implausible := x.status.implausible && !w.testBit 4 } })

def execLoopClear (q : Nat) (s : State) : Res := .next (s.serveArgs q 0x0906 State.loopClear)

/-! ### Setpoint windows (R307) -/

/-- Whether a started loop reads slot `n` past `len` bytes. -/
def State.readPast (s : State) (n len : Nat) : Bool :=
  (List.range 16).any fun l =>
    let x := s.loop l
    x.status.started && (lawWords (s.programOf x.cfg)).any fun e => e.1 == n && decide (len < 4 * e.2 + 4)

/-- The window descriptor that loop.window_open's arguments stand for. -/
def spDescriptor (inl : List Byte) : List Byte :=
  leBytes 1 (u8 inl 1) ++ leBytes 1 0 ++ leBytes 1 (u8 inl 2) ++ leBytes 1 (u8 inl 12) ++ leBytes 4 0 ++
  leBytes 8 (u32 inl 4) ++ leBytes 8 (u32 inl 8) ++ leBytes 1 0xFF ++ leBytes 1 0 ++ leBytes 2 1 ++ leBytes 4 0

/-- What loop.window_open refuses. The window is Campanile's own (R112): it counts in no partition's budget. -/
def State.spCheck (s : State) (inl : List Byte) : Option Nat :=
  let n := u8 inl 0
  let len := u32 inl 8
  if (s.spSlot n).isOpen || decide (4096 < len) || s.readPast n len then some rcLoopWindow
  else firstFail (s.windowChecks (spDescriptor inl) ++ [(s.freeWindow.isNone, rcWindowBudget)])

/-- The slot as it opens: it has never switched; buffers that runs hold stand. -/
def SpSlot.opened (x : SpSlot) (id : Nat) (inl : List Byte) : SpSlot :=
  { x with isOpen := true, win := id, part := u8 inl 1, len := u32 inl 8, timeoutUs := u32 inl 16
           current := none, refresh := 0, copying := none, dirty := false, want := false }

/-- loop.window_open, under a wanted ID where there is one. -/
def State.spOpen (s : State) (want : Option Nat) (inl : List Byte) : Done :=
  match s.spCheck inl with
  | some code => .refuse code
  | none => match s.windowId want with
    | none => .refuse rcWindowBudget
    | some id =>
      let w : Win := { kind := .setpoint (u8 inl 0), part := u8 inl 1, ddr5 := false, region := u8 inl 2, flags := u8 inl 12
                       off := u32 inl 4, len := u32 inl 8, target := 0xFF, tokFirst := 0, tokCount := 1 }
      let t := (s.openWindow id w).modSp (u8 inl 0) fun x => x.opened id inl
      .ok (t.handle id).toNat t

def execLoopWindowOpen (q : Nat) (s : State) : Res := .next (s.serveArgs q 0x0907 fun t inl _ => t.spOpen none inl)

/-- loop.window_close; a slot that is not open has no window to close. -/
def State.spClose (s : State) (q : Nat) (c : Cmd) : Done :=
  let n := u8 c.inl 0
  let x := s.spSlot n
  if !x.isOpen then .refuse rcLoopWindow
  else .runs (((s.closeSp n).setWin x.win { s.win x.win with closer := some (q, c.no) }).closeWindow x.win)

def execLoopWindowClose (q : Nat) (s : State) : Res := .next (s.serve q 0x0908 always fun t c => t.spClose q c)

/-! ### loop.safe_release, loop.stats (R312, R314) -/

/-- loop.safe_release: the named lines rise. -/
def State.safeRelease (s : State) (inl _b : List Byte) : Done :=
  let mask := u8 inl 0
  if (List.range 16).any fun l => (s.loop l).held != 0 then .refuse rcLoopSafe
  else
    let a := s.cmp.safeA || mask.testBit 0
    let b := s.cmp.safeB || mask.testBit 1
    let s1 := { s with cmp := { s.cmp with safeA := a, safeB := b } }
    .ok 0 (if a == s.cmp.safeA && b == s.cmp.safeB then s1 else s1.emit (.safe a b))

def execLoopSafeRelease (q : Nat) (s : State) : Res := .next (s.serveArgs q 0x0909 State.safeRelease)

/-- The record of a loop. -/
def State.loopRecord (s : State) (l : Nat) : List Byte :=
  let c := (s.loop l).counts
  leBytes 4 (s.loopStatus l) ++ leBytes 4 0 ++ ([c.runs, c.misses, c.overruns, c.rateDrops, c.timeoutRuns, c.implausible,
    c.txReplaced, c.shortFrames, c.reportFaults]).flatMap fun v => leBytes 8 v.toNat

def execLoopStats (q : Nat) (s : State) : Res :=
  .next (s.serveArgs q 0x090A fun t inl _ => .data (t.loopRecord (u8 inl 0)) 0 t)

/-! ### loop.port_configure (R302) -/

/-- The header of a port record for a port of a kind: 1 CAN, 2 SPI, 3 PWM, as entries of descriptors number them. -/
def portHeadBad (kind : Nat) (b : List Byte) : Bool :=
  decide (nth 0 [0, 3, 1, 7] kind < u8 b 2) || decide ((if kind = 2 then 3 else 0) < u8 b 3) || u32 b 4 != 0

def canRecordBad (b : List Byte) : Bool :=
  let fd := bitAt (u8 b 0x12) 0
  let tdc := bitAt (u8 b 0x12) 1
  let qn := u16 b 8 * (1 + u16 b 0xA + u8 b 0xC)
  let qd := u8 b 0xE * (1 + u8 b 0xF + u8 b 0x10)
  let range := fun (v lo hi : Nat) => decide (v < lo) || decide (hi < v)
  range (u16 b 8) 1 256 || range (u16 b 0xA) 2 256 || range (u8 b 0xC) 1 128 || range (u8 b 0xD) 1 (u8 b 0xC) || decide (3 < u8 b 0x12) ||
  range (u8 b 0x13) 0 (if tdc then 127 else 0) || !allZero b 0x14 44 || range qn 80 640 ||
  (if fd then range (u8 b 0xE) 1 32 || range (u8 b 0xF) 1 32 || range (u8 b 0x10) 1 16 || range (u8 b 0x11) 1 (u8 b 0x10) ||
      range qd 10 qn || (tdc && decide (80 ≤ qd))
   else !allZero b 0xE 4 || u8 b 0x13 != 0)

def spiRecordBad (b : List Byte) : Bool :=
  let n := u8 b 0xA
  decide (u8 b 8 < 4) || decide (3 < u8 b 9) || decide (n < 8) || decide (64 < n) || u8 b 0xB == 0 || u8 b 0xC == 0 || u8 b 0xD == 0 ||
  u16 b 0xE != 0 || decide (2 ^ n ≤ u64 b 0x10) || decide (2 ^ n ≤ u64 b 0x18) || !allZero b 0x20 32

def pwmRecordBad (b : List Byte) : Bool := decide (u32 b 8 < 16) || decide (16777216 < u32 b 8) || !allZero b 0xC 52

/-- Whether a started loop uses a port. -/
def State.portUsed (s : State) (k : Nat × Nat × Nat) : Bool :=
  (List.range 16).any fun l => (s.loop l).status.started && (loopPorts (s.loop l).cfg).contains k

/-- The refusals of loop.port_configure, and then its effect. -/
def State.portCommand (s : State) (kind : Nat) (bad : Bool) (b : List Byte) (t : State) : Done :=
  if portHeadBad kind b || bad then .refuse rcLoopPort
  else if s.portUsed (kind, u8 b 2, u8 b 3) then .refuse rcLoopBusy
  else .ok 0 t

/-- A CAN port, an SPI chip select, a PWM output takes its record. -/
def State.canConfigure (s : State) (b : List Byte) : Done :=
  s.portCommand 1 (u8 b 1 != 0 || canRecordBad b) b (s.modCan (u8 b 2) fun x => { x with record := b })
def State.spiConfigure (s : State) (b : List Byte) : Done :=
  s.portCommand 2 (u8 b 1 != 0 || spiRecordBad b) b
    { s with cmp := { s.cmp with spiCs := Map.set [] s.cmp.spiCs (4 * u8 b 2 + u8 b 3) b } }
def State.pwmConfigure (s : State) (b : List Byte) : Done :=
  s.portCommand 3 (u8 b 1 != 0 || pwmRecordBad b) b
    { s with cmp := { s.cmp with pwm := Map.modify {} s.cmp.pwm (u8 b 2) fun x => { x with nextPeriod := u32 b 8 } } }

/-- A port is released: it is unconfigured, a CAN port holds no frames, a PWM output is inactive (R454). -/
def State.freePort (s : State) (kind port cs : Nat) : State :=
  if kind = 1 then s.modCan port fun x => { x with record := [], latest := [], waiting := [] }
  else if kind = 2 then { s with cmp := { s.cmp with spiCs := Map.set [] s.cmp.spiCs (4 * port + cs) [] } }
  else
    let x := Map.get {} s.cmp.pwm port
    let s1 := { s with cmp := { s.cmp with pwm := Map.set {} s.cmp.pwm port {} } }
    if x.duty = 0 then s1 else s1.emit (.pwm port 0 x.period)

/-- KIND 3: release. -/
def State.portRelease (s : State) (b : List Byte) : Done :=
  let kind := u8 b 1 + 1
  s.portCommand kind (decide (2 < u8 b 1) || !allZero b 8 56) b (s.freePort kind (u8 b 2) (u8 b 3))

/-- The record's KIND spells the row; a reserved KIND is refused by the first. -/
def portKind (k : Nat) (c : Cmd) : Bool := u8 c.blk 0 == k
def canKind (c : Cmd) : Bool := !(portKind 1 c || portKind 2 c || portKind 3 c)

def execLoopPortConfigureCan (q : Nat) (s : State) : Res :=
  .next (s.serve q 0x090B canKind fun t c => if u8 c.blk 0 = 0 then t.canConfigure c.blk else .refuse rcLoopPort)
def execLoopPortConfigureSpi (q : Nat) (s : State) : Res := .next (s.serve q 0x090B (portKind 1) fun t c => t.spiConfigure c.blk)
def execLoopPortConfigurePwm (q : Nat) (s : State) : Res := .next (s.serve q 0x090B (portKind 2) fun t c => t.pwmConfigure c.blk)
def execLoopPortRelease (q : Nat) (s : State) : Res := .next (s.serve q 0x090B (portKind 3) fun t c => t.portRelease c.blk)

end Sys2Proof.Machine
end

