-- ==== Sys2Proof/Machine/Power.lean ====
section
/-! DEFINITION. Power, droop, heat and coolant (R335 to R356), and the pace notices the module sends (R143). -/

namespace Sys2Proof.Machine

def State.die (s : State) (d : Nat) : DiePower := Map.get {} s.pwr.dies d
def State.modDie (s : State) (d : Nat) (f : DiePower → DiePower) : State :=
  { s with pwr := { s.pwr with dies := Map.modify {} s.pwr.dies d f } }
def State.rail (s : State) (r : Nat) : Rail := Map.get {} s.pwr.rails r

/-- The steps of the four compute dies. -/
def State.steps (s : State) : List Nat := (List.range 4).map fun d => (s.die d).step

/-- The forced ceiling of a die: the strictest of the rails that hold one (R341). -/
def State.forced (s : State) (d : Nat) : Nat := s.pwr.rails.foldl (fun m r => max m (nth 0 r.2.force d)) 0

/-- The newest report of input power, and the mean of the reports of the last 1 ms, in mW; 0 before the first. -/
def Power.inputMw (x : Power) : Nat := x.inputs.headD 0
def Power.meanMw (x : Power) : Nat := sumNat x.inputs / max 1 x.inputs.length

/-- The Lantern ceilings of a die with their CAUSE, in the order of the table of R342. -/
def State.ceilings (s : State) (d : Nat) : List (Nat × Nat) :=
  [(if s.pwr.interlock then 7 else 0, 4), (if s.pwr.brownOut then 7 else 0, 3), (s.forced d, 5), ((s.die d).thermal, 2),
   ((s.die d).cap, 1)]

/-- The strictest Lantern ceiling. -/
def State.ceiling (s : State) (d : Nat) : Nat := (s.ceilings d).foldl (fun m c => max m c.1) 0

/-- The CP's limit on the tiles of a partition: its budget's and those of pace notices, the stricter (R342, R347). -/
def Part.cpLimit (q : Part) : Nat := q.power.pace.foldl (fun m e => max m e.2) q.power.cpLimit

/-- The fastest step that the CP allows any tile of a die (log entry 35). -/
def State.cpStep (s : State) (d : Nat) : Nat :=
  let ls := (s.parts.filter fun e => e.2.state == .enabled && e.2.cfg.engines.any fun k => s.hasTile k && dieOf (s.tileOf k) == d).map
    fun e => e.2.cpLimit
  match ls with
  | [] => 0
  | x :: xs => xs.foldl min x

/-- The step D of a die (R342). -/
def State.dieTarget (s : State) (d : Nat) : Nat := max (s.ceiling d) (s.cpStep d)

/-- The tile frequency of a step, in MHz. -/
def stepMhz (k : Nat) : Nat := nth 250 [1000, 900, 800, 700, 600, 500, 375, 250] k

/-- The voltage of a die at its step, in mV: its fused table's entry (R344). -/
def vid (d k : Nat) : Byte := Config.fuse 0x20 (8 * d + k)
def State.dieMv (s : State) (d : Nat) : Nat := 5 * (vid d (s.die d).step).toNat

/-- The step whose frequency a die runs at: its own, or two further down while the input clamp or a droop holds it, PS7 in a
brown-out; voltages stay (R340, R345, R353). -/
def State.dieFreq (s : State) (d : Nat) : Nat :=
  let k := (s.die d).step
  if s.pwr.brownOut then 7 else if s.pwr.clamp || (s.die d).drooped then min 7 (k + 2) else k

/-- The frequency of a tile in MHz: its die's, or that of its partition's CP limit, whichever is lower (R342). -/
def State.tileMhz (s : State) (tile : Nat) : Nat :=
  let ls := (s.parts.filter fun e => e.2.state == .enabled && e.2.cfg.engines.any fun k => s.hasTile k && s.tileOf k == tile).map
    fun e => e.2.cpLimit
  stepMhz (ls.foldl max (s.dieFreq (dieOf tile)))

/-- CAUSE of a die's step: the first limiter of the table that sets it, 0 where none of Lantern's does. -/
def State.dieCause (s : State) (d : Nat) : Nat :=
  let t := s.dieTarget d
  if t = 0 then 0
  else ((s.ceilings d).find? fun c => c.1 == t).map Prod.snd |>.getD 0

/-- The CAUSE a pace notice carries: the first in the table's order among the dies held below PS0 (R143). -/
def State.holdCause (s : State) : Nat :=
  let held := (List.range 4).flatMap fun d => ((s.ceilings d).filter fun c => decide (0 < c.1)).map Prod.snd
  ([4, 3, 5, 2, 1].find? held.contains).getD 0

/-- A power event: notice 0x0A and its log record, at most once per second; others count in DROPPED (R355, R426). -/
def State.powerEvent (s : State) (event source value : Nat) : State :=
  let last := Map.get 0 s.pwr.posted event
  if last != 0 && decide (s.now + 1 < last + 1000000) then
    { s with host := { s.host with notices := { s.host.notices with dropped := satAdd 0xFFFF s.host.notices.dropped 1 } } }
  else
    let data := [BitVec.ofNat 8 event, BitVec.ofNat 8 source, 0, 0] ++ leBytes 4 value ++ s.steps.map (BitVec.ofNat 8) ++ zeros 4
    let s1 := { s with pwr := { s.pwr with posted := Map.set 0 s.pwr.posted event (s.now + 1) } }
    (s1.notice noticePower 0xFF data).log source (0x0D00 + event) 0xFF data

/-- ALERT_N follows its conditions (R354). -/
def State.setAlert (s : State) : State :=
  let on := s.pwr.junctionAlert || (s.pwr.interlock && s.pwr.flowLost) || (s.pwr.rails.any fun r => !r.2.force.isEmpty) ||
    (s.ddr.chans.any fun c => c.2.alert) || s.lan.romHold
  if on == s.module.alert then s
  else { s with module := { s.module with alert := on } }.emit (.alert on)

/-! ### Pace notices sent (R143) -/

/-- A pace notice goes out on every port with a session. -/
def State.sendPace (s : State) (cause : Nat) : State :=
  let seq := s.huv.paceSeq
  let s1 := { s with huv := { s.huv with
    paceSeq := (seq + 1) % 65536, paceCause := cause, paceSeen := s.huv.paceSeen ++ [(s.huv.devId, seq)] } }
  s1.floodPace 4 (pacePayload s.huv.devId seq s.steps cause 255)

/-- The release goes out once no die is held any longer. -/
def State.paceRelease (s : State) : State := if s.holdCause = 0 && s.huv.paceCause != 0 then s.sendPace 0 else s

/-- A change of a die's step sends a notice, at most once per 1 ms. -/
def State.paceChange (s : State) : State :=
  let soon := match s.huv.paceAt with
    | some t => decide (s.now < t + 1000)
    | none => false
  if s.holdCause = 0 then s.paceRelease
  else if soon then s
  else
    let t := s.sendPace s.holdCause
    { t with huv := { t.huv with paceAt := some s.now } }

/-- The ceilings have changed: ALERT_N follows, and where every die already stands at its step a hold that is over is released. -/
def State.ceilingsSet (s : State) : State :=
  let t := s.setAlert
  if (List.range 4).all fun d => (t.die d).step == t.dieTarget d then t.paceRelease else t

/-- PACE_REPEAT: every 50 ms while a die stays held. -/
def execPaceRepeat (s : State) : Res := .next (if s.holdCause = 0 then s else s.sendPace s.holdCause)

/-- STEP_CHANGE: the die goes to its step, glitch-free; nothing else changes (R343). -/
def execStepChange (die : Nat) (s : State) : Res :=
  if 4 ≤ die || (s.die die).step = s.dieTarget die then .next s
  else .next (s.modDie die fun x => { x with step := s.dieTarget die }).paceChange

/-! ### Rails and the cap -/

/-- Current limits of the rails in mA (R335). -/
def railLimits : List Nat := [110000, 110000, 110000, 110000, 90000, 90000, 30000, 15000, 6000, 20000]

/-- A report of the input stage: MAIN voltage, and input power in mW. The first after a lowering says what it saved, never taken as
less than 2 W (R338). -/
def State.inputReport (s : State) (mv mw : Nat) : State :=
  let s1 := match s.pwr.lowered with
    | some (d, before) => s.modDie d fun x => { x with saved := max 2000 (before - mw) }
    | none => s
  { s1 with pwr := { s1.pwr with mainMv := mv, inputs := (mw :: s.pwr.inputs).take 10, lowered := none } }

/-- RAIL_REPORT: rails 0 to 9 in the order of R356; 10 is the input stage with its power in mW, and 11 AUX with its power in mW.
Two reports in a row over the limit force a ceiling; ten in a row below 90 % release it (R341). -/
def execRailReport (rail mv ma : Nat) (s : State) : Res :=
  if rail = 10 then .next (s.inputReport mv ma)
  else if rail = 11 then .next { s with pwr := { s.pwr with auxMw := ma } }
  else if 10 ≤ rail then .next s
  else
    let x := s.rail rail
    let lim := nth 0 railLimits rail
    let high := if lim < ma then x.high + 1 else 0
    let under := if 10 * ma < 9 * lim then x.under + 1 else 0
    let hit := decide (2 ≤ high)
    let release := decide (10 ≤ under)
    let force := if hit then (List.range 4).map fun d =>
        if rail < 4 then (if d = rail then 7 else 0) else min 7 ((s.die d).step + 2)
      else if release then [] else x.force
    let y : Rail := { mv := mv, ma := ma, high := if hit then 0 else high, under := if release then 0 else under, force := force }
    let s1 := { s with pwr := { s.pwr with rails := Map.set {} s.pwr.rails rail y } }
    .next (if hit then s1.powerEvent 0x08 rail ma else s1).ceilingsSet

/-- The power a compute die's rail draws, in µW. -/
def State.draw (s : State) (d : Nat) : Nat := (s.rail d).mv * (s.rail d).ma

/-- Among dies, the one that draws most (first at a tie), or least. -/
def State.mostDraw (s : State) (l : List Nat) : Option Nat :=
  l.foldl (fun b d => match b with
    | none => some d
    | some e => if s.draw e < s.draw d then some d else some e) none
def State.leastDraw (s : State) (l : List Nat) : Option Nat :=
  l.foldl (fun b d => match b with
    | none => some d
    | some e => if s.draw d < s.draw e then some d else some e) none

/-- The cap is exceeded: one die's ceiling is lowered, no sooner than 100 µs after the last (R338); where all stand at PS7 the
cap is not met (R339). -/
def State.capLower (s : State) (mw : Nat) : State :=
  let s0 := { s with pwr := { s.pwr with calm := 0 } }
  let s1 := if (List.range 4).all fun d => (s0.die d).step == 7 then s0.powerEvent 0x0B 0xFF mw else s0
  if s.pwr.sinceLower < 2 then s1
  else match s1.mostDraw ((List.range 4).filter fun d => decide ((s1.die d).cap < 7)) with
    | none => s1
    | some d =>
      let s2 := s1.modDie d fun x => { x with cap := x.cap + 1 }
      { s2 with pwr := { s2.pwr with lowered := some (d, mw), sinceLower := 0 } }

/-- The cap is kept: after 5 ms in which the 1 ms mean left room, one die's ceiling is raised (R338). -/
def State.capRaise (s : State) (meanMw : Nat) : State :=
  match s.leastDraw ((List.range 4).filter fun d => decide (0 < (s.die d).cap)) with
  | none => { s with pwr := { s.pwr with calm := 0 } }
  | some d =>
    if meanMw + (s.die d).saved ≤ 1000 * s.pwr.capW then
      if 100 ≤ s.pwr.calm + 1 then
        let s1 := s.modDie d fun x => { x with cap := x.cap - 1 }
        { s1 with pwr := { s1.pwr with calm := 0 } }
      else { s with pwr := { s.pwr with calm := s.pwr.calm + 1 } }
    else { s with pwr := { s.pwr with calm := 0 } }

/-- CAP_EVALUATION: every 50 µs, on the newest input-power report and its 1 ms mean. -/
def execCapEvaluation (_first _second : Unit) (s : State) : Res :=
  let p := s.pwr.inputMw
  let s1 := { s with pwr := { s.pwr with sinceLower := s.pwr.sinceLower + 1 } }
  .next (if 1000 * s.pwr.capW < p then s1.capLower p else s1.capRaise s.pwr.meanMw).ceilingsSet

/-- INPUT_CLAMP: above 450 W every compute die runs two steps lower in frequency; voltages stay. -/
def execInputClamp (s : State) : Res :=
  .next ({ s with pwr := { s.pwr with clamp := true } }.powerEvent 0x09 0xFF s.pwr.inputMw)

/-- INPUT_CLAMP_RELEASE: at least 100 µs are over and the cap ceilings have taken over. -/
def execInputClampRelease (s : State) : Res := .next { s with pwr := { s.pwr with clamp := false } }

/-! ### Droop (R345) -/

/-- DROOP_TRIP: counted; below PS7 the die is forced lower in frequency, and at PS7 nothing else changes. More than 1,000 trips of
the die within 1 s post event 0x0A. -/
def execDroopTrip (die detector : Nat) (s : State) : Res :=
  if 4 ≤ die || 4 ≤ detector then .next s
  else
    let times := (s.now :: (s.die die).tripsAt).take 1001
    let s1 := s.modDie die fun y => { y with
      trips := satAdd 0xFFFFFFFF y.trips 1
      tripped := if y.step = 7 || y.tripped.contains detector then y.tripped else insertSorted detector y.tripped
      drooped := y.drooped || decide (y.step < 7)
      tripsAt := times }
    .next (if times.length = 1001 && decide (s.now < times.getLastD 0 + 1000000) then s1.powerEvent 0x0A die 1001 else s1)

/-- DROOP_RELEASE: no detector of the die has tripped for 1 µs. -/
def execDroopRelease (die : Nat) (s : State) : Res :=
  .next (if die < 4 then s.modDie die fun x => { x with tripped := [], drooped := false } else s)

/-! ### Estimates, budgets and energy (R346 to R348) -/

/-- The mean of the last 10 ms, in mW. -/
def PartPower.estimate (x : PartPower) : Nat := sumNat x.shares / 10

/-- The budget rule for one interval (R347). -/
def PartPower.hold (x : PartPower) : PartPower :=
  if x.budgetW = 0 then { x with underMs := 0, cpLimit := 0 }
  else if 1000 * x.budgetW < x.estimate then { x with cpLimit := min 7 (x.cpLimit + 1), underMs := 0 }
  else if x.estimate * 10 < 9000 * x.budgetW then
    if 10 ≤ x.underMs + 1 then { x with cpLimit := x.cpLimit - 1, underMs := 0 } else { x with underMs := x.underMs + 1 }
  else { x with underMs := 0 }

/-- The context whose job a partition's share counts to: the one on the engines, else one that is STARTING. -/
def Part.billed (q : Part) : Option Nat :=
  match q.running with
  | some c => some c
  | none => (List.range 8).find? fun c => (Map.get {} q.ctxs c).state == .starting

/-- One partition's share of an interval, in µJ. -/
def State.bill (s : State) (p share : Nat) : State :=
  let s1 := s.modPart p fun q =>
    let w : PartPower := { q.power with
      shares := (share :: q.power.shares).take 10
      energyUj := q.power.energyUj + BitVec.ofNat 64 share }
    { q with power := if q.state == .enabled then w.hold else w }
  match (s.part p).billed with
  | none => s1
  | some c =>
    match (s.ctx p c).job with
    | none => s1
    | some j =>
      let s2 := s1.modCtx p c fun x => { x with job := some { j with energyUj := j.energyUj + share } }
      { s2 with pwr := { s2.pwr with queueUj := Map.modify 0 s2.pwr.queueUj j.queue (· + BitVec.ofNat 64 share) } }

/-- The MAIN input energy of the last 1 ms, in µJ. -/
def Power.energyUj (x : Power) : Nat := x.meanMw

/-- The partitions' shares of `energy`, scaled from their estimates and the device account's; the device account has the rest, so
that all sum to it (R346, R348). -/
def shareOut (estimates : List Nat) (device energy : Nat) : List Nat :=
  let l := fit 0 16 estimates
  l.map fun e => e * energy / max 1 (sumNat l + device)

/-- ESTIMATE_INTERVAL: the estimates of the 16 partitions and of the device account over 1 ms, from their activity, are scaled to the
measured energy and billed. -/
def execEstimateInterval (estimates : List Nat) (device : Nat) (s : State) : Res :=
  let shares := shareOut estimates device s.pwr.energyUj
  let s1 := { s with pwr := { s.pwr with deviceUj := s.pwr.deviceUj + BitVec.ofNat 64 (s.pwr.energyUj - sumNat shares) } }
  .next ((List.range 16).foldl (fun t p => t.bill p (nth 0 shares p)) s1)

/-! ### Heat (R349 to R352) -/

/-- The rule of R349 for one die and one reading: `hot` and `cool` say how its sensors and its base die's stand. -/
def DiePower.heat (x : DiePower) (hot cool limit : Bool) : DiePower :=
  if limit then { x with thermal := 7, hotWait := 9, coolReads := 0 }
  else if hot then
    if x.hotWait = 0 then { x with thermal := min 7 (x.thermal + 1), hotWait := 9, coolReads := 0 }
    else { x with hotWait := x.hotWait - 1, coolReads := 0 }
  else if cool then
    if 100 ≤ x.coolReads + 1 then { x with thermal := x.thermal - 1, hotWait := x.hotWait - 1, coolReads := 0 }
    else { x with hotWait := x.hotWait - 1, coolReads := x.coolReads + 1 }
  else { x with hotWait := x.hotWait - 1, coolReads := 0 }

/-- The events of a thermal reading for one die or base die. -/
def State.heatEvents (s : State) (old : State) (hottest : List Int) : State :=
  let t1 := (List.range 4).foldl (fun t d =>
    if (old.die d).thermal = 0 && 0 < (t.die d).thermal then t.powerEvent 0x01 d (nth 0 hottest d).toNat else t) s
  (List.range 6).foldl (fun t k => if 1050 ≤ nth 0 hottest k then t.powerEvent 0x02 k (nth 0 hottest k).toNat else t) t1

/-- THERMAL_READ: the hottest sensors of CD0 to CD3, BD0 and BD1, in 0.1 °C. -/
def execThermalRead (hottest : List Int) (s : State) : Res :=
  let h := fit 0 6 hottest
  let s1 := (List.range 4).foldl (fun t d =>
    let a := nth 0 h d
    let b := nth 0 h (4 + baseOfDie d)
    t.modDie d fun x => x.heat (decide (950 ≤ a) || decide (950 ≤ b)) (decide (a ≤ 920) && decide (b ≤ 920))
      (decide (1050 ≤ a) || decide (1050 ≤ b))) s
  let s2 := { s1 with pwr := { s1.pwr with tj := h, junctionAlert := h.any fun x => decide (1050 ≤ x) } }
  .next (s2.heatEvents s h).ceilingsSet

/-- FLOW_LOSS: FLOW_OK deasserted for 10 ms engages the interlock again; one still engaged from a start stays so, and nothing is
lost that had not come (R351, R354). -/
def execFlowLoss (s : State) : Res :=
  if s.pwr.interlock then .next { s with pwr := { s.pwr with flowOk := false } }
  else
    let s1 := { s with pwr := { s.pwr with interlock := true, flowLost := true, flowOk := false } }
    .next (s1.powerEvent 0x03 0xFF 0).setAlert

/-- INTERLOCK_RELEASE: FLOW_OK asserted for 1 s. -/
def execInterlockRelease (s : State) : Res :=
  let s1 := { s with pwr := { s.pwr with interlock := false, flowLost := false, flowOk := true } }
  .next (if s.pwr.flowLost then s1.powerEvent 0x04 0xFF 0 else s1).ceilingsSet

/-- COOLANT_READ: temperatures in 0.1 °C, humidity in % RH. -/
def execCoolantRead (inlet outlet : Int) (humidity : Nat) (s : State) : Res :=
  let s1 := { s with pwr := { s.pwr with inlet := inlet, outlet := outlet, humidity := humidity } }
  let s2 := if 650 < inlet then s1.powerEvent 0x05 0xFF inlet.toNat else s1
  let s3 := if inlet + 100 < outlet && s.pwr.flowOk then s2.powerEvent 0x06 0xFF outlet.toNat else s2
  .next (if 95 < humidity then s3.powerEvent 0x0C 0xFF humidity else s3)

/-! ### Brown-out (R353) -/

/-- BROWN_OUT_ENTRY: MAIN below 34.0 V. -/
def execBrownOutEntry (s : State) : Res :=
  .next ({ s with pwr := { s.pwr with brownOut := true } }.powerEvent 0x06 0xFE s.pwr.mainMv)

/-- BROWN_OUT_EXIT: MAIN at or above 36.0 V for 10 ms. -/
def execBrownOutExit (s : State) : Res :=
  .next (if s.pwr.brownOut then ({ s with pwr := { s.pwr with brownOut := false } }.powerEvent 0x07 0xFF s.pwr.mainMv).ceilingsSet else s)

/-! ### DDR5 heat (R158) -/

/-- DDR5_TEMP_READ: a channel's hottest device sets its refresh interval and its throttling. -/
def execDdr5TempRead (ch : Nat) (deciC : Int) (s : State) : Res :=
  if 4 ≤ ch then .next s
  else
    let c : Channel :=
      { deciC := deciC, interval := if deciC ≤ 850 then 390 else 195
        divisor := if deciC ≤ 950 then 1 else if deciC ≤ 1050 then 2 else 8, alert := decide (1050 < deciC) }
    let s1 := { s with ddr := { s.ddr with chans := Map.set ({} : Channel) s.ddr.chans ch c } }
    .next (if c.alert && !(Map.get ({} : Channel) s.ddr.chans ch).alert then s1.log ch 0x0407 0xFF (leBytes 2 deciC.toNat) else s1).setAlert

end Sys2Proof.Machine
end

