-- ==== Sys2Proof/Machine/PowerCmds.lean ====
section
/-! DEFINITION. Power commands (R144, R337, R347, R356). -/

namespace Sys2Proof.Machine

/-- The sum of the budgets of the enabled partitions but `p`. -/
def State.budgetsBut (s : State) (p : Nat) : Nat := sumNat ((s.enabled.filter (· != p)).map fun k => (s.part k).power.budgetW)

/-- power.cap_set. -/
def State.capSet (s : State) (inl _b : List Byte) : Done :=
  let w := u16 inl 0
  if w < 120 || 450 < w then .refuse rcPowerCap
  else if w < s.budgetsBut 16 then .refuse rcPowerBudget
  else .ok 0 { s with pwr := { s.pwr with capW := w } }

def execPowerCapSet (q : Nat) (s : State) : Res := .next (s.serveArgs q 0x0A01 State.capSet)

/-- power.budget_set. -/
def State.budgetSet (s : State) (inl _b : List Byte) : Done :=
  let p := u8 inl 0
  let w := u16 inl 2
  if 450 < w then .refuse rcPowerMalformed
  else if (s.part p).state == .enabled && decide (s.pwr.capW < s.budgetsBut p + w) then .refuse rcPowerBudget
  else .ok 0 (s.modPart p fun x => { x with power := { x.power with budgetW := w } })

def execPowerBudgetSet (q : Nat) (s : State) : Res := .next (s.serveArgs q 0x0A02 State.budgetSet)

/-- power.pace_follow: with following off no notice limits the partition. -/
def State.paceFollow (s : State) (inl _b : List Byte) : Done :=
  let on := u8 inl 1 == 1
  .ok 0 (s.modPart (u8 inl 0) fun x => { x with power :=
    { x.power with paceFollow := on, pace := if on then x.power.pace else [] } })

def execPowerPaceFollow (q : Nat) (s : State) : Res := .next (s.serveArgs q 0x0A03 State.paceFollow)

/-- The power record. -/
def State.powerRecord (s : State) : List Byte :=
  let w := s.pwr
  let dies := List.range 4
  let signed := fun (x : Int) => leBytes 2 (BitVec.ofInt 16 x).toNat
  let parts := (List.range 16).map fun p => (s.part p).power
  leBytes 4 w.mainMv ++ leBytes 4 w.meanMw ++ leBytes 4 w.auxMw ++ leBytes 2 w.capW ++ leBytes 2 w.droopMv ++
  ((List.range 10).flatMap fun r => leBytes 4 (s.rail r).mv ++ leBytes 4 (s.rail r).ma) ++
  (dies.flatMap fun d => leBytes 1 (s.die d).step) ++ (dies.flatMap fun d => leBytes 1 (s.ceiling d)) ++
  (dies.flatMap fun d => leBytes 1 (s.dieCause d)) ++ zeros 4 ++ ((fit 0 6 w.tj).flatMap signed) ++ zeros 4 ++
  signed w.inlet ++ signed w.outlet ++ leBytes 1 (w.flowOk.toNat + 2 * (!w.interlock).toNat) ++ leBytes 1 w.humidity ++ zeros 2 ++
  (dies.flatMap fun d => (List.range 8).map (vid d)) ++ (dies.flatMap fun d => leBytes 4 (s.die d).trips) ++
  leBytes 8 w.deviceUj.toNat ++ (parts.flatMap fun x => leBytes 8 x.energyUj.toNat) ++
  (parts.flatMap fun x => leBytes 4 x.estimate) ++ (parts.flatMap fun x => leBytes 2 x.budgetW) ++ zeros 96 ++
  (List.range 64).flatMap fun k => leBytes 8 (Map.get 0 w.queueUj k).toNat

def execPowerRead (q : Nat) (s : State) : Res :=
  .next (s.serveArgs q 0x0A04 fun t _ _ => .data t.powerRecord 0 t)

end Sys2Proof.Machine
end

