-- ==== Sys2Proof/Machine/StoreCmds.lean ====
section
/-! DEFINITION. The storage manager's commands: image slots and owner objects, statistics (R359, R360, R366, R372 to R376,
R378). -/

namespace Sys2Proof.Machine

/-! ### The medium -/

/-- Dies not fenced. -/
def Store.diesUp (x : Store) : Nat := ((List.range 16).filter fun d => !(Map.get {} x.dies d).fenced).length

/-- Stripes in use (R359, R365). -/
def Store.stripes (x : Store) : Nat := 2720 - x.retiredStripes

/-- Stripes of the free pool: those that the regions' 582 GiB leave, at one parity block a stripe (R360, R366). -/
def Store.freeStripes (x : Store) : Nat := x.stripes - ceilDiv (582 * 1024) (16 * (x.diesUp - 1))

/-- Data programmed, with the stripe parity (R378). -/
def Store.program (x : Store) (bytes : Nat) : Store :=
  { x with stats := { x.stats with programmed := satAdd (2 ^ 64 - 1) x.stats.programmed (bytes + ceilDiv bytes (x.diesUp - 1)) } }

def State.modStore (s : State) (f : Store → Store) : State := { s with store := f s.store }

/-! ### Slots (R373 to R375) -/

/-- The fields of a slot write's header. -/
structure SlotHdr where
  slot : Nat
  kind : Nat
  part : Nat
  final : Bool
  off : Nat
  len : Nat
  total : Nat

def slotHdr (b : List Byte) : SlotHdr := ⟨u16 b 0, u8 b 2, u8 b 3, bitAt (u8 b 4) 0, u64 b 8, u32 b 0x10, u64 b 0x18⟩

/-- Whether a kind's owner is the device. -/
def deviceKind (k : Nat) : Bool := k == 2 || k == 3

/-- What a slot is charged (R373). -/
def Slot.charged (x : Slot) : Nat := if x.state = 0 || deviceKind x.kind then 0 else roundUp (2 ^ 22) x.total

/-- NAND bytes charged to a partition. -/
def State.nandHeld (s : State) (p : Nat) : Nat :=
  sumNat ((s.store.slots.filter fun e => e.2.owner == p).map fun e => e.2.charged)

/-- Bytes of the image store that slots take. -/
def State.imageBytes (s : State) : Nat := sumNat (s.store.slots.map fun e => e.2.total)

/-- The refusals of store.slot_write, in check order. -/
def State.slotWriteCheck (s : State) (b : List Byte) : Option Nat :=
  let h := slotHdr b
  let x := s.slot h.slot
  let fresh := x.state == 0
  firstFail [
    (u8 b 4 / 2 != 0 || !allZero b 5 3 || !allZero b 0x14 4 || decide (4095 < h.slot) || decide (4 < h.kind) ||
      (if deviceKind h.kind then h.part != 0xFF else decide (15 < h.part)) || decide (1048544 < h.len), rcStoreMalformed),
    (h.total == 0, rcZeroSize),
    (x.state == 2, rcSlotBusy),
    (h.off != x.data.length || (!fresh && !(x.kind == h.kind && x.owner == h.part && x.total == h.total)) ||
      decide (h.total < h.off + h.len) || (h.final && h.off + h.len != h.total), rcStoreMalformed),
    (fresh && !deviceKind h.kind && decide ((s.part h.part).cfg.quota 4 (s.part h.part).cfg.nandBytes <
      s.nandHeld h.part + roundUp (2 ^ 22) h.total), rcQuotaNand),
    ((fresh && decide (imageStore < s.imageBytes + h.total)) || s.store.freeStripes == 0, rcStoreFull)]

/-- The bytes of a write join their slot. -/
def State.slotAppend (s : State) (b : List Byte) : State :=
  let h := slotHdr b
  let x := s.slot h.slot
  (s.setSlot h.slot { state := 1, kind := h.kind, owner := h.part, total := h.total, data := x.data ++ slice b 32 h.len }).modStore
    fun y => y.program h.len

/-- store.slot_write that seals nothing. -/
def State.slotWrite (s : State) (_inl blk : List Byte) : Done :=
  match s.slotWriteCheck blk with
  | some code => .refuse code
  | none => if (slotHdr blk).len = 0 then .empty s else .ok 0 (s.slotAppend blk)

/-- A FINAL write: the slot is sealed, or erased to EMPTY where its signature is refused; one that the medium gives back damaged has
not the bytes that were signed (R374). -/
def State.slotSealWrite (s : State) (_inl blk : List Byte) : Done :=
  match s.slotWriteCheck blk with
  | some code => .refuse code
  | none =>
    let h := slotHdr blk
    let s1 := s.slotAppend blk
    let x := s1.slot h.slot
    match (if 4 ≤ h.kind then none else if s.mediaBad h.slot then some rcSignature else s1.lan.sigCheck x.data h.kind h.part) with
    | some code => .refuseWith code (((s1.setSlot h.slot {}).mediaDone h.slot).logSignature code h.kind h.slot h.part)
    | none => .ok 0 (s1.setSlot h.slot { x with state := 2 })

/-- The write that seals: FINAL, with data. -/
def sealing (c : Cmd) : Bool := bitAt (u8 c.blk 4) 0 && u32 c.blk 0x10 != 0

def execStoreSlotWrite (q : Nat) (s : State) : Res :=
  .next (s.serve q 0x0B01 (fun c => !sealing c) fun t c => t.slotWrite c.inl c.blk)

def execSlotSeal (q : Nat) (s : State) : Res :=
  .next (s.serve q 0x0B01 sealing fun t c => t.slotSealWrite c.inl c.blk)

/-- Whether a slot is in use (R375). -/
def State.slotInUse (s : State) (n : Nat) : Bool :=
  (s.parts.any fun e =>
    (e.2.ctxs.any fun c => c.2.image.any fun im => im.slot == n) ||
    e.2.models.staged.any fun m => m.2.used && m.2.slot == n) ||
  (s.stp.mesh.isSome && s.stp.meshSlot == n) ||
  (s.fab.posts.any fun x => (x.queue == .l0 || x.queue == .l1) && x.op == 2 && !x.cur.isEmpty && bits (dSrc x.cur) 47 32 == n) ||
  (s.lan.update.any fun u => u.slot == n)

/-- A block is erased and goes to the free pool. -/
def Store.eraseBlock (x : Store) (d b : Nat) : Store :=
  { x with blocks := Map.modify {} x.blocks (2816 * d + b) fun y => { erases := y.erases + 1, scans := x.canaries } }

/-- The blocks that `bytes` of data took, parity included, are erased; which they are is open, from free value `k` on. -/
def Store.eraseData (x : Store) (bytes k : Nat) : Store :=
  (List.range (ceilDiv (bytes + ceilDiv bytes (x.diesUp - 1)) (2 ^ 24))).foldl (fun (y : Store) (i : Nat) =>
    y.eraseBlock (Config.freeNat (k + 2 * i) % 16) (Config.freeNat (k + 2 * i + 1) % 2816)) x

/-- store.slot_erase; the blocks of its data are erased. -/
def State.slotErase (s : State) (inl _blk : List Byte) : Done :=
  let n := u16 inl 0
  if (s.slot n).state = 0 then .empty s
  else if s.slotInUse n then .refuse rcSlotBusy
  else
    let bytes := (s.slot n).data.length
    let (k, s1) := s.take (bytes / 2 ^ 22 + 4)
    .ok 0 ((s1.modStore fun x => x.eraseData bytes k).setSlot n {})

def execStoreSlotErase (q : Nat) (s : State) : Res := .next (s.serveArgs q 0x0B02 State.slotErase)

/-- A slot's entry of store.slot_list. -/
def State.slotEntry (s : State) (n : Nat) : List Byte :=
  let x := s.slot n
  leBytes 2 n ++ [BitVec.ofNat 8 x.state, BitVec.ofNat 8 x.kind, BitVec.ofNat 8 x.owner, BitVec.ofNat 8 (s.slotInUse n).toNat] ++
  zeros 2 ++ leBytes 8 x.data.length ++ leBytes 8 x.charged ++ (if x.state = 2 then digest16 x.body else zeros 16) ++ zeros 8

/-- store.slot_list: whole entries from the lowest slot, as many as fit. -/
def execStoreSlotList (q : Nat) (s : State) : Res :=
  .next (s.serve q 0x0B03 always fun t c =>
    let l := t.store.slots.map Prod.fst
    if l.isEmpty then .empty t
    else .data ((l.take (c.entry.dataLen / 48)).flatMap t.slotEntry) l.length t)

/-! ### Owner objects (R376) -/

def Store.object (x : Store) (name : List Byte) : Option (List Byte) := (x.objects.find? fun o => o.1 == name).map Prod.snd

/-- Objects of the owner: names of the device begin with a zero byte. -/
def deviceName (name : List Byte) : Bool := nth 0 name 0 == 0

def State.objPut (s : State) (_inl blk : List Byte) : Done :=
  let name := slice blk 0 32
  let n := u32 blk 0x20
  let rest := s.store.objects.filter fun o => o.1 != name
  let held := sumNat (rest.map fun o => o.2.length)
  match firstFail [
    (n == 0, rcZeroSize),
    (!allZero blk 0x24 28 || deviceName name, rcStoreMalformed),
    (decide (65536 ≤ rest.length) || decide (32 * 2 ^ 30 < held + n) || s.store.freeStripes == 0, rcStoreFull)] with
  | some code => .refuse code
  | none => .ok 0 (s.modStore fun x => { x.program n with objects := rest ++ [(name, slice blk 64 n)] })

def execStoreObjPut (q : Nat) (s : State) : Res := .next (s.serveArgs q 0x0B04 State.objPut)

/-- The object of a name; the certificate stands while the identity key does (R384, R387). -/
def State.objectOf (s : State) (name : List Byte) : Option (List Byte) :=
  if name == certName && s.lan.life != .blank && s.lan.life != .retired then some idCert else s.store.object name

/-- store.obj_get. -/
def execStoreObjGet (q : Nat) (s : State) : Res :=
  .next (s.serve q 0x0B05 always fun t c =>
    match t.objectOf (c.inl) with
    | none => .refuse rcObjectAbsent
    | some b =>
      if c.entry.dataLen < b.length then .refuse rcDataShort
      else if t.mediaBad 4096 then .ends stMediaError (t.mediaDone 4096)
      else .data b 0 t)

/-- store.obj_delete; a device object is no owner's to delete (log entry 45). -/
def State.objDelete (s : State) (inl _blk : List Byte) : Done :=
  let name := inl
  if deviceName name || (s.store.object name).isNone then .refuse rcObjectAbsent
  else .ok 0 (s.modStore fun x => { x with objects := x.objects.filter fun o => o.1 != name })

def execStoreObjDelete (q : Nat) (s : State) : Res := .next (s.serveArgs q 0x0B06 State.objDelete)

/-! ### Statistics (R378) -/

def State.storeRecord (s : State) : List Byte :=
  let x := s.store
  let n := x.stripes * x.diesUp
  let er := x.blocks.map fun e => e.2.erases
  let dieOf := fun d => (Map.get {} x.dies d : Die)
  leBytes 4 n ++ leBytes 2 x.stats.factoryBad ++ leBytes 2 x.stats.grownBad ++
  ((List.range 16).map fun d => BitVec.ofNat 8 (dieOf d).reserve) ++
  leBytes 2 (sumNat ((List.range 16).map fun d => (dieOf d).fenced.toNat * 2 ^ d)) ++ zeros 2 ++ leBytes 4 x.freeStripes ++
  leBytes 4 (er.foldl max 0) ++ leBytes 4 (sumNat er / max 1 n) ++ leBytes 8 x.stats.programmed ++ leBytes 4 x.stats.refreshes ++
  leBytes 4 x.stats.relocations ++ leBytes 4 x.stats.reconstructed ++ leBytes 4 x.stats.mediaErrors

def execStoreStats (q : Nat) (s : State) : Res := .next (s.serveArgs q 0x0B08 fun t _ _ => .data t.storeRecord 0 t)

end Sys2Proof.Machine
end

