-- ==== Sys2Proof/Machine/SecCmds.lean ====
section
/-! DEFINITION. Lantern's commands: attestation, keys, rotation, updates; the log; the debug port; Lantern's restarts
(R380 to R409, R426 to R430). -/

namespace Sys2Proof.Machine

/-! ### Attestation (R399) -/

/-- sec.attest: the entry's PARTITION is covered; one that is neither a partition nor 0xFF is out of range. -/
def execSecAttest (q : Nat) (s : State) : Res :=
  .next (s.serve q 0x0C01 always fun t c =>
    let p := c.entry.partition
    if 15 < p && p != 0xFF then .refuse rcEntryMalformed
    else if !t.lan.life.isOwned then .refuse rcLifecycle
    else .data (t.attestReport p c.inl) 0 t)

/-! ### Updates (R405 to R407) -/

/-- Largest image of a target (R404). -/
def targetBytes (k : Nat) : Nat := nth 0 [16 * 2 ^ 20, 512 * 2 ^ 20, 64 * 2 ^ 20] k

/-- The units that take microcode: 0 Cupola, 1 Steeple, 2 to 17 the loops. -/
def microcodeUnits : List Nat := List.range 18

/-- Where NAND_READ finds a copy of a target damaged. -/
def copyId (k region : Nat) : Nat := 4099 + 2 * k + region

/-- Step 2: the inactive copy of a target is the image, and sound. -/
def State.writeCopy (s : State) (k : Nat) (c : FwCopy) : State :=
  let t : Target := Map.get {} s.lan.targets k
  (s.modLan fun l => { l with targets := Map.set {} l.targets k { t with other := c } }).mediaDone (copyId k (1 - t.region))

/-- Step 5: the copies change places, and the floor is raised to the new one's SVN (R406). -/
def Target.switch (t : Target) (svn : Nat) (d : List Byte) : Target :=
  { svn := svn, floor := max t.floor svn, digest := d, region := 1 - t.region, other := ⟨t.svn, t.digest⟩ }

/-- sec.update, steps 1 to 3: the image is checked and written as the inactive copy, and the target switches. -/
def State.secUpdate (s : State) (q : Nat) (c : Cmd) : Done :=
  let n := u16 c.inl 0
  let k := u8 c.inl 2
  let b := (s.slot n).data
  let g := sigBlock b
  if s.lan.update.isSome then .stay
  else match firstFail [(decide (2 < k), rcSecurityMalformed)] with
  | some code => .refuse code
  | none => match s.slotCheck n 3 0xFF with
    | some code => .refuse code
    | none =>
      if s.mediaBad n then .ends stMediaError (s.mediaDone n)
      else match s.lan.sigCheck b 3 0xFF with
        | some code => .refuseWith code (s.logSignature code 3 n 0xFF)
        | none =>
          if u8 g 7 != k || targetBytes k < b.length then .refuse rcSecurityMalformed
          else
            let u : Update :=
              { slot := n, target := k, svn := u16 g 8, digest := slice g 0x30 64, queue := q, cmd := c.no }
            .runs (((s.writeCopy k ⟨u.svn, u.digest⟩).modLan fun l =>
              { l with update := some u, microcode := if k = 2 then microcodeUnits else l.microcode }).modStore fun x => x.program b.length)

def execSecUpdate (q : Nat) (s : State) : Res := .next (s.serve q 0x0C02 always fun t c => t.secUpdate q c)

/-- UPDATE_COMMIT: the new copy is active and the floor raised, or the old copy is back (R405 step 5, R406). -/
def execUpdateCommit (passed : Bool) (s : State) : Res :=
  match s.lan.update with
  | none => .next s
  | some u =>
    let s1 := s.modLan fun l => { l with update := none }
    if !passed then
      .next ((s1.modLan fun l => { l with microcode := if u.target = 2 then [] else l.microcode }).refuse u.queue u.cmd rcSecurityMalformed)
    else
      let new := (Map.get ({} : Target) s.lan.targets u.target).switch u.svn u.digest
      let s2 := s1.modLan fun l => { l with targets := Map.set {} l.targets u.target new }
      let s3 := if u.target < 2 then s2.measure (u.target + 1) 0x0C02 u.digest else s2
      .next ((s3.log 0xFFFF 0x0C06 0xFF ([BitVec.ofNat 8 u.target] ++ leBytes 2 u.svn ++ [BitVec.ofNat 8 new.floor])).finishOk u.queue u.cmd)

/-- Whether a unit stands where it takes new microcode: Steeple between queries, a loop between runs (R407). -/
def State.unitFree (s : State) (u : Nat) : Bool :=
  if u = 0 then s.cup.groups.all fun g => (g.2.frame.map fun f => !f.assembled).getD true
  else if u = 1 then s.stp.running.isNone
  else (Map.get ({} : CLoop) s.cmp.loops (u - 2)).run.isNone

/-- MICROCODE_SWITCH: a unit takes the new microcode; MR3 is extended once for it. -/
def execMicrocodeSwitch (unit : Nat) (s : State) : Res :=
  if !s.lan.microcode.contains unit || !s.unitFree unit then .next s
  else
    let d := match s.lan.update with
      | some u => if u.target = 2 then u.digest else (Map.get ({} : Target) s.lan.targets 2).digest
      | none => (Map.get ({} : Target) s.lan.targets 2).digest
    .next ((s.modLan fun l => { l with microcode := l.microcode.filter (· != unit) }).measure 3 0x0C02 (fit 0 64 d))

/-! ### Keys (R395, R396) -/

/-- SERIAL of a record: the device's, or zeros for any device. -/
def serialOk (b : List Byte) : Bool := slice b 0x10 16 == serial || allZero b 0x10 16

/-- A key record's field that its TYPE does not use, or one out of range. -/
def keyRecordBad (b : List Byte) : Bool :=
  let ty := u8 b 4
  u32 b 0 != 0x59454B4F || decide (2 < ty) || !serialOk b || u8 b 7 != 0 || !allZero b 0x0A 2 || !allZero b 0x30 16 ||
  !allZero b 0x741 63 ||
  (if ty = 0 then decide (31 < u8 b 5) || decide (15 < u8 b 6) else u8 b 5 != 0 || u8 b 6 != 0 || u16 b 8 != 0) ||
  (if ty = 2 then decide (1 < u16 b 0x20) || !allZero b 0x28 8 || !allZero b 0x40 1793 else !allZero b 0x20 16)

/-- The refusals of sec.key_enrol and sec.key_revoke; `at_` is where the signature stands. -/
def State.recordCheck (s : State) (b : List Byte) (bad : Bool) (at_ seq : Nat) : Option Nat :=
  firstFail [
    (bad, rcSecurityMalformed),
    (!s.lan.life.isOwned, rcLifecycle),
    (!signedBy s.lan.root (b.take at_) (slice b at_ 1280), rcSignature),
    (decide (seq ≤ s.lan.seq), rcRollback)]

/-- A key record is refused, or `f` enrols it; SLOT is the RESULT. -/
def State.enrol (s : State) (b : List Byte) (f : Lantern → Lantern) : Done :=
  match s.recordCheck b (keyRecordBad b) 0x780 (u32 b 0x0C) with
  | some code => .refuse code
  | none =>
    let s1 := (s.modLan fun l => { f l with seq := u32 b 0x0C }).seal.log 0xFFFF 0x0C05 0xFF [BitVec.ofNat 8 (u8 b 4), BitVec.ofNat 8 (u8 b 5), 0xFF]
    .ok (u8 b 5) (if u8 b 4 = 0 then s1 else s1.measureLife 0x0C03)

/-- TYPE of a key or authorisation record. -/
def recordType (c : Cmd) : Nat := u8 c.blk 4

/-- Enrolling a signing key replaces what its slot holds. -/
def execSecKeyEnrolSigning (q : Nat) (s : State) : Res :=
  .next (s.serve q 0x0C03 (fun c => recordType c != 1 && recordType c != 2) fun t c =>
    let k : KeySlot := { used := true, kinds := u8 c.blk 6, parts := u16 c.blk 8, key := slice c.blk 0x40 1793 }
    t.enrol c.blk fun l => { l with keys := Map.set {} l.keys (u8 c.blk 5) k })

def execSecKeyEnrolRoot (q : Nat) (s : State) : Res :=
  .next (s.serve q 0x0C03 (fun c => recordType c == 1) fun t c =>
    t.enrol c.blk fun l => { l with root := slice c.blk 0x40 1793 })

def execSecKeyEnrolPolicy (q : Nat) (s : State) : Res :=
  .next (s.serve q 0x0C03 (fun c => recordType c == 2) fun t c =>
    let y : Policy := { cosign := bitAt (u8 c.blk 0x20) 0, minSvn := (List.range 3).map fun k => u16 c.blk (0x22 + 2 * k) }
    t.enrol c.blk fun l => { l with policy := y })

/-- sec.key_revoke. -/
def State.revokeKey (s : State) (_inl b : List Byte) : Done :=
  let n := u8 b 4
  let bad := u32 b 0 != 0x5645524F || decide (31 < n) || !allZero b 5 3 || !allZero b 0x0C 4 || !serialOk b || !allZero b 0x20 32
  match s.recordCheck b bad 0x40 (u32 b 8) with
  | some code => .refuse code
  | none =>
    if !(Map.get ({} : KeySlot) s.lan.keys n).used then .refuse rcKeyUnknown
    else .ok 0 ((s.modLan fun l => { l with keys := Map.erase l.keys n, seq := u32 b 8 }).seal.log 0xFFFF 0x0C05 0xFF
      [0, BitVec.ofNat 8 n, 0xFF])

def execSecKeyRevoke (q : Nat) (s : State) : Res := .next (s.serveArgs q 0x0C04 State.revokeKey)

/-! ### Rotation (R386) -/

/-- PARTITION fits CLASS. -/
def rotateOk (k p : Nat) : Bool :=
  if k = 0 || k = 2 then decide (p < 16) else if k = 3 then decide (p < 16) || p == 0xFF else decide (k < 6) && p == 0xFF

/-- The key that CLASS and PARTITION name is installed anew, and a walk starts that will destroy the old one. A rotated swap key
raises its epoch (R218); NAND keys stand in the vault (R384). -/
def State.rekeyClass (s : State) (k p : Nat) : State :=
  let walk := fun (old : Nat) (t : State) => t.modLan fun l => { l with walks := l.walks ++ [⟨k, p, old⟩] }
  let n := s.lan.nextKey
  let drawn := s.modLan fun l => { l with nextKey := n + 1 }
  let pair := if k = 0 then p else 16
  let region := if k = 4 then 0 else if p < 16 then p + 1 else 17
  if k < 2 then
    walk (s.keyRegister (if k = 0 then .ddr p else .ddrDevice)) { s with ddr := { s.ddr with
      pairs := Map.set 0 s.ddr.pairs pair s.ddr.nextKey, nextKey := s.ddr.nextKey + 1 } }
  else if k = 2 then
    walk (s.keyRegister (.swap p)) (drawn.modPart p fun x => { x with host := { x.host with key := n, epoch := x.host.epoch + 1 } })
  else
    (walk (s.keyRegister (.nand region)) (drawn.modLan fun l => { l with storeKeys := Map.set 0 l.storeKeys region n })).seal

/-- sec.rotate: a walk starts; class 5 rekeys every session. -/
def State.rotate (s : State) (inl _blk : List Byte) : Done :=
  let k := u8 inl 0
  let p := u8 inl 1
  match firstFail [
    (!rotateOk k p, rcSecurityMalformed),
    (!s.lan.life.isOwned || s.lan.walks.any fun w => w.cls == k && w.part == p, rcLifecycle)] with
  | some code => .refuse code
  | none =>
    let s1 := if k = 5 then (List.range 4).foldl State.startRekey s else s.rekeyClass k p
    .ok 0 (s1.log 0xFFFF 0x0C05 (if p < 16 then p else 0xFF) [BitVec.ofNat 8 k, 0xFF, BitVec.ofNat 8 p])

def execSecRotate (q : Nat) (s : State) : Res := .next (s.serveArgs q 0x0C06 State.rotate)

/-- ROTATION_WALK_END: the old key is destroyed. -/
def execRotationWalkEnd (cls part : Nat) (s : State) : Res :=
  if s.lan.walks.any fun w => w.cls == cls && w.part == part then
    .next ((s.modLan fun l => { l with walks := l.walks.filter fun w => !(w.cls == cls && w.part == part) }).log 0xFFFF 0x0C05
      (if part < 16 then part else 0xFF) [BitVec.ofNat 8 cls, 0xFF, BitVec.ofNat 8 part])
  else .next s

/-! ### The log (R426 to R430) -/

/-- SEVERITY of an event: 1, 2 or 3 where its name says corrected, contained or poisoned, or fenced or retired; the spec gives no
other event's place on the scale. -/
def severity (event : Nat) : Nat :=
  if [0x0101, 0x0301, 0x0401, 0x0501, 0x0502].contains event then 1
  else if [0x0102, 0x0202, 0x0205, 0x0302, 0x0402, 0x0503].contains event then 2
  else if [0x0103, 0x0303, 0x0304, 0x0403, 0x0404, 0x0406, 0x0505, 0x0506, 0x0A01].contains event then 3
  else Config.unitValue 18 event % 5

/-- A record's bytes before CHAIN. CP_TIME is 0 for Lantern's own events. -/
def logHead (n dropped : Nat) (r : LogRec) : List Byte :=
  leBytes 8 n ++ leBytes 8 r.stamp ++ leBytes 8 (if r.event / 256 = 0x0C then 0 else r.time) ++ leBytes 2 r.event ++
  [BitVec.ofNat 8 (severity r.event), 0] ++ leBytes 2 r.inst ++ [BitVec.ofNat 8 r.part, 0] ++ leBytes 4 dropped ++
  leBytes 4 r.aux ++ fit 0 72 r.data

/-- A record, 128 bytes. -/
def LogEnt.bytes (e : LogEnt) : List Byte := logHead e.number e.dropped e.entry ++ fit 0 16 e.chain

/-- Records the 4 GiB ring holds. -/
def logRing : Nat := 2 ^ 25

/-- LOG_RECORD_WRITE: the record longest queued goes to the ring, while the NAND has power (R434). -/
def execLogRecordWrite (s : State) : Res :=
  let g := s.lan.log
  match g.queue with
  | [] => .next s
  | r :: rest =>
    if s.module.state != .running && s.module.state != .starting then .next s
    else
      let prev := (g.ring.getLast?.map (·.chain)).getD (zeros 16)
      let chain := digest16 (prev ++ logHead g.next g.dropped r)
      let ring := g.ring ++ [⟨g.next, g.dropped, r, chain⟩]
      .next (s.modLan fun l => { l with log := { g with
        queue := rest, dropped := 0, next := g.next + 1, ring := ring.drop (ring.length - logRing) } })

/-- log.read. -/
def execLogRead (q : Nat) (s : State) : Res :=
  .next (s.serve q 0x0D01 always fun t c =>
    let first := u64 c.inl 0
    let count := u32 c.inl 8
    let l := (t.lan.log.ring.filter fun e => decide (first ≤ e.number)).take (min count (c.entry.dataLen / 128))
    if l.isEmpty then .empty t else .data (l.flatMap LogEnt.bytes) l.length t)

/-- Spare banks left on a base die. -/
def State.spareBanksOn (s : State) (d : Nat) : Nat := ((spareBanks.filter fun b => baseOfBank b == d).filter fun b => (s.bank b).state == .spare).length

/-- A count as it saturates in a field of `n` bytes. -/
def satField (n v : Nat) : List Byte := leBytes n (min v (2 ^ (8 * n) - 1))

/-- The health record (R430). -/
def State.healthRecord (s : State) : List Byte :=
  let g := s.lan.log
  let spareTiles := ([16, 33, 50, 67].filter fun t => !s.module.fencedTiles.contains t && (s.engineOn t).isNone).length
  let mask := fun (n : Nat) (f : Nat → Bool) => sumNat ((List.range n).map fun i => (f i).toNat * 2 ^ i)
  satField 8 g.next ++ leBytes 8 ((g.ring.head?.map (·.number)).getD g.next) ++ satField 8 g.totalDropped ++
  satField 4 s.module.cpRestarts ++ satField 4 s.lan.restarts ++ leBytes 16 (mask 68 s.module.fencedTiles.contains) ++
  [BitVec.ofNat 8 spareTiles, 0, BitVec.ofNat 8 (s.spareBanksOn 0), BitVec.ofNat 8 (s.spareBanksOn 1)] ++
  leBytes 2 (s.sp.banks.filter fun e => e.2.state == .fenced).length ++ zeros 2 ++ leBytes 4 (8192 - s.ddr.sparesUsed) ++
  leBytes 4 (s.ddr.pages.filter fun e => e.2.fenced).length ++
  [BitVec.ofNat 8 (mask 8 fun i => (Map.get ({} : SubChannel) s.ddr.subs i).fenced), BitVec.ofNat 8 s.module.lostSequencers.length] ++
  leBytes 2 (mask 16 fun i => (Map.get ({} : CLoop) s.cmp.loops i).status.fault) ++ satField 4 g.jobsPoisoned ++
  satField 4 g.jobsFenced ++ leBytes 4 (mask 4 fun h => (s.port h).session.step != .done) ++ zeros 48 ++
  (List.range 16).flatMap fun d =>
    if d = 0 || 13 < d then zeros 8 else satField 4 (Map.get 0 g.corrected d) ++ satField 4 (Map.get 0 g.uncorrectable d)

def execLogStats (q : Nat) (s : State) : Res := .next (s.serveArgs q 0x0D02 fun t _ _ => .data t.healthRecord 0 t)

/-! ### The debug port (R408) -/

/-- Whether the port admits an instruction of a SCOPE bit; else it acts as BYPASS. -/
def State.jtagOpen (s : State) (scope : Nat) : Bool :=
  s.lan.life == .blank || (s.lan.life == .service && s.lan.debugPort.unlocked.testBit scope)

/-- `n` bits that the spec leaves open, from the free value numbered `k`. -/
def openBits (k n : Nat) : List Nat := (List.range n).map fun i => (Config.freeWord (k + i)).toNat % 2

/-- BYPASS: the one-bit register captures 0. -/
def State.jtagBypass (s : State) : State := s.emit (.tdo [0])

def execBypass (s : State) : Res := .next s.jtagBypass

/-- IDCODE: 32 bits, bit 0 a 1; the others are not laid down. -/
def execIdcode (s : State) : Res :=
  let (k, s1) := s.take 31
  .next (s1.emit (.tdo (1 :: openBits k 31)))

/-- Bits of the boundary register, whose length is not laid down. -/
def boundaryBits : Nat := Config.unitValue 19 0 % 4096 + 1

/-- SAMPLE/PRELOAD: what the pins show is shifted out. -/
def execSamplePreload (s : State) : Res :=
  if s.jtagOpen 0 then
    let (k, s1) := s.take boundaryBits
    .next (s1.emit (.tdo (openBits k boundaryBits)))
  else .next s.jtagBypass

/-- EXTEST: the pins, SAFE_A and SAFE_B among them, show the boundary register. -/
def execExtest (s : State) : Res :=
  if s.jtagOpen 0 then
    let (k, s1) := s.take (boundaryBits + 2)
    let l := openBits k (boundaryBits + 2)
    .next ((s1.emit (.safe (nth 0 l 0 == 1) (nth 0 l 1 == 1))).emit (.tdo (l.drop 2)))
  else .next s.jtagBypass

/-- Internal scan and memory access: what is shifted out is not laid down. -/
def execInternalScan (s : State) : Res :=
  if s.jtagOpen 1 then
    let (k, s1) := s.take 64
    .next (s1.emit (.tdo (openBits k 64)))
  else .next s.jtagBypass

end Sys2Proof.Machine
end

