-- ==== Sys2Proof/Machine/NandEvents.lean ====
section
/-! DEFINITION. Events of the NAND store: reads, bad blocks, fenced dies, wear, refresh, relocation (R362 to R370). Where
the manager places data is open: a codeword's die, block and page are free values. -/

namespace Sys2Proof.Machine

def Store.die (x : Store) (d : Nat) : Die := Map.get {} x.dies d
def Store.modDie (x : Store) (d : Nat) (f : Die → Die) : Store := { x with dies := Map.modify {} x.dies d f }
def Store.block (x : Store) (d b : Nat) : Block := Map.get {} x.blocks (2816 * d + b)
def Store.modBlock (x : Store) (d b : Nat) (f : Block → Block) : Store :=
  { x with blocks := Map.modify {} x.blocks (2816 * d + b) f }

/-- Page reads made from a block since its last erase (R370): a canary scan reads three. -/
def Store.pageReads (x : Store) (d b : Nat) : Nat := (x.block d b).reads + 3 * (x.canaries - (x.block d b).scans)

/-- Bytes of a block. -/
def blockBytes : Nat := 2 ^ 24

/-- Bytes programmed by the manager itself. -/
def Store.rewrite (x : Store) (bytes : Nat) : Store :=
  { x with stats := { x.stats with programmed := satAdd (2 ^ 64 - 1) x.stats.programmed bytes } }

/-- DATA of the NAND events: block, page, step reached. -/
def nandData (block page step : Nat) : List Byte := leBytes 2 block ++ leBytes 2 page ++ [BitVec.ofNat 8 step]

/-! ### Reading (R363) -/

/-- Page reads that delivering a codeword at a step takes from its block: one, with the retries of step 4, of which how many is open
(`n`), and the three of step 5 (R363). -/
def readsTo (step n : Nat) : Nat := if step < 4 then 1 else if step = 4 then 2 + n % 16 else 20

/-- The dies that a codeword delivered at a step may stand on: a fenced die's are reconstructed (R366). -/
def Store.readDies (x : Store) (step : Nat) : List Nat :=
  if step < 6 then (List.range 16).filter fun d => !(x.die d).fenced else List.range 16

/-- What the step that delivered a codeword counts, marks and logs. A block is marked for refresh from step 4 on; before it, whether
its corrected bits or its age mark it is open (R369). -/
def State.nandStep (s : State) (step : Nat) : State :=
  let (k, s1) := s.take 5
  let l := s.store.readDies step
  let d := nth 0 l (Config.freeNat k % l.length)
  let b := Config.freeNat (k + 1) % 2816
  let data := nandData b (Config.freeNat (k + 2) % 1024) step
  let worn := decide (4 ≤ step) || Config.freeNat (k + 3) % 2 == 1
  let s2 := s1.modStore fun x => x.modBlock d b fun y =>
    { y with reads := y.reads + readsTo step (Config.freeNat (k + 4)), refresh := y.refresh || worn }
  if step < 4 then s2
  else if step < 6 then s2.logCorrected d 0x0501 0xFF fun _ => data
  else if step = 6 then
    (s2.modStore fun x => { x with stats := { x.stats with reconstructed := satAdd 0xFFFFFFFF x.stats.reconstructed 1 } }).logCorrected
      d 0x0502 0xFF fun _ => data
  else
    (s2.modStore fun x => { x with stats := { x.stats with mediaErrors := satAdd 0xFFFFFFFF x.stats.mediaErrors 1 } }).log
      d 0x0503 0xFF data

/-- NAND_READ: a codeword is delivered at a step of R363. It belongs to a DMA or Floam post, or, from 2^40 on, to the slot
that a command reads (4096: the owner store). -/
def execNandRead (id stepReached : Nat) (s : State) : Res :=
  let s1 := s.nandStep stepReached
  let bad := decide (7 ≤ stepReached)
  if 2 ^ 40 ≤ id then
    let n := id - 2 ^ 40
    .next (if bad && !s1.mediaBad n then s1.modStore fun x => { x with mediaBad := n :: x.mediaBad } else s1)
  else match s1.post id with
    | none => .next s
    | some x =>
      if x.inWork 2 then .next (s1.nandIn x bad)
      else if x.queue == .floam && !x.cur.isEmpty then .next (if bad then s1.modPost id fun y => { y with bad := true } else s1)
      else .next s

/-! ### Bad blocks and dies (R365, R366) -/

/-- GROWN_BAD_BLOCK: a reserve block takes its place; a die without reserve costs the stripe. -/
def execGrownBadBlock (die block : Nat) (s : State) : Res :=
  if 16 ≤ die || 2816 ≤ block || (s.store.die die).fenced then .next s
  else
    let s1 := s.modStore fun x => { x with stats := { x.stats with grownBad := satAdd 0xFFFF x.stats.grownBad 1 } }
    if (s.store.die die).reserve = 0 then
      .next ((s1.modStore fun x => ({ x with retiredStripes := x.retiredStripes + 1 }).rewrite (x.diesUp * blockBytes)).log
        die 0x0505 0xFF (nandData block 0 0))
    else
      .next ((s1.modStore fun x => ((x.modDie die fun y => { y with reserve := y.reserve - 1 }).modBlock die block fun _ => { scans := x.canaries }).rewrite
        blockBytes).log die 0x0504 0xFF (nandData block 0 0))

/-- DIE_FENCE: new data go out in stripes of the dies left, and the degraded stripes are rewritten; how many stand is open. -/
def execDieFence (die : Nat) (s : State) : Res :=
  if 16 ≤ die || (s.store.die die).fenced then .next s
  else
    let (k, s1) := s.take 1
    .next ((s1.modStore fun x => (x.modDie die fun y => { y with fenced := true }).rewrite
      (blockBytes * (x.diesUp - 1) * (Config.freeNat k % (x.stripes + 1)))).log die 0x0506 0xFF (nandData 0 0 0))

/-! ### Wear, retention, read disturb (R368 to R370) -/

/-- STATIC_WEAR_MOVE: the stripe that holds the die's least-erased block moves to a free stripe, and its blocks are erased. -/
def execStaticWearMove (die : Nat) (s : State) : Res :=
  if 16 ≤ die || (s.store.die die).fenced then .next s
  else
    let (k, s1) := s.take 16
    let up := (List.range 16).filter fun d => !(s.store.die d).fenced
    .next (s1.modStore fun x => (up.foldl (fun y d => y.eraseBlock d (Config.freeNat (k + d) % 2816)) x).rewrite (up.length * blockBytes))

/-- CANARY_SCAN: three pages of every block in use are read; blocks found weak or old are marked for refresh. -/
def execCanaryScan (found : List CanaryFinding) (s : State) : Res :=
  .next (s.modStore fun x => found.foldl (fun y f =>
    if f.die < 16 && f.block < 2816 then y.modBlock f.die f.block fun z => { z with refresh := true } else y)
    { x with canaries := x.canaries + 1 })

/-- BLOCK_REFRESH: a marked block's data go to a fresh block of the same die. -/
def execBlockRefresh (die block : Nat) (s : State) : Res :=
  if !(s.store.block die block).refresh then .next s
  else
    .next ((s.modStore fun x =>
      let y := (x.eraseBlock die block).rewrite blockBytes
      { y with stats := { y.stats with refreshes := satAdd 0xFFFFFFFF y.stats.refreshes 1 } }).log die 0x0507 0xFF (nandData block 0 0))

/-- BLOCK_RELOCATION: the data of a block that reached 10,000,000 reads go to another block of its die. -/
def execBlockRelocation (die block : Nat) (s : State) : Res :=
  if 16 ≤ die || 2816 ≤ block then .next s
  else
    .next ((s.modStore fun x =>
      let y := (x.eraseBlock die block).rewrite blockBytes
      { y with stats := { y.stats with relocations := satAdd 0xFFFFFFFF y.stats.relocations 1 } }).log die 0x0508 0xFF (nandData block 0 0))

end Sys2Proof.Machine
end

