-- ==== Sys2Proof/Machine/Errors.lean ====
section
/-! DEFINITION. Errors and the domains that contain them: tile and sequencer fences, the memories of Cupola and Steeple, CP
restarts, partitions at rest (R416 to R424, R442). -/

namespace Sys2Proof.Machine

/-! ### Tile fences (R417) -/

/-- The partition in service whose engines include `e`, and the lane that drives it. -/
def State.ownerOf (s : State) (e : Nat) : Option (Nat × Nat) :=
  (s.enabled.find? fun p => (s.part p).cfg.engines.contains e).map fun p =>
    (p, ((List.range 64).find? fun l => nth 64 (s.part p).cfg.engines l == e).getD 0)

/-- Step 3: writes of the lane not yet accepted are discarded. -/
def State.dropIssued (s : State) (p l : Nat) : State :=
  { s with fab := { s.fab with writes := s.fab.writes.filter fun w =>
    !(w.phase == .issued && match w.src with
      | .lane a b => a == p && b == l
      | _ => false) } }

/-- Whether the counter run of a context on an engine holds one of the counters lost. -/
def Ctx.holdsLost (x : Ctx) (lost : List Nat) : Bool :=
  match x.image with
  | none => false
  | some im => lost.any fun k => decide (x.engBase ≤ k) && decide (k < x.engBase + im.needs.engineTokens)

/-- Steps 3 to 6 for the partition whose lane `l` the tile carried: the job on the engines ends, and every other job whose
counter run holds a lost counter; what a lost counter holds is open. -/
def State.fenceJobs (s : State) (p l : Nat) (lost : List Nat) : State :=
  let s1 := s.dropIssued p l
  let s2 := match (s1.part p).running with
    | some c => s1.endJob p c stTileFenced
    | none => s1
  let s3 := (List.range 8).foldl (fun t c => if (t.ctx p c).holdsLost lost then t.endAll p c stTileFenced else t) s2
  let (k, s4) := s3.take 64
  lost.foldl (fun t c => t.setCounter p l c ((Config.freeWord (k + c % 64)).truncate 32)) s4

/-- TILE_FENCE: cause 0 control state, 1 corrected rate; `lost` are the counters that read uncorrectable. While a wider event holds
or starts the module it is discarded (R432). -/
def execTileFence (tile cause : Nat) (lost : List Nat) (s : State) : Res :=
  if 68 ≤ tile || s.module.fencedTiles.contains tile || s.module.state != .running then .next s
  else
    let e := s.engineOn tile
    let s1 := { s with module := { s.module with fencedTiles := insertSorted tile s.module.fencedTiles } }
    let s2 := match e with
      | none => s1
      | some k =>
        let t := { s1 with engineMap := Map.set 0 s1.engineMap k 69 }
        match t.ownerOf k with
        | some (p, l) => t.fenceJobs p l lost
        | none => t
    let eng := BitVec.ofNat 8 (e.getD 0xFF)
    let part := match e.bind s.ownerOf with
      | some (p, _) => p
      | none => 0xFF
    let s3 := s2.log tile 0x0103 part ([BitVec.ofNat 8 cause, eng] ++ leBytes 8 (sumNat ((dedup (lost.filter (· < 64))).map (2 ^ ·))))
    .next (s3.notice noticeTileFenced part ([BitVec.ofNat 8 tile, eng] ++ zeros 14))

/-! ### Partition sequencers (R418) -/

/-- SEQUENCER_ERROR: the partition is reset and bound to a fresh sequencer; with none left it is DISABLED. -/
def execSequencerError (part : Nat) (s : State) : Res :=
  match (s.part part).sequencer with
  | none => .next s
  | some k =>
    let s1 := { s with module := { s.module with lostSequencers := insertSorted k s.module.lostSequencers } }
    let s2 := (s1.resetPartition part).modPart part fun q => { q with sequencer := none }
    let s3 := if s2.freeSequencers.isEmpty then s2.enterA2 part else s2.bindSequencer part
    let new := ((s3.part part).sequencer).getD 0xFF
    .next (s3.log 0xFFFF 0x0201 part [BitVec.ofNat 8 k, BitVec.ofNat 8 new])

/-! ### Cupola and Steeple (R421, R422) -/

/-- An uncorrectable error that no record of its own reports is counted in its domain (R410). -/
def State.countBad (s : State) (domain : Nat) : State :=
  s.modLan fun l => { l with log := { l.log with uncorrectable := Map.modify 0 l.log.uncorrectable domain (satAdd 0xFFFFFFFF 1) } }

/-- The image that holds a line of a sensor's ring is damaged: the one in progress, or the latest. -/
def Sensor.damageLine (x : Sensor) (line : Nat) : Sensor :=
  if some (Map.get {} x.ring line).frame != x.seqNo then x
  else if x.inImage then { x with damaged := true }
  else { x with
    lastDamaged := true
    stats := if x.lastDamaged then x.stats else { x.stats with damaged := x.stats.damaged + 1 } }

/-- CUPOLA_MEMORY_ERROR. A damaged configuration is written again from the CP's own copy: nothing changes. -/
def execCupolaMemoryError (part : CupolaPart) (index line : Nat) (s : State) : Res :=
  match part with
  | .ingestRing => .next (if index < 16 then (s.modSensor index fun x => x.damageLine line).countBad 0x07 else s)
  | .groupData =>
    if 4 ≤ index || !(s.group index).started then .next s
    else .next ((s.clearMap index).modGroup index fun x => { x with frame := x.frame.map fun f => { f with lost := f.headerWrite.isNone } })
  | .config => .next (s.countBad 0x08)

/-- Steeple's mesh is read again from its slot and checked; where that fails it is removed as by world.unload (R394, R422). -/
def State.reloadMesh (s : State) : State :=
  let n := s.stp.meshSlot
  let ok := (s.slotCheck n 2 0xFF).isNone && !s.mediaBad n && (s.lan.sigCheck (s.slot n).data 2 0xFF).isNone
  if ok then s.log 0xFFFF 0x0902 0xFF (leBytes 1 2 ++ leBytes 4 s.stp.epoch)
  else
    let t := s.measureSlot 0x0805 n (digest (s.slot n).body)
    t.modStp fun x => { x with mesh := none, meshSlot := 0 }.trigger false none

/-- STEEPLE_MEMORY_ERROR. -/
def execSteepleMemoryError (part : SteeplePart) (index : Nat) (s : State) : Res :=
  let logged := fun (k : Nat) (t : State) => t.log 0xFFFF 0x0901 0xFF (leBytes 1 k ++ leBytes 4 t.stp.epoch)
  match part with
  | .queue => .next (logged 0 (s.modStp fun t => { t with running := t.running.map fun r => { r with lost := true } }))
  | .buffer =>
    if 3 ≤ index then .next s
    else .next (logged 1 (s.modStp fun t =>
      { t with
        buffers := Map.modify {} t.buffers index fun b => { b with bad := true }
        running := t.running.map fun (r : Running) => if r.buffer = index then { r with stale := true } else r }.trigger true none))
  | .mesh =>
    if s.stp.mesh.isNone then .next s
    else .next (logged 2 (s.modStp fun t => { t with running := t.running.map fun r => { r with stale := true } })).reloadMesh

/-! ### CP restarts (R423, R424) -/

/-- CP_HEARTBEAT_TIMEOUT: command processing stops until the restart has taken place. -/
def execCpHeartbeatTimeout (s : State) : Res :=
  .next (if s.host.bar.cpReady then { s with host := { s.host with bar := { s.host.bar with cpRestarting := true } } } else s)

/-- CP_RESTART: commands without an effect yet run again from the journal, completed ones stand: no command's standing changes.
The copy started is measured, but for the switch of an update, whose register step 5 of R405 extends. -/
def execCpRestart (cause : Nat) (s : State) : Res :=
  if !s.host.bar.cpReady then .next s
  else
    let n := satAdd 0xFFFFFFFF s.module.cpRestarts 1
    let again := sumNat (s.host.queues.map fun e => (e.2.cmds.filter fun c => c.phase != .done).length)
    let s1 := { s with
      module := { s.module with cpRestarts := n }
      host := { s.host with bar := { s.host.bar with cpRestarting := false } } }
    let s2 := if cause = 3 then s1 else s1.measure 2 0xFF02 (fit 0 64 (Map.get ({} : Target) s.lan.targets 1).digest)
    .next ((s2.log 0xFFFF 0x0B01 0xFF (leBytes 1 cause ++ leBytes 4 again)).notice noticeCpRestarted 0xFF (leBytes 4 n ++ zeros 12))

/-! ### Partitions at rest (R442) -/

/-- A1_ENTRY: 100 µs with no context on the engines or on its way there; the tiles keep everything. -/
def execA1Entry (part : Nat) (s : State) : Res :=
  let q := s.part part
  let busy := q.ctxs.any fun e => e.2.state == .starting || e.2.state == .running || e.2.state == .stopping
  .next (if busy || q.state != .enabled then s else s.modPart part fun x => { x with low := .a1 })

end Sys2Proof.Machine
end

