-- ==== Sys2Proof/Machine/Defaults.lean ====
section
/-! DEFINITION. Stored defaults: the snapshot that store.defaults_set takes, and its application at a start (R377, R438). -/

namespace Sys2Proof.Machine

/-! ### The snapshot (R377) -/

/-- The configuration record of a partition (R221). -/
def PartCfg.record (c : PartCfg) (p : Nat) : List Byte :=
  leBytes 1 p ++ leBytes 1 c.reserved.toNat ++ leBytes 1 c.tiers ++ zeros 1 ++ leBytes 4 c.quantumUs ++ leBytes 8 c.engineMask ++
  leBytes 4 c.preemptTimeoutUs ++ leBytes 4 c.jobTimeoutMs ++ leBytes 4 c.waitSwitchUs ++ leBytes 4 c.yieldLimit ++
  leBytes 2 c.windowBudget ++ leBytes 2 c.arbClass ++ zeros 4 ++ leBytes 8 c.scratchBytes ++ leBytes 8 c.scratchWeightBytes ++
  leBytes 8 c.ddr5Bytes ++ leBytes 4 c.kvPages ++ zeros 4 ++ leBytes 8 c.nandBytes ++ leBytes 8 c.hostSwapBytes ++
  leBytes 8 c.queueMask ++ zeros 32

/-- A region as it stands, a retired bank's spare in its place: partition, region, mode, near width, seed, banks in order. -/
def Region.record (r : Region) (p i : Nat) : List Byte :=
  leBytes 1 p ++ leBytes 1 i ++ leBytes 1 r.mode ++ leBytes 1 r.nearWidth ++ leBytes 4 r.seed ++ r.banks.flatMap (leBytes 2)

/-- A handle at generation 0 (R438). -/
def restart (h : Nat) : Nat := h - bits h 43 28 * 2 ^ 28

/-- The window that a handle names, to be opened again under its ID: a window of a partition that is open at the handle's
generation. -/
def State.keepWindow (s : State) (h : DWord) : List DefaultCmd :=
  let w := s.win (hWindow h)
  if s.handleOpen h && w.kind == .partition then
    [{ opcode := 0x060A, win := some (hWindow h)
       block := leBytes 1 w.part ++ leBytes 1 w.ddr5.toNat ++ leBytes 1 w.region ++ leBytes 1 w.flags ++ zeros 4 ++ leBytes 8 w.off ++
        leBytes 8 w.len ++ leBytes 1 w.target ++ leBytes 1 w.tokFirst ++ leBytes 2 w.tokCount ++ zeros 4 }]
  else []

/-- The power cap, and behind it the droop threshold. -/
def State.keepPower (s : State) : List DefaultCmd :=
  [{ opcode := 0x0A01, inline := leBytes 2 s.pwr.capW ++ leBytes 2 s.pwr.droopMv }]

def State.keepPartitions (s : State) : List DefaultCmd :=
  let ps := (List.range 16).filter fun p => (s.part p).state != .free
  ps.map (fun p => { opcode := 0x0201, block := (s.part p).cfg.record p }) ++
  ps.map (fun p => { opcode := 0x0205, inline := leBytes 1 p ++ leBytes 1 (s.part p).policy }) ++
  (List.range 16).map (fun p => { opcode := 0x0A02, inline := leBytes 1 p ++ zeros 1 ++ leBytes 2 (s.part p).power.budgetW }) ++
  ps.flatMap (fun p => ((List.range 16).filter fun i => ((s.part p).region i).defined).map fun i =>
    { opcode := 0x0601, block := ((s.part p).region i).record p i }) ++
  (ps.filter fun p => (s.part p).state == .enabled).map fun p => { opcode := 0x0202, inline := leBytes 1 p }

def State.keepArbiters (s : State) : List DefaultCmd :=
  s.arbs.filterMap fun e => e.2.word.map fun w =>
    { opcode := 0x0108, inline := leBytes 1 (e.1 / 65536) ++ zeros 1 ++ leBytes 2 (e.1 % 65536) ++ leBytes 4 w.toNat }

/-- Port configurations of Campanile as their records. -/
def State.keepPorts (s : State) : List DefaultCmd :=
  let recs := (s.cmp.can.map fun e => e.2.record) ++ (s.cmp.spiCs.map fun e => e.2) ++
    (s.cmp.pwm.filter fun e => e.2.nextPeriod != 0).map fun e => leBytes 2 2 ++ leBytes 1 e.1 ++ zeros 5 ++ leBytes 4 e.2.nextPeriod ++ zeros 52
  (recs.filter (!·.isEmpty)).map fun b => { opcode := 0x090B, block := b }

def SpSlot.keep (x : SpSlot) (w : Win) (n : Nat) : DefaultCmd :=
  { opcode := 0x0907, win := some x.win
    inline := leBytes 1 n ++ leBytes 1 x.part ++ leBytes 1 w.region ++ zeros 1 ++ leBytes 4 w.off ++ leBytes 4 x.len ++
      leBytes 1 w.flags ++ zeros 3 ++ leBytes 4 x.timeoutUs }

/-- The coefficient table of a loop. -/
def CLoop.table (x : CLoop) : List Byte :=
  (List.range 64).flatMap fun k => leBytes 4 (Map.get 0 x.coeff k).toNat ++ leBytes 1 (Map.get 0 x.shift k) ++ zeros 3

def State.keepLoops (s : State) : List DefaultCmd :=
  let ls := (List.range 16).filter fun l => !(s.loop l).cfg.isEmpty
  let sps := (List.range 16).filter fun n => (s.spSlot n).isOpen
  let last := (s.cmp.prog.map Prod.fst).foldl max 0
  s.keepPorts ++ sps.map (fun n => (s.spSlot n).keep (s.win (s.spSlot n).win) n) ++ ls.flatMap (fun l => s.keepWindow (cReport (s.loop l).cfg)) ++
  ls.map (fun l =>
    let b := (s.loop l).cfg
    { opcode := 0x0901, block := patch b 0x18 (leBytes 8 (restart (cReport b).toNat)) }) ++
  [{ opcode := 0x0902, inline := zeros 2, block := (Map.getList 0 s.cmp.prog 0 (last + 1)).flatMap fun w => leBytes 8 w.toNat }] ++
  (List.range 16).map (fun l => { opcode := 0x0903, inline := leBytes 1 l, block := (s.loop l).table }) ++
  (ls.filter fun l => (s.loop l).status.started).map fun l => { opcode := 0x0904, inline := leBytes 1 l }

/-- A trigger's record, the one that waits for its period included. -/
def Trigger.record (x : Trigger) (t : Nat) : List Byte :=
  x.next.getD (leBytes 1 t ++ leBytes 1 x.mode ++ leBytes 1 x.count ++ leBytes 1 x.polarity ++ leBytes 4 x.period ++ leBytes 4 x.phase ++
    leBytes 2 x.width ++ leBytes 2 x.spacing)

def State.keepSensors (s : State) : List DefaultCmd :=
  let is := (List.range 16).filter fun i => (s.sensor i).kind != 0xFF
  let gs := (List.range 4).filter fun g => (s.group g).configured
  is.map (fun i => { opcode := 0x0701, block := (s.sensor i).cfg }) ++
  is.flatMap (fun i => (s.sensor i).calibLatest.toList.map fun b => { opcode := 0x0702, block := b }) ++
  s.cup.tables.map (fun e => { opcode := 0x0703, block := e.2 }) ++
  (s.cup.triggers.filter fun e => e.2.period != 0 || e.2.next.isSome).map (fun e => { opcode := 0x0704, block := e.2.record e.1 }) ++
  gs.flatMap (fun g => (List.range 4).flatMap fun k => s.keepWindow ((s.group g).handle k)) ++
  gs.map (fun g =>
    let b := (s.group g).cfg
    { opcode := 0x0707, win := some (s.group g).window
      block := (List.range 4).foldl (fun c k => patch c (0x50 + 8 * k) (leBytes 8 (restart (u64 b (0x50 + 8 * k))))) b }) ++
  (gs.filter fun g => (s.group g).started).map fun g => { opcode := 0x0708, inline := leBytes 1 g }

def State.keepWorld (s : State) : List DefaultCmd :=
  let t := s.stp
  [{ opcode := 0x0801, inline := leBytes 4 t.cell ++ (fit 0 2 t.origin).flatMap (fun w => leBytes 4 w.toNat) ++ leBytes 1 t.modes }] ++
  t.machines.map (fun e => { opcode := 0x0806, inline := leBytes 1 e.1 ++ leBytes 1 (e.2.length / 16), block := e.2 }) ++
  (t.lattices.filter fun e => e.2.set).map fun e => { opcode := 0x0807, block := e.2.header ++ e.2.prims.flatMap id }

def State.keepFabric (s : State) : List DefaultCmd :=
  (if s.huv.devId = 0xFFFF then [] else [{ opcode := 0x060C, inline := leBytes 2 s.huv.devId }]) ++
  [{ opcode := 0x060D, block := s.huv.routes.flatMap fun e => leBytes 1 (e.1 / 65536) ++ leBytes 1 e.2 ++ leBytes 2 (e.1 % 65536) }]

/-- The settings of a class. -/
def State.keepClass (s : State) (k : Nat) : List DefaultCmd :=
  if k = 0 then s.keepPower else if k = 1 then s.keepPartitions else if k = 2 then s.keepArbiters else if k = 3 then s.keepLoops
  else if k = 4 then s.keepSensors else if k = 5 then s.keepWorld else s.keepFabric

/-- store.defaults_set: the stored defaults are the settings of the selected classes, and no others; how many bytes their
objects take is open. -/
def State.defaultsSet (s : State) (inl _b : List Byte) : Done :=
  let mask := u64 inl 0
  if 128 ≤ mask then .refuse rcStoreMalformed
  else if mask != 0 && s.store.freeStripes == 0 then .refuse rcStoreFull
  else
    let ks := (List.range 7).filter mask.testBit
    let (n, s1) := s.take 1
    .ok 0 (s1.modStore fun x => { x.program (if mask = 0 then 0 else Config.freeNat n) with
      defaults := ks.foldl (fun m k => Map.insert m k (s.keepClass k)) [] })

def execStoreDefaultsSet (q : Nat) (s : State) : Res := .next (s.serveArgs q 0x0B07 State.defaultsSet)

/-! ### Application (R438) -/

/-- A setting refused at apply is left out. -/
def Done.kept (d : Done) (s : State) : State :=
  match d with
  | .refuse _ => s
  | .refuseWith _ t => t
  | .ok _ t => t
  | .empty t => t
  | .data _ _ t => t
  | .ends _ t => t
  | .runs t => t
  | .stay => s
  | .waits t => t

/-- A region takes its banks again, if all are in service and free and their partition takes regions (R91). -/
def State.restoreRegion (s : State) (b : List Byte) : State :=
  let p := u8 b 0
  let banks := (List.range ((b.length - 8) / 2)).map fun k => u16 b (8 + 2 * k)
  let r : Region := { defined := true, mode := u8 b 2, nearWidth := u8 b 3, seed := u32 b 4, banks := banks }
  if (s.part p).state != .disabled || (banks.any fun k => (s.bank k).state != .inService || (s.bankOwner k).isSome) then s
  else
    let s1 := banks.foldl (fun t k => t.modBank k fun x => { x with retention := true, awake := false }) s
    s1.modPart p fun q => { q with regions := Map.set {} q.regions (u8 b 1) r }

/-- Whether the partitions whose windows a loop uses are enabled. -/
def State.loopReady (s : State) (l : Nat) : Bool :=
  let b := (s.loop l).cfg
  let wins := (if cReport b = 0 then [] else [(s.win (hWindow (cReport b))).part]) ++ (lawWords (s.programOf b)).map fun e => (s.spSlot e.1).part
  wins.all fun p => (s.part p).state == .enabled

/-- A group, or a loop, starts again where the partitions it depends on are enabled. -/
def State.restartGroup (s : State) (g : Nat) : State :=
  if (s.group g).configured && (s.part (s.group g).part).state == .enabled then s.startGroup g else s
def State.restartLoop (s : State) (l : Nat) : State :=
  if (s.startCheck l).isNone && s.loopReady l then s.startLoop l else s

/-- A world configuration takes its place and is published. -/
def State.restoreWorld (s : State) (l : List Byte) : State :=
  if worldBad l then s else s.modStp fun t => (t.setWorld l).trigger false none

/-- A port record of Campanile. -/
def State.restorePort (s : State) (b : List Byte) : State :=
  (if u8 b 0 = 0 then s.canConfigure b else if u8 b 0 = 1 then s.spiConfigure b else s.pwmConfigure b).kept s

/-- The droop threshold, as Lantern sets it from the stored power defaults when it starts (R345). -/
def State.setDroop (s : State) (mv : Nat) : State := { s with pwr := { s.pwr with droopMv := mv } }

/-- One setting is applied as its command would. -/
def State.applyDefault (s : State) (d : DefaultCmd) : State :=
  let l := fit 0 32 d.inline
  let b := d.block
  match d.opcode with
  | 0x060C => (s.setId (u16 l 0)).kept s
  | 0x060D => (s.setRoutes l b).kept s
  | 0x0108 => (s.configureArbiter l b).kept s
  | 0x0A01 => ((s.setDroop (u16 l 2)).capSet l b).kept (s.setDroop (u16 l 2))
  | 0x0201 => (s.configurePartition l b).kept s
  | 0x0205 => s.modPart (u8 l 0) fun x => { x with policy := u8 l 1 }
  | 0x0A02 => (s.budgetSet l b).kept s
  | 0x0601 => s.restoreRegion b
  | 0x0202 => (s.enablePartition l b).kept s
  | 0x0801 => s.restoreWorld l
  | 0x0806 => (s.planMachine l b).kept s
  | 0x0807 => (s.planLattice l b).kept s
  | 0x0701 => (s.sensorConfigure l b).kept s
  | 0x0702 => (s.sensorCalibrate l b).kept s
  | 0x0703 => (s.parseTable l b).kept s
  | 0x0704 => (s.sensorTrigger l b).kept s
  | 0x060A => (s.windowOpen d.win b).kept s
  | 0x0707 => (s.groupConfigure d.win b).kept s
  | 0x0708 => s.restartGroup (u8 l 0)
  | 0x090B => s.restorePort b
  | 0x0907 => (s.spOpen d.win l).kept s
  | 0x0901 => (s.loopConfigure l b).kept s
  | 0x0902 => (s.loopProgram l b).kept s
  | 0x0903 => s.modLoop (u8 l 0) fun x => x.install b
  | 0x0904 => s.restartLoop (u8 l 0)
  | _ => s

/-- The order in which the classes are applied. -/
def applyOrder : List Nat := [6, 2, 0, 1, 5, 4, 3]

/-- The stored defaults are applied. -/
def State.applyDefaults (s : State) : State :=
  applyOrder.foldl (fun t k => (Map.get [] s.store.defaults k).foldl State.applyDefault t) s

end Sys2Proof.Machine
end

