-- ==== Sys2Proof/Machine/LSlot.lean ====
section
/-! DEFINITION. The L0 and L1 slots of an engine lane: LDT, LDL, LDV and MVT, and the return of their reads
(R46, R74, R96). -/

namespace Sys2Proof.Machine

/-! ### Fields of the L slot (R74) -/

def lOp (w : DWord) : Nat := bits w.toNat 63 60
def lAreg (w : DWord) : Nat := bits w.toNat 59 56
def lDst (w : DWord) : Nat := bits w.toNat 55 45
def lCount (w : DWord) : Nat := bits w.toNat 44 37 + 1
def lOff (w : DWord) : DWord := (w.extractLsb' 0 32).signExtend 64
/-- L0 is slot 1 of the lane word, L1 slot 2. -/
def lSlot (second : Bool) : Nat := if second then 2 else 1

/-- Whether a unit of the destination run has a write in flight, or an issued operation has not finished reading it (R46). A
vector register that another slot of the lane word loads is no bar: the later slot's result stands. -/
def State.destBusy (s : State) (i : Issue) (k : RKind) (w : DWord) : Bool :=
  let d := run (lDst w) (lCount w)
  match k with
  | .ldt => meet d (s.slotsInFlight i.part i.lane) || meet d (s.tileAt i.part i.lane).slotsRead
  | .ldl => meet d (s.unitsInFlight i.part i.lane) || meet d (s.tileAt i.part i.lane).unitsRead
  | .ldv => meet d (s.regsInFlight i.part i.lane)

/-- A read on its way. -/
def State.addRead (s : State) (r : Read) : State := { s with fab := { s.fab with reads := s.fab.reads ++ [r] } }

/-- A load is issued: its lines come back with SCRATCHPAD_READ_RETURN. -/
def State.issueRead (s : State) (i : Issue) (k : RKind) (w : DWord) : State :=
  let addr := (s.lx i (lAreg w) + lOff w).toNat
  if addr % k.align != 0 || !(s.part i.part).inRegion addr (k.unit * lCount w) then s.addrFault i.part i.lane
  else
    let (n, s1) := s.newId
    let r : Read :=
      { id := n, kind := k, part := i.part, lane := i.lane, addr := BitVec.ofNat 64 addr, dst := lDst w, count := lCount w }
    match k with
    | .ldt => (s1.addRead r).modTileAt i.part i.lane fun t => t.startSlots (run (lDst w) (lCount w))
    | .ldl => s1.addRead r
    | .ldv => ((s1.supersede i.part i.lane (run (lDst w) (lCount w))).addRead r).modLane i.part i.lane fun x =>
        { x with iss := { x.iss with rNew := n :: x.iss.rNew } }

/-- A load slot of an engine lane. -/
def State.loadSlot (s : State) (i : Issue) (second : Bool) (k : RKind) (w : DWord) : State :=
  s.onSlot i (lSlot second) [lAreg w] (fun t => t.destBusy i k w) fun t => t.issueRead i k w

def execLdt (i : Issue) (second : Bool) (w : DWord) (s : State) : Res :=
  slotRes (lOp w == 0 && i.lane != 255) "LDT" (s.loadSlot i second .ldt w)

def execLdl (i : Issue) (second : Bool) (w : DWord) (s : State) : Res :=
  slotRes (lOp w == 1 && i.lane != 255) "LDL" (s.loadSlot i second .ldl w)

def execLdv (i : Issue) (second : Bool) (w : DWord) (s : State) : Res :=
  slotRes (lOp w == 2 && i.lane != 255) "LDV" (s.loadSlot i second .ldv w)

/-- Slots copied in slot order, each from the tile as the copies before it left it. -/
def Tile.moveSlots : Nat → Tile → Nat → Nat → Tile
  | 0, t, _, _ => t
  | n + 1, t, src, dst => Tile.moveSlots n (t.writeSlot dst 0 (t.readSlot src) (t.slotBad src)) (src + 1) (dst + 1)

/-- MVT: OFFSET [9:0] is the first source slot. -/
def State.moveSlots (s : State) (i : Issue) (w : DWord) : State :=
  let src := bits w.toNat 9 0
  let bad := (run src (lCount w)).any (s.tileAt i.part i.lane).slotBad
  let s1 := s.modTileAt i.part i.lane fun t => t.moveSlots (lCount w) src (lDst w)
  if bad then s1.setAsw i.part i.lane 32 else s1

def execMvt (i : Issue) (second : Bool) (w : DWord) (s : State) : Res :=
  slotRes (lOp w == 3 && i.lane != 255) "MVT"
    (s.onSlot i (lSlot second) [] (fun t =>
        meet (run (bits w.toNat 9 0) (lCount w) ++ run (lDst w) (lCount w)) (t.slotsInFlight i.part i.lane) ||
        meet (run (lDst w) (lCount w)) (t.tileAt i.part i.lane).slotsRead)
      fun t => t.moveSlots i w)

/-- Unit `k` of a returning read is written at its destination with its poison. -/
def State.landUnit (s : State) (r : Read) (k : Nat) : State :=
  let n := r.kind.unit
  let a := r.addr.toNat + n * k
  let b := s.readBytes r.part a n
  let bad := s.anyPoison r.part a n
  match r.kind with
  | .ldt => s.modTileAt r.part r.lane fun t => t.writeSlot (r.dst + k) 0 b bad
  | .ldl => s.modTileAt r.part r.lane fun t => t.writeUnit (r.dst + k) b bad
  | .ldv => if r.skip.contains (r.dst + k) then s else s.modLane r.part r.lane fun x => { x with arch := x.arch.writeV (r.dst + k) (bytesWords 64 b) bad }

/-- SCRATCHPAD_READ_RETURN: the lines of a read arrive at the lane, behind the lane's earlier writes to them (R97). A read of
poisoned lines sets POISON_SEEN (R60); an LDV of the present step returns after it (R64). -/
def execScratchpadReadReturn (id : Nat) (s : State) : Res :=
  match s.fab.reads.find? (·.id == id) with
  | none => .next s
  | some r =>
    if (s.lane r.part r.lane).iss.rNew.contains id || !s.readTurn r then .next s
    else
      let n := r.kind.unit * r.count
      let s1 := s.flushRun r.part r.addr.toNat n
      let bad := s1.anyPoison r.part r.addr.toNat n
      let s2 := { s1 with fab := { s1.fab with reads := s1.fab.reads.filter (·.id != id) } }
      let s3 := (List.range r.count).foldl (fun t k => t.landUnit r k) s2
      .next (if bad then s3.setAsw r.part r.lane 32 else s3)

end Sys2Proof.Machine
end

