-- ==== Sys2Proof/Machine/MSlot.lean ====
section
/-! DEFINITION. The M slot of an engine lane and the write of its accumulator rows (R44 to R46). -/

namespace Sys2Proof.Machine

/-- A matrix operation is issued: its rows await their write, what it reads is being read until then, its flags enter the
ASW. -/
def State.issueMatrix (s : State) (i : Issue) (reads : List Nat × List Nat) (f : Tile → Nat → MRes) (free : Nat) : State :=
  let (n, s1) := s.take free
  let r := f (s.tileAt i.part i.lane) n
  (s1.modTileAt i.part i.lane fun t => { t.startReads reads.1 reads.2 with accPend := t.accPend ++ r.rows }).setAsw i.part
    i.lane r.flags

/-- Operand slots and units a MATMUL reads (R46). -/
def MOp.reads (o : MOp) : List Nat × List Nat :=
  let n := o.rowBytes
  let m := if o.wino = 1 then 2 else 4
  let w := (List.range 16).flatMap fun a => run (o.wbase + a * o.wstride) (if is16 o.wfmt then 2 else 1)
  let starts := if o.wino = 0 then (List.range o.kg) else List.range (m + 2)
  let pixels := if o.wino = 0 then o.rows else m * o.rows + 2
  let unitRun := starts.flatMap fun g => run (o.abase + g * o.astride) (ceilDiv (n * pixels) 64)
  let slotRun := starts.flatMap fun g =>
    run (o.abase + g * o.astride) (if o.wino = 0 then ceilDiv pixels 16 * (n / 16) else ceilDiv (n * pixels) 256)
  if o.line then (w, unitRun) else (w ++ slotRun, [])

/-- Accumulator rows a MATMUL writes (R44, R56, R74). -/
def MOp.accRows (o : MOp) : List Nat :=
  if o.wino = 0 then run o.accBase (o.ng * o.rows)
  else if o.wino = 1 then run o.accBase (4 * o.rows)
  else (List.range o.rows).flatMap fun x => run (o.accBase + 36 * x + o.posBase) (min 16 (36 - o.posBase))

/-- A matrix operation that reads accumulator rows `rd` and writes rows `wr` waits for the reads while a write to them is in
flight, and for the writes while a vector write to them, issued before, is (R46). -/
def State.accHeld (s : State) (i : Issue) (rd wr : List Nat) : Bool :=
  meet rd (s.accInFlight i.part i.lane) || meet wr ((s.lane i.part i.lane).iss.pendMem 0)

/-- The operation waits for operand slots, units and accumulator rows with a write in flight (R46); with START = 0 it reads
the rows it adds to. -/
def State.matrixHeld (s : State) (i : Issue) (o : MOp) : Bool :=
  let (sl, un) := o.reads
  meet sl (s.slotsInFlight i.part i.lane) || meet un (s.unitsInFlight i.part i.lane) ||
  s.accHeld i (if o.start then [] else o.accRows) o.accRows

/-- WINO_OUT reads the 36 position rows of each tile and writes its 16 output rows (R56). -/
def State.winoOutHeld (s : State) (i : Issue) (o : MOp) : Bool :=
  s.accHeld i (run o.accBase (36 * o.rows)) (run o.abase (16 * o.rows))

def execMatmul (i : Issue) (w : BitVec 96) (s : State) : Res :=
  let o := mDecode w
  slotRes (bits w.toNat 95 92 == 0 && i.lane != 255) "MATMUL"
    (s.onSlot i 3 [] (fun t => t.matrixHeld i o) fun t =>
      if o.wino = 0 then t.issueMatrix i o.reads (fun x n => x.direct o n) (16 * o.ng * o.rows)
      else if o.wino = 1 then t.issueMatrix i o.reads (fun x n => x.wino2 o n) (wFree * 16 * o.rows + 64 * o.rows)
      else t.issueMatrix i o.reads (fun x n => x.wino4 o n) (wFree * 36 * o.rows + 576 * o.rows))

def execWinoOut (i : Issue) (w : BitVec 96) (s : State) : Res :=
  let o := mDecode w
  slotRes (bits w.toNat 95 92 == 1 && i.lane != 255) "WINO_OUT"
    (s.onSlot i 3 [] (fun t => t.winoOutHeld i o) fun t =>
      t.issueMatrix i ([], []) (fun x n => x.winoOut o n) (256 * o.rows))

/-- ACCUMULATOR_WRITE: the rows of the lane's issued matrix operations are written in order, and what they read is free to be
written again. -/
def execAccumulatorWrite (part lane : Nat) (s : State) : Res :=
  .next (s.modTileAt part lane fun t => { (t.accPend.foldl Tile.writeAcc t).endReads with accPend := [] })

end Sys2Proof.Machine
end

