-- ==== Sys2Proof/Machine/Resets.lean ====
section
/-! DEFINITION. Resets and starts of the module, life-cycle transitions, and Lantern's restarts (R380, R382, R388 to R390,
R397, R408, R431 to R440, R444, R445). -/

namespace Sys2Proof.Machine

/-! ### What an event leaves (R433, R444) -/

/-- The module's outputs as they stand while it is held: SAFE lines low, PWM outputs inactive; CAN ports send nothing. -/
def State.outputsOff (s : State) : State :=
  let s1 := if s.cmp.safeA || s.cmp.safeB then s.emit (.safe false false) else s
  (s1.cmp.pwm.filter fun e => e.2.duty != 0).foldl (fun t e => t.emit (.pwm e.1 0 e.2.period)) s1

/-- Lantern's part: keys of volatile things, statistics and MR5 to MR7 go; walks over the NAND stay (R386). -/
def Lantern.kept (l : Lantern) : Lantern :=
  { l with
    update := none, microcode := [], failedTests := 0
    mrs := [5, 6, 7].foldl (fun m k => Map.set [] m k []) l.mrs
    walks := l.walks.filter fun w => w.cls == 3 || w.cls == 4
    log := { l.log with corrected := [], uncorrectable := [], gathers := [], jobsPoisoned := 0, jobsFenced := 0 } }

/-- DDR5: page repairs stay, contents and keys go; a fenced sub-channel stays fenced until it is retrained (R419, R439). -/
def Ddr.kept (d : Ddr) : Ddr :=
  { pages := d.pages.foldl (fun m e => Map.set {} m e.1 { spare := e.2.spare, fenced := e.2.fenced }) []
    subs := d.subs.foldl (fun m e => Map.set {} m e.1 { fenced := e.2.fenced }) []
    sparesUsed := d.sparesUsed, withdrawn := d.withdrawn, nextKey := d.nextKey }

/-- Power: readings stay; limits, ceilings and counters start afresh, under the interlock (R351). -/
def Power.kept (w : Power) : Power :=
  { mainMv := w.mainMv, auxMw := w.auxMw, flowOk := w.flowOk, tj := w.tj, junctionAlert := w.junctionAlert, inlet := w.inlet
    outlet := w.outlet, humidity := w.humidity }

/-- What every event that stops the base dies leaves (R444): settings, contents, sessions and jobs are gone; permanent repairs,
the store, and Lantern's records stay. -/
def State.wiped (s : State) : State :=
  { pending := s.pending, out := s.out, module := s.module, engineMap := s.engineMap, store := s.store
    clk := { s.clk with cp := 0 }
    sp := { banks := s.sp.banks.foldl (fun m e => Map.set {} m e.1 { state := e.2.state }) [] }
    ddr := s.ddr.kept, pwr := s.pwr.kept, lan := s.lan.kept }

/-- The module stops and stands in a state. -/
def State.stopModule (s : State) (st : ModState) (cause : StartCause) : State :=
  let t := s.outputsOff.wiped
  { t with module := { t.module with state := st, cause := cause, wake := false } }

/-- ALERT_N is deasserted. -/
def State.clearAlert (s : State) : State :=
  let t := { s with pwr := { s.pwr with junctionAlert := false } }
  if t.module.alert then { t with module := { t.module with alert := false } }.emit (.alert false) else t

/-! ### Reset events (R431 to R435) -/

/-- What a reset of the ROM's scope ends: an unlocked debug port, ROM hold, a held M1. -/
def State.freshRom (s : State) : State :=
  { s with module := { s.module with m1Held := false }, lan := { s.lan with romHold := false, debugPort := {} } }

/-- AUX_LOSS: the module is OFF, and what Lantern had queued for the log is lost with its power. -/
def execAuxLoss (s : State) : Res :=
  if s.module.state = .off then .next s
  else
    let t := (s.stopModule .off .por).clearAlert
    .next ({ t with pwr := {}, lan := { t.lan with log := { t.lan.log with queue := [] } } }.emit (.regulators false))

/-- POR: the module starts from nothing, or is held while MRST_N stands asserted (R433); Lantern's counter goes on from the
newest record (R445); SLOT_ID0 and SLOT_ID1 are sampled (R457). -/
def execPor (s : State) : Res :=
  let t := ((s.stopModule (if s.module.mrst then .held else .starting) .por).clearAlert).freshRom
  let mono := match t.lan.log.ring.getLast? with
    | some e => BitVec.ofNat 64 (e.entry.stamp + 1)
    | none => t.lan.monotonic
  .next { t with
    pwr := {}, lan := { t.lan with mrs := [], monotonic := mono }, module := { t.module with slotId := s.module.slotPins % 4 } }

/-- MAIN_LOSS: the module enters M2, a held one too (R432); one that is OFF goes on so. -/
def execMainLoss (s : State) : Res :=
  if s.module.state = .off || s.module.state = .m2 then .next s
  else .next ((s.stopModule .m2 .m2).emit (.regulators false))

/-- What MRST_N asserted does to the module (R433). -/
def State.hold (s : State) : State := (s.stopModule .held .mrst).clearAlert.freshRom

/-- MAIN_RETURN: M2 ends; the module is held while MRST_N stands asserted or the ROM holds it (R397, R433), else it
starts. -/
def execMainReturn (s : State) : Res :=
  if s.module.state != .m2 then .next s
  else if s.module.mrst then .next s.hold
  else .next { s with module := { s.module with state := if s.lan.romHold then .held else .starting } }

/-- One hour of the always-on 25 MHz clock. -/
def monotonicHour : Nat := 25000000 * 3600

/-- Ends of M1 within the last hour. -/
def State.recentExits (s : State) : List Nat := s.module.m1Exits.filter fun t => decide (s.lan.monotonic.toNat < t + monotonicHour)

/-- M1_TRIP: the module enters M1 and logs it; after a third exit within the hour it stays there. -/
def execM1Trip (s : State) : Res :=
  if s.module.state != .running && s.module.state != .starting then .next s
  else
    let held := decide (3 ≤ s.recentExits.length)
    let t := (s.stopModule .m1 .m1).emit (.regulators false)
    .next ({ t with module := { t.module with m1Held := held } }.log 0xFFFF 0x0D02 0xFF (leBytes 1 2))

/-- M1_EXIT. -/
def execM1Exit (s : State) : Res :=
  if s.module.state != .m1 || s.module.m1Held then .next s
  else .next { s with module := { s.module with state := .starting, m1Exits := s.recentExits ++ [s.lan.monotonic.toNat] } }

/-- MRST_N_ASSERT: the module is held, in M1 too; OFF and M2 rank above it, and the level then acts as they end
(R432, R433). -/
def execMrstNAssert (s : State) : Res :=
  let t := { s with module := { s.module with mrst := true } }
  if s.module.state = .off || s.module.state = .m2 then .next t else .next t.hold

/-- MRST_N_RELEASE: the start of a held module begins, but not out of ROM hold; SLOT_ID0 and SLOT_ID1 are sampled (R457). -/
def execMrstNRelease (s : State) : Res :=
  let go := s.module.state = .held && !s.lan.romHold
  .next { s with module := { s.module with
    mrst := false, state := if go then .starting else s.module.state, slotId := s.module.slotPins % 4 } }

/-! ### Life-cycle transitions (R388 to R390, R408) -/

/-- The key that signs a transition of R388; none where the table has no such transition. -/
def Lantern.transitionKey (l : Lantern) (life : Life) (b : List Byte) : Option (List Byte) :=
  match l.life, life with
  | .provisioned, .owned => some (slice b 0x40 1793)
  | .owned, .service => some l.root
  | .service, .owned => some l.root
  | .owned, .provisioned => some l.root
  | .service, .provisioned => some l.root
  | .owned, .retired => some l.root
  | .service, .retired => some l.root
  | .provisioned, .retired => some (tithenKey 0xF4)
  | _, _ => none

/-- A life-cycle state from its DEV_STATUS encoding. -/
def lifeOf (k : Nat) : Life := nth .retired [.blank, .provisioned, .owned, .service] k

/-- An authorisation record's field out of range; `newRoot` where it carries a root. -/
def authBad (l : Lantern) (b : List Byte) (newRoot : Bool) : Bool :=
  u32 b 0 != 0x5541434C || decide (1 < u8 b 4) || decide (4 < u8 b 5) || u32 b 8 != l.lcCount || u32 b 0x0C != 0 ||
  slice b 0x10 16 != serial || !allZero b 0x20 32 || (!newRoot && !allZero b 0x40 1793) || !allZero b 0x741 63 ||
  (if u8 b 4 = 0 then u16 b 6 != 0 else decide (3 < u16 b 6) || u8 b 5 != 3)

/-- The signature of an authorisation record. -/
def authSigned (key b : List Byte) : Bool := signedBy key (b.take 0x780) (slice b 0x780 1280)

/-- Step 2 of R390: the transition is PENDING and one LC_COUNT fuse is burned. -/
def State.pend (s : State) (life : Life) (root : List Byte) (scope : Nat) : State :=
  (s.modLan fun l => { l with pending := some (life, root, scope), lcCount := l.lcCount + 1 }).seal

/-- sec.lifecycle with TYPE 0. -/
def State.lifecycle (s : State) (_inl b : List Byte) : Done :=
  let life := lifeOf (u8 b 5)
  let root := s.lan.life == .provisioned && life == .owned
  let key := s.lan.transitionKey life b
  match firstFail [
    (authBad s.lan b root, rcSecurityMalformed),
    (key.isNone, rcLifecycle),
    (!(key.any fun k => authSigned k b), rcSignature)] with
  | some code => .refuse code
  | none => .ok 0 (s.pend life (if root then slice b 0x40 1793 else s.lan.root) 0)

/-- sec.lifecycle with TYPE 1, in SERVICE and signed by the Tithen service key: the debug port opens after a wipe. -/
def State.debugUnlock (s : State) (_inl b : List Byte) : Done :=
  match firstFail [
    (authBad s.lan b false, rcSecurityMalformed),
    (s.lan.life != .service, rcLifecycle),
    (!authSigned (tithenKey 0xF4) b, rcKeyUnknown)] with
  | some code => .refuse code
  | none => .ok 0 (s.pend .service s.lan.root (u16 b 6 + 4))

/-- The completions that may be posted are posted; `fuel` bounds them. -/
def State.postAll (q : Nat) : Nat → State → State
  | 0, s => s
  | fuel + 1, s => match s.nextPost q with
    | none => s
    | some c => State.postAll q fuel ((s.stopQueue q c).postEntry q c)

/-- Steps 2 to 4: once a transition is PENDING its completion is posted, and the module resets as by MRST_N. -/
def State.afterPending (s t : State) (q : Nat) : State :=
  if t.lan.pending.isSome && s.lan.pending.isNone then
    (((State.postAll q (t.queue q).cmds.length t).stopModule .starting .mrst).clearAlert).freshRom
  else t

def execSecLifecycle (q : Nat) (s : State) : Res :=
  .next (s.afterPending (s.serve q 0x0C05 (fun c => recordType c != 1) fun t c => t.lifecycle c.inl c.blk) q)
def execSecDebugUnlock (q : Nat) (s : State) : Res :=
  .next (s.afterPending (s.serve q 0x0C05 (fun c => recordType c == 1) fun t c => t.debugUnlock c.inl c.blk) q)

/-- Step 5 of R390: the store is empty, the owner's keys and policy are as the target requires, and the state is ACTIVE; an
unlock's scope opens the port (R408). -/
def State.completeTransition (s : State) : State :=
  match s.lan.pending with
  | none => s
  | some (life, root, scope) =>
    let from_ := s.lan.life
    let stays := life == .owned || life == .service
    let keep := stays && from_ != .provisioned
    let s1 := s.modLan fun l => { l with
      pending := none, life := life, walks := [], root := if stays then root else []
      keys := if keep then l.keys else [], policy := if keep then l.policy else {}, debugPort := { unlocked := scope % 4 } }
    let n := s1.lan.nextKey
    let fresh := (List.range 18).foldl (fun m k => Map.set 0 m k (n + k)) []
    let s2 := (s1.modLan fun l => { l with nextKey := n + 18, storeKeys := fresh }).seal.modStore fun x =>
      { x with slots := [], objects := [], defaults := [], mediaBad := [] }
    (s2.log 0xFFFF 0x0C03 0xFF ([BitVec.ofNat 8 from_.code, BitVec.ofNat 8 life.code] ++ leBytes 4 s.lan.lcCount)).measureLife 0x0C05

/-! ### The start (R397, R436, R437) -/

/-- SVN fuses that lag the active copies are burned (R397 step 2). -/
def Lantern.burn (l : Lantern) : Lantern :=
  { l with targets := l.targets.map fun e => (e.1, { e.2 with floor := max e.2.floor e.2.svn }) }

/-- The copy of a target that starts (R397): the active one, else the other; a copy that comes back damaged, or whose SVN is below the
floor, is not started. None where neither can be. -/
def State.starts (s : State) (k : Nat) : Option FwCopy :=
  let t : Target := Map.get {} s.lan.targets k
  if !s.mediaBad (copyId k t.region) && decide (t.floor ≤ t.svn) then some ⟨t.svn, t.digest⟩
  else if !s.mediaBad (copyId k (1 - t.region)) && decide (t.floor ≤ t.other.svn) then some t.other
  else none

/-- The digest of the copy of a target that starts. -/
def State.startDigest (s : State) (k : Nat) : List Byte := fit 0 64 (((s.starts k).map (·.digest)).getD [])

/-- Whether every target that a start starts anew has a copy to start: Lantern's after POR and MRST_N, the CP's and the microcode
after every event (R397, R436). -/
def State.canStart (s : State) : Bool :=
  (s.module.cause == .m1 || s.module.cause == .m2 || (s.starts 0).isSome) && (s.starts 1).isSome && (s.starts 2).isSome

/-- Boot measurements (R398): the ROM and Lantern's copy where they run anew, the CP's copy, the microcode, the life cycle. -/
def State.measureBoot (s : State) : State :=
  let s1 := if s.module.cause = .por || s.module.cause = .mrst then
      (s.measure 0 0xFF00 romDigest).measure 1 0xFF01 (s.startDigest 0)
    else s
  ((s1.measure 2 0xFF02 (s.startDigest 1)).measure 3 0xFF03 (s.startDigest 2)).measureLife 0xFF04

/-- Step 2 of R436: a pending transition completes, and lagging fuses are burned. -/
def State.preBoot (s : State) : State := s.wiped.completeTransition.modLan fun l => { l.burn with boots := l.boots + 1 }

/-- Steps 3 to 7 of R436: copies are measured, DDR5 is trained anew but after
M1, and a slot found WRITING is erased (R367). -/
def State.boot (s : State) : State :=
  let s2 := s.measureBoot.modStore fun x =>
    { x with slots := x.slots.filter fun e => e.2.state != 1, mediaBad := x.mediaBad.filter (4096 < ·) }
  { s2 with
    ddr := if s.module.cause = .m1 then s2.ddr else { s2.ddr with subs := [] }
    huv := { s2.huv with ports := (List.range 4).foldl (fun m h => Map.set {} m h { state := .training, laneMask := 0xFF }) [] } }

/-- Step 1 of R436, after POR and MRST_N: the ROM reads the vault. None where neither copy authenticates. -/
def State.readVault (s : State) : Option State :=
  if s.module.cause = .por || s.module.cause = .mrst then s.vault.map fun v => s.modLan fun l => l.unseal v.secrets else some s

/-- The module goes to ROM hold at its start (R397): nothing is powered, and ALERT_N is asserted. -/
def State.holdInRom (s : State) : State := ((s.stopModule .held .por).modLan fun l => { l with romHold := true }).setAlert

/-- START: the CP applies the stored defaults and sets CP_READY; WAKE_N is asserted. Without a vault (R385), or without a
copy of a target to start (R397), the module stays in ROM hold. -/
def execModuleStart (s0 : State) : Res :=
  if s0.module.state != .starting then .next s0
  else match s0.readVault with
  | none => .next s0.holdInRom
  | some s =>
    let u := s.preBoot
    if !u.canStart then .next u.holdInRom
    else
      let t := u.boot.applyDefaults
      .next ({ t with
        module := { t.module with state := .running, wake := true }
        host := { t.host with bar := { t.host.bar with cpReady := true } } }.setAlert)

/-! ### Lantern's restarts (R380, R382, R397) -/

/-- ROM hold out of a running module (R26, R397): the CP is in reset and the compute dies lose their power with what their tiles
hold; the base dies run on, and what moves there goes on; ALERT_N is asserted. -/
def State.enterRomHold (s : State) : State :=
  ({ s with
    tiles := []
    fab := { s.fab with reads := s.fab.reads.filter fun r => r.lane == 255 }
    host := { s.host with bar := { s.host.bar with cpReady := false } }
    lan := { s.lan with romHold := true } }).setAlert

/-- The pair restarts: counted and logged; the restarted firmware extends MR1 with its digest. After three restarts in a row
for failed tests Lantern stays in ROM hold. -/
def State.restartLantern (s : State) (cause : Nat) : State :=
  let failed := if cause = 1 then s.lan.failedTests + 1 else 0
  let s1 := (s.modLan fun l => { l with restarts := satAdd 0xFFFFFFFF l.restarts 1, failedTests := failed }).log 0xFFFF 0x0C01 0xFF
    [BitVec.ofNat 8 cause]
  if 3 ≤ failed then (if s.module.state = .running then s1.enterRomHold else s1.holdInRom)
  else s1.measure 1 0xFF01 (s.startDigest 0)

/-- Lantern runs its firmware. -/
def State.lanternUp (s : State) : Bool := s.module.state != .off && s.module.state != .held && !s.lan.romHold

/-- LANTERN_RESTART: cause 0 lockstep, 1 known-answer test. -/
def execLanternRestart (cause : Nat) (s : State) : Res := .next (if s.lanternUp then s.restartLantern (cause % 2) else s)

/-- LANTERN_WATCHDOG_EXPIRY. -/
def execLanternWatchdogExpiry (s : State) : Res := .next (if s.lanternUp then s.restartLantern 3 else s)

/-- ENTROPY_TIMEOUT. -/
def execEntropyTimeout (s : State) : Res := .next (if s.lanternUp then s.restartLantern 2 else s)

/-! ### MGT (R409, R457) -/

/-- The static address that MGT answers at. -/
def State.mgtAddress (s : State) : Nat := 0x30 + s.module.slotId % 4

/-- The MGT map, byte by byte: IDENT, STATE, ALERT, TJ_MAX, MAIN_MW, FLOW. -/
def State.mgtMap (s : State) : List Byte :=
  let w := s.pwr
  let st := s.lan.life.code + 8 * s.debugOpen.toNat + 16 * s.lan.romHold.toNat + 32 * s.cpUp.toNat
  let alert := w.junctionAlert.toNat + 2 * (w.interlock && w.flowLost).toNat + 4 * (w.rails.any fun r => !r.2.force.isEmpty).toNat +
    8 * (s.ddr.chans.any fun c => c.2.alert).toNat + 16 * s.lan.romHold.toNat
  let hot : Int := match w.tj with
    | [] => 0
    | t :: ts => ts.foldl max t
  leBytes 2 0xA640 ++ leBytes 2 st ++ leBytes 2 alert ++ leBytes 2 (BitVec.ofInt 16 hot).toNat ++ leBytes 4 w.meanMw ++
  leBytes 1 (w.flowOk.toNat + 2 * (!w.interlock).toNat)

/-- A read of `n` bytes of the MGT map at an address of its bus: answered in every state with power, in M1, M2 and ROM hold
too; bytes past the map read 0 (log entry 173). No row of the table is such a read, and writes are ignored. -/
def State.mgtRead (s : State) (addr off n : Nat) : Option (List Byte) :=
  if s.module.state = .off || addr != s.mgtAddress then none else some (fit 0 n (s.mgtMap.drop off))

end Sys2Proof.Machine
end

