-- ==== Sys2Proof/Machine/Dispatch.lean ====
section
/-! DEFINITION. One arm per command: each calls the meaning of its row. -/

namespace Sys2Proof.Machine

def exec (i : Instr) (s : State) : Host.Outcome State Fault Refusal :=
  match i with
  | .sNop issue w => Sys2Proof.Machine.execSNop issue w s
  | .sAlu issue w => Sys2Proof.Machine.execSAlu issue w s
  | .sShift issue w => Sys2Proof.Machine.execSShift issue w s
  | .sMul issue w => Sys2Proof.Machine.execSMul issue w s
  | .sCompare issue w => Sys2Proof.Machine.execSCompare issue w s
  | .movi issue w => Sys2Proof.Machine.execMovi issue w s
  | .movhi issue w => Sys2Proof.Machine.execMovhi issue w s
  | .setstr issue w => Sys2Proof.Machine.execSetstr issue w s
  | .sld issue w => Sys2Proof.Machine.execSld issue w s
  | .sst issue w => Sys2Proof.Machine.execSst issue w s
  | .br issue w => Sys2Proof.Machine.execBr issue w s
  | .brzBrnz issue w => Sys2Proof.Machine.execBrzBrnz issue w s
  | .loopArm issue w => Sys2Proof.Machine.execLoopArm issue w s
  | .rdst issue w => Sys2Proof.Machine.execRdst issue w s
  | .clrst issue w => Sys2Proof.Machine.execClrst issue w s
  | .ragged issue w => Sys2Proof.Machine.execRagged issue w s
  | .laneEnd issue w => Sys2Proof.Machine.execLaneEnd issue w s
  | .ldt issue second w => Sys2Proof.Machine.execLdt issue second w s
  | .ldl issue second w => Sys2Proof.Machine.execLdl issue second w s
  | .ldv issue second w => Sys2Proof.Machine.execLdv issue second w s
  | .mvt issue second w => Sys2Proof.Machine.execMvt issue second w s
  | .matmul issue w => Sys2Proof.Machine.execMatmul issue w s
  | .winoOut issue w => Sys2Proof.Machine.execWinoOut issue w s
  | .vNop issue w => Sys2Proof.Machine.execVNop issue w s
  | .vFma issue w => Sys2Proof.Machine.execVFma issue w s
  | .vAdd issue w => Sys2Proof.Machine.execVAdd issue w s
  | .vSub issue w => Sys2Proof.Machine.execVSub issue w s
  | .vMul issue w => Sys2Proof.Machine.execVMul issue w s
  | .vMax issue w => Sys2Proof.Machine.execVMax issue w s
  | .vMin issue w => Sys2Proof.Machine.execVMin issue w s
  | .cmplt issue w => Sys2Proof.Machine.execCmplt issue w s
  | .cmpeq issue w => Sys2Proof.Machine.execCmpeq issue w s
  | .sel issue w => Sys2Proof.Machine.execSel issue w s
  | .vLogic issue w => Sys2Proof.Machine.execVLogic issue w s
  | .vShl issue w => Sys2Proof.Machine.execVShl issue w s
  | .vShr issue w => Sys2Proof.Machine.execVShr issue w s
  | .exp2 issue w => Sys2Proof.Machine.execExp2 issue w s
  | .log2 issue w => Sys2Proof.Machine.execLog2 issue w s
  | .rcp issue w => Sys2Proof.Machine.execRcp issue w s
  | .rsq issue w => Sys2Proof.Machine.execRsq issue w s
  | .cvt issue w => Sys2Proof.Machine.execCvt issue w s
  | .qblk issue w => Sys2Proof.Machine.execQblk issue w s
  | .rsum issue w => Sys2Proof.Machine.execRsum issue w s
  | .rmax issue w => Sys2Proof.Machine.execRmax issue w s
  | .vMov issue w => Sys2Proof.Machine.execVMov issue w s
  | .vst issue w => Sys2Proof.Machine.execVst issue w s
  | .put issue w => Sys2Proof.Machine.execPut issue w s
  | .signal issue w => Sys2Proof.Machine.execSignal issue w s
  | .halo issue w => Sys2Proof.Machine.execHalo issue w s
  | .tinc issue w => Sys2Proof.Machine.execTinc issue w s
  | .tset issue w => Sys2Proof.Machine.execTset issue w s
  | .xfence issue w => Sys2Proof.Machine.execXfence issue w s
  | .wb issue w => Sys2Proof.Machine.execWb issue w s
  | .wbw issue w => Sys2Proof.Machine.execWbw issue w s
  | .dmaDdr5ToScratchpad issue second w => Sys2Proof.Machine.execDmaDdr5ToScratchpad issue second w s
  | .dmaScratchpadToDdr5 issue second w => Sys2Proof.Machine.execDmaScratchpadToDdr5 issue second w s
  | .dmaNandToScratchpad issue second w => Sys2Proof.Machine.execDmaNandToScratchpad issue second w s
  | .dmaHostToScratchpad issue second w => Sys2Proof.Machine.execDmaHostToScratchpad issue second w s
  | .dmaScratchpadToHost issue second w => Sys2Proof.Machine.execDmaScratchpadToHost issue second w s
  | .huveipDma issue second w => Sys2Proof.Machine.execHuveipDma issue second w s
  | .floamPost issue w => Sys2Proof.Machine.execFloamPost issue w s
  | .stemCommandPost issue w => Sys2Proof.Machine.execStemCommandPost issue w s
  | .unitRecordPost issue w => Sys2Proof.Machine.execUnitRecordPost issue w s
  | .waitSatisfied issue => Sys2Proof.Machine.execWaitSatisfied issue s
  | .laneFetchReturn part lane => Sys2Proof.Machine.execLaneFetchReturn part lane s
  | .scratchpadReadReturn id => Sys2Proof.Machine.execScratchpadReadReturn id s
  | .scratchpadWriteComplete id => Sys2Proof.Machine.execScratchpadWriteComplete id s
  | .accumulatorWrite part lane => Sys2Proof.Machine.execAccumulatorWrite part lane s
  | .vectorResultReady part lane => Sys2Proof.Machine.execVectorResultReady part lane s
  | .incrementApply id => Sys2Proof.Machine.execIncrementApply id s
  | .writeCompletion id => Sys2Proof.Machine.execWriteCompletion id s
  | .writeTrackerTimeout id => Sys2Proof.Machine.execWriteTrackerTimeout id s
  | .remoteWriteAbandon id => Sys2Proof.Machine.execRemoteWriteAbandon id s
  | .windowWriteArrival id => Sys2Proof.Machine.execWindowWriteArrival id s
  | .jobStart part ctx => Sys2Proof.Machine.execJobStart part ctx s
  | .swapOutComplete part slot => Sys2Proof.Machine.execSwapOutComplete part slot s
  | .swapInComplete part unit tag data => Sys2Proof.Machine.execSwapInComplete part unit tag data s
  | .jobComplete part ctx => Sys2Proof.Machine.execJobComplete part ctx s
  | .preemptRequest part => Sys2Proof.Machine.execPreemptRequest part s
  | .quantumExpiry part => Sys2Proof.Machine.execQuantumExpiry part s
  | .waitSwitchExpiry part => Sys2Proof.Machine.execWaitSwitchExpiry part s
  | .yieldStop part lane => Sys2Proof.Machine.execYieldStop part lane s
  | .contextSave part => Sys2Proof.Machine.execContextSave part s
  | .preemptTimeout part => Sys2Proof.Machine.execPreemptTimeout part s
  | .jobTimeout part ctx => Sys2Proof.Machine.execJobTimeout part ctx s
  | .rebind part => Sys2Proof.Machine.execRebind part s
  | .gatherEntryIssue group line => Sys2Proof.Machine.execGatherEntryIssue group line s
  | .arbiterGrant ty inst pending emergency => Sys2Proof.Machine.execArbiterGrant ty inst pending emergency s
  | .starvationPromotion ty inst req => Sys2Proof.Machine.execStarvationPromotion ty inst req s
  | .sidebandMask ty inst req masked => Sys2Proof.Machine.execSidebandMask ty inst req masked s
  | .patrolScrub bank line granule ecc => Sys2Proof.Machine.execPatrolScrub bank line granule ecc s
  | .bankRetirement bank => Sys2Proof.Machine.execBankRetirement bank s
  | .hotWindowEnd bank grants waits => Sys2Proof.Machine.execHotWindowEnd bank grants waits s
  | .retentionWake bank => Sys2Proof.Machine.execRetentionWake bank s
  | .retentionReturn bank => Sys2Proof.Machine.execRetentionReturn bank s
  | .huveipWriteFrame port rx => Sys2Proof.Machine.execHuveipWriteFrame port rx s
  | .huveipSignalFrame port rx => Sys2Proof.Machine.execHuveipSignalFrame port rx s
  | .completionFrame port rx => Sys2Proof.Machine.execCompletionFrame port rx s
  | .paceNoticeReceive port rx => Sys2Proof.Machine.execPaceNoticeReceive port rx s
  | .linkCredits port rx => Sys2Proof.Machine.execLinkCredits port rx s
  | .linkBringup port peerId lanes slots => Sys2Proof.Machine.execLinkBringup port peerId lanes slots s
  | .linkHello port peerId nonce key => Sys2Proof.Machine.execLinkHello port peerId nonce key s
  | .linkEncap port ciphertext => Sys2Proof.Machine.execLinkEncap port ciphertext s
  | .linkReport port v => Sys2Proof.Machine.execLinkReport port v s
  | .linkFinish port confirmed => Sys2Proof.Machine.execLinkFinish port confirmed s
  | .linkRekey port switchTx rx => Sys2Proof.Machine.execLinkRekey port switchTx rx s
  | .linkAbort port reason => Sys2Proof.Machine.execLinkAbort port reason s
  | .replayTimeout port => Sys2Proof.Machine.execReplayTimeout port s
  | .creditReturnTimer port => Sys2Proof.Machine.execCreditReturnTimer port s
  | .laneLockLoss port lane => Sys2Proof.Machine.execLaneLockLoss port lane s
  | .fecRateCheck port lane corrected received => Sys2Proof.Machine.execFecRateCheck port lane corrected received s
  | .portRetrain port succeeded => Sys2Proof.Machine.execPortRetrain port succeeded s
  | .rekeyStart port => Sys2Proof.Machine.execRekeyStart port s
  | .rekeyTimeout port => Sys2Proof.Machine.execRekeyTimeout port s
  | .bringupRetry port => Sys2Proof.Machine.execBringupRetry port s
  | .paceRepeat => Sys2Proof.Machine.execPaceRepeat s
  | .paceHoldExpiry source => Sys2Proof.Machine.execPaceHoldExpiry source s
  | .refreshDue sub => Sys2Proof.Machine.execRefreshDue sub s
  | .ddr5TempRead ch deciC => Sys2Proof.Machine.execDdr5TempRead ch deciC s
  | .ddr5PatrolScrub line ecc => Sys2Proof.Machine.execDdr5PatrolScrub line ecc s
  | .ddr5PageRetirement page => Sys2Proof.Machine.execDdr5PageRetirement page s
  | .subchannelRetrain sub cause => Sys2Proof.Machine.execSubchannelRetrain sub cause s
  | .ddr5WriteAck id => Sys2Proof.Machine.execDdr5WriteAck id s
  | .ddr5ReadReturn id ecc => Sys2Proof.Machine.execDdr5ReadReturn id ecc s
  | .dmaPostComplete id => Sys2Proof.Machine.execDmaPostComplete id s
  | .floamBlockExpand id => Sys2Proof.Machine.execFloamBlockExpand id s
  | .floamEntryComplete id => Sys2Proof.Machine.execFloamEntryComplete id s
  | .modelStageCopyDone part modelId => Sys2Proof.Machine.execModelStageCopyDone part modelId s
  | .stemLineStart id => Sys2Proof.Machine.execStemLineStart id s
  | .csiFrameStart port vc frame => Sys2Proof.Machine.execCsiFrameStart port vc frame s
  | .csiFrameEnd port vc => Sys2Proof.Machine.execCsiFrameEnd port vc s
  | .csiLongPacket port vc dataType headerErrors crcOk pixels => Sys2Proof.Machine.execCsiLongPacket port vc dataType headerErrors crcOk pixels s
  | .ethFrameReceive port f => Sys2Proof.Machine.execEthFrameReceive port f s
  | .lidarPacketParse port => Sys2Proof.Machine.execLidarPacketParse port s
  | .triggerPulse trg => Sys2Proof.Machine.execTriggerPulse trg s
  | .stbEdge stb rising cycles latches => Sys2Proof.Machine.execStbEdge stb rising cycles latches s
  | .strobeMissed sensor => Sys2Proof.Machine.execStrobeMissed sensor s
  | .anchorCountUpdate group count => Sys2Proof.Machine.execAnchorCountUpdate group count s
  | .frameInstant group t => Sys2Proof.Machine.execFrameInstant group t s
  | .frameDeadline group => Sys2Proof.Machine.execFrameDeadline group s
  | .frameAssembly group => Sys2Proof.Machine.execFrameAssembly group s
  | .frameHeaderWrite group => Sys2Proof.Machine.execFrameHeaderWrite group s
  | .releaseSignal group amount => Sys2Proof.Machine.execReleaseSignal group amount s
  | .timeBreak group => Sys2Proof.Machine.execTimeBreak group s
  | .portLockRegain port => Sys2Proof.Machine.execPortLockRegain port s
  | .boxSetTake group => Sys2Proof.Machine.execBoxSetTake group s
  | .publication => Sys2Proof.Machine.execPublication s
  | .queryPost id => Sys2Proof.Machine.execQueryPost id s
  | .queryStart => Sys2Proof.Machine.execQueryStart s
  | .queryExpansion elapsedUs => Sys2Proof.Machine.execQueryExpansion elapsedUs s
  | .queryBudgetExpiry elapsedUs => Sys2Proof.Machine.execQueryBudgetExpiry elapsedUs s
  | .queryResultWrite => Sys2Proof.Machine.execQueryResultWrite s
  | .canFrameReceive port f cycles => Sys2Proof.Machine.execCanFrameReceive port f cycles s
  | .drdyEdge pin rising cycles => Sys2Proof.Machine.execDrdyEdge pin rising cycles s
  | .dividerExpiry loop cycles => Sys2Proof.Machine.execDividerExpiry loop cycles s
  | .spiReadDone loop frames cycles => Sys2Proof.Machine.execSpiReadDone loop frames cycles s
  | .cNop loop => Sys2Proof.Machine.execCNop loop s
  | .cAdd loop => Sys2Proof.Machine.execCAdd loop s
  | .cSub loop => Sys2Proof.Machine.execCSub loop s
  | .cMul loop => Sys2Proof.Machine.execCMul loop s
  | .mac loop => Sys2Proof.Machine.execMac loop s
  | .mulz loop => Sys2Proof.Machine.execMulz loop s
  | .cSar loop => Sys2Proof.Machine.execCSar loop s
  | .cShl loop => Sys2Proof.Machine.execCShl loop s
  | .cMin loop => Sys2Proof.Machine.execCMin loop s
  | .cMax loop => Sys2Proof.Machine.execCMax loop s
  | .cAnd loop => Sys2Proof.Machine.execCAnd loop s
  | .ldi loop => Sys2Proof.Machine.execLdi loop s
  | .ldsmp loop => Sys2Proof.Machine.execLdsmp loop s
  | .lds loop => Sys2Proof.Machine.execLds loop s
  | .loopOut loop => Sys2Proof.Machine.execLoopOut loop s
  | .skn loop => Sys2Proof.Machine.execSkn loop s
  | .skz loop => Sys2Proof.Machine.execSkz loop s
  | .runCommit loop cycles => Sys2Proof.Machine.execRunCommit loop cycles s
  | .runDeadline loop cycles => Sys2Proof.Machine.execRunDeadline loop cycles s
  | .shadowSwitch sp cycles => Sys2Proof.Machine.execShadowSwitch sp cycles s
  | .canTransmitDone port => Sys2Proof.Machine.execCanTransmitDone port s
  | .canBusOffRecovery port => Sys2Proof.Machine.execCanBusOffRecovery port s
  | .spiTransactionDone master => Sys2Proof.Machine.execSpiTransactionDone master s
  | .pwmPeriodBoundary pwm => Sys2Proof.Machine.execPwmPeriodBoundary pwm s
  | .loopFence loop => Sys2Proof.Machine.execLoopFence loop s
  | .sqTail q v => Sys2Proof.Machine.execSqTail q v s
  | .cqHead q v => Sys2Proof.Machine.execCqHead q v s
  | .noticeHead v => Sys2Proof.Machine.execNoticeHead v s
  | .adminEnableSet => Sys2Proof.Machine.execAdminEnableSet s
  | .adminEnableClear => Sys2Proof.Machine.execAdminEnableClear s
  | .registerWrite offset v => Sys2Proof.Machine.execRegisterWrite offset v s
  | .msixUnmask vector => Sys2Proof.Machine.execMsixUnmask vector s
  | .endpointReset kind => Sys2Proof.Machine.execEndpointReset kind s
  | .commandFetch q e => Sys2Proof.Machine.execCommandFetch q e s
  | .completionPost q => Sys2Proof.Machine.execCompletionPost q s
  | .deviceIdentify q => Sys2Proof.Machine.execDeviceIdentify q s
  | .sessionOpen q => Sys2Proof.Machine.execSessionOpen q s
  | .sessionResume q => Sys2Proof.Machine.execSessionResume q s
  | .queueCreate q => Sys2Proof.Machine.execQueueCreate q s
  | .queueDestroy q => Sys2Proof.Machine.execQueueDestroy q s
  | .queueRestart q => Sys2Proof.Machine.execQueueRestart q s
  | .queueFence q => Sys2Proof.Machine.execQueueFence q s
  | .deviceArbiterConfigure q => Sys2Proof.Machine.execDeviceArbiterConfigure q s
  | .partitionConfigure q => Sys2Proof.Machine.execPartitionConfigure q s
  | .partitionEnable q => Sys2Proof.Machine.execPartitionEnable q s
  | .partitionDisable q => Sys2Proof.Machine.execPartitionDisable q s
  | .partitionReset q => Sys2Proof.Machine.execPartitionReset q s
  | .partitionPolicySet q => Sys2Proof.Machine.execPartitionPolicySet q s
  | .partitionDst q => Sys2Proof.Machine.execPartitionDst q s
  | .programLoad q => Sys2Proof.Machine.execProgramLoad q s
  | .programUnload q => Sys2Proof.Machine.execProgramUnload q s
  | .modelStageDdr5 q => Sys2Proof.Machine.execModelStageDdr5 q s
  | .modelStageNandDirect q => Sys2Proof.Machine.execModelStageNandDirect q s
  | .modelUnstage q => Sys2Proof.Machine.execModelUnstage q s
  | .modelEvict q => Sys2Proof.Machine.execModelEvict q s
  | .modelList q => Sys2Proof.Machine.execModelList q s
  | .jobSubmit q => Sys2Proof.Machine.execJobSubmit q s
  | .jobPreempt q => Sys2Proof.Machine.execJobPreempt q s
  | .jobAbort q => Sys2Proof.Machine.execJobAbort q s
  | .regionDefine q => Sys2Proof.Machine.execRegionDefine q s
  | .regionRelease q => Sys2Proof.Machine.execRegionRelease q s
  | .regionReseed q => Sys2Proof.Machine.execRegionReseed q s
  | .memFill q => Sys2Proof.Machine.execMemFill q s
  | .memCopy q => Sys2Proof.Machine.execMemCopy q s
  | .memBankStats q => Sys2Proof.Machine.execMemBankStats q s
  | .memDdr5Stats q => Sys2Proof.Machine.execMemDdr5Stats q s
  | .memCacheStats q => Sys2Proof.Machine.execMemCacheStats q s
  | .memHostRegister q => Sys2Proof.Machine.execMemHostRegister q s
  | .windowOpen q => Sys2Proof.Machine.execWindowOpen q s
  | .windowClose q => Sys2Proof.Machine.execWindowClose q s
  | .fabricSetId q => Sys2Proof.Machine.execFabricSetId q s
  | .fabricRoute q => Sys2Proof.Machine.execFabricRoute q s
  | .fabricRetrain q => Sys2Proof.Machine.execFabricRetrain q s
  | .fabricPortStats q => Sys2Proof.Machine.execFabricPortStats q s
  | .kvPoolConfigure q => Sys2Proof.Machine.execKvPoolConfigure q s
  | .kvSeqOpen q => Sys2Proof.Machine.execKvSeqOpen q s
  | .kvSeqExtend q => Sys2Proof.Machine.execKvSeqExtend q s
  | .kvSeqFork q => Sys2Proof.Machine.execKvSeqFork q s
  | .kvSeqTruncate q => Sys2Proof.Machine.execKvSeqTruncate q s
  | .kvSeqClose q => Sys2Proof.Machine.execKvSeqClose q s
  | .kvSeqSwapOut q => Sys2Proof.Machine.execKvSeqSwapOut q s
  | .kvDomainCreate q => Sys2Proof.Machine.execKvDomainCreate q s
  | .kvDomainDestroy q => Sys2Proof.Machine.execKvDomainDestroy q s
  | .kvStats q => Sys2Proof.Machine.execKvStats q s
  | .sensorConfigure q => Sys2Proof.Machine.execSensorConfigure q s
  | .sensorRelease q => Sys2Proof.Machine.execSensorRelease q s
  | .sensorCalibrate q => Sys2Proof.Machine.execSensorCalibrate q s
  | .sensorParseTable q => Sys2Proof.Machine.execSensorParseTable q s
  | .sensorTrigger q => Sys2Proof.Machine.execSensorTrigger q s
  | .sensorEthSend q => Sys2Proof.Machine.execSensorEthSend q s
  | .sensorStats q => Sys2Proof.Machine.execSensorStats q s
  | .groupConfigure q => Sys2Proof.Machine.execGroupConfigure q s
  | .groupStart q => Sys2Proof.Machine.execGroupStart q s
  | .groupStop q => Sys2Proof.Machine.execGroupStop q s
  | .worldConfigure q => Sys2Proof.Machine.execWorldConfigure q s
  | .worldEdit q => Sys2Proof.Machine.execWorldEdit q s
  | .worldPublish q => Sys2Proof.Machine.execWorldPublish q s
  | .worldLoad q => Sys2Proof.Machine.execWorldLoad q s
  | .worldUnload q => Sys2Proof.Machine.execWorldUnload q s
  | .planMachine q => Sys2Proof.Machine.execPlanMachine q s
  | .planLattice q => Sys2Proof.Machine.execPlanLattice q s
  | .planQueryWindow q => Sys2Proof.Machine.execPlanQueryWindow q s
  | .planStats q => Sys2Proof.Machine.execPlanStats q s
  | .loopConfigure q => Sys2Proof.Machine.execLoopConfigure q s
  | .loopProgram q => Sys2Proof.Machine.execLoopProgram q s
  | .loopCoeffs q => Sys2Proof.Machine.execLoopCoeffs q s
  | .loopStart q => Sys2Proof.Machine.execLoopStart q s
  | .loopStop q => Sys2Proof.Machine.execLoopStop q s
  | .loopClear q => Sys2Proof.Machine.execLoopClear q s
  | .loopWindowOpen q => Sys2Proof.Machine.execLoopWindowOpen q s
  | .loopWindowClose q => Sys2Proof.Machine.execLoopWindowClose q s
  | .loopSafeRelease q => Sys2Proof.Machine.execLoopSafeRelease q s
  | .loopStats q => Sys2Proof.Machine.execLoopStats q s
  | .loopPortConfigureCan q => Sys2Proof.Machine.execLoopPortConfigureCan q s
  | .loopPortConfigureSpi q => Sys2Proof.Machine.execLoopPortConfigureSpi q s
  | .loopPortConfigurePwm q => Sys2Proof.Machine.execLoopPortConfigurePwm q s
  | .loopPortRelease q => Sys2Proof.Machine.execLoopPortRelease q s
  | .powerCapSet q => Sys2Proof.Machine.execPowerCapSet q s
  | .powerBudgetSet q => Sys2Proof.Machine.execPowerBudgetSet q s
  | .powerPaceFollow q => Sys2Proof.Machine.execPowerPaceFollow q s
  | .powerRead q => Sys2Proof.Machine.execPowerRead q s
  | .storeSlotWrite q => Sys2Proof.Machine.execStoreSlotWrite q s
  | .slotSeal q => Sys2Proof.Machine.execSlotSeal q s
  | .storeSlotErase q => Sys2Proof.Machine.execStoreSlotErase q s
  | .storeSlotList q => Sys2Proof.Machine.execStoreSlotList q s
  | .storeObjPut q => Sys2Proof.Machine.execStoreObjPut q s
  | .storeObjGet q => Sys2Proof.Machine.execStoreObjGet q s
  | .storeObjDelete q => Sys2Proof.Machine.execStoreObjDelete q s
  | .storeDefaultsSet q => Sys2Proof.Machine.execStoreDefaultsSet q s
  | .storeStats q => Sys2Proof.Machine.execStoreStats q s
  | .secAttest q => Sys2Proof.Machine.execSecAttest q s
  | .secUpdate q => Sys2Proof.Machine.execSecUpdate q s
  | .updateCommit passed => Sys2Proof.Machine.execUpdateCommit passed s
  | .microcodeSwitch unit => Sys2Proof.Machine.execMicrocodeSwitch unit s
  | .secKeyEnrolSigning q => Sys2Proof.Machine.execSecKeyEnrolSigning q s
  | .secKeyEnrolRoot q => Sys2Proof.Machine.execSecKeyEnrolRoot q s
  | .secKeyEnrolPolicy q => Sys2Proof.Machine.execSecKeyEnrolPolicy q s
  | .secKeyRevoke q => Sys2Proof.Machine.execSecKeyRevoke q s
  | .secLifecycle q => Sys2Proof.Machine.execSecLifecycle q s
  | .secDebugUnlock q => Sys2Proof.Machine.execSecDebugUnlock q s
  | .secRotate q => Sys2Proof.Machine.execSecRotate q s
  | .rotationWalkEnd cls part => Sys2Proof.Machine.execRotationWalkEnd cls part s
  | .logRead q => Sys2Proof.Machine.execLogRead q s
  | .logStats q => Sys2Proof.Machine.execLogStats q s
  | .logRecordWrite => Sys2Proof.Machine.execLogRecordWrite s
  | .bypass => Sys2Proof.Machine.execBypass s
  | .idcode => Sys2Proof.Machine.execIdcode s
  | .samplePreload => Sys2Proof.Machine.execSamplePreload s
  | .extest => Sys2Proof.Machine.execExtest s
  | .internalScan => Sys2Proof.Machine.execInternalScan s
  | .railReport rail mv ma => Sys2Proof.Machine.execRailReport rail mv ma s
  | .capEvaluation first second => Sys2Proof.Machine.execCapEvaluation first second s
  | .inputClamp => Sys2Proof.Machine.execInputClamp s
  | .stepChange die => Sys2Proof.Machine.execStepChange die s
  | .droopTrip die detector => Sys2Proof.Machine.execDroopTrip die detector s
  | .droopRelease die => Sys2Proof.Machine.execDroopRelease die s
  | .estimateInterval estimates device => Sys2Proof.Machine.execEstimateInterval estimates device s
  | .thermalRead hottest => Sys2Proof.Machine.execThermalRead hottest s
  | .m1Trip => Sys2Proof.Machine.execM1Trip s
  | .flowLoss => Sys2Proof.Machine.execFlowLoss s
  | .interlockRelease => Sys2Proof.Machine.execInterlockRelease s
  | .coolantRead inlet outlet humidity => Sys2Proof.Machine.execCoolantRead inlet outlet humidity s
  | .brownOutEntry => Sys2Proof.Machine.execBrownOutEntry s
  | .brownOutExit => Sys2Proof.Machine.execBrownOutExit s
  | .nandRead id stepReached => Sys2Proof.Machine.execNandRead id stepReached s
  | .grownBadBlock die block => Sys2Proof.Machine.execGrownBadBlock die block s
  | .dieFence die => Sys2Proof.Machine.execDieFence die s
  | .staticWearMove die => Sys2Proof.Machine.execStaticWearMove die s
  | .canaryScan found => Sys2Proof.Machine.execCanaryScan found s
  | .blockRefresh die block => Sys2Proof.Machine.execBlockRefresh die block s
  | .blockRelocation die block => Sys2Proof.Machine.execBlockRelocation die block s
  | .tileFence tile cause lost => Sys2Proof.Machine.execTileFence tile cause lost s
  | .sequencerError part => Sys2Proof.Machine.execSequencerError part s
  | .cupolaMemoryError part index line => Sys2Proof.Machine.execCupolaMemoryError part index line s
  | .steepleMemoryError part index => Sys2Proof.Machine.execSteepleMemoryError part index s
  | .cpHeartbeatTimeout => Sys2Proof.Machine.execCpHeartbeatTimeout s
  | .cpRestart cause => Sys2Proof.Machine.execCpRestart cause s
  | .lanternWatchdogExpiry => Sys2Proof.Machine.execLanternWatchdogExpiry s
  | .lanternRestart cause => Sys2Proof.Machine.execLanternRestart cause s
  | .entropyTimeout => Sys2Proof.Machine.execEntropyTimeout s
  | .por => Sys2Proof.Machine.execPor s
  | .auxLoss => Sys2Proof.Machine.execAuxLoss s
  | .mainLoss => Sys2Proof.Machine.execMainLoss s
  | .mainReturn => Sys2Proof.Machine.execMainReturn s
  | .m1Exit => Sys2Proof.Machine.execM1Exit s
  | .mrstNAssert => Sys2Proof.Machine.execMrstNAssert s
  | .mrstNRelease => Sys2Proof.Machine.execMrstNRelease s
  | .moduleStart => Sys2Proof.Machine.execModuleStart s
  | .a1Entry part => Sys2Proof.Machine.execA1Entry part s
  | .sensorPortLockLoss port => Sys2Proof.Machine.execSensorPortLockLoss port s
  | .huveipTrainingDone port lanes => Sys2Proof.Machine.execHuveipTrainingDone port lanes s
  | .inputClampRelease => Sys2Proof.Machine.execInputClampRelease s
  | .buildingCopyDone => Sys2Proof.Machine.execBuildingCopyDone s
  | .hostReadReturn r => Sys2Proof.Machine.execHostReadReturn r s

end Sys2Proof.Machine
end

