-- ==== Sys2Proof/Safety.lean ====
section
/-! DEFINITION. What a sound state is, in the terms the statements use: every byte-addressed memory of the block is in
its canonical form. -/

namespace Sys2Proof.Machine

/-- Scratchpad memory and its poison marks are in canonical form. -/
def Scratch.wf (x : Scratch) : Bool := Map.wf 0 x.mem && Map.wf false x.poison

/-- DDR5 memory and its poison marks are in canonical form. -/
def Ddr.wf (x : Ddr) : Bool := Map.wf none x.mem && Map.wf false x.poison

/-- The addressed memories of the block are in canonical form. -/
def State.memWf (s : State) : Bool := s.sp.wf && s.ddr.wf

end Sys2Proof.Machine
end

