-- ==== Sys2Proof/WellFormed.lean ====
section
/-! DEFINITION. Which commands are well formed: operands inside the ranges that the spec gives them. The meanings answer for every
operand all the same; this is what a sender may rely on. -/

namespace Sys2Proof

/-- An engine lane (0 to 63) or the shared lane (255). -/
def laneOk (l : Nat) : Bool := decide (l < 64) || l == 255

/-- A partition and a lane (R63). -/
def Issue.ok (i : Issue) : Bool := decide (i.part < 16) && laneOk i.lane
/-- An engine lane of a partition. -/
def Issue.engine (i : Issue) : Bool := decide (i.part < 16) && decide (i.lane < 64)
/-- The shared lane of a partition. -/
def Issue.shared (i : Issue) : Bool := decide (i.part < 16) && i.lane == 255

/-- OP [63:58] of an S slot is one of the row's (R74). -/
def opS (w : BitVec 64) (ops : List Nat) : Bool := ops.contains (w.extractLsb' 58 6).toNat
/-- OP [63:60] of an L, X or W slot (R74, R75). -/
def op64 (w : BitVec 64) (op : Nat) : Bool := (w.extractLsb' 60 4).toNat == op
/-- OP [95:92] of an M slot (R74). -/
def opM (w : BitVec 96) (op : Nat) : Bool := (w.extractLsb' 92 4).toNat == op
/-- OP [95:90] of a V slot (R74). -/
def opV (w : BitVec 96) (op : Nat) : Bool := (w.extractLsb' 90 6).toNat == op

/-- A frame's fields fit their widths, and its payload is 0 to 4 lines (R128, R129). -/
def RxFrame.ok (f : RxFrame) : Bool :=
  decide (f.dst < 2 ^ 16) && decide (f.src < 2 ^ 16) && decide (f.vc < 2) && decide (f.seq < 2 ^ 12) && decide (f.ack < 2 ^ 12) &&
  decide (f.winId < 2 ^ 12) && decide (f.gen < 2 ^ 16) && decide (f.flags < 2 ^ 4) && decide (f.lineOff < 2 ^ 22) &&
  decide (f.tctr < 2 ^ 8) && decide (f.tamt < 2 ^ 8) && decide (f.wtag < 2 ^ 10) && decide (f.hops < 2 ^ 8) &&
  decide (f.payload.length ≤ 256) && f.payload.length % 64 == 0

/-- An Ethernet frame is at most 1,522 bytes (R242). -/
def EthFrame.ok (f : EthFrame) : Bool := decide (f.bytes.length ≤ 1522)

/-- A CAN identifier has 11 or 29 bits, and a frame at most 8 bytes, or 64 in FD (R306). -/
def CanFrame.ok (f : CanFrame) : Bool :=
  decide (f.ident < if f.extended then 2 ^ 29 else 2 ^ 11) && decide (f.data.length ≤ if f.fd then 64 else 8)

/-- A submission entry's fields fit their widths (R319). -/
def Entry.ok (e : Entry) : Bool :=
  decide (e.opcode < 2 ^ 16) && decide (e.cid < 2 ^ 16) && decide (e.partition < 2 ^ 8) && decide (e.argAddr < 2 ^ 64) &&
  decide (e.argLen < 2 ^ 32) && decide (e.dataLen < 2 ^ 32) && decide (e.dataAddr < 2 ^ 64) && decide (e.inline.length ≤ 32)

/-- What a PCIe read answers for: an argument block, a length table, a token list or host data, of a queue (R315). -/
def HostRead.ok (r : HostRead) : Bool := decide (r.q < 64) && decide (r.what < 4)

/-- The operands of a command are in range. -/
def Instr.wf : Instr → Bool
  | .sNop i w => i.ok && opS w [0]
  | .sAlu i w => i.ok && opS w [1, 2, 3, 4, 5]
  | .sShift i w => i.ok && opS w [6, 7, 8]
  | .sMul i w => i.ok && opS w [9]
  | .sCompare i w => i.ok && opS w [10, 11, 12]
  | .movi i w => i.ok && opS w [13]
  | .movhi i w => i.ok && opS w [14]
  | .setstr i w => i.ok && opS w [15]
  | .sld i w => i.ok && opS w [16]
  | .sst i w => i.ok && opS w [17]
  | .br i w => i.ok && opS w [18]
  | .brzBrnz i w => i.ok && opS w [19, 20]
  | .loopArm i w => i.ok && opS w [21]
  | .rdst i w => i.ok && opS w [22]
  | .clrst i w => i.ok && opS w [23]
  | .ragged i w => i.ok && opS w [24]
  | .laneEnd i w => i.ok && opS w [25]
  | .ldt i _ w => i.engine && op64 w 0
  | .ldl i _ w => i.engine && op64 w 1
  | .ldv i _ w => i.engine && op64 w 2
  | .mvt i _ w => i.engine && op64 w 3
  | .matmul i w => i.engine && opM w 0
  | .winoOut i w => i.engine && opM w 1
  | .vNop i w => i.engine && opV w 0
  | .vFma i w => i.engine && opV w 1
  | .vAdd i w => i.engine && opV w 2
  | .vSub i w => i.engine && opV w 3
  | .vMul i w => i.engine && opV w 4
  | .vMax i w => i.engine && opV w 5
  | .vMin i w => i.engine && opV w 6
  | .cmplt i w => i.engine && opV w 7
  | .cmpeq i w => i.engine && opV w 8
  | .sel i w => i.engine && opV w 9
  | .vLogic i w => i.engine && opV w 10
  | .vShl i w => i.engine && opV w 12
  | .vShr i w => i.engine && opV w 13
  | .exp2 i w => i.engine && opV w 14
  | .log2 i w => i.engine && opV w 15
  | .rcp i w => i.engine && opV w 16
  | .rsq i w => i.engine && opV w 17
  | .cvt i w => i.engine && opV w 18
  | .qblk i w => i.engine && opV w 19
  | .rsum i w => i.engine && opV w 20
  | .rmax i w => i.engine && opV w 21
  | .vMov i w => i.engine && opV w 22
  | .vst i w => i.engine && opV w 23
  | .put i w => i.ok && op64 w 0
  | .signal i w => i.ok && op64 w 1
  | .halo i w => i.engine && op64 w 2
  | .tinc i w => i.ok && op64 w 3
  | .tset i w => i.ok && op64 w 4
  | .xfence i w => i.ok && op64 w 5
  | .wb i w => i.engine && op64 w 0
  | .wbw i w => i.engine && op64 w 1
  | .dmaDdr5ToScratchpad i _ w => i.shared && op64 w 0
  | .dmaScratchpadToDdr5 i _ w => i.shared && op64 w 1
  | .dmaNandToScratchpad i _ w => i.shared && op64 w 2
  | .dmaHostToScratchpad i _ w => i.shared && op64 w 3
  | .dmaScratchpadToHost i _ w => i.shared && op64 w 4
  | .huveipDma i _ w => i.shared && op64 w 5
  | .floamPost i w => i.shared && op64 (w.extractLsb' 0 64) 0
  | .stemCommandPost i w => i.shared && op64 (w.extractLsb' 0 64) 0
  | .unitRecordPost i w => i.shared && op64 w 0
  | .waitSatisfied i => i.ok
  | .laneFetchReturn part lane => decide (part < 16) && laneOk lane
  | .scratchpadReadReturn _ => true
  | .scratchpadWriteComplete _ => true
  | .accumulatorWrite part lane => decide (part < 16) && decide (lane < 64)
  | .vectorResultReady part lane => decide (part < 16) && decide (lane < 64)
  | .incrementApply _ => true
  | .writeCompletion _ => true
  | .writeTrackerTimeout _ => true
  | .remoteWriteAbandon _ => true
  | .windowWriteArrival _ => true
  | .jobStart part ctx => decide (part < 16) && decide (ctx < 8)
  | .swapOutComplete part slot => decide (part < 16) && decide (slot < 4096)
  | .swapInComplete part _ _ data => decide (part < 16) && data.length == 8192
  | .jobComplete part ctx => decide (part < 16) && decide (ctx < 8)
  | .preemptRequest part => decide (part < 16)
  | .quantumExpiry part => decide (part < 16)
  | .waitSwitchExpiry part => decide (part < 16)
  | .yieldStop part lane => decide (part < 16) && laneOk lane
  | .contextSave part => decide (part < 16)
  | .preemptTimeout part => decide (part < 16)
  | .jobTimeout part ctx => decide (part < 16) && decide (ctx < 8)
  | .rebind part => decide (part < 16)
  | .gatherEntryIssue group line => decide (group < 68) && decide (line < 8192 * 544)
  | .arbiterGrant ty _ _ _ => decide (ty < 8)
  | .starvationPromotion ty _ _ => decide (ty < 8)
  | .sidebandMask ty _ _ _ => decide (ty < 8)
  | .patrolScrub bank line granule _ => decide (bank < 544) && decide (line < 8192) && decide (granule < 8)
  | .bankRetirement bank => decide (bank < 544)
  | .hotWindowEnd bank _ _ => decide (bank < 544)
  | .retentionWake bank => decide (bank < 544)
  | .retentionReturn bank => decide (bank < 544)
  | .huveipWriteFrame port rx => decide (port < 4) && rx.ok
  | .huveipSignalFrame port rx => decide (port < 4) && rx.ok
  | .completionFrame port rx => decide (port < 4) && rx.ok
  | .paceNoticeReceive port rx => decide (port < 4) && rx.ok
  | .linkCredits port rx => decide (port < 4) && rx.ok
  | .linkBringup port peerId lanes _ => decide (port < 4) && decide (peerId < 2 ^ 16) && decide (1 ≤ lanes) && decide (lanes ≤ 8)
  | .linkHello port peerId nonce _ => decide (port < 4) && decide (peerId < 2 ^ 16) && nonce.length == 32
  | .linkEncap port _ => decide (port < 4)
  | .linkReport port v => decide (port < 4) && decide (v.lifecycle < 5)
  | .linkFinish port _ => decide (port < 4)
  | .linkRekey port _ rx => decide (port < 4) && rx.bytes.length == 1568
  | .linkAbort port _ => decide (port < 4)
  | .replayTimeout port => decide (port < 4)
  | .creditReturnTimer port => decide (port < 4)
  | .laneLockLoss port lane => decide (port < 4) && decide (lane < 8)
  | .fecRateCheck port lane _ _ => decide (port < 4) && decide (lane < 8)
  | .portRetrain port _ => decide (port < 4)
  | .rekeyStart port => decide (port < 4)
  | .rekeyTimeout port => decide (port < 4)
  | .bringupRetry port => decide (port < 4)
  | .paceRepeat => true
  | .paceHoldExpiry source => decide (source < 2 ^ 16)
  | .refreshDue sub => decide (sub < 8)
  | .ddr5TempRead ch _ => decide (ch < 4)
  | .ddr5PatrolScrub line _ => decide (line < 2 ^ 31)
  | .ddr5PageRetirement page => decide (page < 2 ^ 25)
  | .subchannelRetrain sub _ => decide (sub < 8)
  | .ddr5WriteAck _ => true
  | .ddr5ReadReturn _ _ => true
  | .dmaPostComplete _ => true
  | .floamBlockExpand _ => true
  | .floamEntryComplete _ => true
  | .modelStageCopyDone part _ => decide (part < 16)
  | .stemLineStart _ => true
  | .csiFrameStart port vc frame => decide (port < 8) && decide (vc < 16) && decide (frame < 2 ^ 16)
  | .csiFrameEnd port vc => decide (port < 8) && decide (vc < 16)
  | .csiLongPacket port vc dataType headerErrors _ pixels => decide (port < 8) && decide (vc < 16) && decide (dataType < 64) && decide (headerErrors < 3) && pixels.all fun x => decide (x < 2 ^ 16)
  | .ethFrameReceive port f => decide (8 ≤ port) && decide (port < 12) && f.ok
  | .lidarPacketParse port => decide (8 ≤ port) && decide (port < 12)
  | .triggerPulse trg => decide (trg < 8)
  | .stbEdge stb _ _ _ => decide (stb < 16)
  | .strobeMissed sensor => decide (sensor < 16)
  | .anchorCountUpdate group _ => decide (group < 4)
  | .frameInstant group _ => decide (group < 4)
  | .frameDeadline group => decide (group < 4)
  | .frameAssembly group => decide (group < 4)
  | .frameHeaderWrite group => decide (group < 4)
  | .releaseSignal group _ => decide (group < 4)
  | .timeBreak group => decide (group < 4)
  | .portLockRegain port => decide (port < 12)
  | .boxSetTake group => decide (group < 4)
  | .publication => true
  | .queryPost _ => true
  | .queryStart => true
  | .queryExpansion _ => true
  | .queryBudgetExpiry _ => true
  | .queryResultWrite => true
  | .canFrameReceive port f _ => decide (port < 4) && f.ok
  | .drdyEdge pin _ _ => decide (pin < 4)
  | .dividerExpiry loop _ => decide (loop < 16)
  | .spiReadDone loop _ _ => decide (loop < 16)
  | .cNop loop => decide (loop < 16)
  | .cAdd loop => decide (loop < 16)
  | .cSub loop => decide (loop < 16)
  | .cMul loop => decide (loop < 16)
  | .mac loop => decide (loop < 16)
  | .mulz loop => decide (loop < 16)
  | .cSar loop => decide (loop < 16)
  | .cShl loop => decide (loop < 16)
  | .cMin loop => decide (loop < 16)
  | .cMax loop => decide (loop < 16)
  | .cAnd loop => decide (loop < 16)
  | .ldi loop => decide (loop < 16)
  | .ldsmp loop => decide (loop < 16)
  | .lds loop => decide (loop < 16)
  | .loopOut loop => decide (loop < 16)
  | .skn loop => decide (loop < 16)
  | .skz loop => decide (loop < 16)
  | .runCommit loop _ => decide (loop < 16)
  | .runDeadline loop _ => decide (loop < 16)
  | .shadowSwitch sp _ => decide (sp < 16)
  | .canTransmitDone port => decide (port < 4)
  | .canBusOffRecovery port => decide (port < 4)
  | .spiTransactionDone master => decide (master < 2)
  | .pwmPeriodBoundary pwm => decide (pwm < 8)
  | .loopFence loop => decide (loop < 16)
  | .sqTail q v => decide (q < 64) && decide (v < 2 ^ 32)
  | .cqHead q v => decide (q < 64) && decide (v < 2 ^ 32)
  | .noticeHead v => decide (v < 2 ^ 32)
  | .adminEnableSet => true
  | .adminEnableClear => true
  | .registerWrite offset v => decide (offset < 2 ^ 16) && decide (v.value < if v.wide then 2 ^ 64 else 2 ^ 32)
  | .msixUnmask vector => decide (vector < 64)
  | .endpointReset _ => true
  | .commandFetch q e => decide (q < 64) && e.ok
  | .completionPost q => decide (q < 64)
  | .deviceIdentify q => decide (q < 64)
  | .sessionOpen q => decide (q < 64)
  | .sessionResume q => decide (q < 64)
  | .queueCreate q => decide (q < 64)
  | .queueDestroy q => decide (q < 64)
  | .queueRestart q => decide (q < 64)
  | .queueFence q => decide (q < 64)
  | .deviceArbiterConfigure q => decide (q < 64)
  | .partitionConfigure q => decide (q < 64)
  | .partitionEnable q => decide (q < 64)
  | .partitionDisable q => decide (q < 64)
  | .partitionReset q => decide (q < 64)
  | .partitionPolicySet q => decide (q < 64)
  | .partitionDst q => decide (q < 64)
  | .programLoad q => decide (q < 64)
  | .programUnload q => decide (q < 64)
  | .modelStageDdr5 q => decide (q < 64)
  | .modelStageNandDirect q => decide (q < 64)
  | .modelUnstage q => decide (q < 64)
  | .modelEvict q => decide (q < 64)
  | .modelList q => decide (q < 64)
  | .jobSubmit q => decide (q < 64)
  | .jobPreempt q => decide (q < 64)
  | .jobAbort q => decide (q < 64)
  | .regionDefine q => decide (q < 64)
  | .regionRelease q => decide (q < 64)
  | .regionReseed q => decide (q < 64)
  | .memFill q => decide (q < 64)
  | .memCopy q => decide (q < 64)
  | .memBankStats q => decide (q < 64)
  | .memDdr5Stats q => decide (q < 64)
  | .memCacheStats q => decide (q < 64)
  | .memHostRegister q => decide (q < 64)
  | .windowOpen q => decide (q < 64)
  | .windowClose q => decide (q < 64)
  | .fabricSetId q => decide (q < 64)
  | .fabricRoute q => decide (q < 64)
  | .fabricRetrain q => decide (q < 64)
  | .fabricPortStats q => decide (q < 64)
  | .kvPoolConfigure q => decide (q < 64)
  | .kvSeqOpen q => decide (q < 64)
  | .kvSeqExtend q => decide (q < 64)
  | .kvSeqFork q => decide (q < 64)
  | .kvSeqTruncate q => decide (q < 64)
  | .kvSeqClose q => decide (q < 64)
  | .kvSeqSwapOut q => decide (q < 64)
  | .kvDomainCreate q => decide (q < 64)
  | .kvDomainDestroy q => decide (q < 64)
  | .kvStats q => decide (q < 64)
  | .sensorConfigure q => decide (q < 64)
  | .sensorRelease q => decide (q < 64)
  | .sensorCalibrate q => decide (q < 64)
  | .sensorParseTable q => decide (q < 64)
  | .sensorTrigger q => decide (q < 64)
  | .sensorEthSend q => decide (q < 64)
  | .sensorStats q => decide (q < 64)
  | .groupConfigure q => decide (q < 64)
  | .groupStart q => decide (q < 64)
  | .groupStop q => decide (q < 64)
  | .worldConfigure q => decide (q < 64)
  | .worldEdit q => decide (q < 64)
  | .worldPublish q => decide (q < 64)
  | .worldLoad q => decide (q < 64)
  | .worldUnload q => decide (q < 64)
  | .planMachine q => decide (q < 64)
  | .planLattice q => decide (q < 64)
  | .planQueryWindow q => decide (q < 64)
  | .planStats q => decide (q < 64)
  | .loopConfigure q => decide (q < 64)
  | .loopProgram q => decide (q < 64)
  | .loopCoeffs q => decide (q < 64)
  | .loopStart q => decide (q < 64)
  | .loopStop q => decide (q < 64)
  | .loopClear q => decide (q < 64)
  | .loopWindowOpen q => decide (q < 64)
  | .loopWindowClose q => decide (q < 64)
  | .loopSafeRelease q => decide (q < 64)
  | .loopStats q => decide (q < 64)
  | .loopPortConfigureCan q => decide (q < 64)
  | .loopPortConfigureSpi q => decide (q < 64)
  | .loopPortConfigurePwm q => decide (q < 64)
  | .loopPortRelease q => decide (q < 64)
  | .powerCapSet q => decide (q < 64)
  | .powerBudgetSet q => decide (q < 64)
  | .powerPaceFollow q => decide (q < 64)
  | .powerRead q => decide (q < 64)
  | .storeSlotWrite q => decide (q < 64)
  | .slotSeal q => decide (q < 64)
  | .storeSlotErase q => decide (q < 64)
  | .storeSlotList q => decide (q < 64)
  | .storeObjPut q => decide (q < 64)
  | .storeObjGet q => decide (q < 64)
  | .storeObjDelete q => decide (q < 64)
  | .storeDefaultsSet q => decide (q < 64)
  | .storeStats q => decide (q < 64)
  | .secAttest q => decide (q < 64)
  | .secUpdate q => decide (q < 64)
  | .updateCommit _ => true
  | .microcodeSwitch unit => decide (unit < 18)
  | .secKeyEnrolSigning q => decide (q < 64)
  | .secKeyEnrolRoot q => decide (q < 64)
  | .secKeyEnrolPolicy q => decide (q < 64)
  | .secKeyRevoke q => decide (q < 64)
  | .secLifecycle q => decide (q < 64)
  | .secDebugUnlock q => decide (q < 64)
  | .secRotate q => decide (q < 64)
  | .rotationWalkEnd cls part => decide (cls < 7) && decide (part < 17)
  | .logRead q => decide (q < 64)
  | .logStats q => decide (q < 64)
  | .logRecordWrite => true
  | .bypass => true
  | .idcode => true
  | .samplePreload => true
  | .extest => true
  | .internalScan => true
  | .railReport rail _ _ => decide (rail < 12)
  | .capEvaluation _ _ => true
  | .inputClamp => true
  | .stepChange die => decide (die < 4)
  | .droopTrip die detector => decide (die < 4) && decide (detector < 4)
  | .droopRelease die => decide (die < 4)
  | .estimateInterval shares _ => decide (shares.length ≤ 16)
  | .thermalRead hottest => hottest.length == 6
  | .m1Trip => true
  | .flowLoss => true
  | .interlockRelease => true
  | .coolantRead _ _ humidity => decide (humidity < 2 ^ 16)
  | .brownOutEntry => true
  | .brownOutExit => true
  | .nandRead _ stepReached => decide (stepReached < 8)
  | .grownBadBlock die block => decide (die < 16) && decide (block < 2816)
  | .dieFence die => decide (die < 16)
  | .staticWearMove die => decide (die < 16)
  | .canaryScan found => found.all fun x => decide (x.die < 16) && decide (x.block < 2816)
  | .blockRefresh die block => decide (die < 16) && decide (block < 2816)
  | .blockRelocation die block => decide (die < 16) && decide (block < 2816)
  | .tileFence tile _ _ => decide (tile < 68)
  | .sequencerError part => decide (part < 16)
  | .cupolaMemoryError _ _ line => decide (line < 2 ^ 16)
  | .steepleMemoryError _ _ => true
  | .cpHeartbeatTimeout => true
  | .cpRestart _ => true
  | .lanternWatchdogExpiry => true
  | .lanternRestart _ => true
  | .entropyTimeout => true
  | .por => true
  | .auxLoss => true
  | .mainLoss => true
  | .mainReturn => true
  | .m1Exit => true
  | .mrstNAssert => true
  | .mrstNRelease => true
  | .moduleStart => true
  | .a1Entry part => decide (part < 16)
  | .sensorPortLockLoss port => decide (port < 12)
  | .huveipTrainingDone port lanes => decide (port < 4) && decide (1 ≤ lanes) && decide (lanes ≤ 8)
  | .inputClampRelease => true
  | .buildingCopyDone => true
  | .hostReadReturn r => r.ok

end Sys2Proof
end

