-- ==== Sys2Proof/Certificates/Slice0/Obligations.lean ====
section
/-! DEFINITION. The statements for the provers. Each is about every state; its hypotheses speak of the state and the operands alone. -/

open Sys2Proof Sys2Proof.Machine

/-- O1. A step takes the command at the front of the queue and runs it with the rest of the queue (R318, R326). -/
def Obligations.StepRunsFrontCommand : Prop :=
  (∀ (c : Instr) (rest : List Instr) (s : State), s.pending = c :: rest → step s = exec c { s with pending := rest }) ∧
  (∀ s : State, s.pending = [] → step s = .next s.tick)

/-- O2. With nothing waiting, a step lets a microsecond of the CP pass on the counters that have power (R17, R28, R247, R294, R381). -/
def Obligations.IdleStepAdvancesClocks : Prop :=
  ∀ s : State, s.pending = [] → ∃ (t : State) (cup cmp lan : DWord), step s = .next t ∧
    t.clk.cp = (if s.module.state = .running ∨ s.module.state = .starting then s.clk.cp + 1 else s.clk.cp) ∧
    t.cup.cycles = (if s.module.state = .running ∨ s.module.state = .starting then s.cup.cycles + cup else s.cup.cycles) ∧
    t.cmp.cycles = (if s.module.state = .running ∨ s.module.state = .starting then s.cmp.cycles + cmp else s.cmp.cycles) ∧
    t.lan.monotonic = (if s.module.state = .off then s.lan.monotonic else s.lan.monotonic + lan) ∧
    { t with clk.cp := s.clk.cp, clk.free := s.clk.free, cup.cycles := s.cup.cycles, cmp.cycles := s.cmp.cycles,
             lan.monotonic := s.lan.monotonic } = s

/-- O3. Every well-formed command answers a next state from every state, and no command faults (R4, R69, R330, R408, R436). -/
def Obligations.WellFormedCommandsComplete : Prop :=
  (∀ (c : Instr) (s : State), c.wf = true → ∃ t, exec c s = .next t) ∧
  (∀ (c : Instr) (s : State) (f : Fault), exec c s ≠ .fault f) ∧
  (∀ (c : Instr) (s : State) (m : String), exec c s ≠ .refused (.notModelled m))

/-- O4. The state right after reset: nothing waits, nothing has been sent, the map is as shipped (R22, R223, R440, R431). -/
def Obligations.ResetState : Prop :=
  State.reset.pending = [] ∧ State.reset.out = [] ∧
  (∀ k, k < 64 → State.reset.tileOf k = 17 * (k / 16) + k % 16) ∧
  (∀ b, b < 544 → ((State.reset.bank b).state = .spare ↔
    (128 ≤ b ∧ b < 136) ∨ (264 ≤ b ∧ b < 272) ∨ (400 ≤ b ∧ b < 408) ∨ (536 ≤ b ∧ b < 544))) ∧
  (∀ b, b < 544 → (State.reset.bank b).state = .spare ∨ (State.reset.bank b).state = .inService) ∧
  (∀ p, (State.reset.part p).state = .free) ∧ State.reset.host.session = none ∧ State.reset.clk.cp = 0 ∧
  State.reset.store.slots = [] ∧ State.reset.sp.mem = [] ∧ State.reset.ddr.mem = []

/-- O5. Scratchpad and DDR5 memory are in canonical form at reset (R87, R154). -/
def Obligations.MemoryCanonicalAtReset : Prop := State.reset.memWf = true

/-- O6. Every step keeps scratchpad and DDR5 memory in canonical form (R87, R92, R97, R154). -/
def Obligations.MemoryCanonicalKept : Prop :=
  ∀ s t : State, s.memWf = true → step s = .next t → t.memWf = true

/-- O7. When a slot of a lane word acts, and what holds its lane (R64, R66, R67, R73, R80, R414). -/
def Obligations.LaneWordGate : Prop :=
  ∀ (s : State) (i : Issue) (slot : Nat) (isEnd : Bool),
    let l := s.lane i.part i.lane
    let counts := fun (u : State) (f : LaneCounters → LaneCounters) => u.modLane i.part i.lane fun x => { x with arch.cnt := f x.arch.cnt }
    let opens := fun (u : State) => if (u.lane i.part i.lane).strideBusy then
        Gate.held (counts u fun n => { n with interlock := n.interlock + 1 })
      else .go (u.modLane i.part i.lane fun x => { x with iss.x0 := x.arch.x, iss.stride0 := x.arch.stride })
    ((s.laneOn i.part i.lane = false ∨ i.next l.iss.done slot = false) → s.gate i slot isEnd = .idle) ∧
    (s.laneOn i.part i.lane = true → i.next l.iss.done slot = true →
      (l.iss.fetched = false → s.gate i slot isEnd = .held (counts s fun n => { n with fetch := n.fetch + 1 })) ∧
      (l.iss.fetched = true → l.iss.done ≠ 0 → s.gate i slot isEnd = .go s) ∧
      (l.iss.fetched = true → l.iss.done = 0 →
        (s.mustStop i isEnd = true → s.gate i slot isEnd = .idle) ∧
        (s.mustStop i isEnd = false → s.waits i = false → s.gate i slot isEnd = opens s) ∧
        (s.mustStop i isEnd = false → s.waits i = true → s.waitBad i = true →
          s.gate i slot isEnd = .held (s.endResident i.part stPoisonConsumed)) ∧
        (s.mustStop i isEnd = false → s.waits i = true → s.waitBad i = false →
          (s.waitMet i = true → s.gate i slot isEnd = opens (s.passWait i)) ∧
          (s.waitMet i = false → ∃ t, s.gate i slot isEnd = .held t ∧ (t.lane i.part i.lane).arch.cnt.wait = l.arch.cnt.wait + 1 ∧
            t.tok = s.tok))))

/-- O8. S_ALU, S_SHIFT, S_MUL and S_COMPARE write the stated 64-bit result to RD (R64, R67, R74). -/
def Obligations.ScalarArithmetic : Prop :=
  ∀ (i : Issue) (w : DWord) (s t : State), s.gate i 0 = .go t →
    let a := t.lx i (sRs1 w)
    let b := t.src2 i w
    let held := t.xHeld i (sRd w :: sRs1 w :: src2Regs w)
    let done := fun (v : DWord) => (Host.Outcome.next ((t.setX i (sRd w) v).slotDone i 0) : Res)
    let wait : Res := .next (t.modLane i.part i.lane fun x => { x with arch.cnt.interlock := x.arch.cnt.interlock + 1 })
    (held = false →
      (sOp w = 1 → exec (.sAlu i w) s = done (a + b)) ∧ (sOp w = 2 → exec (.sAlu i w) s = done (a - b)) ∧
      (sOp w = 3 → exec (.sAlu i w) s = done (a &&& b)) ∧ (sOp w = 4 → exec (.sAlu i w) s = done (a ||| b)) ∧
      (sOp w = 5 → exec (.sAlu i w) s = done (a ^^^ b)) ∧
      (sOp w = 6 → exec (.sShift i w) s = done (a <<< (b.toNat % 64))) ∧
      (sOp w = 7 → exec (.sShift i w) s = done (a >>> (b.toNat % 64))) ∧
      (sOp w = 8 → exec (.sShift i w) s = done (a.sshiftRight (b.toNat % 64))) ∧
      (sOp w = 9 → exec (.sMul i w) s = done (a * b)) ∧
      (sOp w = 10 → exec (.sCompare i w) s = done (if a.toInt < b.toInt then 1 else 0)) ∧
      (sOp w = 11 → exec (.sCompare i w) s = done (if a.toNat < b.toNat then 1 else 0)) ∧
      (sOp w = 12 → exec (.sCompare i w) s = done (if a = b then 1 else 0))) ∧
    (held = true →
      (1 ≤ sOp w ∧ sOp w ≤ 5 → exec (.sAlu i w) s = wait) ∧ (6 ≤ sOp w ∧ sOp w ≤ 8 → exec (.sShift i w) s = wait) ∧
      (sOp w = 9 → exec (.sMul i w) s = wait) ∧ (10 ≤ sOp w ∧ sOp w ≤ 12 → exec (.sCompare i w) s = wait))

/-- O9. S_NOP, MOVI, MOVHI, SETSTR, RDST and CLRST act as stated (R60, R64, R67, R69, R70, R74, R76, R414). -/
def Obligations.ScalarMovesAndStatus : Prop :=
  (∀ (i : Issue) (w : DWord) (s t : State), i.mask = 0 → s.laneOn i.part i.lane = true → (s.lane i.part i.lane).iss.fetched = true →
    s.boundary i false = .go t → sOp w = 0 → exec (.sNop i w) s = .next (t.endIssue i)) ∧
  ∀ (i : Issue) (w : DWord) (s t : State), s.gate i 0 = .go t →
    let a := (t.lane i.part i.lane).arch
    let item := bits (sImm w) 8 0
    let imm : BitVec 32 := w.extractLsb' 0 32
    let v : Word := (t.src2 i w).extractLsb' 0 32
    let done := fun (u : State) => (Host.Outcome.next (u.slotDone i 0) : Res)
    (sOp w = 0 → exec (.sNop i w) s = done t) ∧
    (sOp w = 13 → t.xHeld i [sRd w] = false → exec (.movi i w) s = done (t.setX i (sRd w) (imm.signExtend 64))) ∧
    (sOp w = 14 → t.xHeld i [sRd w] = false →
      exec (.movhi i w) s = done (t.setX i (sRd w) (imm ++ ((t.lx i (sRd w)).extractLsb' 0 32)))) ∧
    (sOp w = 15 → t.xHeld i (src2Regs w) = false → exec (.setstr i w) s = done (t.modLane i.part i.lane fun x =>
      { x with arch.stride := Map.set 0 x.arch.stride (sRd w) (t.src2 i w) })) ∧
    (sOp w = 22 → t.xHeld i [sRd w] = false →
      (item = 0 → exec (.rdst i w) s = done (t.setX i (sRd w) (a.asw.zeroExtend 64))) ∧
      (item = 1 → exec (.rdst i w) s = done (t.setX i (sRd w) (a.lsw.zeroExtend 64))) ∧
      (item = 2 → exec (.rdst i w) s = done (t.setX i (sRd w) a.cnt.issued)) ∧
      (item = 3 → exec (.rdst i w) s = done (t.setX i (sRd w) a.cnt.wait)) ∧
      (item = 4 → exec (.rdst i w) s = done (t.setX i (sRd w) a.cnt.interlock)) ∧
      (item = 5 → exec (.rdst i w) s = done (t.setX i (sRd w) a.cnt.fetch)) ∧
      (item = 6 → exec (.rdst i w) s = done (t.setX i (sRd w) a.cnt.xfence)) ∧
      (0x100 ≤ item → t.badCounter i.part i.lane (item % 256) = false → exec (.rdst i w) s =
        done (t.setX i (sRd w) ((t.counter i.part i.lane (t.tokBase i.part i.lane + item % 256)).zeroExtend 64))) ∧
      (0x100 ≤ item → t.badCounter i.part i.lane (item % 256) = true →
        let u := t.endResident i.part stPoisonConsumed
        exec (.rdst i w) s = .next (if (u.lane i.part i.lane).iss.fetched then u.slotDone i 0 else u))) ∧
    (sOp w = 23 → t.xHeld i (src2Regs w) = false →
      (sRs1 w = 0 → exec (.clrst i w) s = done (t.modLane i.part i.lane fun x => { x with arch.asw := x.arch.asw &&& ~~~v })) ∧
      (sRs1 w ≠ 0 → exec (.clrst i w) s =
        done (t.modLane i.part i.lane fun x => { x with arch.lsw := x.arch.lsw &&& ~~~(v &&& 0xF) }))) ∧
    (let wait : Res := .next (t.modLane i.part i.lane fun x => { x with arch.cnt.interlock := x.arch.cnt.interlock + 1 });
      (t.xHeld i [sRd w] = true → (sOp w = 13 → exec (.movi i w) s = wait) ∧ (sOp w = 14 → exec (.movhi i w) s = wait) ∧
        (sOp w = 22 → exec (.rdst i w) s = wait)) ∧
      (t.xHeld i (src2Regs w) = true → (sOp w = 15 → exec (.setstr i w) s = wait) ∧ (sOp w = 23 → exec (.clrst i w) s = wait)))

/-- O10. BR, BRZ_BRNZ, LOOP and END steer the lane as stated (R66, R69, R74, R79). -/
def Obligations.LaneSequence : Prop :=
  (∀ (i : Issue) (w : DWord) (s t : State), s.gate i 0 = .go t →
    let pc := (t.lane i.part i.lane).arch.pc
    let target := ((pc : Int) + sext 32 (sImm w)).toNat
    let done := fun (u : State) => (Host.Outcome.next (u.slotDone i 0) : Res)
    let taken := done (t.modLane i.part i.lane fun x => { x with iss.target := some target })
    (sOp w = 18 → exec (.br i w) s = taken) ∧
    (t.xHeld i [sRs1 w] = false →
      (sOp w = 19 → exec (.brzBrnz i w) s = if t.lx i (sRs1 w) = 0 then taken else done t) ∧
      (sOp w = 20 → exec (.brzBrnz i w) s = if t.lx i (sRs1 w) = 0 then done t else taken)) ∧
    (sOp w = 21 → exec (.loopArm i w) s = done (t.setLoop i.part i.lane (sRd w % 4)
      { active := true, start := pc + 1, len := bits (sImm w) 27 16 + 1, left := bits (sImm w) 15 0 + 1 }))) ∧
  (∀ (i : Issue) (w : DWord) (s t : State), s.gate i 0 true = .go t → sOp w = 25 →
    exec (.laneEnd i w) s = .next ((t.modLane i.part i.lane fun x => { x with iss.ending := true }).slotDone i 0)) ∧
  (∀ (i : Issue) (slot : Nat) (u : State),
    let l := u.lane i.part i.lane
    i.mask &&& (l.iss.done ||| 2 ^ slot) = i.mask → i.rep ≤ l.iss.iter → l.iss.fetched = true → l.run = .running →
    (l.iss.ending = true → ((u.slotDone i slot).lane i.part i.lane).run = .ended) ∧
    (∀ n, l.iss.ending = false → l.iss.target = some n →
      ((u.slotDone i slot).lane i.part i.lane).arch.pc = n ∧
      ((u.slotDone i slot).lane i.part i.lane).iss.fetched = (u.slotDone i slot).queued i.part i.lane))

/-- O11. RAGGED reads the length table and starts the body with the first item, or passes it (R99, R211, R212, R213, R414). -/
def Obligations.RaggedDispatch : Prop :=
  ∀ (i : Issue) (w : DWord) (s t : State), s.gate i 0 = .go t → sOp w = 24 →
    t.xHeld i [sRs1 w, (if bits (sImm w) 29 28 = 2 then sRs2 w else sRs1 w), sRd w, sRd w + 1, sRd w + 2] = false →
    let imm := sImm w
    let table := t.lx i (sRs1 w)
    let split := (t.lx i (sRs2 w)).toNat
    let q := t.part i.part
    let lp : Loop :=
      { active := true, start := (t.lane i.part i.lane).arch.pc + 1, len := bits imm 27 16 + 1, ragged := true, reg := sRd w,
        mode := bits imm 29 28, gran := bits imm 15 0, split := split % 65536, parts := split / 65536 % 65536, table := table }
    let after := fun (v : State) =>
      (Host.Outcome.next (if (v.lane i.part i.lane).iss.fetched then v.slotDone i 0 else v) : Res)
    let body := fun (u : State) =>
      let found := State.raggedScan (u.raggedCount i.part lp) u i.part ((((u.onEngines i.part).image.map (·.needs.raggedMax))).getD 0) lp
      let misplaced := (bits imm 29 28 = 2 ∧ lp.parts ≤ lp.split) ∨ q.inRegion table.toNat 16 = false ∨ table.toNat % 16 ≠ 0
      let malformed := q.maxSeq < u.raggedCount i.part lp ∨ allZero (u.readBytes i.part table.toNat 16) 4 12 = false
      (misplaced → exec (.ragged i w) s = after (u.addrFault i.part i.lane)) ∧
      (¬ misplaced → u.anyPoison i.part table.toNat 16 = true → exec (.ragged i w) s = after (u.endResident i.part stPoisonConsumed)) ∧
      (¬ misplaced → u.anyPoison i.part table.toNat 16 = false → malformed → exec (.ragged i w) s = after (u.addrFault i.part i.lane)) ∧
      (¬ misplaced → u.anyPoison i.part table.toNat 16 = false → ¬ malformed →
        (∀ lp' d0 d1 d2, found = .item lp' d0 d1 d2 → exec (.ragged i w) s =
          .next (((u.setLoop i.part i.lane (bits imm 31 30) lp').modLane i.part i.lane fun x => x.putItem (sRd w) d0 d1 d2).slotDone i 0)) ∧
        (found = .done → exec (.ragged i w) s =
          .next ((u.modLane i.part i.lane fun x => { x with iss.target := some (lp.start + lp.len) }).slotDone i 0)))
    (∀ u, u = t.flushTable i.part lp → (u.lane i.part i.lane).iss.fetched = true → body u) ∧
    ((∀ g, t.gathered g = []) → body t)

/-- O12. SLD and SST join the gather buffer; an entry issues as one read-modify-write of its line (R64, R67, R74, R89, R97, R99, R414). -/
def Obligations.ScalarMemory : Prop :=
  (∀ (i : Issue) (w : DWord) (s t : State), s.gate i 0 = .go t →
    let n := if sRs2 w % 4 < 2 then 4 else 8
    let la := (t.lx i (sRs1 w) + sImmX w).toNat
    let sa := (t.lx i (sRd w) + sImmX w).toNat
    let q := t.part i.part
    let load := t.modLane i.part i.lane fun x =>
      { x with iss.xNew := sRd w :: x.iss.xNew, iss.wroteA := if sRd w < 16 then sRd w :: x.iss.wroteA else x.iss.wroteA }
    let la' : GAccess := ⟨i.part, i.lane, false, la % 64, n, sRs2 w == 1, sRd w, 0⟩
    let sa' : GAccess := ⟨i.part, i.lane, true, sa % 64, n, false, 0, t.lx i (sRs1 w)⟩
    let room := fun (ln : Nat) => (∃ e ∈ t.gathered (ln / 8192 / 8), e.line = ln) ∨ (t.gathered (ln / 8192 / 8)).length < 16
    let after := fun (u : State) =>
      (Host.Outcome.next (if (u.lane i.part i.lane).iss.fetched then u.slotDone i 0 else u) : Res)
    let wait : Res := .next (t.modLane i.part i.lane fun x => { x with arch.cnt.interlock := x.arch.cnt.interlock + 1 })
    (sOp w = 16 →
      (t.xHeld i [sRd w, sRs1 w] = false → t.lineHeld i la n = false →
        (la % n = 0 → q.inRegion la n = true → room (q.line la) →
          exec (.sld i w) s = .next ((load.gather (q.line la) la').slotDone i 0)) ∧
        (la % n = 0 → q.inRegion la n = true → exec (.sld i w) s = after (load.gather ((load.part i.part).line la) la')) ∧
        ((la % n ≠ 0 ∨ q.inRegion la n = false) → exec (.sld i w) s = after (load.addrFault i.part i.lane))) ∧
      ((t.xHeld i [sRd w, sRs1 w] = true ∨ t.lineHeld i la n = true) → exec (.sld i w) s = wait)) ∧
    (sOp w = 17 →
      (t.xHeld i [sRd w, sRs1 w] = false → t.lineHeld i sa n = false →
        (sa % n = 0 → q.inRegion sa n = true → room (q.line sa) →
          exec (.sst i w) s = .next ((t.gather (q.line sa) sa').slotDone i 0)) ∧
        (sa % n = 0 → q.inRegion sa n = true → exec (.sst i w) s = after (t.gather (q.line sa) sa')) ∧
        ((sa % n ≠ 0 ∨ q.inRegion sa n = false) → exec (.sst i w) s = after (t.addrFault i.part i.lane))) ∧
      ((t.xHeld i [sRd w, sRs1 w] = true ∨ t.lineHeld i sa n = true) → exec (.sst i w) s = wait))) ∧
  (∀ (s : State) (ln : Nat) (a : GAccess),
    let g := ln / 8192 / 8
    let es := s.gathered g
    ((∃ e ∈ es, e.line = ln) → s.gather ln a =
      s.setGathered g (es.map fun e => if e.line = ln then { e with accs := e.accs ++ [a] } else e)) ∧
    ((∀ e ∈ es, e.line ≠ ln) → es.length < 16 → s.gather ln a = s.setGathered g (es ++ [⟨ln, [a]⟩])) ∧
    (∀ e rest, es = e :: rest → (∀ e ∈ es, e.line ≠ ln) → 16 ≤ es.length →
      let u := s.flush e.line
      s.gather ln a = u.setGathered g (u.gathered g ++ [⟨ln, [a]⟩]))) ∧
  (∀ (g ln : Nat) (s : State) (e : GEntry), (s.gathered g).find? (·.line == ln) = some e → ln / 8192 / 8 = g →
    exec (.gatherEntryIssue g ln) s =
      .next (e.accs.foldl (fun t a => t.access ln a) (s.setGathered g ((s.gathered g).filter (·.line != ln))))) ∧
  (∀ (s : State) (ln : Nat) (a : GAccess), a.store = true → (s.bank (ln / 8192)).state ≠ .fenced → Map.wf 0 s.sp.mem = true → ∀ k,
    Map.get 0 (s.access ln a).sp.mem k = if 64 * ln + a.off ≤ k ∧ k < 64 * ln + a.off + a.width
      then BitVec.ofNat 8 (a.data.toNat / 256 ^ (k - (64 * ln + a.off))) else Map.get 0 s.sp.mem k) ∧
  (∀ (s : State) (ln : Nat) (a : GAccess), a.store = false →
    (s.linePoison ln = true → s.access ln a = s.endResident a.part stPoisonConsumed) ∧
    (s.linePoison ln = false → (s.lane a.part a.lane).iss.fetched = true → Map.wf 0 (s.lane a.part a.lane).arch.x = true →
      ((s.lane a.part a.lane).iss.xBusy.contains a.rd = true ∨ (s.lane a.part a.lane).iss.xNew.contains a.rd = true) →
      let v := leNat a.width ((s.readLine ln).drop a.off)
      Map.get 0 ((s.access ln a).lane a.part a.lane).arch.x a.rd =
        if a.signed then BitVec.ofInt 64 (sext 32 v) else BitVec.ofNat 64 v))

/-- O13. LDT, LDL, LDV and MVT fill operand slots, line-buffer units and vector registers (R46, R60, R64, R69, R74, R96, R99). -/
def Obligations.TileLoads : Prop :=
  (∀ (i : Issue) (second : Bool) (w : DWord) (s t : State) (k : RKind) (c : Instr), i.lane ≠ 255 →
    (k, lOp w, c) ∈ [(RKind.ldt, 0, Instr.ldt i second w), (.ldl, 1, .ldl i second w), (.ldv, 2, .ldv i second w)] →
    let slot := if second then 2 else 1
    s.gate i slot = .go t → t.xHeld i [lAreg w] = false → t.destBusy i k w = false →
    let addr := (t.lx i (lAreg w) + lOff w).toNat
    let good := addr % k.align = 0 ∧ (t.part i.part).inRegion addr (k.unit * lCount w) = true
    let id := t.clk.nextId
    let r : Read :=
      { id := id, kind := k, part := i.part, lane := i.lane, addr := BitVec.ofNat 64 addr, dst := lDst w, count := lCount w }
    let units := run (lDst w) (lCount w)
    let u : State := { t with clk.nextId := id + 1, fab.reads := t.fab.reads ++ [r] }
    let x : State := ({ t with clk.nextId := id + 1 } : State).supersede i.part i.lane units
    let v : State := { x with fab.reads := x.fab.reads ++ [r] }
    (good → k = .ldt → exec c s = .next ((u.modTileAt i.part i.lane fun y => y.startSlots units).slotDone i slot)) ∧
    (good → k = .ldl → exec c s = .next (u.slotDone i slot)) ∧
    (good → k = .ldv → exec c s =
      .next ((v.modLane i.part i.lane fun y => { y with iss.rNew := id :: y.iss.rNew }).slotDone i slot)) ∧
    (¬ good → let f := t.addrFault i.part i.lane
      exec c s = .next (if (f.lane i.part i.lane).iss.fetched then f.slotDone i slot else f))) ∧
  (∀ (i : Issue) (second : Bool) (w : DWord) (s t : State), i.lane ≠ 255 → lOp w = 3 →
    let slot := if second then 2 else 1
    let src := bits w.toNat 9 0
    s.gate i slot = .go t → meet (run src (lCount w) ++ run (lDst w) (lCount w)) (t.slotsInFlight i.part i.lane) = false →
    meet (run (lDst w) (lCount w)) (t.tileAt i.part i.lane).slotsRead = false →
    let u := t.modTileAt i.part i.lane fun x => x.moveSlots (lCount w) src (lDst w)
    exec (.mvt i second w) s = .next
      ((if (run src (lCount w)).any (t.tileAt i.part i.lane).slotBad then u.setAsw i.part i.lane 32 else u).slotDone i slot)) ∧
  (∀ (s : State) (id : Nat) (r : Read), s.fab.reads.find? (·.id == id) = some r →
    let new := (s.lane r.part r.lane).iss.rNew.contains id
    let u := s.flushRun r.part r.addr.toNat (r.kind.unit * r.count)
    let v := (List.range r.count).foldl (fun t k => t.landUnit r k) { u with fab.reads := u.fab.reads.filter (·.id != id) }
    (new = false → s.readTurn r = true → exec (.scratchpadReadReturn id) s =
      .next (if u.anyPoison r.part r.addr.toNat (r.kind.unit * r.count) then v.setAsw r.part r.lane 32 else v)) ∧
    (new = true ∨ s.readTurn r = false → exec (.scratchpadReadReturn id) s = .next s)) ∧
  (∀ (s : State) (id : Nat), s.fab.reads.find? (·.id == id) = none → exec (.scratchpadReadReturn id) s = .next s) ∧
  (∀ (t : Tile) (k : Nat) (b : List Byte) (bad : Bool), b.length = 272 →
    (t.writeSlot k 0 b bad).readSlot k = b ∧ ∀ j, j ≠ k → (t.writeSlot k 0 b bad).readSlot j = t.readSlot j)

/-- O14. MATMUL and WINO_OUT issue accumulator rows; ACCUMULATOR_WRITE writes them (R44, R45, R46, R51, R56, R60). -/
def Obligations.MatrixOperations : Prop :=
  (∀ (i : Issue) (w : BitVec 96) (s t : State), i.lane ≠ 255 → s.gate i 3 = .go t →
    let o := mDecode w
    let tile := t.tileAt i.part i.lane
    let seed := t.clk.free
    let done := fun (n : Nat) (slots units : List Nat) (r : MRes) =>
      (Host.Outcome.next (((({ t with clk.free := seed + n } : State).modTileAt i.part i.lane
        fun x => { x.startReads slots units with accPend := x.accPend ++ r.rows }).setAsw i.part i.lane r.flags).slotDone i 3) : Res)
    (bits w.toNat 95 92 = 0 → t.matrixHeld i o = false →
      (o.wino = 0 → exec (.matmul i w) s = done (16 * o.ng * o.rows) o.reads.1 o.reads.2 (tile.direct o seed)) ∧
      (o.wino = 1 → exec (.matmul i w) s = done (wFree * 16 * o.rows + 64 * o.rows) o.reads.1 o.reads.2 (tile.wino2 o seed)) ∧
      (1 < o.wino → exec (.matmul i w) s = done (wFree * 36 * o.rows + 576 * o.rows) o.reads.1 o.reads.2 (tile.wino4 o seed))) ∧
    (bits w.toNat 95 92 = 1 → t.winoOutHeld i o = false →
      exec (.winoOut i w) s = done (256 * o.rows) [] [] (tile.winoOut o seed))) ∧
  (∀ (x : Tile) (o : MOp) (seed j r n : Nat), o.fp = false → j < o.ng → r < o.rows → n < 16 →
    ∃ row, (x.direct o seed).rows[j * o.rows + r]? = some row ∧ row.row = o.accBase + j * o.rows + r ∧ row.int32 = true ∧
      row.words[n]? = some (BitVec.ofInt 32 ((if o.start then 0 else (nth 0 (x.accNow row.row).1 n).toInt) +
        ((List.range o.kg).map fun g => intSum (rowElems o.afmt (o.afmt == 4) (x.actRow o (o.abase + g * o.astride) r).1)
          (rowElems o.wfmt o.w4 (x.wRow o (g * o.ng + j) n).1)).foldl (· + ·) 0))) ∧
  (∀ (s : State) (p l : Nat), exec (.accumulatorWrite p l) s =
    .next (s.modTileAt p l fun t => { (t.accPend.foldl Tile.writeAcc t) with slotReaders := [], unitReaders := [], accPend := [] })) ∧
  (∀ (x : Tile) (r : AccRow), r.words.length = 16 →
    (x.writeAcc r).readAcc r.row = r.words ∧ ∀ k, k ≠ r.row → (x.writeAcc r).readAcc k = x.readAcc k)

/-- O15. The vector operations over one, two or three sources give one result word for each lane (R37, R46, R58, R60, R64). -/
def Obligations.VectorArithmetic : Prop :=
  ∀ (i : Issue) (w : BitVec 96) (s t : State), i.lane ≠ 255 → s.gate i 4 = .go t →
    let o := vDecode w
    let ok := fun (n : Nat) => t.vHeld i o n false = false
    let seed := t.clk.free
    let done := fun (n : Nat) (f : Nat → Word → Word → Word → Word × Nat) =>
      let v := t.vSources i o n false
      let r := (List.range 64).map fun k => f k (nth 0 v.a k) (nth 0 v.b k) (nth 0 v.c k)
      (Host.Outcome.next ((({ t with clk.free := seed + 128 } : State).vToReg i o (r.map Prod.fst)
        (r.foldl (fun a x => a ||| x.2) 0) v.poison).slotDone i 4) : Res)
    let fp := vIsFp o.ty
    let elem := fun (k : Nat) (r : Nat × Nat) => (vLane o.ty (seed + k) r.1, r.2)
    (o.op = 0 → exec (.vNop i w) s = .next (t.slotDone i 4)) ∧
    (o.op = 1 → ok 3 → exec (.vFma i w) s = done 3 fun k a b c => elem k (vFma o.ty o.sat (seed + k + 64) a b c)) ∧
    (o.op = 2 → ok 2 → exec (.vAdd i w) s = done 2 fun k a b _ => elem k
      (if fp then vFpOut o.ty (seed + k + 64) (FVal.add (vFp o.ty a) (vFp o.ty b)) else vIntOut o.ty o.sat (vInt o.ty a + vInt o.ty b))) ∧
    (o.op = 3 → ok 2 → exec (.vSub i w) s = done 2 fun k a b _ => elem k
      (if fp then vFpOut o.ty (seed + k + 64) (FVal.add (vFp o.ty a) (vFp o.ty b).negate)
       else vIntOut o.ty o.sat (vInt o.ty a - vInt o.ty b))) ∧
    (o.op = 4 → ok 2 → exec (.vMul i w) s = done 2 fun k a b _ => elem k
      (if fp then vFpOut o.ty (seed + k + 64) (FVal.mul (vFp o.ty a) (vFp o.ty b)) else vIntOut o.ty o.sat (vInt o.ty a * vInt o.ty b))) ∧
    (o.op = 5 → ok 2 → exec (.vMax i w) s = done 2 fun k a b _ => elem k (vPick o.ty true (seed + k + 64) a b)) ∧
    (o.op = 6 → ok 2 → exec (.vMin i w) s = done 2 fun k a b _ => elem k (vPick o.ty false (seed + k + 64) a b)) ∧
    (o.op = 7 → ok 2 → exec (.cmplt i w) s = done 2 fun _ a b _ =>
      (if (if fp then (vFp o.ty a).lt (vFp o.ty b) else decide (vInt o.ty a < vInt o.ty b)) then 1 else 0, 0)) ∧
    (o.op = 8 → ok 2 → exec (.cmpeq i w) s = done 2 fun _ a b _ =>
      (if (if fp then (vFp o.ty a).eq (vFp o.ty b) else decide (vInt o.ty a = vInt o.ty b)) then 1 else 0, 0)) ∧
    (o.op = 9 → ok 3 → exec (.sel i w) s = done 3 fun _ a b c => (if vNonZero o.ty c then a else b, 0)) ∧
    (o.op = 10 → ok 2 →
      (o.imm.toNat % 4 = 0 → exec (.vLogic i w) s = done 2 fun _ a b _ => (a &&& b, 0)) ∧
      (o.imm.toNat % 4 = 1 → exec (.vLogic i w) s = done 2 fun _ a b _ => (a ||| b, 0)) ∧
      (o.imm.toNat % 4 = 2 → exec (.vLogic i w) s = done 2 fun _ a b _ => (a ^^^ b, 0))) ∧
    (o.op = 12 → ok 2 → exec (.vShl i w) s = done 2 fun k a b _ => (vLane o.ty (seed + k) (vShift o.ty false (seed + k + 64) a b), 0)) ∧
    (o.op = 13 → ok 2 → exec (.vShr i w) s = done 2 fun k a b _ => (vLane o.ty (seed + k) (vShift o.ty true (seed + k + 64) a b), 0)) ∧
    (o.op = 22 → ok 1 → exec (.vMov i w) s = done 1 fun _ a _ _ => (a, 0))

/-- O16. EXP2, LOG2, RCP, RSQ, CVT, QBLK, RSUM, RMAX, VST and the return of vector results (R46, R53, R58, R59, R60). -/
def Obligations.VectorFunctions : Prop :=
  (∀ (i : Issue) (w : BitVec 96) (s t : State), i.lane ≠ 255 → s.gate i 4 = .go t →
    let o := vDecode w
    let seed := t.clk.free
    let t1 : State := { t with clk.free := seed + 128 }
    let v := t.vSources i o 1 false
    let st := t.vSources i o 1 true
    let done := fun (f : Nat → Word → Word × Nat) =>
      let r := (List.range 64).map fun k => f k (nth 0 v.a k)
      (Host.Outcome.next ((t1.vToReg i o (r.map Prod.fst) (r.foldl (fun a x => a ||| x.2) 0) v.poison).slotDone i 4) : Res)
    let reduced := fun (r : Nat × Nat) => (Host.Outcome.next ((t1.vToReg i o (vLane o.ty seed r.1 ::
      (List.range 63).map fun k => (BitVec.ofNat 32 (Config.freeWord (seed + 1 + k)).toNat : Word)) r.2 v.poison).slotDone i 4) : Res)
    (t.vHeld i o 1 false = false →
      (o.op = 14 → exec (.exp2 i w) s = done fun k a => inType 0 (seed + k) (vExp2 (seed + k + 64) a)) ∧
      (o.op = 15 → exec (.log2 i w) s = done fun k a => inType 0 (seed + k) (vLog2 (seed + k + 64) a)) ∧
      (o.op = 16 → exec (.rcp i w) s = done fun k a => inType 0 (seed + k) (vRcp (seed + k + 64) a)) ∧
      (o.op = 17 → exec (.rsq i w) s = done fun k a => inType 0 (seed + k) (vRsq (seed + k + 64) a)) ∧
      (o.op = 18 → ∃ f : Nat → Word → Word × Nat, exec (.cvt i w) s = done f ∧ ∀ k a,
        (f k a).1.toNat % 2 ^ tgtWidth o.tgt = (convert o.rnd o.tgt (seed + k + 64) (vVal o.ty a)).1 % 2 ^ tgtWidth o.tgt ∧
        (f k a).2 = (convert o.rnd o.tgt (seed + k + 64) (vVal o.ty a)).2) ∧
      (o.op = 20 → exec (.rsum i w) s = reduced (sumLanes o (seed + 64) v.a)) ∧
      (o.op = 21 → exec (.rmax i w) s = reduced (maxLanes o (seed + 64) v.a))) ∧
    (t.vHeld i o 1 true = false →
      (o.op = 19 → o.memSel = true → o.kind = 1 → exec (.qblk i w) s =
        .next ((t1.vToMem i o (qblkPieces o seed st.a).1 (qblkPieces o seed st.a).2 st.poison).slotDone i 4)) ∧
      (o.op = 19 → ¬ (o.memSel = true ∧ o.kind = 1) → exec (.qblk i w) s =
        .next ((t1.setAsw i.part i.lane (qblkPieces o seed st.a).2).slotDone i 4)) ∧
      (o.op = 23 → o.memSel = true → exec (.vst i w) s = .next ((t.vToMem i o [(0, wordBytes st.a)] 0 st.poison).slotDone i 4)) ∧
      (o.op = 23 → o.memSel = false → exec (.vst i w) s = .next (t.slotDone i 4)))) ∧
  (∀ (s : State) (p l : Nat) (rest : List VecRes),
    let took := s.modLane p l fun x => { x with iss.vPend := rest }
    (∀ d ws bad, (s.lane p l).iss.vPend = .reg d ws bad :: rest →
      exec (.vectorResultReady p l) s = .next (took.modLane p l fun x => { x with arch := x.arch.writeV d ws bad })) ∧
    (∀ kind idx ps bad i32, (s.lane p l).iss.vPend = .mem kind idx ps bad i32 :: rest →
      exec (.vectorResultReady p l) s = .next (took.modTileAt p l fun t => t.vWrite kind idx ps bad i32))) ∧
  (∀ seed, vExp2 seed 0x7F800000 = (0x7F800000, 0) ∧ vExp2 seed 0xFF800000 = (0, 0) ∧ vLog2 seed 0 = (0xFF800000, 0) ∧
    vRcp seed 0 = (0x7F800000, 0) ∧ vRsq seed 0 = (0x7F800000, 0)) ∧
  (∀ (a : LaneArch) (d : Nat) (ws : List Word) (bad : Bool), ws.length = 64 →
    (a.writeV d ws bad).readV d = ws ∧ ∀ k, k ≠ d → (a.writeV d ws bad).readV k = a.readV k)

/-- O17. PUT, SIGNAL, HALO, WB, WBW and the record post issue one tracked write each (R74, R75, R97, R99, R113, R122, R125, R190, R414). -/
def Obligations.LaneWrites : Prop :=
  (∀ (i : Issue) (w : DWord) (s t u : State),
    let bad := fun (slot : Nat) (v : State) =>
      let f := v.addrFault i.part i.lane
      (Host.Outcome.next (if (f.lane i.part i.lane).iss.fetched then f.slotDone i slot else f) : Res)
    let done := fun (slot : Nat) (v : State) => (Host.Outcome.next (v.slotDone i slot) : Res)
    let live := fun (v : State) => (v.lane i.part i.lane).iss.fetched = true
    let o := wDecode w
    (s.gate i 5 = .go t →
      (xOp w = 0 → t.xHeld i (xRegs w true) = false → t.xSourceHeld i w = false → t.trackerFull (t.lx i (xHreg w)) = false →
        u = t.xFlush i w → live u →
        (∀ data poison, u.xSource i w = some (data, poison) → (u.lx i (xOreg w)).toNat % 64 = 0 →
          let wr : Write := { id := 0, src := .lane i.part i.lane, op := .put, part := i.part, handle := u.lx i (xHreg w),
                              off := (u.lx i (xOreg w)).toNat, data := data, poison := poison, tctr := xTctr w, tamt := xTamt w }
          exec (.put i w) s = done 5 ((u.sawPoison i poison).issueWrite wr).2) ∧
        ((u.xSource i w = none ∨ (u.lx i (xOreg w)).toNat % 64 ≠ 0) → exec (.put i w) s = bad 5 u)) ∧
      (xOp w = 1 → t.xHeld i [xHreg w] = false → t.trackerFull (t.lx i (xHreg w)) = false →
        (xTamt w = 0 → exec (.signal i w) s = done 5 t) ∧
        (xTamt w ≠ 0 →
          let wr : Write := { id := 0, src := .lane i.part i.lane, op := .signal, part := i.part, handle := t.lx i (xHreg w),
                              tctr := xTctr w, tamt := xTamt w }
          exec (.signal i w) s = done 5 (t.issueWrite wr).2)) ∧
      (xOp w = 2 → t.xHeld i (xRegs w true) = false → t.xSourceHeld i w = false → u = t.xFlush i w → live u →
        let to_ := (u.lx i (xHreg w)).toNat
        let unit := (u.lx i (xOreg w)).toNat
        let placed := to_ < ((u.onEngines i.part).image.map (·.needs.lanes)).getD 0 ∧ unit + xLen w ≤ 1024
        (∀ data poison, u.xSource i w = some (data, poison) → placed →
          let v := u.sawPoison i poison
          let wr : Write := { id := v.clk.nextId, src := .lane i.part i.lane, op := .halo, part := i.part, dst := to_, off := unit,
                              data := data, poison := poison, tctr := u.tokBase i.part to_ + xTctr w, tamt := xTamt w }
          exec (.halo i w) s = done 5 (({ v with clk.nextId := v.clk.nextId + 1 } : State).addWrite wr)) ∧
        ((u.xSource i w = none ∨ ¬ placed) → exec (.halo i w) s = bad 5 u))) ∧
    (s.gate i 6 = .go t →
      (wOp w = 0 → i.lane ≠ 255 → t.xHeld i [o.dreg] = false → t.wHeld i o = false →
        let placed := (t.lx i o.dreg).toNat % 64 = 0 ∧ (t.part i.part).inRegion (t.lx i o.dreg).toNat (t.wData i o).1.length = true
        (placed → let v := (t.wData i o).2.2
          let wr : Write := { id := v.clk.nextId, src := .lane i.part i.lane, op := .wb, part := i.part, dst := (t.lx i o.dreg).toNat,
                              data := (t.wData i o).1, poison := (t.wData i o).2.1, tctr := t.tokBase i.part i.lane + o.tctr,
                              tamt := o.tamt }
          exec (.wb i w) s = done 6 (({ v with clk.nextId := v.clk.nextId + 1 } : State).addWrite wr)) ∧
        (¬ placed → exec (.wb i w) s = bad 6 t)) ∧
      (wOp w = 1 → i.lane ≠ 255 → t.xHeld i [16 + o.dreg, 16 + o.oreg] = false → t.wHeld i o = false →
        t.trackerFull (t.lx i (16 + o.dreg)) = false →
        ((t.lx i (16 + o.oreg)).toNat % 64 = 0 →
          let wr : Write := { id := 0, src := .lane i.part i.lane, op := .wbw, part := i.part, handle := t.lx i (16 + o.dreg),
                              off := (t.lx i (16 + o.oreg)).toNat, data := (t.wData i o).1, poison := (t.wData i o).2.1,
                              tctr := o.tctr, tamt := o.tamt }
          exec (.wbw i w) s = done 6 ((t.wData i o).2.2.issueWrite wr).2) ∧
        ((t.lx i (16 + o.oreg)).toNat % 64 ≠ 0 → exec (.wbw i w) s = bad 6 t)) ∧
      (wOp w = 0 → i.lane = 255 → t.xHeld i [bits w.toNat 59 56, 16 + bits w.toNat 55 52] = false → t.recordHeld i w = false →
        let a := (t.lx i (bits w.toNat 59 56)).toNat
        let n := bits w.toNat 35 28 + 1
        u = t.flushRun i.part a (64 * n) → live u →
        let placed := a % 64 = 0 ∧ (u.part i.part).inRegion a (64 * n) = true
        (placed →
          let post : Post := { id := u.clk.nextId, queue := .record, part := i.part, tctr := u.tokBase i.part 255 + bits w.toNat 51 44,
                               tamt := bits w.toNat 43 36, ctx := ((u.part i.part).running).getD 0 }
          let wr : Write := { id := 0, src := .post i.part u.clk.nextId, op := .record, part := i.part,
                              handle := u.lx i (16 + bits w.toNat 55 52), data := (u.readLines i.part a n).flatMap Prod.fst,
                              poison := (u.readLines i.part a n).map Prod.snd, tctr := 0, tamt := 1 }
          exec (.unitRecordPost i w) s =
            done 6 (({ u with clk.nextId := u.clk.nextId + 1, fab.posts := u.fab.posts ++ [post] } : State).issueWrite wr).2) ∧
        (¬ placed → exec (.unitRecordPost i w) s = bad 6 u)))) ∧
  (∀ (v : State) (wr : Write), hReserved wr.handle = 0 → v.isOwn (hDevice wr.handle) = true →
    (v.issueWrite wr).2 = { v with clk.nextId := v.clk.nextId + 1, fab.writes := v.fab.writes ++ [{ wr with id := v.clk.nextId }] }) ∧
  (∀ (i : Issue) (w : DWord) (s t : State) (slot : Nat), s.gate i slot = .go t →
    (t.lane i.part i.lane).iss.fetched = true ∧ (xKind w ≠ 3 → t.xFlush i w = t) ∧
    (∀ a n, (∀ g, t.gathered g = []) → t.flushRun i.part a n = t))

/-- O18. TINC, TSET, XFENCE, WAIT_SATISFIED and LANE_FETCH_RETURN (R66, R73, R74, R75, R77, R121, R125, R414). -/
def Obligations.TokensAndFence : Prop :=
  (∀ (i : Issue) (w : DWord) (s t : State), s.gate i 5 = .go t →
    let c := t.tokBase i.part i.lane + xTctr w
    (xOp w = 3 → exec (.tinc i w) s = .next ((t.increment i.part i.lane c (xTamt w)).slotDone i 5)) ∧
    (xOp w = 4 → t.xHeld i [xOreg w] = false →
      let u := t.setCounter i.part i.lane c ((t.lx i (xOreg w)).extractLsb' 0 32)
      exec (.tset i w) s =
        .next (({ u with tokBad := Map.set false t.tokBad (t.tokKey i.part i.lane c) false } : State).slotDone i 5)) ∧
    (xOp w = 5 →
      let out := t.fab.writes.any fun x => x.src == .lane i.part i.lane || (i.lane == 255 && x.op == .record && x.src.ofPart i.part)
      exec (.xfence i w) s = if out then
        .next (t.modLane i.part i.lane fun x => { x with arch.cnt.xfence := x.arch.cnt.xfence + 1 }) else .next (t.slotDone i 5))) ∧
  (∀ (s : State) (p l c n : Nat), Map.wf 0 s.tok = true →
    (s.increment p l c n).counter p l c = BitVec.ofNat 32 (min 0xFFFFFFFF ((s.counter p l c).toNat + n)) ∧
    ∀ k, k ≠ s.tokKey p l c → Map.get 0 (s.increment p l c n).tok k = Map.get 0 s.tok k) ∧
  (∀ (s : State) (i : Issue),
    let l := s.lane i.part i.lane
    let e := s.waitEntry i
    let c := s.tokBase i.part i.lane + bits e 7 0
    let n := bits e 31 16 + 1
    s.laneOn i.part i.lane = true → l.iss.fetched = true → l.iss.done = 0 → s.mustStop i (s.atYield i.part i.lane) = false →
    s.waits i = true →
    (Map.get false s.tokBad (s.tokKey i.part i.lane c) = true →
      exec (.waitSatisfied i) s = .next (s.endResident i.part stPoisonConsumed)) ∧
    (Map.get false s.tokBad (s.tokKey i.part i.lane c) = false → n ≤ (s.counter i.part i.lane c).toNat →
      let u := if e.testBit 8 then s.setCounter i.part i.lane c (s.counter i.part i.lane c - BitVec.ofNat 32 n) else s
      exec (.waitSatisfied i) s = .next (u.modLane i.part i.lane fun x => { x with iss.granted := true, iss.waitSince := none })) ∧
    (Map.get false s.tokBad (s.tokKey i.part i.lane c) = false → (s.counter i.part i.lane c).toNat < n →
      exec (.waitSatisfied i) s = .next s)) ∧
  (∀ (s u : State) (p l : Nat), s.laneOn p l = true →
    let q := (s.lane p l).iss
    let lo := (s.fillTo p l).1
    let hi := (s.fillTo p l).2
    let a := if q.qLo ≤ lo ∧ lo ≤ q.qHi then max lo q.qHi else lo
    u = s.flushRun p a (hi - a) → u.laneOn p l = true →
    (u.anyPoison p a (hi - a) = true → exec (.laneFetchReturn p l) s = .next (u.endResident p stPoisonConsumed)) ∧
    (u.anyPoison p a (hi - a) = false → ∃ t, exec (.laneFetchReturn p l) s = .next t ∧
      (t.lane p l).iss.qLo = lo ∧ (t.lane p l).iss.qHi = hi ∧ (t.lane p l).iss.fetched = t.queued p l ∧
      (t.lane p l).arch = (u.lane p l).arch ∧ t.tok = u.tok ∧ t.sp = u.sp))

/-- O19. The shared lane's DMA, Floam and stem posts enter their queues with their first descriptor (R75, R99, R160, R161, R163, R172, R193, R218, R414). -/
def Obligations.SharedLanePosts : Prop :=
  ∀ (i : Issue) (second : Bool) (w : DWord) (v : BitVec 96) (s t : State), i.lane = 255 →
    let after := fun (slot : Nat) (u : State) =>
      (Host.Outcome.next (if (u.lane i.part i.lane).iss.fetched then u.slotDone i slot else u) : Res)
    let joined := fun (q : PQueue) (n : Nat) =>
      let x : Post := { id := t.clk.nextId, queue := q, part := i.part, op := bits n 63 60,
                        addr := t.lx i (bits n 59 56) + (BitVec.ofNat 32 n).signExtend 64,
                        tctr := t.tokBase i.part 255 + bits n 55 48, tamt := bits n 47 40, sel := bits n 39 32,
                        base := ((t.onEngines i.part).image.map (·.dataBase)).getD 0,
                        span := ((t.onEngines i.part).image.map (·.needs.ddr5)).getD 0,
                        ctx := ((t.part i.part).running).getD 0 }
      (x, ({ t with clk.nextId := t.clk.nextId + 1, fab.posts := t.fab.posts ++ [x] } : State))
    let readable := fun (x : Post) =>
      (t.part i.part).inRegion x.addr.toNat 32 = true ∧ t.anyPoison i.part x.addr.toNat 32 = false
    let head := fun (x : Post) => t.readBytes i.part x.addr.toNat 32
    let inWork := fun (x : Post) (u : State) => u.modPost x.id fun y =>
      { y with cur := head x, desc := 0, moved := 0, tiles := 0, got := 0, bad := false, entryBad := false, write := none }
    let op := bits w.toNat 63 60
    let slot := if second then 2 else 1
    (s.gate i slot = .go t → t.xHeld i [bits w.toNat 59 56] = false →
      let x := (joined (if second then .l1 else .l0) w.toNat).1
      let u := (joined (if second then .l1 else .l0) w.toNat).2
      let each := fun (out : Res) =>
        (op = 0 → exec (.dmaDdr5ToScratchpad i second w) s = out) ∧ (op = 1 → exec (.dmaScratchpadToDdr5 i second w) s = out) ∧
        (op = 2 → exec (.dmaNandToScratchpad i second w) s = out) ∧ (op = 3 → exec (.dmaHostToScratchpad i second w) s = out) ∧
        (op = 4 → exec (.dmaScratchpadToHost i second w) s = out) ∧ (op = 5 → exec (.huveipDma i second w) s = out)
      each (after slot (u.loadDma x).kickDma) ∧
      ((∀ g, t.gathered g = []) → readable x → u.descOk x (head x) = true → dLen (head x) ≠ 0 →
        each (.next ((inWork x u).kickDma.slotDone i slot)))) ∧
    (s.gate i 3 = .go t → t.xHeld i [bits v.toNat 59 56] = false → bits v.toNat 63 60 = 0 →
      let x := (joined .floam v.toNat).1
      let u := (joined .floam v.toNat).2
      exec (.floamPost i v) s = after 3 (State.loadFloam 4097 u x) ∧
      ((∀ g, t.gathered g = []) → readable x → u.entryOk x (head x) = true → fBytes (head x) ≠ 0 → fCache (head x) = false →
        exec (.floamPost i v) s = .next (((inWork x u).cacheRead i.part).slotDone i 3))) ∧
    (s.gate i 4 = .go t → t.xHeld i [bits v.toNat 59 56] = false → bits v.toNat 63 60 = 0 →
      let x := (joined .stem v.toNat).1
      let u0 := (joined .stem v.toNat).2
      let u := u0.flushRun i.part x.addr.toNat 128
      let b := u.readBytes i.part x.addr.toNat 128
      let live := fun (y : State) => (y.lane i.part i.lane).iss.fetched = true
      let sound := stemFieldsOk b (u.sharedTokens i.part) = true ∧ (u.part i.part).stemRangesOk b = true
      let z := u.flushRun i.part (sQuant b) (16 * sCout b)
      let quants := (List.range (sCout b)).all fun k => quantOk (z.readBytes i.part (sQuant b + 16 * k) 16)
      let put_ := fun (y : State) =>
        ({ y with stem := y.stem ++ [{ post := x.id, part := i.part, ctx := x.ctx, record := b }] } : State)
      ((u0.part i.part).inRegion x.addr.toNat 128 = false → exec (.stemCommandPost i v) s = after 4 (u0.addrFault i.part i.lane)) ∧
      ((u0.part i.part).inRegion x.addr.toNat 128 = true → live u →
        (u.anyPoison i.part x.addr.toNat 128 = true → exec (.stemCommandPost i v) s = after 4 (u.endResident i.part stPoisonConsumed)) ∧
        (u.anyPoison i.part x.addr.toNat 128 = false →
          (¬ sound → exec (.stemCommandPost i v) s = after 4 (u.addrFault i.part i.lane)) ∧
          (sound → sEmpty b = true → exec (.stemCommandPost i v) s = .next ((put_ u).slotDone i 4)) ∧
          (sound → sEmpty b = false → live z →
            (quants = true → exec (.stemCommandPost i v) s = .next ((put_ z).slotDone i 4)) ∧
            (quants = false → exec (.stemCommandPost i v) s = after 4 (z.addrFault i.part i.lane))))))

/-- O20. DDR5, NAND and Floam data of a post arrive, and its increment follows when all is visible (R99, R153, R160, R162, R172, R173, R174, R196, R197, R363, R420, R474). -/
def Obligations.PostedDataMove : Prop :=
  ∀ (s : State) (id : Nat),
    (∀ (x : Post) (ecc : Ecc), s.post id = some x → x.inWork 0 = true →
      let ln := s.ddrSide x (dSrc x.cur) x.moved
      let u := s.ddrEcc ln ecc
      let bad := u.ddrBad ln || u.entryLost x (dSrc x.cur) x.moved
      exec (.ddr5ReadReturn id ecc) s =
        .next ((u.landLines x.part (dDst x.cur + x.moved) (u.ddrRead ln) [bad]).dmaMoved x 64 bad)) ∧
    (∀ (x : Post) (ecc : Ecc) (k : Nat) (m : Staged), s.post id = some x → x.queue = .floam → x.cur ≠ [] →
      s.boundModel x.part x.cur = some (k, m) → m.nandDirect = false →
      exec (.ddr5ReadReturn id ecc) s =
        .next ((s.ddrEcc (modelLine x.part k (fOffset x.cur + x.moved + 64 * x.got)) ecc).modPost id fun y => { y with got := y.got + 1 })) ∧
    (∀ x, s.post id = some x → x.inWork 1 = true →
      let a := dSrc x.cur + x.moved
      let u := s.flushRun x.part a 64
      let sl := (u.part x.part).line a
      exec (.ddr5WriteAck id) s = .next ((u.ddrWrite (u.ddrSide x (dDst x.cur) x.moved) (u.readLine sl) (u.linePoison sl)).dmaMoved x 64
        (u.linePoison sl))) ∧
    (∀ w, s.post id = none → s.write id = some w → w.phase = .accepted → s.toDdr w = true →
      exec (.ddr5WriteAck id) s = .next ((s.landDdrLine w).modWrite id fun y =>
        { y with acked := w.acked + 1,
                 phase := if w.data.length ≤ 64 * (w.acked + 1) && w.missing == 0 then .landed else .accepted })) ∧
    (∀ x, s.post id = some x → x.drained = true → x.write = none → (x.queue = .l0 ∨ x.queue = .l1) →
      exec (.dmaPostComplete id) s = .next ((s.increment x.part 255 x.tctr x.tamt).dropPost x.id)) ∧
    (∀ x m k, s.post id = some x → x.queue = .floam → x.cur ≠ [] → s.boundModel x.part x.cur = some (k, m) →
      (s.arb 6 x.sel).holder = some x.part →
      exec (.floamBlockExpand id) s = .next ((s.setArb 6 x.sel { s.arb 6 x.sel with holder := none }).expandNext x k m)) ∧
    (∀ x, s.post id = some x → x.queue = .floam → x.drained = true →
      exec (.floamEntryComplete id) s = .next ((s.increment x.part 255 x.tctr x.tamt).dropPost x.id)) ∧
    (∀ x step, id < 2 ^ 40 → (s.nandStep step).post id = some x → x.inWork 2 = true →
      exec (.nandRead id step) s = .next ((s.nandStep step).nandIn x (decide (7 ≤ step)))) ∧
    (∀ c, s.stem.find? (·.post == id) = some c →
      let absent := sMode c.record = 0 ∧ (s.sensor (u8 c.record 1)).stemOk c.record = false
      let u := s.flushInputs c
      (sEmpty c.record = true → exec (.stemLineStart id) s = .next (s.endStem c stOkEmpty)) ∧
      (sEmpty c.record = false → absent → exec (.stemLineStart id) s = .next (s.endStem c stSensorAbsent)) ∧
      (sEmpty c.record = false → ¬ absent → u.stem.any (·.post == id) = true →
        (u.stemInputs c = none → exec (.stemLineStart id) s = .next (u.endStem c stFrameOverrun)) ∧
        (u.stemInputs c = some none → exec (.stemLineStart id) s = .next u) ∧
        (∀ ls, u.stemInputs c = some (some ls) →
          ((u.arb 7 0).holder = some c.part →
            exec (.stemLineStart id) s = .next ((u.setArb 7 0 { u.arb 7 0 with holder := none }).stemWrite c ls)) ∧
          ((u.arb 7 0).holder ≠ some c.part → exec (.stemLineStart id) s = .next u))) ∧
      ((∀ g, s.gathered g = []) → u = s))

/-- O21. A tracked write is checked, lands, applies its increment and returns its completion (R97, R119, R120, R122, R123, R124, R125, R128, R264). -/
def Obligations.TrackedWrites : Prop :=
  ∀ (s : State) (id : Nat) (w : Write), s.write id = some w →
    let x := s.win (hWindow w.handle)
    let faulted := fun (u : State) (st : Nat) => u.modWrite id fun y => { y with phase := .faulted, status := st }
    let closed := x.isOpen = false ∨ hGen w.handle ≠ x.gen
    let denied := hFlags w.handle ≠ x.hFlags ∨ x.flags.testBit (if w.op = .signal then 1 else 0) = false ∨
      (w.src.foreign x.part = true ∧ x.flags.testBit 2 = false)
    let long := x.len < w.off + (w.data.length + 64 * w.missing)
    let past := w.multi = false ∧ w.tamt ≠ 0 ∧ x.tokCount ≤ w.tctr
    (w.phase = .issued → w.windowed = true → s.isOwn (hDevice w.handle) = true →
      let ends := fun (st : Nat) => exec (.windowWriteArrival id) s = .next ((faulted s st).lateArrival w.handle st)
      (closed → ends stWindowClosed) ∧
      (¬ closed → denied → ends stWindowDenied) ∧
      (¬ closed → ¬ denied → long → ends stWindowRange) ∧
      (¬ closed → ¬ denied → ¬ long → past → ends stTokenRange) ∧
      (¬ closed → ¬ denied → ¬ long → ¬ past →
        exec (.windowWriteArrival id) s = .next ((s.noteAccept w).modWrite id fun y => { y with phase := .accepted }))) ∧
    ((w.windowed = false ∧ w.phase = .issued ∧ (w.op = .halo → meet (run w.off (w.data.length / 64)) (s.tileAt w.part w.dst).unitsRead = false) ∨
        w.windowed = true ∧ w.phase = .accepted ∧ w.missing = 0 ∧ (s.toDdr w = false ∨ w.data = [])) →
      let landed := fun (u : State) => u.modWrite id fun y => { y with phase := .landed }
      (s.writeTurn w = true → w.data ≠ [] → exec (.scratchpadWriteComplete id) s = .next (landed (s.landWrite w))) ∧
      (s.writeTurn w = true → w.data = [] → exec (.scratchpadWriteComplete id) s = .next (landed s)) ∧
      (s.writeTurn w = false → exec (.scratchpadWriteComplete id) s = .next s)) ∧
    (w.phase = .landed → w.id = id →
      let done := s.modWrite id fun y => { y with phase := .applied }
      (w.tamt = 0 → w.windowed = true → exec (.incrementApply id) s = .next (done.freeClosed (hWindow w.handle))) ∧
      (w.tamt = 0 → w.windowed = false → exec (.incrementApply id) s = .next done) ∧
      (w.tamt ≠ 0 → w.op = .halo → exec (.incrementApply id) s = .next (done.increment w.part w.dst w.tctr w.tamt)) ∧
      (∀ p l, w.tamt ≠ 0 → w.op = .wb → w.src = .lane p l →
        exec (.incrementApply id) s = .next (done.increment w.part l w.tctr w.tamt)) ∧
      (w.tamt ≠ 0 → w.windowed = true → w.tctr < x.tokCount → x.kind = .partition → exec (.incrementApply id) s =
        .next ((done.increment x.part x.target (x.tokFirst + w.tctr) w.tamt).freeClosed (hWindow w.handle))) ∧
      (w.tamt ≠ 0 → w.windowed = true → x.tokCount ≤ w.tctr → exec (.incrementApply id) s =
        .next ((faulted s stTokenRange).freeClosed (hWindow w.handle)))) ∧
    ((w.phase = .applied ∨ w.phase = .faulted) →
      exec (.writeCompletion id) s = .next ((s.dropWrite id).answer w).sendWaiting.kickDma) ∧
    (w.phase = .sent → exec (.writeTrackerTimeout id) s = .next (faulted s stLinkDown)) ∧
    (w.missing ≠ 0 →
      let ended := fun (u : State) => (Host.Outcome.next
        ((((faulted u stLinkDown).modWrite id fun y => { y with missing := 0 }).countLate (hWindow w.handle) stWindowClosed).freeClosed
          (hWindow w.handle)) : Res)
      (w.phase = .issued → exec (.remoteWriteAbandon id) s = ended s) ∧
      (w.phase = .accepted → s.toDdr w = false → exec (.remoteWriteAbandon id) s = ended (s.landWrite w)) ∧
      (w.phase = .accepted → s.toDdr w = true → exec (.remoteWriteAbandon id) s = ended ((List.range (w.data.length / 64)).foldl
        (fun (u : State) (k : Nat) => if k < w.acked then u else u.landDdrLine { w with acked := k }) s))) ∧
    (∀ g n, n ≠ 0 → s.fab.writes.find? (fun y =>
        y.phase == .landed && y.windowed && (s.win (hWindow y.handle)).kind == .release g && y.tamt == n) = some w →
      exec (.releaseSignal g n) s = .next ((s.applyIncrement w).freeClosed (hWindow w.handle)))

/-- O22. A context takes its job, makes it READY, and ends it when it completes or times out (R78, R79, R85, R211, R216, R224, R225, R229). -/
def Obligations.JobsStartAndEnd : Prop :=
  ∀ (s : State) (p c : Nat),
    let x := s.ctx p c
    (∀ im j rest, x.state = .loaded → (s.part p).state = .enabled → x.image = some im → x.waiting = j :: rest →
      let job := { j with start := s.now, bound := (s.part p).models.bind im.models }
      let taken := s.setCtx p c { x with state := .starting, job := some job, waiting := rest, startedAt := s.now, preemptAt := none }
      let lost := ∃ e ∈ (s.part p).cfg.engines, s.hasTile e = false ∧ s.spareGone e = true
      (lost → exec (.jobStart p c) s = .next (taken.endJob p c stNoTile)) ∧
      (¬ lost → j.lt.all (s.part p).kv.ltOk = false → exec (.jobStart p c) s = .next (taken.endJob p c stKvSeqState)) ∧
      (¬ lost → j.lt.all (s.part p).kv.ltOk = true → exec (.jobStart p c) s = .next (((taken.clearCounters p x im).modPart p fun q =>
        { q with low := .a0, kv := (ltNamed j.lt).foldl (fun k n => k.setSeq n { k.seq n with busy := some c }) q.kv }).startJob p c))) ∧
    (∀ im j t, x.state = .starting → x.image = some im → x.job = some j →
      s.tableEntries + sumNat (((s.part p).kv.need j.lt).map fun e => e.2.length) ≤ 16777216 →
      ((s.part p).kv.need j.lt).foldl (fun (t : Option State) e => t.bind fun u => u.allocKeys p e.1 e.2) (some s) = some t →
      (ltNamed j.lt).any (t.part p).kv.hasSwapped = false →
      let t1 := t.modPart p fun q =>
        { q with kv := (ltNamed j.lt).foldl (fun k n => k.setSeq n { k.seq n with swapped := false }) q.kv }
      let t2 := if j.hasLt then t1.writeBytes p j.ltDst j.ltBytes else t1
      let t3 := if j.args.isEmpty then t2 else t2.writeBytes p j.argsDst j.args
      s.startJob p c = (t3.modCtx p c fun y => { y with state := .ready }).schedule p) ∧
    ((x.state = .running ∨ x.state = .stopping) → (∀ l ∈ x.laneIds, (s.lane p l).run = .ended) → s.quiet p = true →
      exec (.jobComplete p c) s = .next (s.endJob p c stOk)) ∧
    ((s.part p).cfg.jobTimeoutMs ≠ 0 → exec (.jobTimeout p c) s = .next (s.endJob p c stJobTimeout)) ∧
    (∀ im j st, x.image = some im → x.job = some j → (x.state = .running ∨ x.state = .stopping) →
      let final := if st = stOk ∧ j.poisonMark = true then stPoisonConsumed else st
      let s0 := s.contain p final j
      let s1 := if j.statsAddr = 0 then s0 else s0.hostWrite j.statsAddr (statsRecord im j (s.part p).lanes final s.now)
      let s2 := match j.cmd with
        | some (q, n) => s1.finish q n final 0 (jobResult im (s.part p).lanes) j.preempts
        | none => s1
      let s3 := (s2.clearEngines p).modPart p fun q => { q with kv := q.kv.jobEnd c j.lt (final == stOk) }
      let s4 := if final = stOk then s3 else (ltNamed j.lt).foldl (fun (u : State) (n : Nat) => u.trimSeq p n) s3
      s.endJob p c st = ((s4.setCtx p c { x with state := .loaded, job := none, saved := [], spill := [], preemptAt := none }).finishAwait
        p c stOkEmpty).schedule p)

/-- O23. Pre-emption is requested for the stated reasons, stops lanes at yield points, and saves the context (R80, R82, R226, R227, R230, R231, R232). -/
def Obligations.PreemptionCourse : Prop :=
  ∀ (s : State) (p c : Nat), (s.part p).running = some c →
    let x := s.ctx p c
    let stopping : Res := .next (s.modCtx p c fun y => { y with state := .stopping, preemptAt := some s.now })
    let rivals := (s.part p).rivals c
    ((s.part p).cfg.reserved = false → x.state = .running →
      ((∃ y ∈ rivals, x.prio < y.prio) → exec (.preemptRequest p) s = stopping) ∧
      (∀ v, (s.part p).kv.victim = some v → ((s.part p).kv.seq v).busy = some c → exec (.preemptRequest p) s = stopping) ∧
      ((∃ e ∈ s.host.queues, ∃ k ∈ e.2.cmds, k.await = some (p, c)) → exec (.preemptRequest p) s = stopping) ∧
      ((∃ y ∈ rivals, y.prio = x.prio) → exec (.quantumExpiry p) s = stopping) ∧
      ((∀ y ∈ rivals, y.prio ≠ x.prio) → exec (.quantumExpiry p) s = .next (s.modCtx p c fun y => { y with releasedAt := s.now })) ∧
      ((s.part p).cfg.waitSwitchUs ≠ 0 → rivals ≠ [] →
        (∀ l ∈ x.laneIds, (s.lane p l).run = .ended ∨ (s.lane p l).iss.waitSince.isSome = true) →
        exec (.waitSwitchExpiry p) s = stopping)) ∧
    (∀ l, s.laneOn p l = true → (s.onEngines p).state = .stopping → (s.lane p l).iss.iter = 0 → (s.lane p l).iss.done = 0 →
      (s.lane p l).iss.granted = false → s.atYield p l = true →
      exec (.yieldStop p l) s = .next (s.modLane p l fun y => { y with run := .stopped })) ∧
    (∀ im, x.image = some im → x.state = .stopping → (∀ l ∈ im.laneIds, (s.lane p l).run = .stopped ∨ (s.lane p l).run = .ended) →
      (∃ l ∈ im.laneIds, (s.lane p l).run = .stopped) → s.quiet p = true →
      let saved : Ctx := { x with state := .saved, saved := im.laneIds.foldl (fun m l => Map.set {} m l (s.lane p l)) [],
                                  spill := (s.liveRanges p c im).flatMap (s.spillRange p), preemptAt := none,
                                  job := x.job.map fun j => { j with preempts := j.preempts + 1 } }
      exec (.contextSave p) s =
        .next (((((s.clearEngines p).setCtx p c saved).recWrite (.contextSave p c)).finishAwait p c stOk).schedule p)) ∧
    (x.state = .stopping → exec (.preemptTimeout p) s = .next (s.endJob p c stYieldTimeout))

/-- O24. REBIND gives engines their spare tile; swapped pages go out, and a post's swap units come back checked (R85, R217, R218, R219, R224, R412). -/
def Obligations.RebindAndSwap : Prop :=
  (∀ (s t : State) (p slot : Nat), (s.part p).kv.victim = some slot → s.host.swapPaused = false →
    (∀ c, ((s.part p).kv.seq slot).busy = some c → (s.ctx p c).resident = false) → s.swapOut p slot = some t →
    exec (.swapOutComplete p slot) s = .next ((t.modPart p fun x => { x with kv := { x.kv with victim := none } }).retryStarts p)) ∧
  (∀ (s : State) (p slot : Nat), s.swapOut p slot = none → exec (.swapOutComplete p slot) s = .next s) ∧
  (∀ (s : State) (p unit : Nat) (tag : TagCheck) (data : List Byte) (x : Post), s.host.swapPaused = false →
    s.fab.posts.find? (fun x => x.part == p && x.inWork 3 && (dSrc x.cur + x.moved) / 8192 == unit) = some x →
    let r := Map.get {} (s.part p).host.units unit
    (r.written = true → r.carried = false → tag = .match → exec (.swapInComplete p unit tag data) s = .next (s.hostUnitIn x data false)) ∧
    (r.written = true → r.carried = true → tag = .complement →
      exec (.swapInComplete p unit tag data) s = .next ((s.swapFault p unit true).hostUnitIn x data true)) ∧
    ((r.written = false ∨ r.carried = false ∧ tag ≠ .match ∨ r.carried = true ∧ tag ≠ .complement) →
      exec (.swapInComplete p unit tag data) s = .next ((s.swapFault p unit false).hostUnitIn x data true))) ∧
  (∀ (s : State) (p : Nat), (s.part p).state ≠ .free →
    (∀ e ∈ (s.part p).ctxs, e.2.state ≠ .starting ∧ e.2.state ≠ .running ∧ e.2.state ≠ .stopping) →
    let bound := (s.part p).cfg.engines.foldl (fun t e => t.bindSpare p e) s
    (bound.allTiles p = true → exec (.rebind p) s = .next ((bound.recheck p).schedule p)) ∧
    (bound.allTiles p = false → exec (.rebind p) s = .next
      ((((List.range 8).foldl (fun t c => if (t.ctx p c).runnable then t.endJob p c stNoTile else t) bound).recheck p).schedule p))) ∧
  (∀ (s : State) (p e : Nat), s.hasTile e = false →
    let spare := 17 * (e / 16) + 16
    spare ∉ s.module.fencedTiles → s.engineOn spare = none →
    (s.bindSpare p e).tileOf e = spare ∧ ∀ k, k ≠ e → (s.bindSpare p e).tileOf k = s.tileOf k)

/-- O25. An arbiter's grant, starvation promotion and sideband mask (R100, R101, R157, R234, R235, R236, R237, R238, R443). -/
def Obligations.ArbiterDecisions : Prop :=
  (∀ (s : State) (ty inst : Nat) (pending : List Nat) (em : Bool), ty < 8 → inst < arbInstances ty →
    let a := s.arb ty inst
    let l := (dedup pending).filter fun r => decide (r < arbRequesters ty) && !a.masked.contains r && !s.portOff ty inst r
    let urgent := fun (w : Nat) => em = true ∧ arbEmergency ty = some w ∧ a.masked.contains w = false ∧
      (ty = 1 → 5 ≤ (Map.get {} s.ddr.subs inst).owed)
    let gap := fun (r : Nat) => ty = 0 ∧ r = 4 ∧ Map.get 0 a.promo 4 = 0
    ((∀ w, ¬ urgent w) → a.interrupted = none →
      (∀ w, s.arbChoose ty inst l = some w →
        exec (.arbiterGrant ty inst pending em) s = .next (s.arbGive ty inst l w none) ∧ w ∈ l ∧
        (a.rotating ty = true → (a.ranking ty).find? l.contains = some w) ∧
        (a.rotating ty = false → (∀ r ∈ l, ¬ gap r → s.effClass ty inst r ≤ s.effClass ty inst w ∧ ¬ gap w))) ∧
      (l = [] → exec (.arbiterGrant ty inst pending em) s = .next (s.setArb ty inst { a with holder := none }))) ∧
    (∀ w, urgent w → exec (.arbiterGrant ty inst pending em) s = .next (s.arbUrgent ty inst w l)) ∧
    (∀ k, (∀ w, ¬ urgent w) → a.interrupted = some k →
      exec (.arbiterGrant ty inst pending em) s = .next (s.setArb ty inst { a with interrupted := none, holder := some k }))) ∧
  (∀ (s : State) (ty inst req : Nat), ty < 8 → inst < arbInstances ty →
    let a := s.arb ty inst
    (a.rotating ty = false → a.threshold ty ≤ Map.get 0 a.waits req → s.effClass ty inst req < 3 →
      exec (.starvationPromotion ty inst req) s = .next (s.setArb ty inst
        { a with waits := Map.erase a.waits req, promo := Map.set 0 a.promo req (Map.get 0 a.promo req + 1) })) ∧
    ((req < arbRequesters ty ∨ arbEmergency ty = some req) →
      let b := a.mask ty req true
      (∀ on, exec (.sidebandMask ty inst req on) s = .next (s.setArb ty inst (a.mask ty req on))) ∧
      b.masked.contains req = true ∧ b.waits = Map.erase a.waits req ∧ b.promo = Map.erase a.promo req ∧
      b.holder ≠ some req ∧ b.interrupted ≠ some req ∧ (a.mask ty req false).masked.contains req = false))

/-- O26. Bank scrub, retirement, fence, hot windows and retention (R105, R106, R107, R109, R110, R443). -/
def Obligations.ScratchpadBanks : Prop :=
  ∀ (s : State) (b : Nat), b < 544 →
    let x := s.bank b
    (∀ line g, line < 8192 → g < 8 → x.state = .inService →
      exec (.patrolScrub b line g .clean) s = .next s ∧
      exec (.patrolScrub b line g .corrected) s = .next ((s.setBank b (x.correct (8 * line + g) s.now s.sp.ceRetire)).logCorrected
        b 0x0301 0xFF fun n => leBytes 2 line ++ leBytes 4 n ++ leBytes 2 0) ∧
      ∃ t, exec (.patrolScrub b line g .uncorrectable) s = .next t ∧ Map.get false t.sp.poison (8192 * b + line) = true ∧
        t.sp.mem = s.sp.mem ∧ (t.bank b).ueTrigger = true ∧ (t.bank b).uncorrectable = satAdd 0xFFFF x.uncorrectable 1 ∧
        t.lan.log = ((s.log b 0x0302 0xFF (leBytes 2 line ++ leBytes 4 1 ++ leBytes 2 0)).lan.log)) ∧
    (∀ y, x.state = .inService → (x.ceTrigger = true ∨ x.ueTrigger = true) → s.spareFor b = some y →
      exec (.bankRetirement b) s = .next (s.retireBank b y)) ∧
    (x.state = .inService → x.ueTrigger = true → s.spareFor b = none → exec (.bankRetirement b) s =
      .next ((s.setBank b { x with state := .fenced, ueTrigger := false, ceTrigger := false }).log b 0x0304 0xFF
        (leBytes 2 0 ++ leBytes 4 x.uncorrectable ++ leBytes 2 0xFFFF))) ∧
    (x.state = .inService → x.ueTrigger = false → x.ceTrigger = true → s.spareFor b = none → exec (.bankRetirement b) s =
      .next ((s.setBank b { x with ceTrigger := false }).log b 0x0301 0xFF
        (leBytes 2 0 ++ leBytes 4 x.corrected ++ leBytes 2 0xFFFF))) ∧
    (∀ y, s.spareFor b = some y → (s.bank y).state = .spare ∧ y < 544 ∧
      (baseOfBank y = baseOfBank b ∨ ∀ k, k < 544 → (s.bank k).state = .spare → baseOfBank k ≠ baseOfBank b)) ∧
    (∀ grants waits,
      let z := { x with grants := x.grants + BitVec.ofNat 64 grants, waitCycles := x.waitCycles + BitVec.ofNat 64 waits,
                        windowGrants := x.windowNow + grants, windowNow := 0, windows := x.windows + 1 }
      let u := s.setBank b z
      (s.bankOwner b = none → exec (.hotWindowEnd b grants waits) s = .next (u.setBank b { z with hot := false })) ∧
      (∀ p r, s.bankOwner b = some (p, r) →
        let bs := ((s.part p).region r).banks
        ((∀ k ∈ bs, (u.bank k).windows = z.windows) →
          exec (.hotWindowEnd b grants waits) s = .next (bs.foldl (fun (t : State) (k : Nat) => u.judgeHot t p r k) u)) ∧
        (¬ (∀ k ∈ bs, (u.bank k).windows = z.windows) → exec (.hotWindowEnd b grants waits) s = .next u) ∧
        (∀ t : State, (t.bank b).windows ≠ 0 → (((u.judgeHot t p r b).bank b).hot = true ↔
          1 < bs.length ∧ 786432 ≤ z.windowGrants ∧
            8 * sumNat (bs.map fun k => (u.bank k).windowGrants) ≤ z.windowGrants * bs.length)))) ∧
    (x.retention = true → exec (.retentionWake b) s = .next (s.setBank b { x with awake := true }) ∧
      exec (.retentionReturn b) s = .next (s.setBank b { x with awake := false }))

/-- O27. A Huveip frame in order is accepted, routed, landed or forwarded, and its slot owed back (R123, R129, R130, R131, R132, R136, R137, R140, R144). -/
def Obligations.HuveipFrames : Prop :=
  ∀ (s : State) (h : Nat) (rx : RxFrame),
    let u := s.drainWaiting h
    let acc := (u.setPort h { u.port h with
      rxNext := (u.port h).rxNext + 1
      session := { (u.port h).session with frames := (u.port h).session.frames + 1 }
      stats := { (u.port h).stats with framesRx := (u.port h).stats.framesRx + 1 } }).emit (.link h kAck [rx.seq])
    let sound := fun (ty : Nat) => h < 4 ∧ (s.port h).carries ty = true ∧ rx.crcInverted = false ∧ rx.crcOk = true ∧
      rx.tagOk = true ∧ rx.ackv = false ∧ rx.nak = false ∧ rx.seq = (u.port h).rxNext % 4096
    (∀ ty, (sound ty → s.receive h ty rx = .accepted acc) ∧
      (h < 4 → (s.port h).carries ty = true → rx.crcInverted = false → rx.crcOk = false → s.receive h ty rx =
        .spent ((s.crcFailed h).emit (.link h kNak [(((s.crcFailed h).port h).rxNext + 4095) % 4096])))) ∧
    (sound tyWrite → s.huv.heldRoutes = [] → exec (.huveipWriteFrame h rx) s = .next (acc.routeFrame h tyWrite rx)) ∧
    (sound tySignal → s.huv.heldRoutes = [] → exec (.huveipSignalFrame h rx) s =
      .next (acc.routeFrame h tySignal { rx with first := true, last := true, payload := [] })) ∧
    (∀ ty, s.way (4 + h) rx.dst = .here → s.routeFrame h ty rx = (s.takeFrame ty rx).owe h ty rx.vc) ∧
    (∀ ty, s.way (4 + h) rx.dst = .none → s.routeFrame h ty rx = s.dropFrame h ty stNoRoute rx) ∧
    (∀ ty k dl, s.way (4 + h) rx.dst = .out k dl → ∃ f, s.routeFrame h ty rx =
      ({ s with huv.forwarding := f } : State).forwardFrame h k ty dl rx) ∧
    (∀ k ty dl, (rx.hops ≤ 1 → s.forwardFrame h k ty dl rx = s.dropFrame h ty stHopLimit rx) ∧
      (1 < rx.hops → (s.port k).carries ty = false → s.forwardFrame h k ty dl rx = s.dropFrame h ty stLinkDown rx) ∧
      (1 < rx.hops → (s.port k).carries ty = true → ty < 2 →
        let f : TxFrame :=
          { ty := ty, f := { rx with vc := if rx.vc = 1 ∨ dl = true then 1 else 0, hops := rx.hops - 1 }, source := some (h, rx.vc) }
        ((s.port k).clear f = true → s.forwardFrame h k ty dl rx = (s.transmit k f).owe h ty rx.vc) ∧
        ((s.port k).clear f = false → s.forwardFrame h k ty dl rx =
          s.setPort k { s.port k with waiting := (s.port k).waiting ++ [f] }))) ∧
    (sound tyCompletion →
      (acc.way (4 + h) rx.dst = .here → exec (.completionFrame h rx) s =
        .next ((acc.sendCompletion acc.huv.devId rx.wtag (rx.lineOff % 65536)).owe h tyCompletion 0)) ∧
      (acc.way (4 + h) rx.dst = .none → exec (.completionFrame h rx) s = .next (acc.countDrop h tyCompletion 0))) ∧
    (sound tyLink → exec (.linkCredits h rx) s = .next ((acc.modPort h fun x => { x with
      credits := { c0 := x.credits.c0 + (linkFrameCredits rx).c0, c1 := x.credits.c1 + (linkFrameCredits rx).c1,
                   cc := x.credits.cc + (linkFrameCredits rx).cc } }).drainWaiting h)) ∧
    (sound tyPace → exec (.paceNoticeReceive h rx) s = .next ((acc.takePace h (fit 0 64 rx.payload)).owe h tyPace 0) ∧
      (acc.huv.paceSeen.contains (u16 (fit 0 64 rx.payload) 0, u16 (fit 0 64 rx.payload) 2) = true →
        acc.takePace h (fit 0 64 rx.payload) = acc))

/-- O28. The steps of a link's bring-up, in order, to a session that is up, and its rekey (R133, R134, R135, R400, R401, R402, R403). -/
def Obligations.HuveipBringUp : Prop :=
  ∀ (s : State) (h : Nat), h < 4 →
    let x := s.port h
    let ses := fun (v : Session) => s.setPort h { x with session := v }
    let stopped := ses { x.session with refused := true, step := .idle }
    let failed := fun (r : Nat) => (Host.Outcome.next ((stopped.emit (.link h kAbort [r])).portLog h 0x0604 r) : Res)
    let trained := fun (u : State) (n : Nat) => (Host.Outcome.next ((u.setPort h { u.port h with
        state := .attesting, lanes := n, laneMask := keepLanes (u.port h).usable n, usable := keepLanes (u.port h).usable n
        session := { step := .bringup } }).emit (.link h kBringup [s.huv.devId, n, 512])) : Res)
    (∀ n, n ∈ [4, 6, 7, 8] → n ≤ (bitList x.usable 8).length →
      (x.state = .training → exec (.huveipTrainingDone h n) s = trained s n) ∧
      (x.state = .up ∨ x.state = .retraining → exec (.huveipTrainingDone h n) s = trained (s.loseSession h) n)) ∧
    (∀ peer n slots, x.state = .attesting → x.session.step = .bringup → s.huv.devId ≠ 0xFFFF → peer ≠ 0xFFFF → peer ≠ s.huv.devId →
      let k := s.clk.free
      let u := ({ s with clk.free := k + 33 } : State).setPort h { x with
        peerId := peer, peerSlots := slots, lanes := min x.lanes n
        session := { x.session with
          step := .hello, initiator := decide (s.huv.devId < peer), seed := k + 32
          nonce := (List.range 32).map fun i => (Config.freeWord (k + i)).truncate 8 } }
      exec (.linkBringup h peer n slots) s = .next (u.linkMessage h kHello (u.ownHello h))) ∧
    (∀ nonce key, x.state = .attesting → x.session.step = .hello →
      (nonce.length = 32 → x.session.initiator = true → key = [] → exec (.linkHello h x.peerId nonce key) s =
        .next (ses { x.session with
          peerNonce := nonce, peerKey := key, transcript := s.ownHello h ++ helloBytes x.peerId nonce key, step := .encap })) ∧
      (nonce.length = 32 → x.session.initiator = false → key.length = 1568 →
        let k := s.clk.free
        let ct := (Config.mlkemCipher key k).toList
        let all := helloBytes x.peerId nonce key ++ s.ownHello h ++ ct
        let u := ({ s with clk.free := k + 1 } : State).setPort h { x with session := { x.session with
          peerNonce := nonce, peerKey := key, transcript := all, step := .report
          material := sessionMaterial (Config.mlkemShared key k).toList all } }
        exec (.linkHello h x.peerId nonce key) s = .next ((u.linkMessage h kEncap ct).sendReport h)) ∧
      (∀ peer, peer ≠ x.peerId ∨ nonce.length ≠ 32 ∨ key.length ≠ (if x.session.initiator then 0 else 1568) →
        exec (.linkHello h peer nonce key) s = failed 1)) ∧
    (∀ ct : List Byte, x.state = .attesting → x.session.step = .encap →
      (ct.length = 1568 → exec (.linkEncap h ct) s = .next ((ses { x.session with
        transcript := x.session.transcript ++ ct, step := .report
        material := sessionMaterial (Config.mlkemDecap x.session.seed ct).toList (x.session.transcript ++ ct) }).sendReport h)) ∧
      (ct.length ≠ 1568 → exec (.linkEncap h ct) s = failed 2)) ∧
    (∀ v, x.state = .attesting → x.session.step = .report →
      (s.admits h v = true → exec (.linkReport h v) s =
        .next ((ses { x.session with step := .finish }).linkMessage h kFinish x.session.confirm)) ∧
      (s.admits h v = false → exec (.linkReport h v) s = failed 3)) ∧
    (x.state = .attesting → x.session.step = .finish →
      (exec (.linkFinish h true) s =
        let up := s.setPort h { x with state := .up, credits := { c0 := 224, c1 := 224, cc := 64 }, owed := {},
                                       session := { x.session with step := .done, key := s.lan.nextKey } }
        .next ({ up with lan.nextKey := s.lan.nextKey + 1 }.portNotice h)) ∧
      exec (.linkFinish h false) s = failed 4) ∧
    (∀ r, x.state = .attesting → exec (.linkAbort h r) s = .next (stopped.portLog h 0x0604 r)) ∧
    (x.session.refused = true → exec (.bringupRetry h) s = .next (s.setPort h { x with state := .training, session := {} })) ∧
    (x.state = .up → x.session.initiator = true → x.session.rekeying = false → exec (.rekeyStart h) s =
      let k := s.clk.free
      .next ((({ s with clk.free := k + 1 } : State).setPort h { x with session := { x.session with rekeying := true, seed := k } }).linkMessage
        h kRekey (Config.mlkemKey k).toList)) ∧
    (∀ a b msg, x.state = .up → x.session.initiator = true → x.session.rekeying = true → msg.length = 1568 →
      exec (.linkRekey h a ⟨b, msg⟩) s =
        let u := ses { x.session with
          rekeying := false, key := s.lan.nextKey, oldMaterial := x.session.material, frames := 0, switchTx := a, switchRx := b
          material := sessionMaterial (Config.mlkemDecap x.session.seed msg).toList x.session.transcript }
        .next { u with lan.nextKey := s.lan.nextKey + 1 }) ∧
    (x.session.rekeying = true → exec (.rekeyTimeout h) s = .next (s.loseSession h))

/-- O29. Replay, credit returns, lane loss, symbol-error checks and retrains of a port (R130, R131, R133, R134, R140). -/
def Obligations.HuveipLinkUpkeep : Prop :=
  ∀ (s : State) (h : Nat), h < 4 →
    let x := s.port h
    (x.replay ≠ [] →
      let again := fun (y : Port) => (Host.Outcome.next (x.replay.foldl (fun (t : State) (f : TxFrame) => t.emit (.frame h f.ty f.f f.wire))
        (s.setPort h { y with
          stats := { x.stats with replays := satAdd 0xFFFFFFFF x.stats.replays 1,
                                  framesTx := x.stats.framesTx + BitVec.ofNat 64 x.replay.length } })) : Res)
      (x.replayRuns < 7 → exec (.replayTimeout h) s = again { x with replayRuns := x.replayRuns + 1 }) ∧
      (7 ≤ x.replayRuns → exec (.replayTimeout h) s = again { x with replayRuns := 0, state := .retraining })) ∧
    (x.owed.total ≠ 0 → exec (.creditReturnTimer h) s = .next (s.returnCredits h)) ∧
    (∀ l, l < 8 → x.laneMask.testBit l = true →
      let mask := x.laneMask &&& (255 - 2 ^ l)
      let left := (bitList mask 8).length
      let st := { x.stats with degrades := satAdd 0xFFFFFFFF x.stats.degrades 1 }
      exec (.laneLockLoss h l) s = .next (s.degrade h l) ∧
      (∀ bad all, all < 100000 * bad →
        let u := s.setPort h { x with stats := { x.stats with fecCorrected := x.stats.fecCorrected + BitVec.ofNat 64 bad } }
        exec (.fecRateCheck h l bad all) s = .next (u.degrade h l)) ∧
      (∀ bad all, 100000 * bad ≤ all → exec (.fecRateCheck h l bad all) s =
        .next (s.setPort h { x with stats := { x.stats with fecCorrected := x.stats.fecCorrected + BitVec.ofNat 64 bad } })) ∧
      (left < 4 → x.state ≠ .up → x.state ≠ .retraining → s.degrade h l = ((s.setPort h { x with
        state := .down, lanes := 0, laneMask := 0, usable := mask, stats := st }).portLog h 0x0601 0).portNotice h) ∧
      (∀ n, (left = 5 ∧ n = 4 ∨ left ≠ 5 ∧ 4 ≤ left ∧ n = left) → s.degrade h l = ((s.setPort h { x with
        state := if x.state = .up ∨ x.state = .retraining then .retraining else .training
        lanes := n, laneMask := keepLanes mask n, usable := keepLanes mask n, stats := st }).portLog h 0x0601 0).portNotice h)) ∧
    (x.state = .retraining →
      let st := { x.stats with retrains := satAdd 0xFFFFFFFF x.stats.retrains 1 }
      let bad := (s.setPort h { x with stats := st, failedRetrains := x.failedRetrains + 1 }).portLog h 0x0602 0
      exec (.portRetrain h true) s = .next ((((s.setPort h { x with stats := st, state := .up, failedRetrains := 0 }).portLog
        h 0x0602 0).drainWaiting h).portNotice h) ∧
      (x.failedRetrains < 2 → exec (.portRetrain h false) s = .next bad) ∧
      (2 ≤ x.failedRetrains → exec (.portRetrain h false) s = .next (bad.loseSession h)))

/-- O30. DDR5 lines read back as written; scrubs, refreshes, retirements, retrains and heat readings act as stated (R154, R155, R156, R157, R158, R165, R419). -/
def Obligations.DdrUpkeep : Prop :=
  (∀ (s : State) (line : Nat) (b : List Byte) (poison : Bool), Map.wf none s.ddr.mem = true → s.ddrFenced line = false → b.length = 64 →
    (s.ddrWrite line b poison).ddrRead line = b) ∧
  (∀ (s : State) (line : Nat) (ecc : Ecc), s.ddrFenced line = false → exec (.ddr5PatrolScrub line ecc) s = .next (s.ddrEcc line ecc) ∧
    Map.get false (s.ddrEcc line .uncorrectable).ddr.poison line = true) ∧
  (∀ (s : State) (line : Nat) (ecc : Ecc), s.ddrFenced line = true → exec (.ddr5PatrolScrub line ecc) s = .next s) ∧
  (∀ (s : State) (sub : Nat), sub < 8 →
    let n := (Map.get {} s.ddr.subs sub).owed + 1
    let owe := fun (t : State) (k : Nat) => { t with ddr.subs := Map.modify {} t.ddr.subs sub fun x => { x with owed := k } }
    (n < 5 → exec (.refreshDue sub) s = .next (owe s n)) ∧ (5 ≤ n → exec (.refreshDue sub) s = .next (owe (s.arbUrgent 1 sub 22 []) 0))) ∧
  (∀ (s : State) (page : Nat),
    let x := Map.get {} s.ddr.pages page
    let phys := physOf (64 * page) / 4096
    let sub := subOf (64 * page)
    let data := leBytes 8 (4096 * phys) ++ leBytes 4 x.corrected.length
    x.fenced = false → (x.bad = true ∨ 4 ≤ x.corrected.length) →
    (s.ddr.sparesUsed < 8192 → exec (.ddr5PageRetirement page) s =
      .next ((({ s with ddr.pages := Map.set {} s.ddr.pages page { spare := some s.ddr.sparesUsed }
                        ddr.sparesUsed := s.ddr.sparesUsed + 1 } : State).log sub 0x0403 0xFF data).notice noticeDdrPage 0xFF
        (leBytes 8 phys ++ [0]))) ∧
    (8192 ≤ s.ddr.sparesUsed → x.bad = true → exec (.ddr5PageRetirement page) s =
      .next ((({ s with ddr.pages := Map.set {} s.ddr.pages page { x with fenced := true }
                        ddr.withdrawn := s.ddr.withdrawn ++ [4096 * phys / 2 ^ 26] } : State).log sub 0x0404 0xFF data).notice
        noticeDdrPage 0xFF (leBytes 8 phys ++ [1])))) ∧
  (∀ (s : State) (sub cause : Nat), sub < 8 →
    let x := Map.get {} s.ddr.subs sub
    let times := s.now :: x.retrains.filter fun t => decide (s.now < t + 3600000000)
    let data := [BitVec.ofNat 8 cause, BitVec.ofNat 8 times.length]
    x.fenced = false →
    (times.length < 3 → exec (.subchannelRetrain sub cause) s =
      .next (({ s with ddr.subs := Map.set {} s.ddr.subs sub { x with retrains := times } } : State).log sub 0x0405 0xFF data)) ∧
    (3 ≤ times.length → exec (.subchannelRetrain sub cause) s =
      .next ((({ s with ddr.subs := Map.set {} s.ddr.subs sub { x with retrains := times, fenced := true } } : State).log
        sub 0x0405 0xFF data).log sub 0x0406 0xFF data))) ∧
  (∀ (s : State) (ch : Nat) (t : Int), ch < 4 → t ≤ 1050 → exec (.ddr5TempRead ch t) s =
    .next ({ s with ddr.chans := Map.set {} s.ddr.chans ch { deciC := t, interval := if t ≤ 850 then 390 else 195,
                                                             divisor := if t ≤ 950 then 1 else 2, alert := false } } : State).setAlert) ∧
  (∀ (s : State) (p id k : Nat) (m : Staged),
    (s.part p).models.staged.find? (fun e => e.2.used && !e.2.ready && leNat 16 e.2.id == id) = some (k, m) →
    exec (.modelStageCopyDone p id) s = .next (((s.ddrFill (modelLine p k 0) (s.slot m.slot).body).modPart p fun q =>
      { q with models := { q.models with staged := Map.set {} q.models.staged k { m with ready := true } } }).finishAll
        (s.stagers p m.slot) (roundUp 65536 m.bytes)))

/-- O31. Rail reports, the cap, the clamp, brown-outs and droops move the ceilings and steps of the dies (R143, R335, R337, R338, R340, R341, R342, R345, R353, R354, R356). -/
def Obligations.PowerCeilings : Prop :=
  (∀ (s : State) (r mv ma : Nat), r < 10 → nth 0 railLimits r < ma → (s.rail r).high = 1 →
    let force := (List.range 4).map fun d => if r < 4 then (if d = r then 7 else 0) else min 7 ((s.die d).step + 2)
    exec (.railReport r mv ma) s =
      .next ((({ s with pwr.rails := Map.set {} s.pwr.rails r { mv, ma, high := 0, under := 0, force := force } } : State).powerEvent
        0x08 r ma).ceilingsSet)) ∧
  (∀ (s : State) (mv mw : Nat), exec (.railReport 10 mv mw) s =
    let kept := fun (u : State) =>
      (Host.Outcome.next { u with pwr.mainMv := mv, pwr.inputs := (mw :: s.pwr.inputs).take 10, pwr.lowered := none } : Res)
    match s.pwr.lowered with
    | some (d, before) => kept (s.modDie d fun x => { x with saved := max 2000 (before - mw) })
    | none => kept s) ∧
  (∀ (s : State) (d : Nat), 1000 * s.pwr.capW < s.pwr.inputs.headD 0 → 1 ≤ s.pwr.sinceLower →
    (∃ k, k < 4 ∧ (s.die k).step ≠ 7) → s.mostDraw ((List.range 4).filter fun k => decide ((s.die k).cap < 7)) = some d →
    exec (.capEvaluation () ()) s = .next
      ({ (s.modDie d fun x => { x with cap := x.cap + 1 }) with
          pwr.calm := 0, pwr.lowered := some (d, s.pwr.inputs.headD 0), pwr.sinceLower := 0 } : State).ceilingsSet) ∧
  (∀ (s : State) (d : Nat), s.pwr.inputs.headD 0 ≤ 1000 * s.pwr.capW →
    s.leastDraw ((List.range 4).filter fun k => decide (0 < (s.die k).cap)) = some d →
    sumNat s.pwr.inputs / max 1 s.pwr.inputs.length + (s.die d).saved ≤ 1000 * s.pwr.capW → 99 ≤ s.pwr.calm →
    exec (.capEvaluation () ()) s = .next
      ({ (s.modDie d fun x => { x with cap := x.cap - 1 }) with
          pwr.calm := 0, pwr.sinceLower := s.pwr.sinceLower + 1 } : State).ceilingsSet) ∧
  (∀ (s : State) (d : Nat), d < 4 → (s.die d).step ≠ s.dieTarget d →
    exec (.stepChange d) s = .next (s.modDie d fun x => { x with step := s.dieTarget d }).paceChange ∧
    (∀ c ∈ s.ceilings d, c.1 ≤ s.dieTarget d) ∧ s.cpStep d ≤ s.dieTarget d ∧
    (s.dieTarget d = s.cpStep d ∨ ∃ c ∈ s.ceilings d, c.1 = s.dieTarget d)) ∧
  (∀ (s : State) (d k : Nat), d < 4 → k < 4 →
    let times := (s.now :: (s.die d).tripsAt).take 1001
    let u := s.modDie d fun y => { y with
      trips := satAdd 0xFFFFFFFF y.trips 1
      tripped := if y.step = 7 ∨ y.tripped.contains k = true then y.tripped else insertSorted k y.tripped
      drooped := y.drooped || decide (y.step < 7), tripsAt := times }
    let often := times.length = 1001 ∧ s.now < times.getLastD 0 + 1000000
    (often → exec (.droopTrip d k) s = .next (u.powerEvent 0x0A d 1001)) ∧ (¬ often → exec (.droopTrip d k) s = .next u)) ∧
  (∀ (s : State) (d : Nat), d < 4 → exec (.droopRelease d) s = .next (s.modDie d fun x => { x with tripped := [], drooped := false })) ∧
  (∀ s : State,
    exec .inputClamp s = .next (({ s with pwr.clamp := true } : State).powerEvent 0x09 0xFF (s.pwr.inputs.headD 0)) ∧
    exec .inputClampRelease s = .next { s with pwr.clamp := false } ∧
    exec .brownOutEntry s = .next (({ s with pwr.brownOut := true } : State).powerEvent 0x06 0xFE s.pwr.mainMv) ∧
    (s.pwr.brownOut = true → exec .brownOutExit s =
      .next ((({ s with pwr.brownOut := false } : State).powerEvent 0x07 0xFF s.pwr.mainMv).ceilingsSet)) ∧
    (((List.range 4).all fun d => (s.setAlert.die d).step == s.setAlert.dieTarget d) = true → s.ceilingsSet = s.setAlert.paceRelease) ∧
    (((List.range 4).all fun d => (s.setAlert.die d).step == s.setAlert.dieTarget d) = false → s.ceilingsSet = s.setAlert))

/-- O32. Heat readings move the thermal ceilings, shares are billed and budgets held, pace notices go out and expire (R143, R144, R346, R347, R348, R349, R350, R351, R352, R354). -/
def Obligations.HeatEnergyPace : Prop :=
  (∀ (s : State) (h : List Int), h.length = 6 →
    let hot := fun (d : Nat) => decide (950 ≤ nth 0 h d) || decide (950 ≤ nth 0 h (4 + d / 2))
    let cool := fun (d : Nat) => decide (nth 0 h d ≤ 920) && decide (nth 0 h (4 + d / 2) ≤ 920)
    let limit := fun (d : Nat) => decide (1050 ≤ nth 0 h d) || decide (1050 ≤ nth 0 h (4 + d / 2))
    let u := (List.range 4).foldl (fun t d => t.modDie d fun x => x.heat (hot d) (cool d) (limit d)) s
    let v : State := { u with pwr.tj := h, pwr.junctionAlert := h.any fun x => decide (1050 ≤ x) }
    exec (.thermalRead h) s = .next (v.heatEvents s h).ceilingsSet ∧
    (Map.wf {} s.pwr.dies = true → (∀ x ∈ h, x < 950) → (∀ d, d < 4 → (s.die d).thermal = 0) → v.heatEvents s h = v)) ∧
  (∀ (x : DiePower) (hot cool : Bool), (x.heat hot cool true).thermal = 7 ∧
    (x.heat true cool false).thermal = (if x.hotWait = 0 then min 7 (x.thermal + 1) else x.thermal) ∧
    (x.heat true cool false).hotWait = (if x.hotWait = 0 then 9 else x.hotWait - 1) ∧
    (x.heat false true false).thermal = (if 99 ≤ x.coolReads then x.thermal - 1 else x.thermal) ∧
    (x.heat false true false).coolReads = (if 99 ≤ x.coolReads then 0 else x.coolReads + 1) ∧
    (x.heat false false false).thermal = x.thermal ∧ (x.heat false false false).coolReads = 0 ∧
    (x.heat hot cool true).step = x.step ∧ (x.heat hot cool false).step = x.step ∧ (x.heat hot cool false).cap = x.cap) ∧
  (∀ s : State, (s.pwr.interlock = false → exec .flowLoss s = .next
    ((({ s with pwr.interlock := true, pwr.flowLost := true, pwr.flowOk := false } : State).powerEvent 0x03 0xFF 0).setAlert)) ∧
    (s.pwr.interlock = true → exec .flowLoss s = .next { s with pwr.flowOk := false }) ∧
    (s.pwr.flowLost = true → exec .interlockRelease s = .next
      ((({ s with pwr.interlock := false, pwr.flowLost := false, pwr.flowOk := true } : State).powerEvent 0x04 0xFF 0).ceilingsSet)) ∧
    (s.pwr.flowLost = false → exec .interlockRelease s = .next
      ({ s with pwr.interlock := false, pwr.flowLost := false, pwr.flowOk := true } : State).ceilingsSet)) ∧
  (∀ (s : State) (a b : Int) (n : Nat), a ≤ 650 → b ≤ a + 100 → n ≤ 95 →
    exec (.coolantRead a b n) s = .next { s with pwr.inlet := a, pwr.outlet := b, pwr.humidity := n }) ∧
  (∀ (s : State) (estimates : List Nat) (device : Nat),
    let energy := sumNat s.pwr.inputs / max 1 s.pwr.inputs.length
    let shares := (fit 0 16 estimates).map fun e => e * energy / max 1 (sumNat (fit 0 16 estimates) + device)
    exec (.estimateInterval estimates device) s = .next ((List.range 16).foldl (fun t p => t.bill p (nth 0 shares p))
      { s with pwr.deviceUj := s.pwr.deviceUj + BitVec.ofNat 64 (energy - sumNat shares) }) ∧ sumNat shares ≤ energy) ∧
  (∀ (s : State) (p share : Nat), (s.part p).billed = none →
    let w : PartPower := { (s.part p).power with shares := (share :: (s.part p).power.shares).take 10,
                                                 energyUj := (s.part p).power.energyUj + BitVec.ofNat 64 share }
    s.bill p share = s.modPart p fun q => { q with power := if q.state = .enabled then w.hold else w }) ∧
  (∀ x : PartPower, 0 < x.budgetW → 1000 * x.budgetW < x.estimate → x.hold.cpLimit = min 7 (x.cpLimit + 1)) ∧
  (∀ s : State, s.holdCause ≠ 0 → exec .paceRepeat s = .next (s.sendPace s.holdCause)) ∧
  (∀ (s : State) (source : Nat),
    exec (.paceHoldExpiry source) s = .next ((List.range 16).foldl (fun t p => t.liftPace p source) s))

/-- O33. Camera lines reach their rings, Ethernet frames their queue, lidar packets their sensor's points (R241, R242, R244, R245, R246, R248, R249, R253, R255, R257). -/
def Obligations.CupolaIngest : Prop :=
  (∀ (s : State) (port vc frame i : Nat), s.cameraAt port vc = some (i, 0) →
    let t := s.modSensor i fun x =>
      { s.stampImage i frame x with
          seqNo := some (match x.seqNo with
            | some n => (n + 1) % 2 ^ 32
            | none => 0)
          lineNo := Map.set 0 x.lineNo 0 0, raws := [], inImage := true, gatesEnded := [], damaged := false
          member := { x.member with sent := true } }
    exec (.csiFrameStart port vc frame) s = .next (t.anchorEvent i (t.sensor i).imageTime)) ∧
  (∀ (s : State) (port vc frame i gate : Nat), s.cameraAt port vc = some (i, gate + 1) → exec (.csiFrameStart port vc frame) s =
    .next (s.modSensor i fun x => { x with lineNo := Map.set 0 x.lineNo (gate + 1) 0 })) ∧
  (∀ (s : State) (port vc errors i gate y : Nat) (ok : Bool) (px : List Nat), errors < 2 → s.cameraAt port vc = some (i, gate) →
    (s.sensor i).inImage = true → (s.sensor i).gatesEnded.contains gate = false → Map.get 0 (s.sensor i).lineNo gate = y →
    y < (s.sensor i).height →
    exec (.csiLongPacket port vc (s.sensor i).dataType errors ok px) s = .next ((s.modSensor i fun z => { z with
      lineNo := Map.set 0 z.lineNo gate (y + 1), damaged := z.damaged || !ok
      stats := { z.stats with lines := z.stats.lines + 1 } }).takeLine i gate y ok px)) ∧
  (∀ (s : State) (port vc ty errors : Nat) (ok : Bool) (px : List Nat), 2 ≤ errors →
    exec (.csiLongPacket port vc ty errors ok px) s = .next s) ∧
  (∀ (s : State) (i gate y : Nat) (ok : Bool) (px : List Nat),
    let x := s.sensor i
    x.kind ≠ 2 → x.dataType ≠ 0x24 → x.dataType ≠ 0x1E → x.bayer = 0 → s.stem = [] → (Map.get {} x.ring (y % x.depth)).y ≠ y →
    px.length = x.width → (∀ v ∈ px, v < 2 ^ x.compBits) →
    s.takeLine i gate y ok px = ({ s with clk.free := s.clk.free + 16385 } : State).modSensor i fun z => { z with
      ring := Map.set {} z.ring (y % x.depth) ⟨x.seqNo.getD 0, y, [(0, if ok then px else List.replicate x.width 0)], true⟩ }) ∧
  (∀ (s : State) (port vc i gate : Nat), s.cameraAt port vc = some (i, gate) → (s.sensor i).inImage = true →
    let x := s.sensor i
    let ended := dedup (gate :: x.gatesEnded)
    (ended.length < x.gates → exec (.csiFrameEnd port vc) s = .next (s.modSensor i fun z => { z with gatesEnded := ended })) ∧
    (x.gates ≤ ended.length →
      let t := if x.bayer = 0 then s else match x.raws with
        | line :: rest => s.bayerLine i (x.lines - 1) ((rest.map Prod.snd).headD []) line []
        | [] => s
      exec (.csiFrameEnd port vc) s = .next ((t.joinImage i).modSensor i fun z => { z with
        inImage := false, gatesEnded := [], raws := [], lastDamaged := z.damaged
        stats := if z.damaged then { z.stats with damaged := z.stats.damaged + 1 } else z.stats }).noteReady)) ∧
  (∀ (s : State) (i g : Nat), s.groupOf i = some g →
    ((s.sensor i).time.timed = false → s.joinImage i = s.modSensor i fun z => { z with
      stats := { z.stats with unalignedDrops := z.stats.unalignedDrops + 1 } }) ∧
    ((s.sensor i).time.timed = true → (s.sensor i).damaged = true → s.joinImage i = s) ∧
    ((s.sensor i).time.timed = true → (s.sensor i).damaged = false → (s.sensor i).lines = (s.sensor i).height →
      s.joinImage i = s.modSensor i fun z => { z with
        member := { z.member with images := z.member.images ++ [⟨z.imageTime, (s.group g).isLate z.imageTime, z.seqNo.getD 0⟩] } })) ∧
  (∀ (s : State) (port : Nat) (f : EthFrame), 8 ≤ port → port < 12 → s.cup.portsDown.contains port = false →
    (f.fcsOk = false → exec (.ethFrameReceive port f) s =
      .next { s with cup.etherDropped := Map.modify 0 s.cup.etherDropped port (· + 1) }) ∧
    (∀ u p i, f.fcsOk = true → udpOf f.bytes = some (u, p) → s.lidarAt port u = some i →
      let q := Map.get [] s.cup.queues port
      let stamp := match s.groupOf i with
        | some g => if (s.sensor (s.group g).anchor).port = port then f.stamp else (s.group g).count
        | none => f.stamp
      (q.length < 64 → exec (.ethFrameReceive port f) s =
        .next { s with cup.queues := Map.set [] s.cup.queues port (q ++ [{ f with stamp := stamp }]) }) ∧
      (64 ≤ q.length → exec (.ethFrameReceive port f) s = .next (s.modSensor i fun x => { x with
        stats := { x.stats with parseOverrun := x.stats.parseOverrun + 1 } })))) ∧
  (∀ (s : State) (port u i : Nat) (f : EthFrame) (rest : List EthFrame) (p : List Byte), Map.get [] s.cup.queues port = f :: rest →
    udpOf f.bytes = some (u, p) → s.lidarAt port u = some i →
    let t : State := { s with cup.queues := Map.set [] s.cup.queues port rest }
    let b := Map.get [] s.cup.tables (s.sensor i).parse
    (b ≠ [] → tMinLen b ≤ p.length → matchesAll b p = true → exec (.lidarPacketParse port) s =
      .next (({ (t.modSensor i fun x => { x with stats := { x.stats with packets := x.stats.packets + 1 } }) with
          clk.free := s.clk.free + 65536 } : State).joinReturns i f.stamp (timeVal b p 0 0) (packetReturns b p s.clk.free))) ∧
    ((b = [] ∨ p.length < tMinLen b ∨ matchesAll b p = false) → exec (.lidarPacketParse port) s =
      .next (t.modSensor i fun x => { x with stats := { x.stats with failed := x.stats.failed + 1 } }))) ∧
  (∀ (s : State) (i stamp g : Nat) (first : Int) (l : List Ret), Map.wf {} s.cup.sensors = true → s.groupOf i = some g →
    let t := s.joinReturns i stamp first l
    ((s.sensor i).time.timed = true →
      (t.sensor i).stats.points = (s.sensor i).stats.points + BitVec.ofNat 64 l.length ∧
      (t.sensor i).member.points.length = (s.sensor i).member.points.length + l.length) ∧
    ((s.sensor i).time.timed = false →
      (t.sensor i).stats.unalignedDrops = (s.sensor i).stats.unalignedDrops + BitVec.ofNat 64 l.length ∧
      (t.sensor i).member.points = (s.sensor i).member.points))

/-- O34. Strobes, missed strobes, anchor counts, triggers and port losses set a sensor's time (R247, R252, R254, R255, R262, R294, R416). -/
def Obligations.CupolaTimes : Prop :=
  (∀ (s : State) (stb cycles : Nat) (latches : List (Nat × Nat)),
    let cyc := max s.cmp.cycles.toNat (cycles % 2 ^ 64)
    let u : State := { s with cmp.cycles := BitVec.ofNat 64 cyc }
    let on := (List.range 16).filter fun i =>
      (s.sensor i).kind != 0xFF && (s.sensor i).strobeTimed && (s.sensor i).strobe == stb && !(s.sensor i).stopped
    let t := on.foldl (fun t i => t.strobeOne latches i) u
    exec (.stbEdge stb true cycles latches) s = .next (t.triggerAll (t.triggered 3 stb fun b => cFalling b != true) cyc) ∧
    exec (.stbEdge stb false cycles latches) s = .next (u.triggerAll (u.triggered 3 stb fun b => cFalling b != false) cyc)) ∧
  (∀ (x : SensorTime) (f : Fit) (period slip rate : Nat) (t : Int), fitOf x.pairs = some f →
    let near := nearestInt x.sample period * period
    (x.state = .aligned → f.consistent slip rate (f.nearest period t) t = true →
      (x.strobe period slip rate t).1.state = .aligned ∧ (x.strobe period slip rate t).1.missed = 0) ∧
    (x.state = .aligned → f.consistent slip rate (f.nearest period t) t = false →
      x.strobe period slip rate t = ({ x with state := .unaligned, pairs := [], run := 0, missed := 0 }, true)) ∧
    (x.state = .unaligned → f.consistent slip rate near t = true →
      (x.run = 15 → (x.strobe period slip rate t).1.state = .aligned) ∧
      (x.run < 15 → (x.strobe period slip rate t).1.state = .unaligned ∧ (x.strobe period slip rate t).1.run = x.run + 1)) ∧
    (x.state = .unaligned → 2 ≤ x.run → f.consistent slip rate near t = false →
      (x.strobe period slip rate t).1.run = 1 ∧ (x.strobe period slip rate t).1.pairs = [(near, t)])) ∧
  (∀ (s : State) (i g : Nat), s.groupOf i = some g → (s.sensor i).strobeTimed = true →
    ((s.sensor i).time.state = .aligned → (s.sensor i).time.missed < 3 → exec (.strobeMissed i) s =
      .next (s.modSensor i fun y => { y with time := { y.time with missed := y.time.missed + 1 } })) ∧
    ((s.sensor i).time.state = .aligned → 3 ≤ (s.sensor i).time.missed → exec (.strobeMissed i) s = .next ((s.modSensor i fun y =>
      { y with time := { y.time with state := .unaligned, pairs := [], run := 0, missed := 0 } }).anchorLost i)) ∧
    ((s.sensor i).time.state = .unaligned → exec (.strobeMissed i) s =
      .next (s.modSensor i fun y => { y with time := { y.time with run := 0, pairs := [] } })) ∧
    s.anchorLost i = if (s.group g).anchor = i then s.modGroup g fun x => { x with broken := true } else s) ∧
  (∀ (s : State) (g n : Nat), g < 4 → (s.group g).started = true → n < 2 ^ 64 →
    exec (.anchorCountUpdate g n) s = .next (s.modGroup g fun x => { x with count := max x.count n })) ∧
  (∀ (s : State) (t k : Nat) (y : Trigger), t < 8 →
    ((Map.get {} s.cup.triggers t).nextPulse s.cup.cycles.toNat = (some k, y) → k < 2 ^ 64 →
      exec (.triggerPulse t) s = .next (({ s with
        cup.cycles := BitVec.ofNat 64 k, cup.triggers := Map.set {} s.cup.triggers t { y with last := some k } } : State).emit
        (.trigger t k y.count y.width y.spacing y.polarity))) ∧
    ((Map.get {} s.cup.triggers t).nextPulse s.cup.cycles.toNat = (none, y) →
      exec (.triggerPulse t) s = .next { s with cup.triggers := Map.set {} s.cup.triggers t y })) ∧
  (∀ (x : Trigger) (n : Nat), x.mode = 1 → 0 < x.period → x.phase < x.period → x.next = none →
    ∃ k, x.nextPulse n = (some k, x) ∧ n ≤ k ∧ k % x.period = x.phase ∧ (∀ l, x.last = some l → l < k) ∧
      ∀ m, n ≤ m → (∀ l, x.last = some l → l < m) → m % x.period = x.phase → k ≤ m) ∧
  (∀ (s : State) (port : Nat), port < 12 →
    (s.cup.portsDown.contains port = false → exec (.sensorPortLockLoss port) s =
      .next (((s.sensorsOn port).foldl (fun (t : State) i =>
        (t.modSensor i fun x => { x with stopped := true, inImage := false, gatesEnded := [], raws := [] }).anchorLost i)
        { s with cup.portsDown := port :: s.cup.portsDown }).log port 0x0701 0xFF (leBytes 1 port))) ∧
    (s.cup.portsDown.contains port = true → exec (.portLockRegain port) s =
      .next (((s.sensorsOn port).foldl (fun (t : State) i => t.modSensor i fun x => { x with stopped := false })
        { s with cup.portsDown := s.cup.portsDown.filter (· != port) }).log port 0x0702 0xFF (leBytes 1 port))))

/-- O35. A group's frames are taken up at instants, closed at deadlines, assembled, headed, and broken off (R251, R257, R258, R259, R261, R262, R264, R277). -/
def Obligations.FusionFrames : Prop :=
  ∀ (s : State) (g : Nat), g < 4 →
    let x := s.group g
    (∀ (d : Int) (rest : List Int) (t : Nat), x.due = d :: rest → x.started = true → x.stopping = none → x.broken = false →
      s.anchorOk g = true → wrapI 64 d = t →
      let u := x.members.foldl (fun (u : State) i => u.modSensor i fun z => match z.calibNext with
        | some b => { z with calibDue := z.calibDue ++ [(d, b)], calibNext := none }
        | none => z) s
      exec (.frameInstant g t) s =
        .next (u.modGroup g fun y => { y with due := rest, instants := y.instants ++ [d] }.takeUp).noteReady) ∧
    (∀ f, x.frame = some f → f.closed = false → f.assembled = false →
      ((x.count : Int) < f.t + x.deadline → exec (.frameDeadline g) s = .next s) ∧
      (f.t + x.deadline ≤ (x.count : Int) → exec (.frameDeadline g) s =
        .next (s.modGroup g fun y => { y with frame := some { f with closed := true, lateMask := s.incomplete g f.t } }).noteReady)) ∧
    (∀ f, x.frame = some f → f.assembled = false → (f.closed = true ∨ s.incomplete g f.t = 0) →
      s.noteReady.cup.ready.head? = some g → (∀ k h, k < 4 → k ≠ g → (s.group k).frame = some h → h.assembled = false) →
      exec (.frameAssembly g) s =
        .next (({ s.noteReady with cup.ready := s.noteReady.cup.ready.erase g } : State).assemble g f).noteReady) ∧
    (∀ f, x.frame = some f → f.assembled = true → f.writes = [] → f.headerWrite = none → s.boxesFed g = true →
      (f.lost = false → f.failed = false → exec (.frameHeaderWrite g) s = .next (s.headerWrite g f)) ∧
      (f.lost = false → f.failed = true → exec (.frameHeaderWrite g) s = .next ((s.outputFault g).frameDone g).noteReady) ∧
      (f.lost = true → exec (.frameHeaderWrite g) s = .next (((s.outputFault g).clearMap g).frameDone g).noteReady)) ∧
    (x.boxesReady = true → s.boxesFed g = false) ∧
    (∀ f, x.frame = some f → s.boxesFed g = false → exec (.frameHeaderWrite g) s = .next s) ∧
    (x.broken = true → x.started = true → x.frame = none →
      ∃ t, exec (.timeBreak g) s = .next t ∧ (t.group g).sequence = x.sequence + 1 ∧ (t.group g).broken = false ∧
        (t.group g).tLast = (x.count : Int)) ∧
    (∀ (h : Head) (lost : Bool) (points grid depth : List Byte),
      let u := s.modGroup g fun y => { y with sequence := y.sequence + 1, tLast := h.t }
      (x.written < x.released + x.slots → s.issueFrame g h lost [] [] [] = (u.modGroup g fun y => { y with
        frame := some { t := h.t, closed := true, assembled := true, slot := x.written % x.slots, lost := lost
                        header := { h with slot := x.written % x.slots }.bytes g (x.sequence % 2 ^ 32) }
        written := y.written + 1 })) ∧
      (x.released + x.slots ≤ x.written →
        let v := u.modGroup g fun y => { y with blocked := y.blocked + 1 }
        s.issueFrame g h lost points grid depth = (if lost then (v.outputFault g).clearMap g else v).frameDone g)) ∧
    (∀ t : Int, x.isLate t = true ↔ x.sequence ≠ 0 ∧ t ≤ x.tLast) ∧
    (∀ (noPrev measured missing : Bool) (hold n : Nat) (conf con : List Nat),
      levelOf noPrev measured hold n conf [] missing = 4 ∧
      (con ≠ [] → (levelOf false false hold n conf con missing = if n < hold + 1 then 4 else 3) ∧
        levelOf true false hold n conf con missing = 3 ∧
        levelOf noPrev true hold n conf con missing =
          if 2 ≤ (dedup conf).length ∧ (dedup con).length = 1 then 2 else if missing = true then 1 else 0))

/-- O36. Steeple takes box sets, swaps its buffers with the next epoch, and copies the published one (R272, R273, R275, R277, R278, R279, R422). -/
def Obligations.WorldPublication : Prop :=
  (∀ (s : State) (g : Nat), g < 4 → (s.group g).boxesReady = true →
    let x := s.group g
    let s1 := s.modGroup g fun y => { y with boxesReady := false }
    let placed := s1.placeBoxes g x.boxes x.boxMotion x.boxTime x.urgent
    (s.stp.mode g = 0 → exec (.boxSetTake g) s = .next s1) ∧
    (s.stp.mode g = 1 ∨ s.stp.mode g = 2 → s.stp.pubPending = false → s.stp.copying = false →
      exec (.boxSetTake g) s =
        .next (if s.stp.mode g = 2 ∨ x.urgent = true then placed.modStp fun t => t.trigger x.urgent none else placed)) ∧
    (s.stp.mode g = 1 ∨ s.stp.mode g = 2 → s.stp.pubPending = true ∨ s.stp.copying = true →
      exec (.boxSetTake g) s = .next (s1.modStp fun t => { t with
        waitingOps := t.waitingOps ++ [.boxes g x.boxes x.boxMotion x.boxTime x.urgent]
        pubUrgent := t.pubUrgent || (x.urgent && !s.stp.copying) }))) ∧
  (∀ s : State, s.stp.pubPending = true → s.stp.copying = false →
    (s.stp.pubUrgent = true ∨ ∀ r, s.stp.running = some r → r.buffer ≠ s.stp.retained ∨ r.stale = true) →
    exec .publication s = .next (s.modStp fun t => { t with
      published := if (t.buffer t.building).bad then t.published else t.building
      building := if (t.buffer t.building).bad then t.building
        else if (t.buffer t.published).bad then t.published else t.retained
      epoch := (t.epoch + 1) % 2 ^ 32, copying := true
      running := if t.pubUrgent then t.running.map fun r => { r with stale := true } else t.running
      stats := { t.stats with publishes := satAdd 0xFFFFFFFF t.stats.publishes 1 } })) ∧
  (∀ s : State, s.stp.copying = true → exec .buildingCopyDone s =
    .next ((s.stp.waitingOps.foldl State.buildOp (s.modStp fun t => { t.modBuilding fun _ => { t.buffer t.published with bad := false } with
      copying := false, pubPending := false, pubUrgent := false, pubWaiters := [], waitingOps := [] })).finishAll s.stp.pubWaiters s.stp.epoch)) ∧
  (∀ (s : State) (q n : Nat) (rs : List (List Byte)),
    (s.stp.applyEdits rs = none → s.editWorld q n rs = s.finish q n stRefused rcWorldFull 0 0) ∧
    (∀ t, s.stp.applyEdits rs = some t → s.editWorld q n rs = ({ s with stp := t } : State).finishOk q n ∧
      t.epoch = s.stp.epoch ∧ t.published = s.stp.published ∧ t.building = s.stp.building)) ∧
  (∀ (t : Steeple) (b : Buffer) (r : List Byte),
    let id := u16 r 2
    (u8 r 0 = 1 → t.editBuffer b r = some { b.delist (· == id) with host := Map.erase b.host id }) ∧
    (u8 r 0 = 0 →
      let c : Buffer := { b.delist (· == id) with host := Map.insert b.host id (slice r 16 32) }
      t.editBuffer b r = if c.host.length + c.setCount [0, 1, 2, 3] ≤ 32768 then some (t.enlist c id (slice r 16 32)) else none))

/-- O37. A query is taken into a slot, started, expanded, ended by its budgets, and its result written (R282, R283, R284, R285, R286, R287, R288). -/
def Obligations.QueryCourse : Prop :=
  (∀ (s : State) (id p : Nat) (w : Write), s.write id = some w → (s.win (hWindow w.handle)).kind = .query p →
    w.phase = .landed → w.tamt ≠ 0 → w.op ≠ .halo → w.op ≠ .wb →
    exec (.queryPost id) s = .next ((s.takeQuery w p).modWrite id fun x => { x with phase := .applied }) ∧
    (∀ l n, w.src = .post l n → s.stp.slotsUsed p < 4 → w.data.length = 128 → w.poison.contains true = false → s.queryOk p w.data = true →
      s.takeQuery w p = ({ s with clk.free := s.clk.free + 4 } : State).modStp fun t => { t with
        queue := t.queue ++ [{ part := p, post := n, reserved := (s.part p).cfg.reserved, record := w.data }] }) ∧
    (4 ≤ s.stp.slotsUsed p → ∃ e : Ended, e.status = stPlanBusy ∧ e.query.part = p ∧
      s.takeQuery w p = ({ s with clk.free := s.clk.free + 4 } : State).modStp fun t => { t with ended := t.ended ++ [e] })) ∧
  (∀ (s : State) (q : Query), s.stp.running = none → s.stp.nextQuery = some q →
    let b := q.record
    let l := Map.get {} s.stp.lattices (qLattice b)
    let start := s.contacts s.stp.published b [l.pose (qStartX b) (qStartY b) (u8 b 0x18)]
    let goal := s.contacts s.stp.published b [l.pose (qGoalX b) (qGoalY b) (u8 b 0x19)]
    let n : SNode := ⟨qStartX b, qStartY b, u8 b 0x18, 0, 0, 0, 0⟩
    let ws := s.win (hWindow (qWorkspace b))
    exec .queryStart s = .next (s.startQuery q) ∧
    ((∃ c ∈ start, c.sure = true) →
      ∃ e, (s.startQuery q).stp.ended = s.stp.ended ++ [e] ∧ e.query = q ∧ e.status = stStartInCollision) ∧
    (start = [] → (∃ c ∈ goal, c.sure = true) →
      ∃ e, (s.startQuery q).stp.ended = s.stp.ended ++ [e] ∧ e.query = q ∧ e.status = stGoalInCollision) ∧
    (start = [] → goal = [] → inGoal b l.headings n = false →
      (s.startQuery q).stp.running = some (({ query := q, epoch := s.stp.epoch, buffer := s.stp.published
                                              capacity := min 262144 (ws.len / 48) } : Running).push n))) ∧
  (∀ (t : Steeple) (q : Query), t.nextQuery = some q → q ∈ t.queue ∧ ((∃ x ∈ t.queue, x.reserved = true) → q.reserved = true)) ∧
  (∀ (s : State) (r : Running) (us : Nat), s.stp.running = some r →
    let l := Map.get {} s.stp.lattices (qLattice r.query.record)
    (r.stale = true → exec (.queryExpansion us) s = .next (s.endQuery r stStaleWorld (some us) none)) ∧
    (us < qBudget r.query.record → exec (.queryBudgetExpiry us) s = .next s) ∧
    (r.stale = false → r.lost = false → s.unitWindow r.query.part (qWorkspace r.query.record) = true →
      let u : State := { s with clk.free := s.clk.free + 512 }
      (r.pq = [] → exec (.queryExpansion us) s = .next (u.endQuery r stNoPath (some us) none)) ∧
      (∀ e, pqMin r.pq = some e →
        let n := r.node e.node
        (r.bestG (n.x, n.y, n.h)).any (fun v => decide (v < n.g)) = false →
        (inGoal r.query.record l.headings n = true →
          exec (.queryExpansion us) s = .next (u.endQuery (r.pop e) stPathFound (some us) (some e.node))) ∧
        (inGoal r.query.record l.headings n = false → exec (.queryExpansion us) s = .next
          (((u.modStp fun t => { t with stats := { t.stats with expansions := t.stats.expansions + 1 } }).countTests
            (u.testsMade r.buffer (s.clk.free + 256))).checkBudgets
            ((l.from n.h).foldl (u.candidate l s.clk.free e.node n) { r.pop e with expansions := r.expansions + 1 }) us))) ∧
      (qBudget r.query.record ≤ us → exec (.queryBudgetExpiry us) s = .next (s.checkBudgets r us)))) ∧
  (∀ (s : State) (r : Running) (us : Nat), let b := r.query.record
    (∀ e, pqMin r.pq = some e → (qBudget b ≤ us ∨ (qMaxExp b ≠ 0 ∧ qMaxExp b ≤ r.expansions) ∨ r.full = true) →
      s.checkBudgets r us = s.endQuery r stBudgetExhausted (some us) (some e.node)) ∧
    (us < qBudget b → (qMaxExp b = 0 ∨ r.expansions < qMaxExp b) → r.full = false →
      s.checkBudgets r us = s.modStp fun t => { t with running := some r })) ∧
  (∀ (s : State) (l : Lattice) (seed parent k : Nat) (n : SNode) (r : Running) (p : List Byte),
    let x := n.x + sext 16 (u16 p 2)
    let y := n.y + sext 16 (u16 p 4)
    let g := satCost n.g (u32 p 8)
    ((∃ c ∈ s.sweep r.buffer r.query.record l n p, c.sure = true) → s.candidate l seed parent n r (p, k) = r) ∧
    (s.sweep r.buffer r.query.record l n p = [] → (∀ v, r.bestG (x, y, u8 p 1) = some v → g < v) →
      s.candidate l seed parent n r (p, k) = r.push ⟨x, y, u8 p 1, g, parent, k, u8 p 6⟩)) ∧
  (∀ (l : List PqEnt) (e : PqEnt), pqMin l = some e → e ∈ l ∧ ∀ x ∈ l, e.key ≤ x.key) ∧
  (∀ (s : State) (e : Ended), s.stp.ended.find? (·.write.isNone) = some e →
    (qForward e.query.record = false ∨ e.status ≠ stPathFound ∨ e.forwarded = true → exec .queryResultWrite s = .next (s.writeResult e)) ∧
    (qForward e.query.record = true → e.status = stPathFound → e.forwarded = false → exec .queryResultWrite s = .next (s.forward e)))

/-- O38. A sure contact always clashes, no contact never does, and one within a millimetre may (R271, R285). -/
def Obligations.CollisionBand : Prop :=
  (∀ (free : Bool) (l : List Contact), ((∃ c ∈ l, c.sure = true) → clashes free l = true) ∧ clashes free [] = false ∧
    (l ≠ [] → (∀ c ∈ l, c.sure = false) → clashes free l = free)) ∧
  (∀ (clear : Nat) (sh : Shape) (e : V3 × Int) (l : MPose × MPose),
    let a := l.1.place e.1
    let b := l.2.place e.1
    let d2 := (sh.dist2 a b).1
    let limit := e.2 + (sh.dist2 a b).2 + mmUnits clear
    let slack := mmUnits 1 - 2 ^ 20
    let bounded := a.inBounds && b.inBounds && sh.inBounds
    (bounded = false → meets clear sh e l = some false) ∧
    (bounded = true → limit + slack < 0 → meets clear sh e l = none) ∧
    (bounded = true → (limit + slack).natAbs ^ 2 < d2 → meets clear sh e l = none) ∧
    (bounded = true → 0 < limit - slack → d2 < (limit - slack).natAbs ^ 2 → meets clear sh e l = some true) ∧
    (bounded = true → 0 ≤ limit + slack → d2 ≤ (limit + slack).natAbs ^ 2 →
      limit - slack ≤ 0 ∨ (limit - slack).natAbs ^ 2 ≤ d2 → meets clear sh e l = some false)) ∧
  (∀ (clear : Nat) (spheres : List (V3 × Int)) (poses : List MPose) (world : List (Nat × Shape)) (c : Contact),
    c ∈ contactsOf clear spheres world poses → ∃ w ∈ world, w.1 = c.id)

/-- O39. A trigger starts a run, or is dropped for its rate or for a run in progress, in that order (R294, R303, R304, R305, R306). -/
def Obligations.LoopTriggers : Prop :=
  (∀ (s : State) (l cycles : Nat),
    let x := s.loop l
    x.status.started = true → x.stopping = [] → x.status.fault = false →
    (∀ t, x.lastTrigger = some t → cycles < t + 20000 →
      s.triggerLoop l cycles = s.modLoop l fun z => { z with counts := { z.counts with rateDrops := z.counts.rateDrops + 1 } }) ∧
    ((∀ t, x.lastTrigger = some t → t + 20000 ≤ cycles) →
      (x.run.isSome = true → s.triggerLoop l cycles = (s.modLoop l fun z =>
        { z with counts := { z.counts with overruns := z.counts.overruns + 1 } }).modLoop l fun z =>
          { z with status := { z.status with overrun := true } }) ∧
      (x.run = none →
        let reads := (List.range 8).filter fun i => eKind (cSource x.cfg i) == 2
        let r : Run := { trigger := cycles, number := x.counts.runs.toNat, waitingSpi := !reads.isEmpty }
        let t := s.modLoop l fun z => { z with
          run := some r, lastTrigger := some cycles, counts := { z.counts with runs := z.counts.runs + 1 } }
        (reads = [] → s.triggerLoop l cycles = t.latch l r []) ∧
        (reads ≠ [] → s.triggerLoop l cycles = reads.foldl (fun (t : State) i =>
          let e := cSource x.cfg i
          t.queueSpi (sPort e) ⟨l, sCs e, true, u64 (Map.get [] t.cmp.spiCs (4 * sPort e + sCs e)) 0x10⟩) t)))) ∧
  (∀ (s : State) (cycles : Nat),
    let cyc := max s.cmp.cycles.toNat (cycles % 2 ^ 64)
    let u : State := { s with cmp.cycles := BitVec.ofNat 64 cyc }
    (∀ (port : Nat) (f : CanFrame),
      let ident := f.ident % 2 ^ 29 + (if f.extended = true then 2 ^ 29 else 0)
      (s.canPort port).record ≠ [] → (f.fd = true → bitAt (u8 (s.canPort port).record 0x12) 0 = true) → s.namesId port ident = true →
      let t := (u.modCan port fun x => { x with latest := Map.set none x.latest ident (some (cyc, f.data)) }).countShort port ident f.data
      exec (.canFrameReceive port f cycles) s = .next (t.triggerAll (t.triggered 1 port fun b => cTrigId b == ident) cyc)) ∧
    (∀ (pin : Nat) (rising : Bool), exec (.drdyEdge pin rising cycles) s =
      .next (u.triggerAll (u.triggered 2 pin fun b => cFalling b != rising) cyc)) ∧
    (∀ l : Nat, (s.loop l).cfg ≠ [] → cTrigger (s.loop l).cfg = 0 →
      let d := u32 (s.loop l).cfg 8
      ((s.loop l).startedAt + d ≤ cyc → (cyc - (s.loop l).startedAt) % d = 0 →
        exec (.dividerExpiry l cycles) s = .next (u.triggerLoop l cyc)) ∧
      (cyc < (s.loop l).startedAt + d ∨ (cyc - (s.loop l).startedAt) % d ≠ 0 → exec (.dividerExpiry l cycles) s = .next u)) ∧
    (∀ (l : Nat) (frames : List Nat) (r : Run), (s.loop l).run = some r → r.waitingSpi = true →
      (∀ e ∈ s.cmp.spi, ∀ t ∈ e.2, t.loop = l → t.read = false) →
      exec (.spiReadDone l frames cycles) s = .next (u.latch l r
        ((((List.range 8).filter fun i => eKind (cSource (s.loop l).cfg i) == 2).zipIdx).map fun e =>
          let src := cSource (s.loop l).cfg e.1
          (e.1, spiField src (u8 (Map.get [] s.cmp.spiCs (4 * sPort src + sCs src)) 0xA) (nth 0 frames e.2))))))

/-- O40. The seventeen loop instructions, exact in 64 bits and wrapped to 32, and their suppression (R295). -/
def Obligations.LoopArithmetic : Prop :=
  ∀ (s : State) (l : Nat) (r : Run) (w : DWord), s.nextInstr l = some (r, w) →
    let x := s.loop l
    let goOn := fun (r1 : Run) => (Host.Outcome.next (s.modLoop l fun y => { y with run := some { r1 with index := r.index + 1 } }) : Res)
    let into := fun (v : Word) => goOn { r with z := Map.set 0 r.z (bits w.toNat 57 54) v }
    let za := Map.get 0 r.z (bits w.toNat 53 50)
    let zb := Map.get 0 r.z (bits w.toNat 49 46)
    let zd := Map.get 0 r.z (bits w.toNat 57 54)
    let c := Map.get 0 x.coeff (bits w.toNat 45 40)
    let sh := Map.get 0 x.shift (bits w.toNat 45 40)
    let imm := bits w.toNat 31 0
    (r.skip = false →
      (iOp w = 0x00 → exec (.cNop l) s = goOn r) ∧
      (iOp w = 0x01 → exec (.cAdd l) s = into (BitVec.ofInt 32 (za.toInt + zb.toInt))) ∧
      (iOp w = 0x02 → exec (.cSub l) s = into (BitVec.ofInt 32 (za.toInt - zb.toInt))) ∧
      (iOp w = 0x03 → exec (.cMul l) s = into (BitVec.ofInt 32 (za.toInt * c.toInt / (2 ^ sh : Nat)))) ∧
      (iOp w = 0x04 → exec (.mac l) s = into (BitVec.ofInt 32 (zd.toInt + za.toInt * c.toInt / (2 ^ sh : Nat)))) ∧
      (iOp w = 0x05 → exec (.mulz l) s = into (BitVec.ofInt 32 (za.toInt * zb.toInt / (2 ^ (imm % 32) : Nat)))) ∧
      (iOp w = 0x06 → exec (.cSar l) s = into (BitVec.ofInt 32 (za.toInt / (2 ^ (imm % 32) : Nat)))) ∧
      (iOp w = 0x07 → exec (.cShl l) s = into (BitVec.ofInt 32 (za.toInt * (2 ^ (imm % 32) : Nat)))) ∧
      (iOp w = 0x08 → exec (.cMin l) s = into (BitVec.ofInt 32 (min za.toInt zb.toInt))) ∧
      (iOp w = 0x09 → exec (.cMax l) s = into (BitVec.ofInt 32 (max za.toInt zb.toInt))) ∧
      (iOp w = 0x0A → exec (.cAnd l) s = into (za &&& zb)) ∧
      (iOp w = 0x0B → exec (.ldi l) s = into (BitVec.ofNat 32 imm)) ∧
      (iOp w = 0x0C → exec (.ldsmp l) s = into (nth 0 r.samples (imm % 8))) ∧
      (iOp w = 0x0D → ∀ k, Map.get 0 r.latched (bits imm 13 10) = k + 1 →
        exec (.lds l) s = into (BitVec.ofNat 32 (u32 (Map.get [] (s.spSlot (bits imm 13 10)).bufs k) (4 * bits imm 9 0)))) ∧
      (iOp w = 0x0E → exec (.loopOut l) s = goOn { r with staged := Map.set none r.staged (imm % 4) (some za) }) ∧
      (iOp w = 0x0F → exec (.skn l) s = goOn { r with skip := decide (za.toInt < 0) }) ∧
      (iOp w = 0x10 → exec (.skz l) s = goOn { r with skip := decide (za.toInt = 0) })) ∧
    (r.skip = true → ∀ i ∈ ([.cNop l, .cAdd l, .cSub l, .cMul l, .mac l, .mulz l, .cSar l, .cShl l, .cMin l, .cMax l, .cAnd l,
        .ldi l, .ldsmp l, .lds l, .loopOut l, .skn l, .skz l] : List Instr).zipIdx, iOp w = i.2 →
      exec i.1 s = goOn { r with skip := false })

/-- O41. An output value v reaches its actuator field of w bits as v mod 2^w, in CAN, SPI and PWM (R296). -/
def Obligations.OutputField : Prop :=
  (∀ (payload e : Nat) (v : Word), eBig e = false →
    (placeCan payload e v >>> eBit e) % 2 ^ eWidth e = v.toNat % 2 ^ eWidth e) ∧
  (∀ (payload e : Nat) (v : Word), eBig e = true → eWidth e % 8 = 0 →
    leBytes (eWidth e / 8) ((placeCan payload e v >>> eBit e) % 2 ^ eWidth e) = (leBytes (eWidth e / 8) (v.toNat % 2 ^ eWidth e)).reverse) ∧
  (∀ (n template e : Nat) (v : Word), eBit e + eWidth e ≤ n →
    (placeSpi n template e v >>> (n - (eBit e + eWidth e))) % 2 ^ eWidth e = v.toNat % 2 ^ eWidth e) ∧
  (∀ (s : State) (l j : Nat) (vals : Map Word), let e := cOutput (s.loop l).cfg j
    eKind e = 3 → s.handOne l vals j = { s with cmp.pwm := Map.modify {} s.cmp.pwm (oPort e) fun x =>
      { x with nextDuty := (Map.get 0 vals j).toNat % 2 ^ eWidth e } }) ∧
  (∀ (s : State) (l j : Nat) (vals : Map Word), let e := cOutput (s.loop l).cfg j
    let r := Map.get [] s.cmp.spiCs (4 * oPort e + oCs e)
    eKind e = 2 → s.handOne l vals j =
      s.queueSpi (oPort e) ⟨l, oCs e, false, placeSpi (u8 r 0xA) (u64 r 0x18) e (Map.get 0 vals j)⟩) ∧
  (∀ (w : Nat) (v : Word), 1 ≤ w → w ≤ 32 → BitVec.ofNat w (v.toNat % 2 ^ w) = BitVec.ofInt w v.toInt) ∧
  (∀ (w : Nat) (v : Word), 1 ≤ w → w < 32 → (v.toInt = 2 ^ (w - 1) → (BitVec.ofNat w (v.toNat % 2 ^ w)).toInt = -2 ^ (w - 1)) ∧
    (v.toInt = -2 ^ (w - 1) - 1 → (BitVec.ofNat w (v.toNat % 2 ^ w)).toInt = 2 ^ (w - 1) - 1))

/-- O42. Runs commit or miss, shadows switch, and a fenced loop takes its safe course once (R305, R307, R308, R309, R311, R313, R415). -/
def Obligations.LoopRunEnd : Prop :=
  (∀ (s : State) (cycles : Nat),
    let cyc := max s.cmp.cycles.toNat (cycles % 2 ^ 64)
    let u : State := { s with cmp.cycles := BitVec.ofNat 64 cyc }
    (∀ (l : Nat) (r : Run),
      let x := s.loop l
      let commit := fun (z : Map Word) (vals : Map Word) => (Host.Outcome.next (((u.modLoop l fun y => { y with z := z, sup := { y.sup with
        committed := y.sup.committed + 1, us := (Map.get 0 vals (u8 (cSup y.cfg) 2) :: y.sup.us).take 2 } }).hand l vals).endRun l r) : Res)
      x.run = some r → r.waitingSpi = false → cyc ≤ r.trigger + cDeadline x.cfg →
      (r.course = 0 → cProgLen x.cfg ≤ r.index → exec (.runCommit l cycles) s = commit r.z
        ((List.range 4).foldl (fun m j => match Map.get none r.staged j with
          | some v => Map.set 0 m j v
          | none => m) x.prev)) ∧
      (r.course = 1 → exec (.runCommit l cycles) s = commit x.z x.prev) ∧
      (r.course = 2 → exec (.runCommit l cycles) s = commit x.z (safeVals x.cfg))) ∧
    (∀ (l : Nat) (r : Run), (s.loop l).run = some r → r.trigger + cDeadline (s.loop l).cfg ≤ cyc →
      exec (.runDeadline l cycles) s = .next ((u.modLoop l fun z => { z with
        status := { z.status with missed := true }, counts := { z.counts with misses := z.counts.misses + 1 } }).endRun l r)) ∧
    (∀ n k : Nat, (s.spSlot n).copying = some k →
      let x := s.spSlot n
      let w := s.win x.win
      let t := u.flushRun w.part (w.spAddr 0) x.len
      (s.inFlight x.win = true → exec (.shadowSwitch n cycles) s = .next (u.modSp n fun y => { y with dirty := true })) ∧
      (s.inFlight x.win = false → x.dirty = true → exec (.shadowSwitch n cycles) s =
        .next (u.modSp n fun y => { y with dirty := false })) ∧
      (s.inFlight x.win = false → x.dirty = false → t.anyPoison w.part (w.spAddr 0) x.len = true →
        exec (.shadowSwitch n cycles) s = .next t) ∧
      (s.inFlight x.win = false → x.dirty = false → t.anyPoison w.part (w.spAddr 0) x.len = false → exec (.shadowSwitch n cycles) s =
        .next (t.modSp n fun y => { y with bufs := Map.set [] y.bufs k (t.readBytes w.part (w.spAddr 0) x.len), current := some k,
                                           refresh := cyc, copying := none })))) ∧
  (∀ (s : State) (l : Nat), l < 16 → (s.loop l).status.fault = false →
    let lines := u8 (cSup (s.loop l).cfg) 5
    let t := (s.modLoop l fun z => { z with status := { z.status with fault := true } }).log l 0x0A01 0xFF (leBytes 1 l ++ leBytes 1 lines)
    ((s.loop l).run.isSome = true → exec (.loopFence l) s = .next (t.modLoop l fun z => { z with fencing := true })) ∧
    ((s.loop l).run = none → exec (.loopFence l) s = .next (t.fenceNow l)))

/-- O43. Campanile's ports: frames and transactions follow one another, PWM values take effect at the period (R300, R302, R308). -/
def Obligations.LoopPorts : Prop :=
  ∀ (s : State) (p : Nat),
    ((s.canPort p).sending.isSome = true → exec (.canTransmitDone p) s = .next ((s.modCan p fun x => { x with sending := none }).startCan p)) ∧
    ((s.canPort p).busOff = true → exec (.canBusOffRecovery p) s = .next ((s.modCan p fun x => { x with busOff := false }).startCan p)) ∧
    ((s.canPort p).sending = none → (s.canPort p).busOff = false → (s.canPort p).waiting ≠ [] →
      let t : State := { s with clk.free := s.clk.free + 1 }
      s.startCan p = t.modCan p (fun x => { x with busOff := true }) ∨ ∃ f ∈ (s.canPort p).waiting,
        s.startCan p = (t.modCan p fun x => { x with sending := some f, waiting := x.waiting.erase f }).emit
          (.can p f.ident f.fd (f.fd && canFast (s.canPort p).record) f.dlc f.payload)) ∧
    ((s.canPort p).sending.isSome = true ∨ (s.canPort p).busOff = true ∨ (s.canPort p).waiting = [] → s.startCan p = s) ∧
    (∀ f : CanTx, (∃ g ∈ (s.canPort p).waiting, g.loop = f.loop ∧ g.ident = f.ident) →
      s.sendCan p f = (s.modCan p fun x => { x with
        waiting := x.waiting.map fun g => if g.loop == f.loop && g.ident == f.ident then f else g }).modLoop f.loop fun x =>
          { x with counts := { x.counts with txReplaced := x.counts.txReplaced + 1 } }) ∧
    (∀ f : CanTx, (∀ g ∈ (s.canPort p).waiting, g.loop = f.loop → g.ident ≠ f.ident) →
      s.sendCan p f = (s.modCan p fun x => { x with waiting := x.waiting ++ [f] }).startCan p) ∧
    (∀ t u rest, Map.get [] s.cmp.spi p = t :: u :: rest → exec (.spiTransactionDone p) s =
      .next (({ s with cmp.spi := Map.set [] s.cmp.spi p (u :: rest) } : State).emit (.spi p u.cs [u.bits]))) ∧
    (∀ t, Map.get [] s.cmp.spi p = [t] → exec (.spiTransactionDone p) s = .next { s with cmp.spi := Map.set [] s.cmp.spi p [] }) ∧
    ((Map.get {} s.cmp.pwm p).nextPeriod ≠ 0 →
      let x := Map.get {} s.cmp.pwm p
      exec (.pwmPeriodBoundary p) s = .next (({ s with cmp.pwm := Map.set {} s.cmp.pwm p { x with
        period := x.nextPeriod, duty := x.nextDuty } } : State).emit (.pwm p x.nextDuty x.nextPeriod)))

/-- O44. Doorbells, BAR0, the fetch of an entry and the posting of its completion (R315, R316, R317, R318, R320, R321, R322, R324, R325, R326). -/
def Obligations.HostRings : Prop :=
  (∀ (s : State) (q v : Nat), v < 8192 → (s.queue q).live = true →
    let x := s.queue q
    (x.faulted = false → v < x.sqSize → exec (.sqTail q v) s = .next (s.setQueue q { x with sqTail := v })) ∧
    (x.faulted = false → x.sqSize ≤ v → exec (.sqTail q v) s =
      .next ((s.setQueue q { x with faulted := true }).notice noticeQueueFaulted 0xFF [BitVec.ofNat 8 q])) ∧
    (v < x.cqSize → x.cqHead < x.cqSize → v ≠ x.cqHead → exec (.cqHead q v) s = .next (s.setQueue q { x with
      cqHead := v, unconsumed := x.unconsumed - (v + x.cqSize - x.cqHead) % x.cqSize, signalled := false }))) ∧
  (∀ (s : State) (v : Nat), let r := s.host.notices
    let n := s.host.bar.noticeSize
    s.host.bar.adminUp = true → v < n → v < 8192 → r.head < n → v ≠ r.head → exec (.noticeHead v) s =
      .next (s.modHost fun x => { x with notices := { r with head := v, count := r.count - (v + n - r.head) % n } })) ∧
  (∀ s : State, s.host.bar.adminUp = false →
    (s.host.bar.ringsOk = false → exec .adminEnableSet s = .next (s.modBar fun b => { b with adminEnable := true, adminFault := true })) ∧
    (s.host.bar.ringsOk = true → ∃ t, exec .adminEnableSet s = .next t ∧ t.host.bar.adminUp = true ∧ (t.queue 0).live = true ∧
      (t.queue 0).sqSize = s.host.bar.adminSize % 65536 ∧ (t.queue 0).cqSize = s.host.bar.adminSize / 65536 ∧ t.module.wake = false)) ∧
  (∀ s : State, s.host.bar.adminUp = true → exec .adminEnableClear s = .next s.detach) ∧
  (∀ (s : State) (k : EndpointReset), exec (.endpointReset k) s =
    .next (s.detach.modBar fun b => { cpReady := b.cpReady, cpRestarting := b.cpRestarting })) ∧
  (∀ s : State, s.detach.host.session = none ∧ s.detach.host.swapPaused = true ∧
    (∀ n, s.host.session = some n → s.detach.host.detached = some n)) ∧
  (∀ (s : State) (v : Nat), v < 2 ^ 64 → s.host.bar.adminUp = false →
    exec (.registerWrite 0x10 ⟨true, v⟩) s = .next (s.modBar fun b => { b with adminSqBase := v }) ∧
    exec (.registerWrite 0x18 ⟨true, v⟩) s = .next (s.modBar fun b => { b with adminCqBase := v }) ∧
    exec (.registerWrite 0x20 ⟨true, v⟩) s = .next (s.modBar fun b => { b with adminSize := v % 2 ^ 32, noticeSize := v / 2 ^ 32 }) ∧
    exec (.registerWrite 0x28 ⟨true, v⟩) s = .next (s.modBar fun b => { b with noticeBase := v }) ∧
    (v < 2 ^ 32 →
      exec (.registerWrite 0x20 ⟨false, v⟩) s = .next (s.modBar fun b => { b with adminSize := v }) ∧
      exec (.registerWrite 0x24 ⟨false, v⟩) s = .next (s.modBar fun b => { b with noticeSize := v }) ∧
      exec (.registerWrite 0x10 ⟨false, v⟩) s =
        .next (s.modBar fun b => { b with adminSqBase := v + 2 ^ 32 * (b.adminSqBase / 2 ^ 32) }) ∧
      exec (.registerWrite 0x14 ⟨false, v⟩) s = .next (s.modBar fun b => { b with adminSqBase := b.adminSqBase % 2 ^ 32 + 2 ^ 32 * v }))) ∧
  (∀ (s : State) (o v : Nat) (wide : Bool), o < 0x7000 → s.host.bar.adminUp = true → exec (.registerWrite o ⟨wide, v⟩) s = .next s) ∧
  (∀ (s : State) (w v : Nat), w < 256 → v < 2 ^ 32 → exec (.registerWrite (0x8000 + 4 * w) ⟨false, v⟩) s = .next (s.msixWord w v)) ∧
  (∀ (s : State) (v : Nat), v < 64 → Map.get false s.host.bar.pba v = true → ∃ t, exec (.msixUnmask v) s = .next t ∧ t.out = s.out ++ [.msix v]) ∧
  (∀ (s : State) (q : Nat) (e : Entry), s.mayFetch q = true →
    let x := s.queue q
    let fence := if e.opcode = 0x0107 then
        some (u8 (inlOf e) 0, if u8 (inlOf e) 0 = q then x.fetched else (s.queue (u8 (inlOf e) 0)).fetched)
      else none
    let u := s.setQueue q { x with sqHead := (x.sqHead + 1) % x.sqSize, fetched := x.fetched + 1,
                                   cmds := x.cmds ++ [{ no := x.fetched, entry := e, fence := fence }] }
    (x.stopped = true → exec (.commandFetch q e) s = .next (u.finish q x.fetched stAbortedByPredecessor 0 0 0)) ∧
    (x.stopped = false → cmdSpec e.opcode = none → exec (.commandFetch q e) s = .next (u.refuse q x.fetched rcUnknownCommand)) ∧
    (x.stopped = false → s.common q e none = none → exec (.commandFetch q e) s = .next u) ∧
    (∀ code, x.stopped = false → s.common q e none = some code → code ≠ rcUnknownCommand →
      ((∀ d ∈ x.cmds, d.held = false → d.phase = .done) → exec (.commandFetch q e) s = .next (u.refuse q x.fetched code)) ∧
      ((∃ d ∈ x.cmds, d.held = false ∧ d.phase ≠ .done) → exec (.commandFetch q e) s = .next u))) ∧
  (∀ (s : State) (q : Nat) (c : Cmd), s.nextPost q = some c →
    exec (.completionPost q) s = .next ((s.stopQueue q c).postEntry q c)) ∧
  (∀ (s : State) (q : Nat) (c : Cmd), ∃ rest, (s.postEntry q c).out = s.out ++ [.completion q c.entry.cid (s.queue q).sqHead c.status
      (if c.status = stRefused then c.reason else 0) (if c.status = stRefused then 0 else c.result) c.time c.aux (s.queue q).phase] ++ rest) ∧
  (∀ (s : State) (r : HostRead) (c : Cmd), s.cmd r.q r.cmd = some c → s.host.bar.adminUp = true → c.phase = .waiting → r.what < 3 →
    (r.poisoned = true → exec (.hostReadReturn r) s = .next (s.finish r.q r.cmd stHostReadFault 0 0 0)) ∧
    (r.poisoned = false → exec (.hostReadReturn r) s = .next (s.modCmd r.q r.cmd fun d =>
      { d with block := if r.what = 0 ∧ d.block = none then some (fit 0 d.entry.argLen r.bytes) else d.block
               table := if r.what = 1 ∧ d.table = none then some r.bytes else d.table
               tokens := if r.what = 2 ∧ d.tokens = none then some r.bytes else d.tokens })))

/-- O45. A command runs at its turn, behind what must complete first; a failed common check refuses it without effect (R12, R319, R320, R325, R326, R327, R328, R330, R473). -/
def Obligations.CommandCourse : Prop :=
  (∀ (s : State) (q op : Nat) (i : Instr), (op, i) ∈ ([
      (0x0101, .deviceIdentify q), (0x0102, .sessionOpen q), (0x0103, .sessionResume q), (0x0104, .queueCreate q),
      (0x0105, .queueDestroy q), (0x0106, .queueRestart q), (0x0107, .queueFence q), (0x0108, .deviceArbiterConfigure q),
      (0x0201, .partitionConfigure q), (0x0202, .partitionEnable q), (0x0203, .partitionDisable q),
      (0x0204, .partitionReset q), (0x0205, .partitionPolicySet q), (0x0206, .partitionDst q), (0x0301, .programLoad q),
      (0x0302, .programUnload q), (0x0402, .modelUnstage q), (0x0403, .modelEvict q), (0x0404, .modelList q),
      (0x0501, .jobSubmit q), (0x0502, .jobPreempt q), (0x0503, .jobAbort q), (0x0601, .regionDefine q),
      (0x0602, .regionRelease q), (0x0603, .regionReseed q), (0x0604, .memFill q), (0x0605, .memCopy q),
      (0x0606, .memBankStats q), (0x0607, .memDdr5Stats q), (0x0608, .memCacheStats q), (0x0609, .memHostRegister q),
      (0x060A, .windowOpen q), (0x060B, .windowClose q), (0x060C, .fabricSetId q), (0x060D, .fabricRoute q),
      (0x060E, .fabricRetrain q), (0x060F, .fabricPortStats q), (0x0610, .kvPoolConfigure q), (0x0611, .kvSeqOpen q),
      (0x0612, .kvSeqExtend q), (0x0613, .kvSeqFork q), (0x0614, .kvSeqTruncate q), (0x0615, .kvSeqClose q),
      (0x0616, .kvSeqSwapOut q), (0x0617, .kvDomainCreate q), (0x0618, .kvDomainDestroy q), (0x0619, .kvStats q),
      (0x0702, .sensorCalibrate q), (0x0703, .sensorParseTable q), (0x0704, .sensorTrigger q), (0x0705, .sensorEthSend q),
      (0x0706, .sensorStats q), (0x0707, .groupConfigure q), (0x0708, .groupStart q), (0x0709, .groupStop q),
      (0x0801, .worldConfigure q), (0x0802, .worldEdit q), (0x0803, .worldPublish q), (0x0804, .worldLoad q),
      (0x0805, .worldUnload q), (0x0806, .planMachine q), (0x0807, .planLattice q), (0x0808, .planQueryWindow q),
      (0x0809, .planStats q), (0x0901, .loopConfigure q), (0x0902, .loopProgram q), (0x0903, .loopCoeffs q),
      (0x0904, .loopStart q), (0x0905, .loopStop q), (0x0906, .loopClear q), (0x0907, .loopWindowOpen q),
      (0x0908, .loopWindowClose q), (0x0909, .loopSafeRelease q), (0x090A, .loopStats q), (0x0A01, .powerCapSet q),
      (0x0A02, .powerBudgetSet q), (0x0A03, .powerPaceFollow q), (0x0A04, .powerRead q), (0x0B02, .storeSlotErase q),
      (0x0B03, .storeSlotList q), (0x0B04, .storeObjPut q), (0x0B05, .storeObjGet q), (0x0B06, .storeObjDelete q),
      (0x0B07, .storeDefaultsSet q), (0x0B08, .storeStats q), (0x0C01, .secAttest q), (0x0C02, .secUpdate q),
      (0x0C04, .secKeyRevoke q), (0x0C06, .secRotate q), (0x0D01, .logRead q), (0x0D02, .logStats q)] : List (Nat × Instr)) →
    (s.turn q = none → exec i s = .next s) ∧
    (∀ c, s.turn q = some c → c.entry.opcode = op →
      (c.ready = false → exec i s = .next s) ∧
      (∀ code, c.ready = true → s.common q c.entry c.block = some code → exec i s = .next (s.refuse q c.no code)))) ∧
  (∀ (s : State) (q n code : Nat),
    let t := s.setQueue q { s.queue q with cmds := (s.queue q).cmds.map fun c =>
      if c.no = n then { c with phase := .done, status := stRefused, reason := code, result := 0, aux := 0, time := s.now } else c }
    s.refuse q n code = if s.host.session = none then t.recWrite (.held q n) else t) ∧
  (∀ (s : State) (q : Nat) (c : Cmd), s.turn q = some c → c ∈ (s.queue q).cmds ∧ c.phase = .waiting ∧ (s.queue q).live = true ∧
    (∀ t n, c.fence = some (t, n) → ∀ x ∈ (s.queue t).cmds, x.no < n → x.phase = .done) ∧
    ((s.queue q).cont = false → ∀ x ∈ ((s.queue q).cmds.filter fun d => !d.held).takeWhile (fun d => d.phase != .waiting),
      x.phase = .done ∧ x.status ≤ 1)) ∧
  (∀ (s : State) (q : Nat) (e : Entry) (b : Option (List Byte)) (k : CmdSpec), cmdSpec e.opcode = some k →
    (q = 0 → s.host.session = none → 0x0103 < k.op → s.common q e b = some rcNoSession) ∧
    (q ≠ 0 → k.col = .admin → s.common q e b = some rcAdminOnly) ∧
    (q ≠ 0 → k.col = .bound → s.bound q e.partition = false → s.common q e b = some rcNotBound) ∧
    (s.host.session.isSome = true → q = 0 → entryBad k e b = true → s.common q e b = some rcEntryMalformed))

/-- O46. Device, session and queue commands that pass the common checks answer as laid down (R239, R323, R324, R326, R328, R330). -/
def Obligations.SessionCommands : Prop :=
  ∀ (s : State) (q : Nat) (c : Cmd), s.turn q = some c → c.ready = true → s.common q c.entry c.block = none →
    let ok := fun (t : State) (r : Nat) => (Host.Outcome.next ((t.accept c).finishOk q c.no r) : Res)
    let no := fun (code : Nat) => (Host.Outcome.next (s.refuse q c.no code) : Res)
    let op := c.entry.opcode
    let b := c.blk
    (op = 0x0101 → exec (.deviceIdentify q) s = .next (((({ s with clk.free := s.clk.free + 64 } : State).accept c).hostWrite c.entry.dataAddr
      (openBytes s.clk.free 64)).finishOk q c.no 0)) ∧
    (op = 0x0102 → s.host.session.isSome = true → exec (.sessionOpen q) s = no rcSession) ∧
    (op = 0x0102 → s.host.session = none → s.host.detached.isSome = true → u8 c.inl 0 ≠ 1 → exec (.sessionOpen q) s = no rcSession) ∧
    (op = 0x0102 → s.host.session = none → (s.host.detached = none ∨ u8 c.inl 0 = 1) → exec (.sessionOpen q) s =
      let u := if s.host.detached.isSome then s.discard else s
      let id := (Config.freeWord u.clk.free).toNat
      ok { u with clk.free := u.clk.free + 1, host.session := some id, host.detached := none, host.swapPaused := false } id) ∧
    (op = 0x0103 → s.host.session = none → s.host.detached = some (u64 c.inl 0) →
      let s1 : State := { s with
        host.queues := s.host.queues.map (restartQueue b), host.session := s.host.detached, host.detached := none, host.swapPaused := false }
      let r := (List.range 64).foldl (fun (a : Nat × State) k =>
        let (n, u) := State.postHeld (a.2.queue k).cmds.length a.2 k
        (a.1 + n, u)) (0, s1)
      exec (.sessionResume q) s = ok r.2 r.1 ∧
      r.2.host.session = some (u64 c.inl 0) ∧ r.2.host.detached = none ∧ r.2.host.swapPaused = false) ∧
    (op = 0x0104 → 1 ≤ u8 b 0 → u8 b 0 ≤ 63 → u8 b 1 ≤ 1 → u8 b 2 ≤ 63 → u8 b 3 = 0 → allZero b 0x18 8 = true →
      2 ≤ u16 b 4 → u16 b 4 ≤ 4096 → 2 ≤ u16 b 6 → u16 b 6 ≤ 4096 → u64 b 8 % 4096 = 0 → u64 b 0x10 % 4096 = 0 →
      ((s.queue (u8 b 0)).live = true → exec (.queueCreate q) s = no rcQueueBusy) ∧
      ((s.queue (u8 b 0)).live = false → exec (.queueCreate q) s = ok (s.setQueue (u8 b 0)
        { live := true, cont := u8 b 1 == 1, vector := u8 b 2, sqSize := u16 b 4, cqSize := u16 b 6, sqBase := u64 b 8, cqBase := u64 b 0x10,
          fetched := (s.queue (u8 b 0)).fetched }) 0)) ∧
    (op = 0x0105 → let n := u8 c.inl 0
      n ≠ 0 → (s.queue n).live = true → (s.queue n).cmds = [] → s.boundByEnabled n = false →
      exec (.queueDestroy q) s = ok (s.setQueue n { fetched := (s.queue n).fetched }) 0) ∧
    (op = 0x0106 → let n := u8 c.inl 0
      n ≠ 0 → (s.queue n).live = true → (s.queue n).stopped = true →
      exec (.queueRestart q) s = ok (s.setQueue n { s.queue n with stopped := false }) (s.queue n).sqHead) ∧
    (op = 0x0107 → (s.queue (u8 c.inl 0)).live = true → exec (.queueFence q) s = ok s 0) ∧
    (op = 0x0108 → let ty := u8 c.inl 0
      let k := u16 c.inl 2
      let w := u32 c.inl 4
      arbWordBad ty w = false → k < arbInstances ty → k ≠ 0xFFFF →
      exec (.deviceArbiterConfigure q) s = ok (s.setArb ty k ((s.arb ty k).configure ty w)) 0) ∧
    (op = 0x0108 → let ty := u8 c.inl 0
      let w := u32 c.inl 4
      arbWordBad ty w = false → u16 c.inl 2 = 0xFFFF → exec (.deviceArbiterConfigure q) s =
        ok ((List.range (arbInstances ty)).foldl (fun (t : State) k => t.setArb ty k ((t.arb ty k).configure ty w)) s) 0)

/-- O47. Partition commands that pass the common checks answer as laid down (R221, R222, R233, R332, R441, R443, R476). -/
def Obligations.PartitionCommands : Prop :=
  ∀ (s : State) (q : Nat) (c : Cmd), s.turn q = some c → c.ready = true → s.common q c.entry c.block = none →
    let ok := fun (t : State) (r : Nat) => (Host.Outcome.next ((t.accept c).finishOk q c.no r) : Res)
    let no := fun (code : Nat) => (Host.Outcome.next (s.refuse q c.no code) : Res)
    let op := c.entry.opcode
    let b := c.blk
    let p := u8 c.inl 0
    (op = 0x0201 → partBad b = false → (partRecord b).zeroQuota = false →
      ((s.part (u8 b 0)).state = .enabled → exec (.partitionConfigure q) s = no rcPartitionBusy) ∧
      ((s.part (u8 b 0)).state ≠ .enabled → exec (.partitionConfigure q) s = ok ((s.modPart (u8 b 0) fun x =>
        { (if x.cfg.poolDiffers (partRecord b) then x.releasePool else x) with
            cfg := partRecord b, state := .disabled, policy := 0xF4, low := .a2 }).keyPair (u8 b 0)) 0)) ∧
    (op = 0x0202 → (∀ code, s.enableCheck (s.bindSpares p) p = some code → exec (.partitionEnable q) s = no code) ∧
      (s.enableCheck (s.bindSpares p) p = none →
        let u := (((s.bindSpares p).retainBanks p false).bindSequencer p).recheck p
        exec (.partitionEnable q) s = ok (u.modPart p fun x => { x with state := .enabled, low := .a0 }) ((u.part p).sequencer.getD 0))) ∧
    (op = 0x0203 → (s.part p).state = .enabled →
      ((s.part p).holdsJob = true → exec (.partitionDisable q) s = no rcPartitionBusy) ∧
      ((s.part p).holdsJob = false → exec (.partitionDisable q) s = ok (s.enterA2 p) 0)) ∧
    (op = 0x0203 → (s.part p).state = .disabled → exec (.partitionDisable q) s =
      .next ((s.accept c).finish q c.no stOkEmpty 0 0 0)) ∧
    (op = 0x0204 → exec (.partitionReset q) s = ok (s.resetPartition p) 0) ∧
    (op = 0x0205 → (u8 c.inl 1 % 4 = 3 → exec (.partitionPolicySet q) s = no rcPartitionMalformed) ∧
      (u8 c.inl 1 % 4 ≠ 3 → exec (.partitionPolicySet q) s = ok (s.modPart p fun x => { x with policy := u8 c.inl 1 }) 0)) ∧
    (op = 0x0206 → exec (.partitionDst q) s = .next (((s.accept c).hostWrite c.entry.dataAddr (s.dst p)).finishOk q c.no 0))

/-- O48. Program, model and job commands that pass the common checks answer as laid down (R86, R115, R165, R166, R168, R178, R210, R211, R225, R330, R331). -/
def Obligations.ProgramJobCommands : Prop :=
  ∀ (s : State) (q : Nat) (c : Cmd), s.turn q = some c → c.ready = true → s.common q c.entry c.block = none →
    let ok := fun (t : State) (r : Nat) => (Host.Outcome.next ((t.accept c).finishOk q c.no r) : Res)
    let runs := fun (t : State) => (Host.Outcome.next ((t.accept c).modCmd q c.no fun x =>
      if x.phase = .waiting then { x with phase := .running } else x) : Res)
    let no := fun (code : Nat) => (Host.Outcome.next (s.refuse q c.no code) : Res)
    let op := c.entry.opcode
    let p := u8 c.inl 0
    let k := u8 c.inl 1
    let n := u16 c.inl 2
    (op = 0x0301 → (s.ctx p k).image = none → s.slotCheck n 0 p = none → s.mediaBad n = true →
      exec (.programLoad q) s = .next ((s.mediaDone n).finish q c.no stMediaError 0 0 0)) ∧
    (op = 0x0301 → (s.ctx p k).image = none → s.slotCheck n 0 p = none → s.mediaBad n = false →
      let d := (s.slot n).data
      let sig := s.lan.sigCheck d 0 p
      (∀ code, sig = some code → exec (.programLoad q) s = .next ((s.logSignature code 0 n p).refuse q c.no code)) ∧
      (∀ code, sig = none → imageCheck d = some code → exec (.programLoad q) s = no code) ∧
      (sig = none → imageCheck d = none → (∀ code, s.loadFit p k (buildImage n d) (imageWindows d) = some code → exec (.programLoad q) s = no code) ∧
        (s.loadFit p k (buildImage n d) (imageWindows d) = none →
          let t := s.install p k n d
          exec (.programLoad q) s = ok (t.measureSlot 0x0301 n (digest (s.slot n).body)) (((t.ctx p k).image.map (·.dataBase)).getD 0)))) ∧
    (op = 0x0302 → ∀ im, (s.ctx p k).image = some im → (s.ctx p k).holdsJob = false → exec (.programUnload q) s =
      ok ((s.unloadImage p k).measureSlot 0x0302 im.slot (digest (s.slot im.slot).body)) 0) ∧
    (op = 0x0401 → s.slotCheck n 1 p = none → s.mediaBad n = false →
      let x := s.slot n
      let sig := s.lan.sigCheck x.data 1 p
      let bad := fun (code : Nat) => (Host.Outcome.next ((s.logSignature code 1 n p).refuse q c.no code) : Res)
      let id := digest16 x.body
      let staged := fun (direct : Bool) => (s.measureSlot 0x0401 n (digest x.body)).putModel p
        { used := true, id := id, slot := n, nandDirect := direct, bytes := x.body.length, ready := direct }
      (∀ code, sig = some code → (u8 c.inl 4 = 1 → exec (.modelStageNandDirect q) s = bad code) ∧
        (u8 c.inl 4 ≠ 1 → exec (.modelStageDdr5 q) s = bad code)) ∧
      (sig = none → u8 c.inl 4 = 1 → (s.part p).stageCheck id x.body.length 1 = none → exec (.modelStageNandDirect q) s = ok (staged true) 0) ∧
      (sig = none → u8 c.inl 4 ≠ 1 → (s.part p).stageCheck id x.body.length 0 = none → exec (.modelStageDdr5 q) s = runs (staged false))) ∧
    (op = 0x0402 → ∀ m, (s.part p).models.find (slice c.inl 16 16) = some m → (s.part p).modelBusy m = false →
      let slot := (Map.get {} (s.part p).models.staged m).slot
      exec (.modelUnstage q) s = ok ((s.modPart p fun x => { x with models := { x.models with
        staged := Map.erase x.models.staged m, cache := x.models.cache.filter fun e => e.model != m } }).measureSlot 0x0402 slot
          (digest (s.slot slot).body)) 0) ∧
    (op = 0x0403 → (slice c.inl 16 16).all (· == 0xFF) = false → ∀ m, (s.part p).models.find (slice c.inl 16 16) = some m →
      exec (.modelEvict q) s = ok (s.modPart p fun x => { x with models := { x.models with
        cache := x.models.cache.filter fun e => e.model != m } }) 0) ∧
    (op = 0x0404 → exec (.modelList q) s =
      .next (((s.accept c).hostWrite c.entry.dataAddr (s.part p).models.record64).finishOk q c.no 0)) ∧
    (op = 0x0501 → let x := s.ctx (u8 c.blk 0) (u8 c.blk 1)
      x.refuse = 0 → (x.image = none → exec (.jobSubmit q) s = no rcNoImage) ∧
      (∀ im, x.image = some im → (u64 c.blk 8 = 0 ∨ c.table.isSome = true) →
        let lt := c.table.getD []
        (∀ code, s.submitCheck (u8 c.blk 0) im c.blk lt = some code → exec (.jobSubmit q) s = no code) ∧
        (s.submitCheck (u8 c.blk 0) im c.blk lt = none →
          (u64 c.blk 8 ≠ 0 → u32 lt 0 = 0 → exec (.jobSubmit q) s = .next ((s.accept c).finish q c.no stOkEmpty 0 0 0)) ∧
          ((u64 c.blk 8 = 0 ∨ u32 lt 0 ≠ 0) → exec (.jobSubmit q) s = runs (s.modCtx (u8 c.blk 0) (u8 c.blk 1) fun y =>
            { y with waiting := y.waiting ++ [jobOf q c lt] }))))) ∧
    (op = 0x0502 → (s.part p).cfg.reserved = false → (s.ctx p k).resident = true → exec (.jobPreempt q) s =
      runs ((s.preempt p).modCmd q c.no fun x => { x with await := some (p, k) })) ∧
    (op = 0x0503 → (s.ctx p k).job.isSome = true → exec (.jobAbort q) s = ok (s.endJob p k stAborted) 0)

/-- O49. Region, memory, window and fabric commands that pass the common checks answer as laid down (R91, R92, R95, R103, R109, R114, R117, R133, R135, R137, R140, R218). -/
def Obligations.MemoryFabricCommands : Prop :=
  ∀ (s : State) (q : Nat) (c : Cmd), s.turn q = some c → c.ready = true → s.common q c.entry c.block = none →
    let ok := fun (t : State) (r : Nat) => (Host.Outcome.next ((t.accept c).finishOk q c.no r) : Res)
    let no := fun (code : Nat) => (Host.Outcome.next (s.refuse q c.no code) : Res)
    let gives := fun (l : List Byte) => (Host.Outcome.next (((s.accept c).hostWrite c.entry.dataAddr l).finishOk q c.no 0) : Res)
    let op := c.entry.opcode
    let b := c.blk
    let p := u8 c.inl 0
    let i := u8 c.inl 1
    let x := s.part p
    (op = 0x0601 → (∀ code, s.defineCheck b = some code → exec (.regionDefine q) s = no code) ∧
      (s.defineCheck b = none →
        let u := (namedBanks b).foldl (fun t k => t.modBank k fun y => { y with retention := true, awake := false }) (s.zeroBanks (namedBanks b))
        let r : Region := { defined := true, mode := u8 b 2, nearWidth := u8 b 3, seed := u32 b 4, banks := namedBanks b }
        exec (.regionDefine q) s = ok (u.modPart (u8 b 0) fun y => { y with regions := Map.set {} y.regions (u8 b 1) r }) 0)) ∧
    (op = 0x0602 → (x.region i).defined = true → x.state ≠ .enabled →
      let u := (s.zeroBanks (x.region i).banks).dropCached p (2 ^ 28 * i) (2 ^ 28)
      exec (.regionRelease q) s = ok (((x.region i).banks.foldl (fun t k => t.modBank k fun y =>
        { y with retention := false, awake := true, hot := false }) u).modPart p fun y => { y with regions := Map.erase y.regions i }) 0) ∧
    (op = 0x0603 → (x.region i).defined = true → (x.region i).mode ≠ 0 → x.running = none → (∀ e ∈ x.ctxs, e.2.liveIn i = false) →
      exec (.regionReseed q) s = ok (((s.zeroBanks (x.region i).banks).dropCached p (2 ^ 28 * i) (2 ^ 28)).modPart p fun y =>
        { y with regions := Map.set {} y.regions i { x.region i with seed := u32 c.inl 4 } }) 0) ∧
    (op = 0x0604 → let off := u32 c.inl 4
      let n := u32 c.inl 8
      (x.region i).defined = true → (x.region i).lines off n = true → x.running = none → n ≠ 0 →
      exec (.memFill q) s = ok (((s.flushRun p (2 ^ 28 * i + off) n).writeLines p (2 ^ 28 * i + off)
        (List.replicate (n / 64) ((List.replicate 16 (slice c.inl 12 4)).flatten, false))).dropCached p (2 ^ 28 * i + off) n) 0) ∧
    (op = 0x0605 → let j := u8 c.inl 2
      let n := u32 c.inl 12
      let src := 2 ^ 28 * i + u32 c.inl 4
      let dst := 2 ^ 28 * j + u32 c.inl 8
      (x.region i).defined = true → (x.region j).defined = true → (x.region i).lines (u32 c.inl 4) n = true →
      (x.region j).lines (u32 c.inl 8) n = true → i ≠ j → x.running = none → n ≠ 0 →
      let u := (s.flushRun p src n).flushRun p dst n
      exec (.memCopy q) s = ok ((u.writeLines p dst (u.readLines p src (n / 64))).dropCached p dst n) 0) ∧
    (op = 0x0606 → exec (.memBankStats q) s = gives (s.bankRecord (u16 c.inl 0))) ∧
    (op = 0x0607 → exec (.memDdr5Stats q) s = gives ((List.range 16).flatMap fun k =>
      leBytes 8 (Map.get 0 (Map.get {} s.ddr.subs (u8 c.inl 0) : SubChannel).grants k).toNat)) ∧
    (op = 0x0608 → exec (.memCacheStats q) s = gives x.models.cacheRecord) ∧
    (op = 0x0609 → let base := u64 c.inl 8
      let n := u64 c.inl 16
      n ≠ 0 → base % 8192 = 0 → n % 8192 = 0 → s.hostOverlap base n = false → n ≤ x.cfg.quota 5 x.cfg.hostSwapBytes →
      s.hostUnits p + n / 8192 ≤ 2 ^ 25 → x.host.units = [] →
      exec (.memHostRegister q) s = ok (s.modPart p fun y => { y with host := { y.host with base := base, bytes := n, units := [] } }) 0) ∧
    (op = 0x060A → (∀ code, s.openCheck b = some code → exec (.windowOpen q) s = no code) ∧
      (∀ id, s.openCheck b = none → s.freeWindow = some id →
        let u := s.openWindow id { kind := .partition, part := u8 b 0, ddr5 := u8 b 1 == 1, region := u8 b 2, flags := u8 b 3, off := u64 b 8,
                                   len := u64 b 0x10, target := u8 b 0x18, tokFirst := u8 b 0x19, tokCount := u16 b 0x1A }
        exec (.windowOpen q) s = ok u (u.handle id).toNat)) ∧
    (op = 0x060B → let h := BitVec.ofNat 64 (u64 c.inl 0)
      let id := hWindow h
      (s.handleOpen h = false → exec (.windowClose q) s = no rcWindowStale) ∧
      (s.handleOpen h = true → (q = 0 ∨ s.bound q (s.win id).part = true) → exec (.windowClose q) s =
        .next ((((((s.closeUnit id).setWin id { s.win id with closer := some (q, c.no) }).closeWindow id).accept c).modCmd q c.no fun y =>
          if y.phase = .waiting then { y with phase := .running } else y)))) ∧
    (op = 0x060C → let id := u16 c.inl 0
      (id = 0xFFFF → exec (.fabricSetId q) s = no rcDeviceId) ∧
      ((∃ h, h < 4 ∧ (s.port h).isUp = true) → exec (.fabricSetId q) s = no rcDeviceId) ∧
      (id ≠ 0xFFFF → (∀ h, h < 4 → (s.port h).isUp = false) → exec (.fabricSetId q) s =
        ok ((List.range 4).foldl (fun (t : State) h => t.modPort h fun y =>
          if y.state = .attesting then { y with state := .training, session := {} } else y) { s with huv.devId := id }) 0)) ∧
    (op = 0x060D → routeList b ≠ [] → ((∃ e ∈ routeList b, routeBad e = true) → exec (.fabricRoute q) s = no rcRouteMalformed) ∧
      ((∀ e ∈ routeList b, routeBad e = false) →
        let held := (routeList b).foldl (fun m e => (m.filter fun r => r.1 != 65536 * e.1 + e.2.2) ++ [(65536 * e.1 + e.2.2, e.2.1)]) s.huv.heldRoutes
        exec (.fabricRoute q) s = ok (State.applyRoutes held.length { s with huv.heldRoutes := held }) 0)) ∧
    (op = 0x060E →
      ((s.port p).state = .up ∨ (s.port p).state = .retraining → exec (.fabricRetrain q) s =
        ok (s.setPort p { s.port p with state := .retraining, lanes := 8, laneMask := 0xFF, usable := 0xFF }) 0) ∧
      ((s.port p).state ≠ .up → (s.port p).state ≠ .retraining → exec (.fabricRetrain q) s =
        ok (s.setPort p { s.port p with state := .training, laneMask := 0xFF, usable := 0xFF, session := {}, failedRetrains := 0 }) 0)) ∧
    (op = 0x060F → exec (.fabricPortStats q) s = gives (s.portRecord p))

/-- O50. KV commands that pass the common checks answer as laid down (R198, R199, R205, R206, R207, R208, R217, R220). -/
def Obligations.KvCommands : Prop :=
  ∀ (s : State) (q : Nat) (c : Cmd), s.turn q = some c → c.ready = true → s.common q c.entry c.block = none →
    let ok := fun (t : State) (r : Nat) => (Host.Outcome.next ((t.accept c).finishOk q c.no r) : Res)
    let no := fun (code : Nat) => (Host.Outcome.next (s.refuse q c.no code) : Res)
    let op := c.entry.opcode
    let b := c.blk
    let p := u8 c.inl 0
    let k := (s.part p).kv
    let n := u16 c.inl 2
    let sq := k.seq n
    (op = 0x0610 → let x := s.part (u8 b 0)
      poolBad b = false → (∀ e ∈ x.kv.seqs, e.2.isOpen = false) → u16 b 2 ≠ 0 → u16 b 4 ≠ 0 → u16 b 6 ≠ 0 →
      x.cfg.quota 3 x.cfg.kvPages ≠ 0 → 8192 * u32 b 8 ≤ x.cfg.quota 5 x.cfg.hostSwapBytes →
      exec (.kvPoolConfigure q) s = ok (s.modPart (u8 b 0) fun y =>
        let pool : KvPool := { configured := true, format := u8 b 1, layers := u16 b 2, heads := u16 b 4, maxSeq := u16 b 6, swapUnits := u32 b 8 }
        { y.releasePool with kv := { y.releasePool.kv with pool := pool } }) 0) ∧
    (op = 0x0611 → let x := s.part (u8 b 0)
      let dom := u8 b 1
      let m := u32 b 8
      let ids := tokenIds (c.tokens.getD []) m
      let nodes := if dom = 0 then [] else x.kv.matchPrefix dom (slice b 0x10 16) 65536 0 0 ids
      let refs := x.kv.blockRefs nodes
      u8 b 0 < 16 → u8 b 2 ≤ 7 → u8 b 3 = 0 → u16 b 6 = 0 → m ≤ 2 ^ 20 → u32 b 12 = 0 → u64 b 0x28 = 0 →
      x.kv.hasSlot (u16 b 4) = true → (x.kv.seq (u16 b 4)).isOpen = false → (x.models.find (slice b 0x10 16)).isSome = true →
      (dom = 0 ∨ x.kv.domains.contains dom = true) →
      (m ≠ 0 → c.tokens = none → exec (.kvSeqOpen q) s = .next s) ∧
      ((m = 0 ∨ c.tokens.isSome = true) → s.tableEntries + refs.length ≤ 16777216 →
        exec (.kvSeqOpen q) s = ok ((s.modKv (u8 b 0) fun y => y.openSeq (u16 b 4) dom (u8 b 2) (slice b 0x10 16) ids nodes).entriesWritten
          (u8 b 0) (u16 b 4) (refs.map Prod.fst)) (16 * nodes.length))) ∧
    (op = 0x0612 → ∀ ts, let m := u32 c.inl 4
      c.tokens = some ts → k.idle n = true → sq.ids.length + m ≤ 2 ^ 20 → m ≠ 0 →
      exec (.kvSeqExtend q) s = ok (s.modKv p fun y => y.setSeq n { sq with ids := sq.ids ++ tokenIds ts m }) (sq.ids ++ tokenIds ts m).length) ∧
    ((op = 0x0612 ∨ op = 0x0613 ∨ op = 0x0614 ∨ op = 0x0615 ∨ op = 0x0616) → k.idle n = false →
      (op = 0x0612 → exec (.kvSeqExtend q) s = no rcKvSeq) ∧ (op = 0x0613 → exec (.kvSeqFork q) s = no rcKvSeq) ∧
      (op = 0x0614 → exec (.kvSeqTruncate q) s = no rcKvSeq) ∧ (op = 0x0615 → exec (.kvSeqClose q) s = no rcKvSeq) ∧
      (op = 0x0616 → exec (.kvSeqSwapOut q) s = no rcKvSeq)) ∧
    (op = 0x0613 → let child := u16 c.inl 4
      let own := k.ownPages n true
      let shared := k.ownPages n false
      k.idle n = true → k.hasSlot child = true → (k.seq child).isOpen = false → s.tableEntries + sq.table.length ≤ 16777216 →
      (k.hasSwapped n = true → (s.allocPage p).isSome = true → exec (.kvSeqFork q) s =
        .next (s.modKv p fun y => y.setSeq n { y.seq n with backWanted := true })) ∧
      (k.hasSwapped n = false → s.copiesPoison p n own = true → exec (.kvSeqFork q) s = .next (s.finish q c.no stPoisonConsumed 0 0 0)) ∧
      (k.hasSwapped n = false → s.copiesPoison p n own = false →
        let s1 := (s.modKv p fun y =>
          let z := (shared.foldl (fun (z : Kv) e => z.addRef e.2) y).setSeq child { sq with
            table := shared.foldl (fun (m : Map PRef) e => Map.set .none m e.1 (.resident e.2)) [], opened := k.nextOpen }
          { z with nextOpen := y.nextOpen + 1 }).entriesWritten p child (shared.map Prod.fst)
        ∀ t, s1.allocKeys p child (own.map Prod.fst) = some t → exec (.kvSeqFork q) s =
          ok (shared.foldl (fun (u : State) e => if u.recBad (.pageEntry p n e.1) then u.recPoison (.pageEntry p child e.1) else u)
            (own.foldl (fun (u : State) e => match (u.part p).kvPage child e.1 with
              | some g => u.copyPage p e.2 g 16
              | none => u) t)) 0)) ∧
    (op = 0x0614 → let l := u32 c.inl 4
      let s1 := s.modPart p fun y =>
        let z := y.dropEntries n fun key => decide (pagesOf l ≤ key % 65536)
        { z with kv := (z.kv.setSeq n { z.kv.seq n with length := l, ids := sq.ids.take l }).settle n }
      let tail := ((s1.part p).kv.seq n).table.filterMap fun e =>
        if e.1 % 65536 = (l - 1) / 16 then ((s1.part p).kvPage n e.1).map fun g => (e.1, g) else none
      k.idle n = true → l < sq.length →
      (l % 16 = 0 → exec (.kvSeqTruncate q) s = ok s1 0) ∧
      (l % 16 ≠ 0 → s.copiesPoison p n ((sq.table.filter fun e => e.1 % 65536 = (l - 1) / 16).filterMap fun e =>
          ((s.part p).kvPage n e.1).map fun g => (e.1, g)) = false →
        (∀ e ∈ tail, (Map.get {} (s1.part p).kv.pages e.2).readOnly = false) →
        exec (.kvSeqTruncate q) s = ok (tail.foldl (fun (t : State) e => t.copyPage p e.2 e.2 (l % 16)) s1) 0)) ∧
    (op = 0x0615 → k.idle n = true → exec (.kvSeqClose q) s = ok ((s.modPart p fun y =>
      let z := y.dropEntries n fun _ => true
      { z with kv := { (z.kv.setSeq n {}) with victim := if z.kv.victim = some n then none else z.kv.victim } }).retryStarts p) 0) ∧
    (op = 0x0616 → k.idle n = true → sq.swapped = false → k.alone n ≠ [] →
      (∀ t, s.swapOut p n = some t → exec (.kvSeqSwapOut q) s = ok (t.retryStarts p) (k.alone n).length) ∧
      (s.swapOut p n = none → exec (.kvSeqSwapOut q) s = no rcKvExhausted)) ∧
    (op = 0x0617 → let d := u8 c.inl 1
      d ≠ 0 → k.domains.contains d = false → exec (.kvDomainCreate q) s = ok ((s.modKv p fun y =>
        { y with domains := y.domains ++ [d], keys := Map.set 0 y.keys d s.lan.nextKey }).modLan fun l => { l with nextKey := s.lan.nextKey + 1 }) 0) ∧
    (op = 0x0618 → let d := u8 c.inl 1
      d ≠ 0 → k.domains.contains d = true → (∀ e ∈ k.seqs, e.2.isOpen = true → e.2.domain ≠ d) →
      exec (.kvDomainDestroy q) s = ok ((s.modKv p fun y =>
        let z := (y.nodes.filter fun m => m.domain == d).foldl Kv.dropNode y
        { z with domains := z.domains.filter (· != d), keys := Map.erase z.keys d }).retryStarts p) 0) ∧
    (op = 0x0619 → exec (.kvStats q) s = .next (((s.accept c).hostWrite c.entry.dataAddr ((s.part p).kvRecord p)).finishOk q c.no 0))

/-- O51. Sensor and group commands that pass the common checks answer as laid down (R242, R243, R247, R248, R256, R259, R268). -/
def Obligations.SensorCommands : Prop :=
  ∀ (s : State) (q : Nat) (c : Cmd), s.turn q = some c → c.ready = true → s.common q c.entry c.block = none →
    let ok := fun (t : State) (r : Nat) => (Host.Outcome.next ((t.accept c).finishOk q c.no r) : Res)
    let no := fun (code : Nat) => (Host.Outcome.next (s.refuse q c.no code) : Res)
    let op := c.entry.opcode
    let b := c.blk
    let g := u8 c.inl 0
    (op = 0x0701 → u8 b 1 ≠ 0xFF → let i := u8 b 0
      let y : Sensor := { cfg := b }
      (sensorBad b = true → exec (.sensorConfigure q) s = no rcSensorMalformed) ∧
      (sensorBad b = false → (y.isCamera = true → y.depth ≠ 0 ∧ s.ringBytes i + y.depth * y.lineBytes ≤ 8388608) → s.groupOf i = none →
        (∀ k, k < 16 → k ≠ i → y.clashes (s.sensor k) = false) →
        let x := s.sensor i
        let same := x.kind != 0xFF && x.isLidar == y.isLidar
        exec (.sensorConfigure q) s = ok (s.modSensor i fun _ =>
          { cfg := b, stopped := s.cup.portsDown.contains y.port, stats := x.stats, calib := if same then x.calib else none
            calibNext := if same then x.calibNext else none, calibDue := if same then x.calibDue else [] }) 0)) ∧
    (op = 0x0701 → u8 b 1 = 0xFF → u8 b 0 ≤ 15 → allZero b 0x34 12 = true → s.groupOf (u8 b 0) = none →
      exec (.sensorRelease q) s = ok (s.modSensor (u8 b 0) fun x => { stats := x.stats }) 0) ∧
    (op = 0x0702 → (u8 b 0 ≤ 15 → calibBad (s.sensor (u8 b 0)) b = false →
        exec (.sensorCalibrate q) s = ok (s.modSensor (u8 b 0) fun x => { x with calibNext := some b }) 0) ∧
      (calibBad (s.sensor (u8 b 0)) b = true → exec (.sensorCalibrate q) s = no rcSensorMalformed)) ∧
    (op = 0x0703 → (tableMalformed b = true → exec (.sensorParseTable q) s = no rcParseTable) ∧
      (tableMalformed b = false → exec (.sensorParseTable q) s = ok { s with cup.tables := Map.set [] s.cup.tables (u8 b 0) b } 0)) ∧
    (op = 0x0704 → (triggerBad b = true → exec (.sensorTrigger q) s = no rcSensorMalformed) ∧
      (triggerBad b = false → exec (.sensorTrigger q) s =
        ok { s with cup.triggers := Map.modify {} s.cup.triggers (u8 b 0) fun x =>
          { x with next := some b, nextAt := roundUp (if x.period = 0 then u32 b 4 else x.period) s.cup.cycles.toNat } } 0)) ∧
    (op = 0x0705 → 8 ≤ g → g ≤ 11 → 60 ≤ u16 c.inl 2 → u16 c.inl 2 ≤ 1518 → s.cup.portsDown.contains g = false →
      exec (.sensorEthSend q) s = ok (s.emit (.eth g b)) 0) ∧
    (op = 0x0706 → exec (.sensorStats q) s = .next (((s.accept c).hostWrite c.entry.dataAddr (s.sensorRecord g)).finishOk q c.no 0)) ∧
    (op = 0x0707 → (∀ code, s.groupCheck b = some code → exec (.groupConfigure q) s = no code) ∧
      (∀ id, s.groupCheck b = none → s.freeWindow = some id →
        let u := ((s.dropRelease (u8 b 0)).openWindow id (releaseWin (u8 b 0) (u8 b 2))).modGroup (u8 b 0) fun x =>
          { configured := true, cfg := b, window := id, blocked := x.blocked, fault := x.fault }
        exec (.groupConfigure q) s = ok u (u.handle id).toNat)) ∧
    (op = 0x0708 → (s.group g).configured = true →
      ((s.group g).started = true → exec (.groupStart q) s = no rcGroupBusy) ∧
      ((s.group g).started = false → exec (.groupStart q) s = ok (s.startGroup g) 0)) ∧
    (op = 0x0709 → (s.group g).started = true → (s.group g).stopping = none →
      ((s.group g).frame = none → exec (.groupStop q) s = ok (s.stopGroup g) 0) ∧
      ((s.group g).frame.isSome = true → exec (.groupStop q) s = .next (((s.modGroup g fun y =>
        { y with stopping := some (q, c.no) }).accept c).modCmd q c.no fun x => if x.phase = .waiting then { x with phase := .running } else x)))

/-- O52. World and planning commands that pass the common checks answer as laid down (R271, R273, R274, R275, R277, R280, R281, R282, R291). -/
def Obligations.PlanCommands : Prop :=
  ∀ (s : State) (q : Nat) (c : Cmd), s.turn q = some c → c.ready = true → s.common q c.entry c.block = none →
    let ok := fun (t : State) (r : Nat) => (Host.Outcome.next ((t.accept c).finishOk q c.no r) : Res)
    let no := fun (code : Nat) => (Host.Outcome.next (s.refuse q c.no code) : Res)
    let runs := fun (t : State) => (Host.Outcome.next ((t.accept c).modCmd q c.no fun x =>
      if x.phase = .waiting then { x with phase := .running } else x) : Res)
    let publish := fun (t : State) => t.modStp fun x => x.trigger false (some (q, c.no))
    let op := c.entry.opcode
    let b := c.blk
    let l := c.inl
    (op = 0x0801 → (worldBad l = true → exec (.worldConfigure q) s = no rcPlanMalformed) ∧
      (worldBad l = false → s.stp.busy = true → exec (.worldConfigure q) s = no rcPlanBusy) ∧
      (worldBad l = false → s.stp.busy = false → exec (.worldConfigure q) s = runs (publish (s.modStp fun t =>
        { t with cell := u32 l 0, origin := [BitVec.ofNat 32 (u32 l 4), BitVec.ofNat 32 (u32 l 8)], modes := u8 l 12, poses := [],
                 buffers := [] })))) ∧
    (op = 0x0802 → editList b ≠ [] → ((editList b).any editBad = true → exec (.worldEdit q) s = no rcPlanMalformed) ∧
      ((editList b).any editBad = false → (s.stp.pubPending || s.stp.copying) = true → exec (.worldEdit q) s =
        runs (s.modStp fun t => { t with waitingOps := t.waitingOps ++ [.edit q c.no (editList b)] })) ∧
      ((editList b).any editBad = false → (s.stp.pubPending || s.stp.copying) = false →
        (s.stp.applyEdits (editList b) = none → exec (.worldEdit q) s = no rcWorldFull) ∧
        (∀ t, s.stp.applyEdits (editList b) = some t → exec (.worldEdit q) s = ok { s with stp := t } 0))) ∧
    (op = 0x0803 → exec (.worldPublish q) s = runs (publish s)) ∧
    (op = 0x0804 → let n := u16 l 0
      let d := (s.slot n).data
      let sig := s.lan.sigCheck d 2 0xFF
      (s.slotCheck n 2 0xFF = none → s.mediaBad n = true → exec (.worldLoad q) s =
        .next ((s.mediaDone n).finish q c.no stMediaError 0 0 0)) ∧
      (s.slotCheck n 2 0xFF = none → s.mediaBad n = false →
      (∀ code, sig = some code → exec (.worldLoad q) s = .next ((s.logSignature code 2 n 0xFF).refuse q c.no code)) ∧
      (sig = none → s.stp.busy = true → exec (.worldLoad q) s = no rcPlanBusy) ∧
      (∀ code, sig = none → s.stp.busy = false → meshCheck d = some code → exec (.worldLoad q) s = no code) ∧
      (sig = none → s.stp.busy = false → meshCheck d = none → exec (.worldLoad q) s =
        runs (publish ((s.modStp fun t => { t with mesh := some d, meshSlot := n }).measureSlot 0x0804 n (digest (s.slot n).body)))))) ∧
    (op = 0x0805 → (s.stp.busy = true → exec (.worldUnload q) s = no rcPlanBusy) ∧
      (s.stp.busy = false → s.stp.mesh.isSome = true → exec (.worldUnload q) s =
        runs (publish ((s.measureSlot 0x0805 s.stp.meshSlot (digest (s.slot s.stp.meshSlot).body)).modStp fun t =>
          { t with mesh := none, meshSlot := 0 }))) ∧
      (s.stp.busy = false → s.stp.mesh = none → exec (.worldUnload q) s =
        runs (publish (s.modStp fun t => { t with mesh := none, meshSlot := 0 })))) ∧
    (op = 0x0806 → let m := u8 l 0
      let n := u8 l 1
      (7 < m ∨ 32 < n → exec (.planMachine q) s = no rcPlanMalformed) ∧
      (m ≤ 7 → n = 0 → exec (.planMachine q) s = no rcZeroSize) ∧
      (m ≤ 7 → 1 ≤ n → n ≤ 32 → (∀ i, i < n → finiteAt b (16 * i) 4 = true ∧ above0 (u32 b (16 * i + 12)) = true) →
        ((∃ x ∈ s.stp.live, qMachine x.record = m) → exec (.planMachine q) s = no rcPlanBusy) ∧
        ((∀ x ∈ s.stp.live, qMachine x.record ≠ m) → exec (.planMachine q) s =
          ok (s.modStp fun t => { t with machines := Map.set [] t.machines m b }) 0))) ∧
    (op = 0x0807 → let k := u8 b 0
      let h := u8 b 1
      let n := u16 b 2
      let res := u32 b 4
      let prims := (recordsOf 256 (b.drop 32)).take n
      k ≤ 3 → h ∈ [16, 32, 64] → 1 ≤ n → n ≤ 256 → 10 ≤ res → res ≤ 10000 → finiteAt b 8 2 = true → allZero b 0x10 16 = true →
      ((∃ x ∈ prims, motionBad h res x = true) → exec (.planLattice q) s = no rcPlanMalformed) ∧
      ((∀ x ∈ prims, motionBad h res x = false) →
        ((∃ x ∈ s.stp.live, qLattice x.record = k) → exec (.planLattice q) s = no rcPlanBusy) ∧
        ((∀ x ∈ s.stp.live, qLattice x.record ≠ k) → exec (.planLattice q) s = ok (s.modStp fun t =>
          { t with lattices := Map.set {} t.lattices k { set := true, headings := h, res := res, header := b.take 32, prims := prims } }) 0))) ∧
    (op = 0x0808 → let p := u8 l 0
      (s.freeWindow = none → exec (.planQueryWindow q) s = no rcWindowBudget) ∧
      (∀ id, s.freeWindow = some id →
        let t := ((s.queryWins p).foldl State.closeWindow s).openWindow id { kind := .query p, part := p, flags := 1, len := 128, tokCount := 1 }
        exec (.planQueryWindow q) s = ok t (t.handle id).toNat)) ∧
    (op = 0x0809 → exec (.planStats q) s = .next (((s.accept c).hostWrite c.entry.dataAddr s.stp.record).finishOk q c.no 0))

/-- O53. Loop commands that pass the common checks answer as laid down (R297, R298, R299, R300, R301, R307, R308, R312, R314). -/
def Obligations.LoopCommands : Prop :=
  ∀ (s : State) (q : Nat) (c : Cmd), s.turn q = some c → c.ready = true → s.common q c.entry c.block = none →
    let ok := fun (t : State) (r : Nat) => (Host.Outcome.next ((t.accept c).finishOk q c.no r) : Res)
    let no := fun (code : Nat) => (Host.Outcome.next (s.refuse q c.no code) : Res)
    let runs := fun (t : State) => (Host.Outcome.next ((t.accept c).modCmd q c.no fun x =>
      if x.phase = .waiting then { x with phase := .running } else x) : Res)
    let op := c.entry.opcode
    let b := c.blk
    let i := c.inl
    let l := u8 i 0
    (op = 0x0901 → let k := u8 b 0
      (loopBad b = true → exec (.loopConfigure q) s = no rcLoopMalformed) ∧
      (loopBad b = false → cProgLen b = 0 → exec (.loopConfigure q) s = no rcZeroSize) ∧
      (loopBad b = false → cProgLen b ≠ 0 → (cReport b = 0 ∨ u16 b 0x16 ≠ 0) →
        ((s.loop k).status.started = true → exec (.loopConfigure q) s = no rcLoopBusy) ∧
        ((s.loop k).status.started = false → s.outputTaken k b = true → exec (.loopConfigure q) s = no rcLoopOutput) ∧
        ((s.loop k).status.started = false → s.outputTaken k b = false → exec (.loopConfigure q) s =
          ok (s.modLoop k fun x => { x with cfg := b, dropFault := 0, status := { x.status with fault := false } }) 0))) ∧
    (op = 0x0902 → let first := u16 i 0
      let n := b.length / 8
      let words : List DWord := (List.range n).map fun j => BitVec.ofNat 64 (u64 b (8 * j))
      n ≠ 0 →
      (4096 < first + n ∨ (∃ w ∈ words, 0x10 < iOp w ∨ bits w.toNat 39 32 ≠ 0) → exec (.loopProgram q) s = no rcLoopProgram) ∧
      (first + n ≤ 4096 → (∀ w ∈ words, iOp w ≤ 0x10 ∧ bits w.toNat 39 32 = 0) →
        (s.programBusy first n = true → exec (.loopProgram q) s = no rcLoopBusy) ∧
        (s.programBusy first n = false → exec (.loopProgram q) s = ok { s with cmp := { s.cmp with prog := Map.setList 0 s.cmp.prog first words } } 0))) ∧
    (op = 0x0903 → (coeffsBad b = true → exec (.loopCoeffs q) s = no rcLoopMalformed) ∧
      (coeffsBad b = false → (s.loop l).run.isNone = true → exec (.loopCoeffs q) s = ok (s.modLoop l fun x => x.install b) 0) ∧
      (coeffsBad b = false → (s.loop l).run.isNone = false → exec (.loopCoeffs q) s =
        runs (s.modLoop l fun x => { x with newTable := x.newTable ++ [(b, q, c.no)] }))) ∧
    (op = 0x0904 → let x := s.loop l
      (x.status.started = true ∨ x.cfg = [] ∨ x.status.fault = true → exec (.loopStart q) s = no rcLoopBusy) ∧
      (x.status.started = false → x.cfg ≠ [] → x.status.fault = false → s.outputTaken l x.cfg = false → s.sourceAbsent x.cfg = true →
        exec (.loopStart q) s = no rcLoopSource) ∧
      (x.status.started = false → x.cfg ≠ [] → x.status.fault = false → s.outputTaken l x.cfg = false → s.sourceAbsent x.cfg = false →
        exec (.loopStart q) s = ok (s.modLoop l fun y => { y with
          z := [], prev := safeVals y.cfg, run := none, sup := {}, startedAt := s.cmp.cycles.toNat
          status := { y.status with started := true } }) 0)) ∧
    (op = 0x0905 → (((s.loop l).status.started && (s.loop l).run.isSome) = true → exec (.loopStop q) s =
        runs (s.modLoop l fun y => { y with stopping := y.stopping ++ [(q, c.no)] })) ∧
      (((s.loop l).status.started && (s.loop l).run.isSome) = false → exec (.loopStop q) s = ok (s.stopNow l) 0)) ∧
    (op = 0x0906 → let w := u32 i 4
      exec (.loopClear q) s = ok (s.modLoop l fun x => { x with
        dropSup := if w.testBit 4 then 0 else x.dropSup
        status := { x.status with
          missed := x.status.missed && !w.testBit 1, overrun := x.status.overrun && !w.testBit 2
          implausible := x.status.implausible && !w.testBit 4 } }) 0) ∧
    (op = 0x0907 → (∀ code, s.spCheck i = some code → exec (.loopWindowOpen q) s = no code) ∧
      (∀ id, s.spCheck i = none → s.freeWindow = some id →
        let t := (s.openWindow id { kind := .setpoint l, part := u8 i 1, ddr5 := false, region := u8 i 2, flags := u8 i 12
                                    off := u32 i 4, len := u32 i 8, target := 0xFF, tokFirst := 0, tokCount := 1 }).modSp l fun x =>
          { x with isOpen := true, win := id, part := u8 i 1, len := u32 i 8, timeoutUs := u32 i 16
                   current := none, refresh := 0, copying := none, dirty := false, want := false }
        exec (.loopWindowOpen q) s = ok t (t.handle id).toNat)) ∧
    (op = 0x0908 → ((s.spSlot l).isOpen = false → exec (.loopWindowClose q) s = no rcLoopWindow) ∧
      ((s.spSlot l).isOpen = true → let id := (s.spSlot l).win
        exec (.loopWindowClose q) s = runs (((s.closeSp l).setWin id { s.win id with closer := some (q, c.no) }).closeWindow id))) ∧
    (op = 0x0909 → let a := s.cmp.safeA || l.testBit 0
      let z := s.cmp.safeB || l.testBit 1
      ((∃ k, k < 16 ∧ (s.loop k).held ≠ 0) → exec (.loopSafeRelease q) s = no rcLoopSafe) ∧
      ((∀ k, k < 16 → (s.loop k).held = 0) → (a ≠ s.cmp.safeA ∨ z ≠ s.cmp.safeB) →
        exec (.loopSafeRelease q) s = ok (({ s with cmp := { s.cmp with safeA := a, safeB := z } } : State).emit (.safe a z)) 0)) ∧
    (op = 0x090A → exec (.loopStats q) s = .next (((s.accept c).hostWrite c.entry.dataAddr (s.loopRecord l)).finishOk q c.no 0))

/-- O54. LOOP_PORT_CONFIGURE sets CAN, SPI and PWM ports, and releases them (R302, R454). -/
def Obligations.LoopPortCommands : Prop :=
  ∀ (s : State) (q : Nat) (c : Cmd), s.turn q = some c → c.ready = true → s.common q c.entry c.block = none → c.entry.opcode = 0x090B →
    let ok := fun (t : State) => (Host.Outcome.next ((t.accept c).finishOk q c.no 0) : Res)
    let no := fun (code : Nat) => (Host.Outcome.next (s.refuse q c.no code) : Res)
    let b := c.blk
    let n := u8 b 2
    let m := u8 b 3
    let sound := fun (kind : Nat) (bad : Bool) => portHeadBad kind b = false ∧ bad = false
    (u8 b 0 = 0 → (portHeadBad 1 b = true ∨ u8 b 1 ≠ 0 ∨ canRecordBad b = true → exec (.loopPortConfigureCan q) s = no rcLoopPort) ∧
      (sound 1 (canRecordBad b) → u8 b 1 = 0 → s.portUsed (1, n, m) = true → exec (.loopPortConfigureCan q) s = no rcLoopBusy) ∧
      (sound 1 (canRecordBad b) → u8 b 1 = 0 → s.portUsed (1, n, m) = false → exec (.loopPortConfigureCan q) s =
        ok (s.modCan n fun x => { x with record := b }))) ∧
    (u8 b 0 = 1 → (portHeadBad 2 b = true ∨ u8 b 1 ≠ 0 ∨ spiRecordBad b = true → exec (.loopPortConfigureSpi q) s = no rcLoopPort) ∧
      (sound 2 (spiRecordBad b) → u8 b 1 = 0 → s.portUsed (2, n, m) = true → exec (.loopPortConfigureSpi q) s = no rcLoopBusy) ∧
      (sound 2 (spiRecordBad b) → u8 b 1 = 0 → s.portUsed (2, n, m) = false → exec (.loopPortConfigureSpi q) s =
        ok { s with cmp := { s.cmp with spiCs := Map.set [] s.cmp.spiCs (4 * n + m) b } })) ∧
    (u8 b 0 = 2 → (portHeadBad 3 b = true ∨ u8 b 1 ≠ 0 ∨ pwmRecordBad b = true → exec (.loopPortConfigurePwm q) s = no rcLoopPort) ∧
      (sound 3 (pwmRecordBad b) → u8 b 1 = 0 → s.portUsed (3, n, m) = true → exec (.loopPortConfigurePwm q) s = no rcLoopBusy) ∧
      (sound 3 (pwmRecordBad b) → u8 b 1 = 0 → s.portUsed (3, n, m) = false → exec (.loopPortConfigurePwm q) s =
        ok { s with cmp := { s.cmp with pwm := Map.modify {} s.cmp.pwm n fun x => { x with nextPeriod := u32 b 8 } } })) ∧
    (u8 b 0 = 3 → allZero b 8 56 = true →
      (u8 b 1 = 0 → portHeadBad 1 b = false → s.portUsed (1, n, m) = false → exec (.loopPortRelease q) s =
        ok (s.modCan n fun x => { x with record := [], latest := [], waiting := [] })) ∧
      (u8 b 1 = 1 → portHeadBad 2 b = false → s.portUsed (2, n, m) = false → exec (.loopPortRelease q) s =
        ok { s with cmp := { s.cmp with spiCs := Map.set [] s.cmp.spiCs (4 * n + m) [] } }) ∧
      (u8 b 1 = 2 → portHeadBad 3 b = false → s.portUsed (3, n, m) = false → let x := Map.get {} s.cmp.pwm n
        x.duty ≠ 0 → exec (.loopPortRelease q) s =
        ok (({ s with cmp := { s.cmp with pwm := Map.set {} s.cmp.pwm n {} } } : State).emit (.pwm n 0 x.period))))

/-- O55. Power and store commands that pass the common checks answer as laid down (R337, R347, R356, R373, R374, R375, R376, R377, R378). -/
def Obligations.PowerStoreCommands : Prop :=
  ∀ (s : State) (q : Nat) (c : Cmd), s.turn q = some c → c.ready = true → s.common q c.entry c.block = none →
    let ok := fun (t : State) (r : Nat) => (Host.Outcome.next ((t.accept c).finishOk q c.no r) : Res)
    let no := fun (code : Nat) => (Host.Outcome.next (s.refuse q c.no code) : Res)
    let empty := (Host.Outcome.next ((s.accept c).finish q c.no stOkEmpty 0 0 0) : Res)
    let data := fun (x : List Byte) (r : Nat) => (Host.Outcome.next (((s.accept c).hostWrite c.entry.dataAddr x).finishOk q c.no r) : Res)
    let op := c.entry.opcode
    let b := c.blk
    let i := c.inl
    let p := u8 i 0
    (op = 0x0A01 → let w := u16 i 0
      (w < 120 ∨ 450 < w → exec (.powerCapSet q) s = no rcPowerCap) ∧
      (120 ≤ w → w ≤ 450 → w < s.budgetsBut 16 → exec (.powerCapSet q) s = no rcPowerBudget) ∧
      (120 ≤ w → w ≤ 450 → s.budgetsBut 16 ≤ w → exec (.powerCapSet q) s = ok { s with pwr := { s.pwr with capW := w } } 0)) ∧
    (op = 0x0A02 → let w := u16 i 2
      (450 < w → exec (.powerBudgetSet q) s = no rcPowerMalformed) ∧
      (w ≤ 450 → (s.part p).state = .enabled → s.pwr.capW < s.budgetsBut p + w → exec (.powerBudgetSet q) s = no rcPowerBudget) ∧
      (w ≤ 450 → ((s.part p).state ≠ .enabled ∨ s.budgetsBut p + w ≤ s.pwr.capW) →
        exec (.powerBudgetSet q) s = ok (s.modPart p fun x => { x with power := { x.power with budgetW := w } }) 0)) ∧
    (op = 0x0A03 → exec (.powerPaceFollow q) s = ok (s.modPart p fun x => { x with power :=
      { x.power with paceFollow := u8 i 1 == 1, pace := if u8 i 1 = 1 then x.power.pace else [] } }) 0) ∧
    (op = 0x0A04 → exec (.powerRead q) s = data s.powerRecord 0) ∧
    (op = 0x0B01 → sealing c = false → (∀ code, s.slotWriteCheck b = some code → exec (.storeSlotWrite q) s = no code) ∧
      (s.slotWriteCheck b = none → u32 b 0x10 = 0 → exec (.storeSlotWrite q) s = empty) ∧
      (s.slotWriteCheck b = none → u32 b 0x10 ≠ 0 → exec (.storeSlotWrite q) s = ok (s.slotAppend b) 0)) ∧
    (op = 0x0B01 → sealing c = true → let t := s.slotAppend b
      let x := t.slot (u16 b 0)
      (∀ code, s.slotWriteCheck b = some code → exec (.slotSeal q) s = no code) ∧
      let erased := (t.setSlot (u16 b 0) {}).mediaDone (u16 b 0)
      (s.slotWriteCheck b = none → (u8 b 2 < 4 → s.mediaBad (u16 b 0) = false ∧ t.lan.sigCheck x.data (u8 b 2) (u8 b 3) = none) →
        exec (.slotSeal q) s = ok (t.setSlot (u16 b 0) { x with state := 2 }) 0) ∧
      (∀ code, s.slotWriteCheck b = none → u8 b 2 < 4 → s.mediaBad (u16 b 0) = false →
        t.lan.sigCheck x.data (u8 b 2) (u8 b 3) = some code →
        exec (.slotSeal q) s = .next ((erased.logSignature code (u8 b 2) (u16 b 0) (u8 b 3)).refuse q c.no code)) ∧
      (s.slotWriteCheck b = none → u8 b 2 < 4 → s.mediaBad (u16 b 0) = true → exec (.slotSeal q) s =
        .next ((erased.logSignature rcSignature (u8 b 2) (u16 b 0) (u8 b 3)).refuse q c.no rcSignature))) ∧
    (op = 0x0B02 → let n := u16 i 0
      ((s.slot n).state = 0 → exec (.storeSlotErase q) s = empty) ∧
      ((s.slot n).state ≠ 0 → s.slotInUse n = true → exec (.storeSlotErase q) s = no rcSlotBusy) ∧
      ((s.slot n).state ≠ 0 → s.slotInUse n = false → let bytes := (s.slot n).data.length
        exec (.storeSlotErase q) s = ok ((({ s with clk.free := s.clk.free + (bytes / 2 ^ 22 + 4) } : State).modStore fun x =>
          x.eraseData bytes s.clk.free).setSlot n {}) 0)) ∧
    (op = 0x0B03 → let l := s.store.slots.map Prod.fst
      l ≠ [] → exec (.storeSlotList q) s = data ((l.take (c.entry.dataLen / 48)).flatMap s.slotEntry) l.length) ∧
    (op = 0x0B04 → let name := slice b 0 32
      let n := u32 b 0x20
      let rest := s.store.objects.filter fun o => o.1 != name
      (n = 0 → exec (.storeObjPut q) s = no rcZeroSize) ∧
      (n ≠ 0 → allZero b 0x24 28 = true → deviceName name = false → rest.length < 65536 →
        sumNat (rest.map fun o => o.2.length) + n ≤ 32 * 2 ^ 30 → s.store.freeStripes ≠ 0 →
        exec (.storeObjPut q) s = ok (s.modStore fun x => { x.program n with objects := rest ++ [(name, slice b 64 n)] }) 0)) ∧
    (op = 0x0B05 → (s.objectOf i = none → exec (.storeObjGet q) s = no rcObjectAbsent) ∧
      (∀ d, s.objectOf i = some d → c.entry.dataLen < d.length → exec (.storeObjGet q) s = no rcDataShort) ∧
      (∀ d, s.objectOf i = some d → d.length ≤ c.entry.dataLen → s.mediaBad 4096 = false → exec (.storeObjGet q) s = data d 0)) ∧
    (op = 0x0B06 → (s.store.object i = none → exec (.storeObjDelete q) s = no rcObjectAbsent) ∧
      (deviceName i = false → (s.store.object i).isSome = true → exec (.storeObjDelete q) s =
        ok (s.modStore fun x => { x with objects := x.objects.filter fun o => o.1 != i }) 0)) ∧
    (op = 0x0B07 → let mask := u64 i 0
      (128 ≤ mask → exec (.storeDefaultsSet q) s = no rcStoreMalformed) ∧
      (mask < 128 → mask ≠ 0 → s.store.freeStripes ≠ 0 → exec (.storeDefaultsSet q) s =
        ok (({ s with clk.free := s.clk.free + 1 } : State).modStore fun x => { x.program (Config.freeNat s.clk.free) with
          defaults := ((List.range 7).filter mask.testBit).foldl (fun m k => Map.insert m k (s.keepClass k)) [] }) 0)) ∧
    (op = 0x0B08 → exec (.storeStats q) s = data s.storeRecord 0)

/-- O56. Lantern's commands and the log's answer as laid down; a life-cycle transition leaves it pending and resets the module (R386, R388, R390, R395, R396, R399, R405, R408, R429, R430). -/
def Obligations.SecurityCommands : Prop :=
  ∀ (s : State) (q : Nat) (c : Cmd), s.turn q = some c → c.ready = true → s.common q c.entry c.block = none →
    let ok := fun (t : State) (r : Nat) => (Host.Outcome.next ((t.accept c).finishOk q c.no r) : Res)
    let no := fun (code : Nat) => (Host.Outcome.next (s.refuse q c.no code) : Res)
    let data := fun (x : List Byte) (r : Nat) => (Host.Outcome.next (((s.accept c).hostWrite c.entry.dataAddr x).finishOk q c.no r) : Res)
    let op := c.entry.opcode
    let b := c.blk
    let i := c.inl
    let seq := u32 b 0x0C
    let signed := fun (at_ : Nat) => signedBy s.lan.root (b.take at_) (slice b at_ 1280)
    let note := fun (t : State) => t.seal.log 0xFFFF 0x0C05 0xFF [BitVec.ofNat 8 (u8 b 4), BitVec.ofNat 8 (u8 b 5), 0xFF]
    (op = 0x0C01 → let p := c.entry.partition
      (p ≤ 15 ∨ p = 0xFF) → (s.lan.life.isOwned = false → exec (.secAttest q) s = no rcLifecycle) ∧
      (s.lan.life.isOwned = true → exec (.secAttest q) s = data (s.attestReport p i) 0)) ∧
    (op = 0x0C02 → let n := u16 i 0
      let k := u8 i 2
      let d := (s.slot n).data
      let g := sigBlock d
      let sig := s.lan.sigCheck d 3 0xFF
      s.lan.update = none → k ≤ 2 → s.slotCheck n 3 0xFF = none → s.mediaBad n = false →
      (∀ code, sig = some code → exec (.secUpdate q) s = .next ((s.logSignature code 3 n 0xFF).refuse q c.no code)) ∧
      (sig = none → u8 g 7 ≠ k → exec (.secUpdate q) s = no rcSecurityMalformed) ∧
      (sig = none → u8 g 7 = k → d.length ≤ targetBytes k → exec (.secUpdate q) s =
        .next ((((((s.writeCopy k ⟨u16 g 8, slice g 0x30 64⟩).modLan fun l => { l with
            update := some { slot := n, target := k, svn := u16 g 8, digest := slice g 0x30 64, queue := q, cmd := c.no }
            microcode := if k = 2 then microcodeUnits else l.microcode }).modStore fun x => x.program d.length).accept c).modCmd q c.no
          fun x => if x.phase = .waiting then { x with phase := .running } else x)))) ∧
    (op = 0x0C03 → keyRecordBad b = false → s.lan.life.isOwned = true → signed 0x780 = false →
      (u8 b 4 = 0 → exec (.secKeyEnrolSigning q) s = no rcSignature) ∧ (u8 b 4 = 1 → exec (.secKeyEnrolRoot q) s = no rcSignature) ∧
      (u8 b 4 = 2 → exec (.secKeyEnrolPolicy q) s = no rcSignature)) ∧
    (op = 0x0C03 → keyRecordBad b = false → s.lan.life.isOwned = true → signed 0x780 = true → s.lan.seq < seq →
      (u8 b 4 = 0 → exec (.secKeyEnrolSigning q) s = ok (note (s.modLan fun l => { l with
        seq := seq, keys := Map.set {} l.keys (u8 b 5) { used := true, kinds := u8 b 6, parts := u16 b 8, key := slice b 0x40 1793 } })) (u8 b 5)) ∧
      (u8 b 4 = 1 → exec (.secKeyEnrolRoot q) s =
        ok ((note (s.modLan fun l => { l with seq := seq, root := slice b 0x40 1793 })).measureLife 0x0C03) (u8 b 5)) ∧
      (u8 b 4 = 2 → exec (.secKeyEnrolPolicy q) s =
        ok ((note (s.modLan fun l => { l with
          seq := seq
          policy := { cosign := bitAt (u8 b 0x20) 0, minSvn := (List.range 3).map fun k => u16 b (0x22 + 2 * k) } })).measureLife 0x0C03)
          (u8 b 5))) ∧
    (op = 0x0C04 → let n := u8 b 4
      let bad := u32 b 0 != 0x5645524F || decide (31 < n) || !allZero b 5 3 || !allZero b 0x0C 4 || !serialOk b || !allZero b 0x20 32
      bad = false → s.lan.life.isOwned = true → s.lan.seq < u32 b 8 →
      (signed 0x40 = false → exec (.secKeyRevoke q) s = no rcSignature) ∧
      (signed 0x40 = true → (Map.get ({} : KeySlot) s.lan.keys n).used = false → exec (.secKeyRevoke q) s = no rcKeyUnknown) ∧
      (signed 0x40 = true → (Map.get ({} : KeySlot) s.lan.keys n).used = true → exec (.secKeyRevoke q) s =
        ok ((s.modLan fun l => { l with keys := Map.erase l.keys n, seq := u32 b 8 }).seal.log 0xFFFF 0x0C05 0xFF [0, BitVec.ofNat 8 n, 0xFF]) 0)) ∧
    (op = 0x0C06 → let k := u8 i 0
      let p := u8 i 1
      rotateOk k p = true → s.lan.life.isOwned = true →
      ((∃ w ∈ s.lan.walks, w.cls = k ∧ w.part = p) → exec (.secRotate q) s = no rcLifecycle) ∧
      ((∀ w ∈ s.lan.walks, w.cls ≠ k ∨ w.part ≠ p) → exec (.secRotate q) s =
        ok ((if k = 5 then (List.range 4).foldl State.startRekey s else s.rekeyClass k p).log 0xFFFF 0x0C05 (if p < 16 then p else 0xFF)
          [BitVec.ofNat 8 k, 0xFF, BitVec.ofNat 8 p]) 0) ∧
      (k = 4 → s.rekeyClass k p = (s.modLan fun l => { l with
        nextKey := l.nextKey + 1, walks := l.walks ++ [⟨4, p, s.keyRegister (.nand 0)⟩]
        storeKeys := Map.set 0 l.storeKeys 0 s.lan.nextKey }).seal)) ∧
    (op = 0x0D01 → let l := (s.lan.log.ring.filter fun e => decide (u64 i 0 ≤ e.number)).take (min (u32 i 8) (c.entry.dataLen / 128))
      (l = [] → exec (.logRead q) s = .next ((s.accept c).finish q c.no stOkEmpty 0 0 0)) ∧
      (l ≠ [] → exec (.logRead q) s = data (l.flatMap LogEnt.bytes) l.length)) ∧
    (op = 0x0D02 → exec (.logStats q) s = data s.healthRecord 0) ∧
    (op = 0x0C05 → s.lan.pending = none → let life := lifeOf (u8 b 5)
      let root := s.lan.life == .provisioned && life == .owned
      let pends := fun (i : Instr) (to_ : Life) (scope : Nat) => ∃ (t : State) (r : List Byte), exec i s = .next t ∧ t.lan.pending = some (to_, r, scope) ∧
        t.lan.lcCount = s.lan.lcCount + 1 ∧ t.lan.life = s.lan.life ∧ t.module.state = .starting ∧ t.module.cause = .mrst
      (∀ k, u8 b 4 = 0 → authBad s.lan b root = false → s.lan.transitionKey life b = some k →
        (authSigned k b = true → pends (.secLifecycle q) life 0) ∧ (authSigned k b = false → exec (.secLifecycle q) s = no rcSignature)) ∧
      (u8 b 4 = 0 → authBad s.lan b root = false → s.lan.transitionKey life b = none → exec (.secLifecycle q) s = no rcLifecycle) ∧
      (u8 b 4 = 1 → authBad s.lan b false = false → s.lan.life = .service →
        (authSigned (tithenKey 0xF4) b = true → pends (.secDebugUnlock q) .service (u16 b 6 + 4)) ∧
        (authSigned (tithenKey 0xF4) b = false → exec (.secDebugUnlock q) s = no rcKeyUnknown)) ∧
      (u8 b 4 = 1 → authBad s.lan b false = false → s.lan.life ≠ .service → exec (.secDebugUnlock q) s = no rcLifecycle))

/-- O57. Update commits, microcode switches, walk ends, log writes, Lantern's restarts and the debug port act as laid down (R380, R382, R386, R397, R405, R406, R407, R408, R427, R429). -/
def Obligations.LanternEvents : Prop :=
  (∀ (s : State) (u : Update), s.lan.update = some u →
    let old : Target := Map.get {} s.lan.targets u.target
    let new : Target := { svn := u.svn, floor := max old.floor u.svn, digest := u.digest, region := 1 - old.region, other := ⟨old.svn, old.digest⟩ }
    let t := s.modLan fun l => { l with update := none, targets := Map.set {} l.targets u.target new }
    exec (.updateCommit true) s = .next (((if u.target < 2 then t.measure (u.target + 1) 0x0C02 u.digest else t).log 0xFFFF 0x0C06 0xFF
      ([BitVec.ofNat 8 u.target] ++ leBytes 2 u.svn ++ [BitVec.ofNat 8 new.floor])).finishOk u.queue u.cmd) ∧
    ∃ t : State, exec (.updateCommit false) s = .next (t.refuse u.queue u.cmd rcSecurityMalformed) ∧ t.lan.update = none ∧
      t.lan.targets = s.lan.targets ∧ t.host = s.host) ∧
  (∀ (s : State) (n : Nat), n ∈ s.lan.microcode → s.unitFree n = true → s.lan.update = none →
    exec (.microcodeSwitch n) s = .next ((s.modLan fun l => { l with microcode := l.microcode.filter (· != n) }).measure 3 0x0C02
      (fit 0 64 (Map.get ({} : Target) s.lan.targets 2).digest))) ∧
  (∀ (s : State) (k p : Nat), (∃ w ∈ s.lan.walks, w.cls = k ∧ w.part = p) → exec (.rotationWalkEnd k p) s =
    .next ((s.modLan fun l => { l with walks := l.walks.filter fun w => !(w.cls == k && w.part == p) }).log 0xFFFF 0x0C05
      (if p < 16 then p else 0xFF) [BitVec.ofNat 8 k, 0xFF, BitVec.ofNat 8 p])) ∧
  (∀ (s : State) (r : LogRec) (rest : List LogRec), s.lan.log.queue = r :: rest → (s.module.state = .running ∨ s.module.state = .starting) →
    s.lan.log.ring.length < 2 ^ 25 →
    let g := s.lan.log
    let prev := (g.ring.getLast?.map (·.chain)).getD (zeros 16)
    exec .logRecordWrite s = .next (s.modLan fun l => { l with log := { g with
      queue := rest, dropped := 0, next := g.next + 1
      ring := g.ring ++ [⟨g.next, g.dropped, r, digest16 (prev ++ logHead g.next g.dropped r)⟩] } })) ∧
  (∀ s : State, s.module.state ≠ .off → s.module.state ≠ .held → s.lan.romHold = false →
    let counted := fun (k failed : Nat) => (s.modLan fun l =>
      { l with restarts := satAdd 0xFFFFFFFF l.restarts 1, failedTests := failed }).log 0xFFFF 0x0C01 0xFF [BitVec.ofNat 8 k]
    let again := fun (t : State) => t.measure 1 0xFF01 (s.startDigest 0)
    exec .lanternWatchdogExpiry s = .next (again (counted 3 0)) ∧ exec .entropyTimeout s = .next (again (counted 2 0)) ∧
    exec (.lanternRestart 0) s = .next (again (counted 0 0)) ∧
    (s.lan.failedTests < 2 → exec (.lanternRestart 1) s = .next (again (counted 1 (s.lan.failedTests + 1)))) ∧
    (2 ≤ s.lan.failedTests → ∃ t : State, exec (.lanternRestart 1) s = .next t ∧ t.lan.romHold = true ∧ t.module.alert = true ∧
      (s.module.state = .running → t.module.state = .running ∧ t.host.bar.cpReady = false ∧ t.tiles = [] ∧ t.cup = s.cup ∧ t.stp = s.stp ∧
        t.cmp = s.cmp ∧ t.fab.writes = s.fab.writes) ∧
      (s.module.state ≠ .running → t.module.state = .held))) ∧
  (∀ s : State,
    let n := boundaryBits
    let drawn := fun (k : Nat) => ({ s with clk.free := s.clk.free + k } : State)
    let l := openBits s.clk.free (n + 2)
    exec .bypass s = .next (s.emit (.tdo [0])) ∧ exec .idcode s = .next ((drawn 31).emit (.tdo (1 :: openBits s.clk.free 31))) ∧
    (s.jtagOpen 0 = true → exec .samplePreload s = .next ((drawn n).emit (.tdo (openBits s.clk.free n))) ∧
      exec .extest s = .next (((drawn (n + 2)).emit (.safe (nth 0 l 0 == 1) (nth 0 l 1 == 1))).emit (.tdo (l.drop 2)))) ∧
    (s.jtagOpen 0 = false → exec .samplePreload s = .next (s.emit (.tdo [0])) ∧ exec .extest s = .next (s.emit (.tdo [0]))) ∧
    (s.jtagOpen 1 = true → exec .internalScan s = .next ((drawn 64).emit (.tdo (openBits s.clk.free 64)))) ∧
    (s.jtagOpen 1 = false → exec .internalScan s = .next (s.emit (.tdo [0]))))

/-- O58. Bad blocks, fenced dies, wear moves, canary scans, refreshes and relocations of the NAND act as laid down (R363, R364, R365, R366, R368, R369, R370). -/
def Obligations.NandEvents : Prop :=
  ∀ (s : State) (d b : Nat), d < 16 → b < 2816 →
    let x := s.store.die d
    let data := leBytes 2 b ++ leBytes 2 0 ++ [(0 : Byte)]
    (x.fenced = false → 0 < x.reserve → exec (.grownBadBlock d b) s = .next ((s.modStore fun y =>
      ((({ y with stats := { y.stats with grownBad := satAdd 0xFFFF y.stats.grownBad 1 } } : Store).modDie d fun z =>
        { z with reserve := z.reserve - 1 }).modBlock d b fun _ => { scans := y.canaries }).rewrite (2 ^ 24)).log d 0x0504 0xFF data)) ∧
    (x.fenced = false → x.reserve = 0 → ∃ t : State, exec (.grownBadBlock d b) s = .next (t.log d 0x0505 0xFF data) ∧
      t.store.retiredStripes = s.store.retiredStripes + 1 ∧ t.store.stats.grownBad = satAdd 0xFFFF s.store.stats.grownBad 1 ∧
      t.store.dies = s.store.dies ∧ t.lan = s.lan) ∧
    (x.fenced = false → ∃ n, exec (.dieFence d) s = .next ((({ s with clk.free := s.clk.free + 1 } : State).modStore fun y =>
      (y.modDie d fun z => { z with fenced := true }).rewrite n).log d 0x0506 0xFF (leBytes 2 0 ++ leBytes 2 0 ++ [(0 : Byte)]))) ∧
    (x.fenced = false → let up := (List.range 16).filter fun k => !(s.store.die k).fenced
      ∃ f : Nat → Nat, (∀ k, f k < 2816) ∧ exec (.staticWearMove d) s = .next (({ s with clk.free := s.clk.free + 16 } : State).modStore fun y =>
        (up.foldl (fun z k => z.eraseBlock k (f k)) y).rewrite (up.length * 2 ^ 24))) ∧
    (exec (.canaryScan [{ die := d, block := b }]) s = .next (s.modStore fun y =>
      ({ y with canaries := y.canaries + 1 } : Store).modBlock d b fun z => { z with refresh := true })) ∧
    (exec (.canaryScan []) s = .next (s.modStore fun y => { y with canaries := y.canaries + 1 })) ∧
    ((s.store.block d b).refresh = true → exec (.blockRefresh d b) s = .next ((s.modStore fun y =>
      let z := (y.eraseBlock d b).rewrite (2 ^ 24)
      { z with stats := { z.stats with refreshes := satAdd 0xFFFFFFFF z.stats.refreshes 1 } }).log d 0x0507 0xFF data)) ∧
    ((s.store.block d b).refresh = false → exec (.blockRefresh d b) s = .next s) ∧
    exec (.blockRelocation d b) s = .next ((s.modStore fun y =>
      let z := (y.eraseBlock d b).rewrite (2 ^ 24)
      { z with stats := { z.stats with relocations := satAdd 0xFFFFFFFF z.stats.relocations 1 } }).log d 0x0508 0xFF data) ∧
    (∀ y : Store, (y.eraseBlock d b).block d b =
      { erases := (y.block d b).erases + 1, reads := 0, scans := y.canaries, refresh := false })

/-- O59. Tile fences, sequencer errors, memory errors of Cupola and Steeple, CP restarts and A1 act as laid down (R417, R418, R421, R422, R423, R424, R426, R442). -/
def Obligations.ErrorContainment : Prop :=
  (∀ (s : State) (tile cause : Nat) (lost : List Nat), tile < 68 → tile ∉ s.module.fencedTiles → s.module.state = .running →
    let fenced := ({ s with module := { s.module with fencedTiles := insertSorted tile s.module.fencedTiles } } : State)
    let mask := leBytes 8 (sumNat ((dedup (lost.filter (· < 64))).map (2 ^ ·)))
    (s.engineOn tile = none → exec (.tileFence tile cause lost) s = .next ((fenced.log tile 0x0103 0xFF ([BitVec.ofNat 8 cause, 0xFF] ++ mask)).notice
      noticeTileFenced 0xFF ([BitVec.ofNat 8 tile, 0xFF] ++ zeros 14))) ∧
    (∀ e, s.engineOn tile = some e → s.ownerOf e = none → exec (.tileFence tile cause lost) s =
      .next ((({ fenced with engineMap := Map.set 0 s.engineMap e 69 } : State).log tile 0x0103 0xFF
        ([BitVec.ofNat 8 cause, BitVec.ofNat 8 e] ++ mask)).notice noticeTileFenced 0xFF ([BitVec.ofNat 8 tile, BitVec.ofNat 8 e] ++ zeros 14))) ∧
    (∀ e p l, s.engineOn tile = some e → s.ownerOf e = some (p, l) → exec (.tileFence tile cause lost) s =
      .next (((({ fenced with engineMap := Map.set 0 s.engineMap e 69 } : State).fenceJobs p l lost).log tile 0x0103 p
        ([BitVec.ofNat 8 cause, BitVec.ofNat 8 e] ++ mask)).notice noticeTileFenced p ([BitVec.ofNat 8 tile, BitVec.ofNat 8 e] ++ zeros 14)))) ∧
  (∀ (s : State) (tile cause : Nat) (lost : List Nat), s.module.state ≠ .running → exec (.tileFence tile cause lost) s = .next s) ∧
  (∀ (s : State) (p k : Nat), (s.part p).sequencer = some k →
    let t := (({ s with module := { s.module with lostSequencers := insertSorted k s.module.lostSequencers } } : State).resetPartition p).modPart p
      fun q => { q with sequencer := none }
    let u := if t.freeSequencers.isEmpty then t.enterA2 p else t.bindSequencer p
    exec (.sequencerError p) s = .next (u.log 0xFFFF 0x0201 p [BitVec.ofNat 8 k, BitVec.ofNat 8 (((u.part p).sequencer).getD 0xFF)])) ∧
  (∀ (s : State) (i line : Nat), 
    let x := s.sensor i
    let counted := fun (t : State) (d : Nat) => t.modLan fun l => { l with log := { l.log with
      uncorrectable := Map.modify 0 l.log.uncorrectable d (satAdd 0xFFFFFFFF 1) } }
    (i < 16 → some (Map.get {} x.ring line).frame = x.seqNo → x.inImage = true →
      exec (.cupolaMemoryError .ingestRing i line) s = .next (counted (s.modSensor i fun y => y.damageLine line) 0x07) ∧
      x.damageLine line = { x with damaged := true }) ∧
    (i < 4 → (s.group i).started = true → exec (.cupolaMemoryError .groupData i line) s = .next ((s.clearMap i).modGroup i fun y =>
      { y with frame := y.frame.map fun f => { f with lost := f.headerWrite.isNone } })) ∧
    exec (.cupolaMemoryError .config i line) s = .next (counted s 0x08)) ∧
  (∀ (s : State) (i : Nat),
    let logged := fun (k : Nat) (t : State) => t.log 0xFFFF 0x0901 0xFF (leBytes 1 k ++ leBytes 4 t.stp.epoch)
    exec (.steepleMemoryError .queue i) s = .next (logged 0 (s.modStp fun t => { t with
      running := t.running.map fun r => { r with lost := true } })) ∧
    (i < 3 → exec (.steepleMemoryError .buffer i) s = .next (logged 1 (s.modStp fun t =>
      ({ t with
        buffers := Map.modify {} t.buffers i fun b => { b with bad := true }
        running := t.running.map fun (r : Running) => if r.buffer = i then { r with stale := true } else r } : Steeple).trigger true none))) ∧
    (s.stp.mesh.isSome = true → exec (.steepleMemoryError .mesh i) s = .next (logged 2 (s.modStp fun t =>
      { t with running := t.running.map fun r => { r with stale := true } })).reloadMesh)) ∧
  (∀ (s : State) (cause : Nat), s.host.bar.cpReady = true →
    let n := satAdd 0xFFFFFFFF s.module.cpRestarts 1
    let again := sumNat (s.host.queues.map fun e => (e.2.cmds.filter fun c => c.phase != .done).length)
    exec .cpHeartbeatTimeout s = .next { s with host := { s.host with bar := { s.host.bar with cpRestarting := true } } } ∧
    let up := ({ s with
      module := { s.module with cpRestarts := n }
      host := { s.host with bar := { s.host.bar with cpRestarting := false } } } : State)
    let told := fun (t : State) => (t.log 0xFFFF 0x0B01 0xFF (leBytes 1 cause ++ leBytes 4 again)).notice noticeCpRestarted 0xFF (leBytes 4 n ++ zeros 12)
    (cause ≠ 3 → exec (.cpRestart cause) s = .next (told (up.measure 2 0xFF02
      (fit 0 64 (Map.get ({} : Target) s.lan.targets 1).digest)))) ∧
    (cause = 3 → exec (.cpRestart cause) s = .next (told up))) ∧
  (∀ (s : State) (p : Nat), (s.part p).state = .enabled →
    (∀ e ∈ (s.part p).ctxs, e.2.state ≠ .starting ∧ e.2.state ≠ .running ∧ e.2.state ≠ .stopping) →
    exec (.a1Entry p) s = .next (s.modPart p fun x => { x with low := .a1 }))

/-- O60. Every reset event stops the module as its scope says and leaves what the matrix leaves; START boots it (R380, R390, R431, R432, R433, R434, R435, R436, R438, R444, R445, R457). -/
def Obligations.ResetEvents : Prop :=
  ∀ s : State,
    let left := fun (t : State) => t.host = {} ∧ t.parts = [] ∧ t.tok = [] ∧ t.tiles = [] ∧ t.fab = {} ∧ t.huv = {} ∧ t.stem = [] ∧ t.cup = {} ∧
      t.stp = {} ∧ t.cmp = {} ∧ t.arbs = [] ∧ t.sp.mem = [] ∧ t.ddr.mem = [] ∧ t.store = s.store ∧ t.engineMap = s.engineMap ∧
      t.module.fencedTiles = s.module.fencedTiles ∧ t.lan.life = s.lan.life ∧ t.lan.keys = s.lan.keys ∧ t.lan.root = s.lan.root ∧
      t.lan.policy = s.lan.policy ∧ t.lan.targets = s.lan.targets ∧ t.lan.pending = s.lan.pending ∧ t.pending = s.pending
    let stops := fun (i : Instr) (st : ModState) (cause : StartCause) =>
      ∃ t : State, exec i s = .next t ∧ left t ∧ t.module.state = st ∧ t.module.cause = cause
    stops .por (if s.module.mrst = true then .held else .starting) .por ∧ (∃ t : State, exec .por s = .next t ∧ t.lan.debugPort = {} ∧ t.lan.romHold = false ∧ t.lan.mrs = [] ∧
      t.module.slotId = s.module.slotPins % 4) ∧
    (s.module.state ≠ .off → stops .auxLoss .off .por) ∧ (s.module.state = .off → exec .auxLoss s = .next s) ∧
    (s.module.state ≠ .off → s.module.state ≠ .m2 → stops .mainLoss .m2 .m2) ∧
    (s.module.state = .off ∨ s.module.state = .m2 → exec .mainLoss s = .next s) ∧
    (s.module.state = .running ∨ s.module.state = .starting → stops .m1Trip .m1 .m1 ∧
      ∃ t : State, exec .m1Trip s = .next t ∧ t.module.m1Held = decide (3 ≤ s.recentExits.length)) ∧
    (s.module.state ≠ .off → s.module.state ≠ .m2 → stops .mrstNAssert .held .mrst) ∧
    (s.module.state = .off ∨ s.module.state = .m2 →
      exec .mrstNAssert s = .next { s with module := { s.module with mrst := true } }) ∧
    (∀ t : State, exec .mrstNAssert s = .next t → t.module.mrst = true) ∧
    (s.module.state = .m2 → s.module.mrst = false → s.lan.romHold = false →
      exec .mainReturn s = .next { s with module := { s.module with state := .starting } }) ∧
    (s.module.state = .m2 → s.module.mrst = false → s.lan.romHold = true →
      exec .mainReturn s = .next { s with module := { s.module with state := .held } }) ∧
    (s.module.state = .m2 → s.module.mrst = true → stops .mainReturn .held .mrst) ∧
    (s.module.state ≠ .m2 → exec .mainReturn s = .next s) ∧
    (s.module.state = .held → s.lan.romHold = false →
      exec .mrstNRelease s = .next { s with module := { s.module with mrst := false, state := .starting, slotId := s.module.slotPins % 4 } }) ∧
    (s.module.state ≠ .held ∨ s.lan.romHold = true → exec .mrstNRelease s = .next { s with module := { s.module with mrst := false, slotId := s.module.slotPins % 4 } }) ∧
    (s.module.state = .m1 → s.module.m1Held = false → exec .m1Exit s = .next { s with module := { s.module with
      state := .starting, m1Exits := s.recentExits ++ [s.lan.monotonic.toNat] } }) ∧
    (s.module.state = .m1 → s.module.m1Held = true → exec .m1Exit s = .next s) ∧
    (s.module.state = .starting → s.readVault.isSome = true → s.store.mediaBad = [] →
      (∀ k < 3, (Map.get ({} : Target) s.lan.targets k).floor ≤ (Map.get ({} : Target) s.lan.targets k).svn) →
      ∃ t : State, exec .moduleStart s = .next t ∧ t.module.state = .running ∧ t.module.wake = true ∧ t.host.bar.cpReady = true) ∧
    (s.module.state = .starting → s.readVault = none ∨ (∃ u, s.readVault = some u ∧ u.preBoot.canStart = false) →
      ∃ t : State, exec .moduleStart s = .next t ∧ t.module.state = .held ∧ t.lan.romHold = true ∧ t.module.alert = true ∧ t.host = {}) ∧
    (s.module.state ≠ .starting → exec .moduleStart s = .next s)
end

