-- ==== Sys2Proof/Laws/Map.lean ====
section
/-! SUPPORT. The laws of `Map`: reading back what was written, leaving the rest alone, and keeping the canonical form. -/

namespace Sys2Proof.Map

variable {α : Type} {d : α}

/-! ### Reading -/

@[simp] theorem get_nil (k : Nat) : get d [] k = d := rfl

@[simp] theorem get_insert_self (m : Map α) (k : Nat) (v : α) : get d (insert m k v) k = v := by
  induction m with
  | nil => simp [insert, get]
  | cons e m ih =>
    obtain ⟨k', v'⟩ := e
    simp only [insert]
    split
    · simp [get]
    · split <;> simp_all [get]

theorem get_insert_ne (m : Map α) {k j : Nat} (v : α) (h : j ≠ k) : get d (insert m k v) j = get d m j := by
  induction m with
  | nil => simp [insert, get, h]
  | cons e m ih =>
    obtain ⟨k', v'⟩ := e
    simp only [insert]
    split
    · simp [get, h]
    · split
      · simp_all [get]
      · simp [get, ih]

theorem get_erase_ne (m : Map α) {k j : Nat} (h : j ≠ k) : get d (erase m k) j = get d m j := by
  induction m with
  | nil => rfl
  | cons e m ih =>
    obtain ⟨k', v'⟩ := e
    simp only [erase]
    split
    · subst k; simp [get, h]
    · simp [get, ih]

/-- A write leaves every other key alone. -/
theorem get_set_ne [DecidableEq α] (m : Map α) {k j : Nat} (v : α) (h : j ≠ k) : get d (set d m k v) j = get d m j := by
  unfold set
  split
  · exact get_erase_ne m h
  · exact get_insert_ne m v h

/-- A list of writes leaves every key outside its range alone. -/
theorem get_setList_out [DecidableEq α] (l : List α) :
    ∀ (m : Map α) (k j : Nat), (j < k ∨ k + l.length ≤ j) → get d (setList d m k l) j = get d m j := by
  induction l with
  | nil => intros; rfl
  | cons v l ih =>
    intro m k j h
    simp only [setList, List.length_cons] at h ⊢
    rw [ih _ _ _ (by omega), get_set_ne _ _ (by omega)]

/-! ### The canonical form -/

theorem wfFrom_mono [DecidableEq α] {lo lo' : Nat} {m : Map α} (h : lo' ≤ lo) (w : wfFrom d lo m = true) :
    wfFrom d lo' m = true := by
  cases m with
  | nil => rfl
  | cons e m => obtain ⟨k, v⟩ := e; simp_all [wfFrom]; omega

/-- Below its least key a canonical table reads as unlisted. -/
theorem get_below [DecidableEq α] {lo k : Nat} {m : Map α} (w : wfFrom d lo m = true) (h : k < lo) : get d m k = d := by
  induction m generalizing lo with
  | nil => rfl
  | cons e m ih =>
    obtain ⟨k', v'⟩ := e
    simp [wfFrom] at w
    have : k ≠ k' := by omega
    simp only [get, this, if_false]
    exact ih w.2 (by omega)

theorem wfFrom_insert [DecidableEq α] {lo k : Nat} {m : Map α} {v : α} (w : wfFrom d lo m = true) (h : lo ≤ k) (hv : v ≠ d) :
    wfFrom d lo (insert m k v) = true := by
  induction m generalizing lo with
  | nil => simp [insert, wfFrom, h, hv]
  | cons e m ih =>
    obtain ⟨k', v'⟩ := e
    simp [wfFrom] at w
    simp only [insert]
    split
    · simp [wfFrom, h, hv, w]; omega
    · split
      · subst k; simp [wfFrom, w, hv]
      · simp [wfFrom, w, ih w.2 (by omega)]

theorem wfFrom_erase [DecidableEq α] {lo k : Nat} {m : Map α} (w : wfFrom d lo m = true) : wfFrom d lo (erase m k) = true := by
  induction m generalizing lo with
  | nil => rfl
  | cons e m ih =>
    obtain ⟨k', v'⟩ := e
    simp [wfFrom] at w
    simp only [erase]
    split
    · exact wfFrom_mono (by omega) w.2
    · simp [wfFrom, w, ih w.2]

theorem wfFrom_filter [DecidableEq α] (p : Nat × α → Bool) {lo : Nat} {m : Map α} (w : wfFrom d lo m = true) :
    wfFrom d lo (m.filter p) = true := by
  induction m generalizing lo with
  | nil => rfl
  | cons e m ih =>
    obtain ⟨k', v'⟩ := e
    simp [wfFrom] at w
    simp only [List.filter]
    split
    · simp [wfFrom, w, ih w.2]
    · exact wfFrom_mono (by omega) (ih w.2)

/-- A write keeps the canonical form. -/
theorem wf_set [DecidableEq α] {m : Map α} (w : wf d m = true) (k : Nat) (v : α) : wf d (set d m k v) = true := by
  unfold set
  split
  · exact wfFrom_erase w
  · exact wfFrom_insert w (Nat.zero_le k) ‹_›

/-- So does a list of writes. -/
theorem wf_setList [DecidableEq α] (l : List α) : ∀ (m : Map α) (k : Nat), wf d m = true → wf d (setList d m k l) = true := by
  induction l with
  | nil => exact fun _ _ w => w
  | cons v l ih => exact fun m k w => ih _ _ (wf_set w k v)

/-- So does erasing a range of keys. -/
theorem wf_eraseRange [DecidableEq α] {m : Map α} (w : wf d m = true) (lo hi : Nat) : wf d (eraseRange m lo hi) = true :=
  wfFrom_filter _ w

/-- A canonical table reads back what was written. -/
theorem get_set_self [DecidableEq α] {m : Map α} (w : wf d m = true) (k : Nat) (v : α) : get d (set d m k v) k = v := by
  unfold set
  split
  · subst v
    have : ∀ (lo : Nat) (m : Map α), wfFrom d lo m = true → get d (erase m k) k = d := by
      intro lo m
      induction m generalizing lo with
      | nil => intro _; rfl
      | cons e m ih =>
        obtain ⟨k', v'⟩ := e
        intro h
        simp [wfFrom] at h
        simp only [erase]
        split
        · subst k; exact get_below h.2 (Nat.lt_succ_self k')
        · simp only [get, *, if_false]; exact ih _ h.2
    exact this 0 m w
  · exact get_insert_self m k v

/-- Canonical tables that read alike at every key are the same data. -/
theorem wf_ext [DecidableEq α] : ∀ {lo : Nat} {m n : Map α}, wfFrom d lo m = true → wfFrom d lo n = true →
    (∀ k, get d m k = get d n k) → m = n := by
  intro lo m
  induction m generalizing lo with
  | nil =>
    intro n _ hn h
    cases n with
    | nil => rfl
    | cons e n =>
      obtain ⟨k, v⟩ := e
      simp [wfFrom] at hn
      have := h k
      simp [get] at this
      exact absurd this.symm hn.1.2
  | cons e m ih =>
    obtain ⟨k, v⟩ := e
    intro n hm hn h
    simp [wfFrom] at hm
    cases n with
    | nil =>
      have := h k
      simp [get] at this
      exact absurd this hm.1.2
    | cons e' n =>
      obtain ⟨k', v'⟩ := e'
      simp [wfFrom] at hn
      have key : k = k' := by
        rcases Nat.lt_trichotomy k k' with g | g | g
        · have := h k
          have ne : k ≠ k' := by omega
          simp [get, ne, get_below hn.2 (show k < k' + 1 by omega)] at this
          exact absurd this hm.1.2
        · exact g
        · have := h k'
          have ne : k' ≠ k := by omega
          simp [get, ne, get_below hm.2 (show k' < k + 1 by omega)] at this
          exact absurd this.symm hn.1.2
      subst key
      have hv : v = v' := by have := h k; simpa [get] using this
      subst hv
      congr 1
      refine ih hm.2 hn.2 fun j => ?_
      by_cases hj : j = k
      · subst hj; rw [get_below hm.2 (Nat.lt_succ_self j), get_below hn.2 (Nat.lt_succ_self j)]
      · have := h j; simpa [get, hj] using this

end Sys2Proof.Map
end

