-- ==== Sys2Proof/Laws/State.lean ====
section
/-! SUPPORT. What each named update of the state leaves alone, field by field. -/

namespace Sys2Proof.Machine

variable (s : State)

/-! ### setPart -/

@[simp] theorem State.setPart_pending (p : Nat) (v : Part) : (s.setPart p v).pending = s.pending := rfl
@[simp] theorem State.setPart_out (p : Nat) (v : Part) : (s.setPart p v).out = s.out := rfl
@[simp] theorem State.setPart_clk (p : Nat) (v : Part) : (s.setPart p v).clk = s.clk := rfl
@[simp] theorem State.setPart_module (p : Nat) (v : Part) : (s.setPart p v).module = s.module := rfl
@[simp] theorem State.setPart_host (p : Nat) (v : Part) : (s.setPart p v).host = s.host := rfl
@[simp] theorem State.setPart_engineMap (p : Nat) (v : Part) : (s.setPart p v).engineMap = s.engineMap := rfl
@[simp] theorem State.setPart_tok (p : Nat) (v : Part) : (s.setPart p v).tok = s.tok := rfl
@[simp] theorem State.setPart_tokBad (p : Nat) (v : Part) : (s.setPart p v).tokBad = s.tokBad := rfl
@[simp] theorem State.setPart_tiles (p : Nat) (v : Part) : (s.setPart p v).tiles = s.tiles := rfl
@[simp] theorem State.setPart_sp (p : Nat) (v : Part) : (s.setPart p v).sp = s.sp := rfl
@[simp] theorem State.setPart_fab (p : Nat) (v : Part) : (s.setPart p v).fab = s.fab := rfl
@[simp] theorem State.setPart_ddr (p : Nat) (v : Part) : (s.setPart p v).ddr = s.ddr := rfl
@[simp] theorem State.setPart_huv (p : Nat) (v : Part) : (s.setPart p v).huv = s.huv := rfl
@[simp] theorem State.setPart_stem (p : Nat) (v : Part) : (s.setPart p v).stem = s.stem := rfl
@[simp] theorem State.setPart_cup (p : Nat) (v : Part) : (s.setPart p v).cup = s.cup := rfl
@[simp] theorem State.setPart_stp (p : Nat) (v : Part) : (s.setPart p v).stp = s.stp := rfl
@[simp] theorem State.setPart_cmp (p : Nat) (v : Part) : (s.setPart p v).cmp = s.cmp := rfl
@[simp] theorem State.setPart_pwr (p : Nat) (v : Part) : (s.setPart p v).pwr = s.pwr := rfl
@[simp] theorem State.setPart_store (p : Nat) (v : Part) : (s.setPart p v).store = s.store := rfl
@[simp] theorem State.setPart_lan (p : Nat) (v : Part) : (s.setPart p v).lan = s.lan := rfl
@[simp] theorem State.setPart_arbs (p : Nat) (v : Part) : (s.setPart p v).arbs = s.arbs := rfl

/-! ### modPart -/

@[simp] theorem State.modPart_pending (p : Nat) (f : Part → Part) : (s.modPart p f).pending = s.pending := rfl
@[simp] theorem State.modPart_out (p : Nat) (f : Part → Part) : (s.modPart p f).out = s.out := rfl
@[simp] theorem State.modPart_clk (p : Nat) (f : Part → Part) : (s.modPart p f).clk = s.clk := rfl
@[simp] theorem State.modPart_module (p : Nat) (f : Part → Part) : (s.modPart p f).module = s.module := rfl
@[simp] theorem State.modPart_host (p : Nat) (f : Part → Part) : (s.modPart p f).host = s.host := rfl
@[simp] theorem State.modPart_engineMap (p : Nat) (f : Part → Part) : (s.modPart p f).engineMap = s.engineMap := rfl
@[simp] theorem State.modPart_tok (p : Nat) (f : Part → Part) : (s.modPart p f).tok = s.tok := rfl
@[simp] theorem State.modPart_tokBad (p : Nat) (f : Part → Part) : (s.modPart p f).tokBad = s.tokBad := rfl
@[simp] theorem State.modPart_tiles (p : Nat) (f : Part → Part) : (s.modPart p f).tiles = s.tiles := rfl
@[simp] theorem State.modPart_sp (p : Nat) (f : Part → Part) : (s.modPart p f).sp = s.sp := rfl
@[simp] theorem State.modPart_fab (p : Nat) (f : Part → Part) : (s.modPart p f).fab = s.fab := rfl
@[simp] theorem State.modPart_ddr (p : Nat) (f : Part → Part) : (s.modPart p f).ddr = s.ddr := rfl
@[simp] theorem State.modPart_huv (p : Nat) (f : Part → Part) : (s.modPart p f).huv = s.huv := rfl
@[simp] theorem State.modPart_stem (p : Nat) (f : Part → Part) : (s.modPart p f).stem = s.stem := rfl
@[simp] theorem State.modPart_cup (p : Nat) (f : Part → Part) : (s.modPart p f).cup = s.cup := rfl
@[simp] theorem State.modPart_stp (p : Nat) (f : Part → Part) : (s.modPart p f).stp = s.stp := rfl
@[simp] theorem State.modPart_cmp (p : Nat) (f : Part → Part) : (s.modPart p f).cmp = s.cmp := rfl
@[simp] theorem State.modPart_pwr (p : Nat) (f : Part → Part) : (s.modPart p f).pwr = s.pwr := rfl
@[simp] theorem State.modPart_store (p : Nat) (f : Part → Part) : (s.modPart p f).store = s.store := rfl
@[simp] theorem State.modPart_lan (p : Nat) (f : Part → Part) : (s.modPart p f).lan = s.lan := rfl
@[simp] theorem State.modPart_arbs (p : Nat) (f : Part → Part) : (s.modPart p f).arbs = s.arbs := rfl

/-! ### setCtx -/

@[simp] theorem State.setCtx_pending (p c : Nat) (v : Ctx) : (s.setCtx p c v).pending = s.pending := rfl
@[simp] theorem State.setCtx_out (p c : Nat) (v : Ctx) : (s.setCtx p c v).out = s.out := rfl
@[simp] theorem State.setCtx_clk (p c : Nat) (v : Ctx) : (s.setCtx p c v).clk = s.clk := rfl
@[simp] theorem State.setCtx_module (p c : Nat) (v : Ctx) : (s.setCtx p c v).module = s.module := rfl
@[simp] theorem State.setCtx_host (p c : Nat) (v : Ctx) : (s.setCtx p c v).host = s.host := rfl
@[simp] theorem State.setCtx_engineMap (p c : Nat) (v : Ctx) : (s.setCtx p c v).engineMap = s.engineMap := rfl
@[simp] theorem State.setCtx_tok (p c : Nat) (v : Ctx) : (s.setCtx p c v).tok = s.tok := rfl
@[simp] theorem State.setCtx_tokBad (p c : Nat) (v : Ctx) : (s.setCtx p c v).tokBad = s.tokBad := rfl
@[simp] theorem State.setCtx_tiles (p c : Nat) (v : Ctx) : (s.setCtx p c v).tiles = s.tiles := rfl
@[simp] theorem State.setCtx_sp (p c : Nat) (v : Ctx) : (s.setCtx p c v).sp = s.sp := rfl
@[simp] theorem State.setCtx_fab (p c : Nat) (v : Ctx) : (s.setCtx p c v).fab = s.fab := rfl
@[simp] theorem State.setCtx_ddr (p c : Nat) (v : Ctx) : (s.setCtx p c v).ddr = s.ddr := rfl
@[simp] theorem State.setCtx_huv (p c : Nat) (v : Ctx) : (s.setCtx p c v).huv = s.huv := rfl
@[simp] theorem State.setCtx_stem (p c : Nat) (v : Ctx) : (s.setCtx p c v).stem = s.stem := rfl
@[simp] theorem State.setCtx_cup (p c : Nat) (v : Ctx) : (s.setCtx p c v).cup = s.cup := rfl
@[simp] theorem State.setCtx_stp (p c : Nat) (v : Ctx) : (s.setCtx p c v).stp = s.stp := rfl
@[simp] theorem State.setCtx_cmp (p c : Nat) (v : Ctx) : (s.setCtx p c v).cmp = s.cmp := rfl
@[simp] theorem State.setCtx_pwr (p c : Nat) (v : Ctx) : (s.setCtx p c v).pwr = s.pwr := rfl
@[simp] theorem State.setCtx_store (p c : Nat) (v : Ctx) : (s.setCtx p c v).store = s.store := rfl
@[simp] theorem State.setCtx_lan (p c : Nat) (v : Ctx) : (s.setCtx p c v).lan = s.lan := rfl
@[simp] theorem State.setCtx_arbs (p c : Nat) (v : Ctx) : (s.setCtx p c v).arbs = s.arbs := rfl

/-! ### modCtx -/

@[simp] theorem State.modCtx_pending (p c : Nat) (f : Ctx → Ctx) : (s.modCtx p c f).pending = s.pending := rfl
@[simp] theorem State.modCtx_out (p c : Nat) (f : Ctx → Ctx) : (s.modCtx p c f).out = s.out := rfl
@[simp] theorem State.modCtx_clk (p c : Nat) (f : Ctx → Ctx) : (s.modCtx p c f).clk = s.clk := rfl
@[simp] theorem State.modCtx_module (p c : Nat) (f : Ctx → Ctx) : (s.modCtx p c f).module = s.module := rfl
@[simp] theorem State.modCtx_host (p c : Nat) (f : Ctx → Ctx) : (s.modCtx p c f).host = s.host := rfl
@[simp] theorem State.modCtx_engineMap (p c : Nat) (f : Ctx → Ctx) : (s.modCtx p c f).engineMap = s.engineMap := rfl
@[simp] theorem State.modCtx_tok (p c : Nat) (f : Ctx → Ctx) : (s.modCtx p c f).tok = s.tok := rfl
@[simp] theorem State.modCtx_tokBad (p c : Nat) (f : Ctx → Ctx) : (s.modCtx p c f).tokBad = s.tokBad := rfl
@[simp] theorem State.modCtx_tiles (p c : Nat) (f : Ctx → Ctx) : (s.modCtx p c f).tiles = s.tiles := rfl
@[simp] theorem State.modCtx_sp (p c : Nat) (f : Ctx → Ctx) : (s.modCtx p c f).sp = s.sp := rfl
@[simp] theorem State.modCtx_fab (p c : Nat) (f : Ctx → Ctx) : (s.modCtx p c f).fab = s.fab := rfl
@[simp] theorem State.modCtx_ddr (p c : Nat) (f : Ctx → Ctx) : (s.modCtx p c f).ddr = s.ddr := rfl
@[simp] theorem State.modCtx_huv (p c : Nat) (f : Ctx → Ctx) : (s.modCtx p c f).huv = s.huv := rfl
@[simp] theorem State.modCtx_stem (p c : Nat) (f : Ctx → Ctx) : (s.modCtx p c f).stem = s.stem := rfl
@[simp] theorem State.modCtx_cup (p c : Nat) (f : Ctx → Ctx) : (s.modCtx p c f).cup = s.cup := rfl
@[simp] theorem State.modCtx_stp (p c : Nat) (f : Ctx → Ctx) : (s.modCtx p c f).stp = s.stp := rfl
@[simp] theorem State.modCtx_cmp (p c : Nat) (f : Ctx → Ctx) : (s.modCtx p c f).cmp = s.cmp := rfl
@[simp] theorem State.modCtx_pwr (p c : Nat) (f : Ctx → Ctx) : (s.modCtx p c f).pwr = s.pwr := rfl
@[simp] theorem State.modCtx_store (p c : Nat) (f : Ctx → Ctx) : (s.modCtx p c f).store = s.store := rfl
@[simp] theorem State.modCtx_lan (p c : Nat) (f : Ctx → Ctx) : (s.modCtx p c f).lan = s.lan := rfl
@[simp] theorem State.modCtx_arbs (p c : Nat) (f : Ctx → Ctx) : (s.modCtx p c f).arbs = s.arbs := rfl

/-! ### setLane -/

@[simp] theorem State.setLane_pending (p l : Nat) (v : Lane) : (s.setLane p l v).pending = s.pending := rfl
@[simp] theorem State.setLane_out (p l : Nat) (v : Lane) : (s.setLane p l v).out = s.out := rfl
@[simp] theorem State.setLane_clk (p l : Nat) (v : Lane) : (s.setLane p l v).clk = s.clk := rfl
@[simp] theorem State.setLane_module (p l : Nat) (v : Lane) : (s.setLane p l v).module = s.module := rfl
@[simp] theorem State.setLane_host (p l : Nat) (v : Lane) : (s.setLane p l v).host = s.host := rfl
@[simp] theorem State.setLane_engineMap (p l : Nat) (v : Lane) : (s.setLane p l v).engineMap = s.engineMap := rfl
@[simp] theorem State.setLane_tok (p l : Nat) (v : Lane) : (s.setLane p l v).tok = s.tok := rfl
@[simp] theorem State.setLane_tokBad (p l : Nat) (v : Lane) : (s.setLane p l v).tokBad = s.tokBad := rfl
@[simp] theorem State.setLane_tiles (p l : Nat) (v : Lane) : (s.setLane p l v).tiles = s.tiles := rfl
@[simp] theorem State.setLane_sp (p l : Nat) (v : Lane) : (s.setLane p l v).sp = s.sp := rfl
@[simp] theorem State.setLane_fab (p l : Nat) (v : Lane) : (s.setLane p l v).fab = s.fab := rfl
@[simp] theorem State.setLane_ddr (p l : Nat) (v : Lane) : (s.setLane p l v).ddr = s.ddr := rfl
@[simp] theorem State.setLane_huv (p l : Nat) (v : Lane) : (s.setLane p l v).huv = s.huv := rfl
@[simp] theorem State.setLane_stem (p l : Nat) (v : Lane) : (s.setLane p l v).stem = s.stem := rfl
@[simp] theorem State.setLane_cup (p l : Nat) (v : Lane) : (s.setLane p l v).cup = s.cup := rfl
@[simp] theorem State.setLane_stp (p l : Nat) (v : Lane) : (s.setLane p l v).stp = s.stp := rfl
@[simp] theorem State.setLane_cmp (p l : Nat) (v : Lane) : (s.setLane p l v).cmp = s.cmp := rfl
@[simp] theorem State.setLane_pwr (p l : Nat) (v : Lane) : (s.setLane p l v).pwr = s.pwr := rfl
@[simp] theorem State.setLane_store (p l : Nat) (v : Lane) : (s.setLane p l v).store = s.store := rfl
@[simp] theorem State.setLane_lan (p l : Nat) (v : Lane) : (s.setLane p l v).lan = s.lan := rfl
@[simp] theorem State.setLane_arbs (p l : Nat) (v : Lane) : (s.setLane p l v).arbs = s.arbs := rfl

/-! ### modLane -/

@[simp] theorem State.modLane_pending (p l : Nat) (f : Lane → Lane) : (s.modLane p l f).pending = s.pending := rfl
@[simp] theorem State.modLane_out (p l : Nat) (f : Lane → Lane) : (s.modLane p l f).out = s.out := rfl
@[simp] theorem State.modLane_clk (p l : Nat) (f : Lane → Lane) : (s.modLane p l f).clk = s.clk := rfl
@[simp] theorem State.modLane_module (p l : Nat) (f : Lane → Lane) : (s.modLane p l f).module = s.module := rfl
@[simp] theorem State.modLane_host (p l : Nat) (f : Lane → Lane) : (s.modLane p l f).host = s.host := rfl
@[simp] theorem State.modLane_engineMap (p l : Nat) (f : Lane → Lane) : (s.modLane p l f).engineMap = s.engineMap := rfl
@[simp] theorem State.modLane_tok (p l : Nat) (f : Lane → Lane) : (s.modLane p l f).tok = s.tok := rfl
@[simp] theorem State.modLane_tokBad (p l : Nat) (f : Lane → Lane) : (s.modLane p l f).tokBad = s.tokBad := rfl
@[simp] theorem State.modLane_tiles (p l : Nat) (f : Lane → Lane) : (s.modLane p l f).tiles = s.tiles := rfl
@[simp] theorem State.modLane_sp (p l : Nat) (f : Lane → Lane) : (s.modLane p l f).sp = s.sp := rfl
@[simp] theorem State.modLane_fab (p l : Nat) (f : Lane → Lane) : (s.modLane p l f).fab = s.fab := rfl
@[simp] theorem State.modLane_ddr (p l : Nat) (f : Lane → Lane) : (s.modLane p l f).ddr = s.ddr := rfl
@[simp] theorem State.modLane_huv (p l : Nat) (f : Lane → Lane) : (s.modLane p l f).huv = s.huv := rfl
@[simp] theorem State.modLane_stem (p l : Nat) (f : Lane → Lane) : (s.modLane p l f).stem = s.stem := rfl
@[simp] theorem State.modLane_cup (p l : Nat) (f : Lane → Lane) : (s.modLane p l f).cup = s.cup := rfl
@[simp] theorem State.modLane_stp (p l : Nat) (f : Lane → Lane) : (s.modLane p l f).stp = s.stp := rfl
@[simp] theorem State.modLane_cmp (p l : Nat) (f : Lane → Lane) : (s.modLane p l f).cmp = s.cmp := rfl
@[simp] theorem State.modLane_pwr (p l : Nat) (f : Lane → Lane) : (s.modLane p l f).pwr = s.pwr := rfl
@[simp] theorem State.modLane_store (p l : Nat) (f : Lane → Lane) : (s.modLane p l f).store = s.store := rfl
@[simp] theorem State.modLane_lan (p l : Nat) (f : Lane → Lane) : (s.modLane p l f).lan = s.lan := rfl
@[simp] theorem State.modLane_arbs (p l : Nat) (f : Lane → Lane) : (s.modLane p l f).arbs = s.arbs := rfl

/-! ### setTile -/

@[simp] theorem State.setTile_pending (t : Nat) (v : Tile) : (s.setTile t v).pending = s.pending := rfl
@[simp] theorem State.setTile_out (t : Nat) (v : Tile) : (s.setTile t v).out = s.out := rfl
@[simp] theorem State.setTile_clk (t : Nat) (v : Tile) : (s.setTile t v).clk = s.clk := rfl
@[simp] theorem State.setTile_module (t : Nat) (v : Tile) : (s.setTile t v).module = s.module := rfl
@[simp] theorem State.setTile_host (t : Nat) (v : Tile) : (s.setTile t v).host = s.host := rfl
@[simp] theorem State.setTile_parts (t : Nat) (v : Tile) : (s.setTile t v).parts = s.parts := rfl
@[simp] theorem State.setTile_engineMap (t : Nat) (v : Tile) : (s.setTile t v).engineMap = s.engineMap := rfl
@[simp] theorem State.setTile_tok (t : Nat) (v : Tile) : (s.setTile t v).tok = s.tok := rfl
@[simp] theorem State.setTile_tokBad (t : Nat) (v : Tile) : (s.setTile t v).tokBad = s.tokBad := rfl
@[simp] theorem State.setTile_sp (t : Nat) (v : Tile) : (s.setTile t v).sp = s.sp := rfl
@[simp] theorem State.setTile_fab (t : Nat) (v : Tile) : (s.setTile t v).fab = s.fab := rfl
@[simp] theorem State.setTile_ddr (t : Nat) (v : Tile) : (s.setTile t v).ddr = s.ddr := rfl
@[simp] theorem State.setTile_huv (t : Nat) (v : Tile) : (s.setTile t v).huv = s.huv := rfl
@[simp] theorem State.setTile_stem (t : Nat) (v : Tile) : (s.setTile t v).stem = s.stem := rfl
@[simp] theorem State.setTile_cup (t : Nat) (v : Tile) : (s.setTile t v).cup = s.cup := rfl
@[simp] theorem State.setTile_stp (t : Nat) (v : Tile) : (s.setTile t v).stp = s.stp := rfl
@[simp] theorem State.setTile_cmp (t : Nat) (v : Tile) : (s.setTile t v).cmp = s.cmp := rfl
@[simp] theorem State.setTile_pwr (t : Nat) (v : Tile) : (s.setTile t v).pwr = s.pwr := rfl
@[simp] theorem State.setTile_store (t : Nat) (v : Tile) : (s.setTile t v).store = s.store := rfl
@[simp] theorem State.setTile_lan (t : Nat) (v : Tile) : (s.setTile t v).lan = s.lan := rfl
@[simp] theorem State.setTile_arbs (t : Nat) (v : Tile) : (s.setTile t v).arbs = s.arbs := rfl

/-! ### setQueue -/

@[simp] theorem State.setQueue_pending (q : Nat) (v : Queue) : (s.setQueue q v).pending = s.pending := rfl
@[simp] theorem State.setQueue_out (q : Nat) (v : Queue) : (s.setQueue q v).out = s.out := rfl
@[simp] theorem State.setQueue_clk (q : Nat) (v : Queue) : (s.setQueue q v).clk = s.clk := rfl
@[simp] theorem State.setQueue_module (q : Nat) (v : Queue) : (s.setQueue q v).module = s.module := rfl
@[simp] theorem State.setQueue_parts (q : Nat) (v : Queue) : (s.setQueue q v).parts = s.parts := rfl
@[simp] theorem State.setQueue_engineMap (q : Nat) (v : Queue) : (s.setQueue q v).engineMap = s.engineMap := rfl
@[simp] theorem State.setQueue_tok (q : Nat) (v : Queue) : (s.setQueue q v).tok = s.tok := rfl
@[simp] theorem State.setQueue_tokBad (q : Nat) (v : Queue) : (s.setQueue q v).tokBad = s.tokBad := rfl
@[simp] theorem State.setQueue_tiles (q : Nat) (v : Queue) : (s.setQueue q v).tiles = s.tiles := rfl
@[simp] theorem State.setQueue_sp (q : Nat) (v : Queue) : (s.setQueue q v).sp = s.sp := rfl
@[simp] theorem State.setQueue_fab (q : Nat) (v : Queue) : (s.setQueue q v).fab = s.fab := rfl
@[simp] theorem State.setQueue_ddr (q : Nat) (v : Queue) : (s.setQueue q v).ddr = s.ddr := rfl
@[simp] theorem State.setQueue_huv (q : Nat) (v : Queue) : (s.setQueue q v).huv = s.huv := rfl
@[simp] theorem State.setQueue_stem (q : Nat) (v : Queue) : (s.setQueue q v).stem = s.stem := rfl
@[simp] theorem State.setQueue_cup (q : Nat) (v : Queue) : (s.setQueue q v).cup = s.cup := rfl
@[simp] theorem State.setQueue_stp (q : Nat) (v : Queue) : (s.setQueue q v).stp = s.stp := rfl
@[simp] theorem State.setQueue_cmp (q : Nat) (v : Queue) : (s.setQueue q v).cmp = s.cmp := rfl
@[simp] theorem State.setQueue_pwr (q : Nat) (v : Queue) : (s.setQueue q v).pwr = s.pwr := rfl
@[simp] theorem State.setQueue_store (q : Nat) (v : Queue) : (s.setQueue q v).store = s.store := rfl
@[simp] theorem State.setQueue_lan (q : Nat) (v : Queue) : (s.setQueue q v).lan = s.lan := rfl
@[simp] theorem State.setQueue_arbs (q : Nat) (v : Queue) : (s.setQueue q v).arbs = s.arbs := rfl

/-! ### modCmd -/

@[simp] theorem State.modCmd_pending (q no : Nat) (f : Cmd → Cmd) : (s.modCmd q no f).pending = s.pending := rfl
@[simp] theorem State.modCmd_out (q no : Nat) (f : Cmd → Cmd) : (s.modCmd q no f).out = s.out := rfl
@[simp] theorem State.modCmd_clk (q no : Nat) (f : Cmd → Cmd) : (s.modCmd q no f).clk = s.clk := rfl
@[simp] theorem State.modCmd_module (q no : Nat) (f : Cmd → Cmd) : (s.modCmd q no f).module = s.module := rfl
@[simp] theorem State.modCmd_parts (q no : Nat) (f : Cmd → Cmd) : (s.modCmd q no f).parts = s.parts := rfl
@[simp] theorem State.modCmd_engineMap (q no : Nat) (f : Cmd → Cmd) : (s.modCmd q no f).engineMap = s.engineMap := rfl
@[simp] theorem State.modCmd_tok (q no : Nat) (f : Cmd → Cmd) : (s.modCmd q no f).tok = s.tok := rfl
@[simp] theorem State.modCmd_tokBad (q no : Nat) (f : Cmd → Cmd) : (s.modCmd q no f).tokBad = s.tokBad := rfl
@[simp] theorem State.modCmd_tiles (q no : Nat) (f : Cmd → Cmd) : (s.modCmd q no f).tiles = s.tiles := rfl
@[simp] theorem State.modCmd_sp (q no : Nat) (f : Cmd → Cmd) : (s.modCmd q no f).sp = s.sp := rfl
@[simp] theorem State.modCmd_fab (q no : Nat) (f : Cmd → Cmd) : (s.modCmd q no f).fab = s.fab := rfl
@[simp] theorem State.modCmd_ddr (q no : Nat) (f : Cmd → Cmd) : (s.modCmd q no f).ddr = s.ddr := rfl
@[simp] theorem State.modCmd_huv (q no : Nat) (f : Cmd → Cmd) : (s.modCmd q no f).huv = s.huv := rfl
@[simp] theorem State.modCmd_stem (q no : Nat) (f : Cmd → Cmd) : (s.modCmd q no f).stem = s.stem := rfl
@[simp] theorem State.modCmd_cup (q no : Nat) (f : Cmd → Cmd) : (s.modCmd q no f).cup = s.cup := rfl
@[simp] theorem State.modCmd_stp (q no : Nat) (f : Cmd → Cmd) : (s.modCmd q no f).stp = s.stp := rfl
@[simp] theorem State.modCmd_cmp (q no : Nat) (f : Cmd → Cmd) : (s.modCmd q no f).cmp = s.cmp := rfl
@[simp] theorem State.modCmd_pwr (q no : Nat) (f : Cmd → Cmd) : (s.modCmd q no f).pwr = s.pwr := rfl
@[simp] theorem State.modCmd_store (q no : Nat) (f : Cmd → Cmd) : (s.modCmd q no f).store = s.store := rfl
@[simp] theorem State.modCmd_lan (q no : Nat) (f : Cmd → Cmd) : (s.modCmd q no f).lan = s.lan := rfl
@[simp] theorem State.modCmd_arbs (q no : Nat) (f : Cmd → Cmd) : (s.modCmd q no f).arbs = s.arbs := rfl

/-! ### recWrite -/

@[simp] theorem State.recWrite_pending (r : CpRecord) : (s.recWrite r).pending = s.pending := by unfold State.recWrite; split <;> rfl
@[simp] theorem State.recWrite_out (r : CpRecord) : (s.recWrite r).out = s.out := by unfold State.recWrite; split <;> rfl
@[simp] theorem State.recWrite_clk (r : CpRecord) : (s.recWrite r).clk = s.clk := by unfold State.recWrite; split <;> rfl
@[simp] theorem State.recWrite_module (r : CpRecord) : (s.recWrite r).module = s.module := by unfold State.recWrite; split <;> rfl
@[simp] theorem State.recWrite_host (r : CpRecord) : (s.recWrite r).host = s.host := by unfold State.recWrite; split <;> rfl
@[simp] theorem State.recWrite_parts (r : CpRecord) : (s.recWrite r).parts = s.parts := by unfold State.recWrite; split <;> rfl
@[simp] theorem State.recWrite_engineMap (r : CpRecord) : (s.recWrite r).engineMap = s.engineMap := by unfold State.recWrite; split <;> rfl
@[simp] theorem State.recWrite_tok (r : CpRecord) : (s.recWrite r).tok = s.tok := by unfold State.recWrite; split <;> rfl
@[simp] theorem State.recWrite_tokBad (r : CpRecord) : (s.recWrite r).tokBad = s.tokBad := by unfold State.recWrite; split <;> rfl
@[simp] theorem State.recWrite_tiles (r : CpRecord) : (s.recWrite r).tiles = s.tiles := by unfold State.recWrite; split <;> rfl
@[simp] theorem State.recWrite_sp (r : CpRecord) : (s.recWrite r).sp = s.sp := by unfold State.recWrite; split <;> rfl
@[simp] theorem State.recWrite_fab (r : CpRecord) : (s.recWrite r).fab = s.fab := by unfold State.recWrite; split <;> rfl
@[simp] theorem State.recWrite_huv (r : CpRecord) : (s.recWrite r).huv = s.huv := by unfold State.recWrite; split <;> rfl
@[simp] theorem State.recWrite_stem (r : CpRecord) : (s.recWrite r).stem = s.stem := by unfold State.recWrite; split <;> rfl
@[simp] theorem State.recWrite_cup (r : CpRecord) : (s.recWrite r).cup = s.cup := by unfold State.recWrite; split <;> rfl
@[simp] theorem State.recWrite_stp (r : CpRecord) : (s.recWrite r).stp = s.stp := by unfold State.recWrite; split <;> rfl
@[simp] theorem State.recWrite_cmp (r : CpRecord) : (s.recWrite r).cmp = s.cmp := by unfold State.recWrite; split <;> rfl
@[simp] theorem State.recWrite_pwr (r : CpRecord) : (s.recWrite r).pwr = s.pwr := by unfold State.recWrite; split <;> rfl
@[simp] theorem State.recWrite_store (r : CpRecord) : (s.recWrite r).store = s.store := by unfold State.recWrite; split <;> rfl
@[simp] theorem State.recWrite_lan (r : CpRecord) : (s.recWrite r).lan = s.lan := by unfold State.recWrite; split <;> rfl
@[simp] theorem State.recWrite_arbs (r : CpRecord) : (s.recWrite r).arbs = s.arbs := by unfold State.recWrite; split <;> rfl

/-! ### recPoison -/

@[simp] theorem State.recPoison_pending (r : CpRecord) : (s.recPoison r).pending = s.pending := rfl
@[simp] theorem State.recPoison_out (r : CpRecord) : (s.recPoison r).out = s.out := rfl
@[simp] theorem State.recPoison_clk (r : CpRecord) : (s.recPoison r).clk = s.clk := rfl
@[simp] theorem State.recPoison_module (r : CpRecord) : (s.recPoison r).module = s.module := rfl
@[simp] theorem State.recPoison_host (r : CpRecord) : (s.recPoison r).host = s.host := rfl
@[simp] theorem State.recPoison_parts (r : CpRecord) : (s.recPoison r).parts = s.parts := rfl
@[simp] theorem State.recPoison_engineMap (r : CpRecord) : (s.recPoison r).engineMap = s.engineMap := rfl
@[simp] theorem State.recPoison_tok (r : CpRecord) : (s.recPoison r).tok = s.tok := rfl
@[simp] theorem State.recPoison_tokBad (r : CpRecord) : (s.recPoison r).tokBad = s.tokBad := rfl
@[simp] theorem State.recPoison_tiles (r : CpRecord) : (s.recPoison r).tiles = s.tiles := rfl
@[simp] theorem State.recPoison_sp (r : CpRecord) : (s.recPoison r).sp = s.sp := rfl
@[simp] theorem State.recPoison_fab (r : CpRecord) : (s.recPoison r).fab = s.fab := rfl
@[simp] theorem State.recPoison_huv (r : CpRecord) : (s.recPoison r).huv = s.huv := rfl
@[simp] theorem State.recPoison_stem (r : CpRecord) : (s.recPoison r).stem = s.stem := rfl
@[simp] theorem State.recPoison_cup (r : CpRecord) : (s.recPoison r).cup = s.cup := rfl
@[simp] theorem State.recPoison_stp (r : CpRecord) : (s.recPoison r).stp = s.stp := rfl
@[simp] theorem State.recPoison_cmp (r : CpRecord) : (s.recPoison r).cmp = s.cmp := rfl
@[simp] theorem State.recPoison_pwr (r : CpRecord) : (s.recPoison r).pwr = s.pwr := rfl
@[simp] theorem State.recPoison_store (r : CpRecord) : (s.recPoison r).store = s.store := rfl
@[simp] theorem State.recPoison_lan (r : CpRecord) : (s.recPoison r).lan = s.lan := rfl
@[simp] theorem State.recPoison_arbs (r : CpRecord) : (s.recPoison r).arbs = s.arbs := rfl

/-! ### holdRecord -/

@[simp] theorem State.holdRecord_pending (q no : Nat) : (s.holdRecord q no).pending = s.pending := by unfold State.holdRecord; split <;> simp
@[simp] theorem State.holdRecord_out (q no : Nat) : (s.holdRecord q no).out = s.out := by unfold State.holdRecord; split <;> simp
@[simp] theorem State.holdRecord_clk (q no : Nat) : (s.holdRecord q no).clk = s.clk := by unfold State.holdRecord; split <;> simp
@[simp] theorem State.holdRecord_module (q no : Nat) : (s.holdRecord q no).module = s.module := by unfold State.holdRecord; split <;> simp
@[simp] theorem State.holdRecord_host (q no : Nat) : (s.holdRecord q no).host = s.host := by unfold State.holdRecord; split <;> simp
@[simp] theorem State.holdRecord_parts (q no : Nat) : (s.holdRecord q no).parts = s.parts := by unfold State.holdRecord; split <;> simp
@[simp] theorem State.holdRecord_engineMap (q no : Nat) : (s.holdRecord q no).engineMap = s.engineMap := by unfold State.holdRecord; split <;> simp
@[simp] theorem State.holdRecord_tok (q no : Nat) : (s.holdRecord q no).tok = s.tok := by unfold State.holdRecord; split <;> simp
@[simp] theorem State.holdRecord_tokBad (q no : Nat) : (s.holdRecord q no).tokBad = s.tokBad := by unfold State.holdRecord; split <;> simp
@[simp] theorem State.holdRecord_tiles (q no : Nat) : (s.holdRecord q no).tiles = s.tiles := by unfold State.holdRecord; split <;> simp
@[simp] theorem State.holdRecord_sp (q no : Nat) : (s.holdRecord q no).sp = s.sp := by unfold State.holdRecord; split <;> simp
@[simp] theorem State.holdRecord_fab (q no : Nat) : (s.holdRecord q no).fab = s.fab := by unfold State.holdRecord; split <;> simp
@[simp] theorem State.holdRecord_huv (q no : Nat) : (s.holdRecord q no).huv = s.huv := by unfold State.holdRecord; split <;> simp
@[simp] theorem State.holdRecord_stem (q no : Nat) : (s.holdRecord q no).stem = s.stem := by unfold State.holdRecord; split <;> simp
@[simp] theorem State.holdRecord_cup (q no : Nat) : (s.holdRecord q no).cup = s.cup := by unfold State.holdRecord; split <;> simp
@[simp] theorem State.holdRecord_stp (q no : Nat) : (s.holdRecord q no).stp = s.stp := by unfold State.holdRecord; split <;> simp
@[simp] theorem State.holdRecord_cmp (q no : Nat) : (s.holdRecord q no).cmp = s.cmp := by unfold State.holdRecord; split <;> simp
@[simp] theorem State.holdRecord_pwr (q no : Nat) : (s.holdRecord q no).pwr = s.pwr := by unfold State.holdRecord; split <;> simp
@[simp] theorem State.holdRecord_store (q no : Nat) : (s.holdRecord q no).store = s.store := by unfold State.holdRecord; split <;> simp
@[simp] theorem State.holdRecord_lan (q no : Nat) : (s.holdRecord q no).lan = s.lan := by unfold State.holdRecord; split <;> simp
@[simp] theorem State.holdRecord_arbs (q no : Nat) : (s.holdRecord q no).arbs = s.arbs := by unfold State.holdRecord; split <;> simp

/-! ### finish -/

@[simp] theorem State.finish_pending (q no st rc res aux : Nat) : (s.finish q no st rc res aux).pending = s.pending := by simp [State.finish]
@[simp] theorem State.finish_out (q no st rc res aux : Nat) : (s.finish q no st rc res aux).out = s.out := by simp [State.finish]
@[simp] theorem State.finish_clk (q no st rc res aux : Nat) : (s.finish q no st rc res aux).clk = s.clk := by simp [State.finish]
@[simp] theorem State.finish_module (q no st rc res aux : Nat) : (s.finish q no st rc res aux).module = s.module := by simp [State.finish]
@[simp] theorem State.finish_parts (q no st rc res aux : Nat) : (s.finish q no st rc res aux).parts = s.parts := by simp [State.finish]
@[simp] theorem State.finish_engineMap (q no st rc res aux : Nat) : (s.finish q no st rc res aux).engineMap = s.engineMap := by simp [State.finish]
@[simp] theorem State.finish_tok (q no st rc res aux : Nat) : (s.finish q no st rc res aux).tok = s.tok := by simp [State.finish]
@[simp] theorem State.finish_tokBad (q no st rc res aux : Nat) : (s.finish q no st rc res aux).tokBad = s.tokBad := by simp [State.finish]
@[simp] theorem State.finish_tiles (q no st rc res aux : Nat) : (s.finish q no st rc res aux).tiles = s.tiles := by simp [State.finish]
@[simp] theorem State.finish_sp (q no st rc res aux : Nat) : (s.finish q no st rc res aux).sp = s.sp := by simp [State.finish]
@[simp] theorem State.finish_fab (q no st rc res aux : Nat) : (s.finish q no st rc res aux).fab = s.fab := by simp [State.finish]
@[simp] theorem State.finish_huv (q no st rc res aux : Nat) : (s.finish q no st rc res aux).huv = s.huv := by simp [State.finish]
@[simp] theorem State.finish_stem (q no st rc res aux : Nat) : (s.finish q no st rc res aux).stem = s.stem := by simp [State.finish]
@[simp] theorem State.finish_cup (q no st rc res aux : Nat) : (s.finish q no st rc res aux).cup = s.cup := by simp [State.finish]
@[simp] theorem State.finish_stp (q no st rc res aux : Nat) : (s.finish q no st rc res aux).stp = s.stp := by simp [State.finish]
@[simp] theorem State.finish_cmp (q no st rc res aux : Nat) : (s.finish q no st rc res aux).cmp = s.cmp := by simp [State.finish]
@[simp] theorem State.finish_pwr (q no st rc res aux : Nat) : (s.finish q no st rc res aux).pwr = s.pwr := by simp [State.finish]
@[simp] theorem State.finish_store (q no st rc res aux : Nat) : (s.finish q no st rc res aux).store = s.store := by simp [State.finish]
@[simp] theorem State.finish_lan (q no st rc res aux : Nat) : (s.finish q no st rc res aux).lan = s.lan := by simp [State.finish]
@[simp] theorem State.finish_arbs (q no st rc res aux : Nat) : (s.finish q no st rc res aux).arbs = s.arbs := by simp [State.finish]

/-! ### finishOk -/

@[simp] theorem State.finishOk_pending (q no r : Nat) : (s.finishOk q no r).pending = s.pending := by simp [State.finishOk]
@[simp] theorem State.finishOk_out (q no r : Nat) : (s.finishOk q no r).out = s.out := by simp [State.finishOk]
@[simp] theorem State.finishOk_clk (q no r : Nat) : (s.finishOk q no r).clk = s.clk := by simp [State.finishOk]
@[simp] theorem State.finishOk_module (q no r : Nat) : (s.finishOk q no r).module = s.module := by simp [State.finishOk]
@[simp] theorem State.finishOk_parts (q no r : Nat) : (s.finishOk q no r).parts = s.parts := by simp [State.finishOk]
@[simp] theorem State.finishOk_engineMap (q no r : Nat) : (s.finishOk q no r).engineMap = s.engineMap := by simp [State.finishOk]
@[simp] theorem State.finishOk_tok (q no r : Nat) : (s.finishOk q no r).tok = s.tok := by simp [State.finishOk]
@[simp] theorem State.finishOk_tokBad (q no r : Nat) : (s.finishOk q no r).tokBad = s.tokBad := by simp [State.finishOk]
@[simp] theorem State.finishOk_tiles (q no r : Nat) : (s.finishOk q no r).tiles = s.tiles := by simp [State.finishOk]
@[simp] theorem State.finishOk_sp (q no r : Nat) : (s.finishOk q no r).sp = s.sp := by simp [State.finishOk]
@[simp] theorem State.finishOk_fab (q no r : Nat) : (s.finishOk q no r).fab = s.fab := by simp [State.finishOk]
@[simp] theorem State.finishOk_huv (q no r : Nat) : (s.finishOk q no r).huv = s.huv := by simp [State.finishOk]
@[simp] theorem State.finishOk_stem (q no r : Nat) : (s.finishOk q no r).stem = s.stem := by simp [State.finishOk]
@[simp] theorem State.finishOk_cup (q no r : Nat) : (s.finishOk q no r).cup = s.cup := by simp [State.finishOk]
@[simp] theorem State.finishOk_stp (q no r : Nat) : (s.finishOk q no r).stp = s.stp := by simp [State.finishOk]
@[simp] theorem State.finishOk_cmp (q no r : Nat) : (s.finishOk q no r).cmp = s.cmp := by simp [State.finishOk]
@[simp] theorem State.finishOk_pwr (q no r : Nat) : (s.finishOk q no r).pwr = s.pwr := by simp [State.finishOk]
@[simp] theorem State.finishOk_store (q no r : Nat) : (s.finishOk q no r).store = s.store := by simp [State.finishOk]
@[simp] theorem State.finishOk_lan (q no r : Nat) : (s.finishOk q no r).lan = s.lan := by simp [State.finishOk]
@[simp] theorem State.finishOk_arbs (q no r : Nat) : (s.finishOk q no r).arbs = s.arbs := by simp [State.finishOk]

/-! ### atCycles -/

@[simp] theorem State.atCycles_pending (n : Nat) : ((s.atCycles n).2).pending = s.pending := rfl
@[simp] theorem State.atCycles_out (n : Nat) : ((s.atCycles n).2).out = s.out := rfl
@[simp] theorem State.atCycles_clk (n : Nat) : ((s.atCycles n).2).clk = s.clk := rfl
@[simp] theorem State.atCycles_module (n : Nat) : ((s.atCycles n).2).module = s.module := rfl
@[simp] theorem State.atCycles_host (n : Nat) : ((s.atCycles n).2).host = s.host := rfl
@[simp] theorem State.atCycles_parts (n : Nat) : ((s.atCycles n).2).parts = s.parts := rfl
@[simp] theorem State.atCycles_engineMap (n : Nat) : ((s.atCycles n).2).engineMap = s.engineMap := rfl
@[simp] theorem State.atCycles_tok (n : Nat) : ((s.atCycles n).2).tok = s.tok := rfl
@[simp] theorem State.atCycles_tokBad (n : Nat) : ((s.atCycles n).2).tokBad = s.tokBad := rfl
@[simp] theorem State.atCycles_tiles (n : Nat) : ((s.atCycles n).2).tiles = s.tiles := rfl
@[simp] theorem State.atCycles_sp (n : Nat) : ((s.atCycles n).2).sp = s.sp := rfl
@[simp] theorem State.atCycles_fab (n : Nat) : ((s.atCycles n).2).fab = s.fab := rfl
@[simp] theorem State.atCycles_ddr (n : Nat) : ((s.atCycles n).2).ddr = s.ddr := rfl
@[simp] theorem State.atCycles_huv (n : Nat) : ((s.atCycles n).2).huv = s.huv := rfl
@[simp] theorem State.atCycles_stem (n : Nat) : ((s.atCycles n).2).stem = s.stem := rfl
@[simp] theorem State.atCycles_cup (n : Nat) : ((s.atCycles n).2).cup = s.cup := rfl
@[simp] theorem State.atCycles_stp (n : Nat) : ((s.atCycles n).2).stp = s.stp := rfl
@[simp] theorem State.atCycles_pwr (n : Nat) : ((s.atCycles n).2).pwr = s.pwr := rfl
@[simp] theorem State.atCycles_store (n : Nat) : ((s.atCycles n).2).store = s.store := rfl
@[simp] theorem State.atCycles_lan (n : Nat) : ((s.atCycles n).2).lan = s.lan := rfl
@[simp] theorem State.atCycles_arbs (n : Nat) : ((s.atCycles n).2).arbs = s.arbs := rfl

/-! ### setWin -/

@[simp] theorem State.setWin_pending (w : Nat) (v : Win) : (s.setWin w v).pending = s.pending := rfl
@[simp] theorem State.setWin_out (w : Nat) (v : Win) : (s.setWin w v).out = s.out := rfl
@[simp] theorem State.setWin_clk (w : Nat) (v : Win) : (s.setWin w v).clk = s.clk := rfl
@[simp] theorem State.setWin_module (w : Nat) (v : Win) : (s.setWin w v).module = s.module := rfl
@[simp] theorem State.setWin_host (w : Nat) (v : Win) : (s.setWin w v).host = s.host := rfl
@[simp] theorem State.setWin_parts (w : Nat) (v : Win) : (s.setWin w v).parts = s.parts := rfl
@[simp] theorem State.setWin_engineMap (w : Nat) (v : Win) : (s.setWin w v).engineMap = s.engineMap := rfl
@[simp] theorem State.setWin_tok (w : Nat) (v : Win) : (s.setWin w v).tok = s.tok := rfl
@[simp] theorem State.setWin_tokBad (w : Nat) (v : Win) : (s.setWin w v).tokBad = s.tokBad := rfl
@[simp] theorem State.setWin_tiles (w : Nat) (v : Win) : (s.setWin w v).tiles = s.tiles := rfl
@[simp] theorem State.setWin_sp (w : Nat) (v : Win) : (s.setWin w v).sp = s.sp := rfl
@[simp] theorem State.setWin_ddr (w : Nat) (v : Win) : (s.setWin w v).ddr = s.ddr := rfl
@[simp] theorem State.setWin_huv (w : Nat) (v : Win) : (s.setWin w v).huv = s.huv := rfl
@[simp] theorem State.setWin_stem (w : Nat) (v : Win) : (s.setWin w v).stem = s.stem := rfl
@[simp] theorem State.setWin_cup (w : Nat) (v : Win) : (s.setWin w v).cup = s.cup := rfl
@[simp] theorem State.setWin_stp (w : Nat) (v : Win) : (s.setWin w v).stp = s.stp := rfl
@[simp] theorem State.setWin_cmp (w : Nat) (v : Win) : (s.setWin w v).cmp = s.cmp := rfl
@[simp] theorem State.setWin_pwr (w : Nat) (v : Win) : (s.setWin w v).pwr = s.pwr := rfl
@[simp] theorem State.setWin_store (w : Nat) (v : Win) : (s.setWin w v).store = s.store := rfl
@[simp] theorem State.setWin_lan (w : Nat) (v : Win) : (s.setWin w v).lan = s.lan := rfl
@[simp] theorem State.setWin_arbs (w : Nat) (v : Win) : (s.setWin w v).arbs = s.arbs := rfl

/-! ### setBank -/

@[simp] theorem State.setBank_pending (b : Nat) (v : Bank) : (s.setBank b v).pending = s.pending := rfl
@[simp] theorem State.setBank_out (b : Nat) (v : Bank) : (s.setBank b v).out = s.out := rfl
@[simp] theorem State.setBank_clk (b : Nat) (v : Bank) : (s.setBank b v).clk = s.clk := rfl
@[simp] theorem State.setBank_module (b : Nat) (v : Bank) : (s.setBank b v).module = s.module := rfl
@[simp] theorem State.setBank_host (b : Nat) (v : Bank) : (s.setBank b v).host = s.host := rfl
@[simp] theorem State.setBank_parts (b : Nat) (v : Bank) : (s.setBank b v).parts = s.parts := rfl
@[simp] theorem State.setBank_engineMap (b : Nat) (v : Bank) : (s.setBank b v).engineMap = s.engineMap := rfl
@[simp] theorem State.setBank_tok (b : Nat) (v : Bank) : (s.setBank b v).tok = s.tok := rfl
@[simp] theorem State.setBank_tokBad (b : Nat) (v : Bank) : (s.setBank b v).tokBad = s.tokBad := rfl
@[simp] theorem State.setBank_tiles (b : Nat) (v : Bank) : (s.setBank b v).tiles = s.tiles := rfl
@[simp] theorem State.setBank_fab (b : Nat) (v : Bank) : (s.setBank b v).fab = s.fab := rfl
@[simp] theorem State.setBank_ddr (b : Nat) (v : Bank) : (s.setBank b v).ddr = s.ddr := rfl
@[simp] theorem State.setBank_huv (b : Nat) (v : Bank) : (s.setBank b v).huv = s.huv := rfl
@[simp] theorem State.setBank_stem (b : Nat) (v : Bank) : (s.setBank b v).stem = s.stem := rfl
@[simp] theorem State.setBank_cup (b : Nat) (v : Bank) : (s.setBank b v).cup = s.cup := rfl
@[simp] theorem State.setBank_stp (b : Nat) (v : Bank) : (s.setBank b v).stp = s.stp := rfl
@[simp] theorem State.setBank_cmp (b : Nat) (v : Bank) : (s.setBank b v).cmp = s.cmp := rfl
@[simp] theorem State.setBank_pwr (b : Nat) (v : Bank) : (s.setBank b v).pwr = s.pwr := rfl
@[simp] theorem State.setBank_store (b : Nat) (v : Bank) : (s.setBank b v).store = s.store := rfl
@[simp] theorem State.setBank_lan (b : Nat) (v : Bank) : (s.setBank b v).lan = s.lan := rfl
@[simp] theorem State.setBank_arbs (b : Nat) (v : Bank) : (s.setBank b v).arbs = s.arbs := rfl

/-! ### setPort -/

@[simp] theorem State.setPort_pending (h : Nat) (v : Port) : (s.setPort h v).pending = s.pending := rfl
@[simp] theorem State.setPort_out (h : Nat) (v : Port) : (s.setPort h v).out = s.out := rfl
@[simp] theorem State.setPort_clk (h : Nat) (v : Port) : (s.setPort h v).clk = s.clk := rfl
@[simp] theorem State.setPort_module (h : Nat) (v : Port) : (s.setPort h v).module = s.module := rfl
@[simp] theorem State.setPort_host (h : Nat) (v : Port) : (s.setPort h v).host = s.host := rfl
@[simp] theorem State.setPort_parts (h : Nat) (v : Port) : (s.setPort h v).parts = s.parts := rfl
@[simp] theorem State.setPort_engineMap (h : Nat) (v : Port) : (s.setPort h v).engineMap = s.engineMap := rfl
@[simp] theorem State.setPort_tok (h : Nat) (v : Port) : (s.setPort h v).tok = s.tok := rfl
@[simp] theorem State.setPort_tokBad (h : Nat) (v : Port) : (s.setPort h v).tokBad = s.tokBad := rfl
@[simp] theorem State.setPort_tiles (h : Nat) (v : Port) : (s.setPort h v).tiles = s.tiles := rfl
@[simp] theorem State.setPort_sp (h : Nat) (v : Port) : (s.setPort h v).sp = s.sp := rfl
@[simp] theorem State.setPort_fab (h : Nat) (v : Port) : (s.setPort h v).fab = s.fab := rfl
@[simp] theorem State.setPort_ddr (h : Nat) (v : Port) : (s.setPort h v).ddr = s.ddr := rfl
@[simp] theorem State.setPort_stem (h : Nat) (v : Port) : (s.setPort h v).stem = s.stem := rfl
@[simp] theorem State.setPort_cup (h : Nat) (v : Port) : (s.setPort h v).cup = s.cup := rfl
@[simp] theorem State.setPort_stp (h : Nat) (v : Port) : (s.setPort h v).stp = s.stp := rfl
@[simp] theorem State.setPort_cmp (h : Nat) (v : Port) : (s.setPort h v).cmp = s.cmp := rfl
@[simp] theorem State.setPort_pwr (h : Nat) (v : Port) : (s.setPort h v).pwr = s.pwr := rfl
@[simp] theorem State.setPort_store (h : Nat) (v : Port) : (s.setPort h v).store = s.store := rfl
@[simp] theorem State.setPort_lan (h : Nat) (v : Port) : (s.setPort h v).lan = s.lan := rfl
@[simp] theorem State.setPort_arbs (h : Nat) (v : Port) : (s.setPort h v).arbs = s.arbs := rfl

/-! ### setCounter -/

@[simp] theorem State.setCounter_pending (p l c : Nat) (v : Word) : (s.setCounter p l c v).pending = s.pending := rfl
@[simp] theorem State.setCounter_out (p l c : Nat) (v : Word) : (s.setCounter p l c v).out = s.out := rfl
@[simp] theorem State.setCounter_clk (p l c : Nat) (v : Word) : (s.setCounter p l c v).clk = s.clk := rfl
@[simp] theorem State.setCounter_module (p l c : Nat) (v : Word) : (s.setCounter p l c v).module = s.module := rfl
@[simp] theorem State.setCounter_host (p l c : Nat) (v : Word) : (s.setCounter p l c v).host = s.host := rfl
@[simp] theorem State.setCounter_parts (p l c : Nat) (v : Word) : (s.setCounter p l c v).parts = s.parts := rfl
@[simp] theorem State.setCounter_engineMap (p l c : Nat) (v : Word) : (s.setCounter p l c v).engineMap = s.engineMap := rfl
@[simp] theorem State.setCounter_tokBad (p l c : Nat) (v : Word) : (s.setCounter p l c v).tokBad = s.tokBad := rfl
@[simp] theorem State.setCounter_tiles (p l c : Nat) (v : Word) : (s.setCounter p l c v).tiles = s.tiles := rfl
@[simp] theorem State.setCounter_sp (p l c : Nat) (v : Word) : (s.setCounter p l c v).sp = s.sp := rfl
@[simp] theorem State.setCounter_fab (p l c : Nat) (v : Word) : (s.setCounter p l c v).fab = s.fab := rfl
@[simp] theorem State.setCounter_ddr (p l c : Nat) (v : Word) : (s.setCounter p l c v).ddr = s.ddr := rfl
@[simp] theorem State.setCounter_huv (p l c : Nat) (v : Word) : (s.setCounter p l c v).huv = s.huv := rfl
@[simp] theorem State.setCounter_stem (p l c : Nat) (v : Word) : (s.setCounter p l c v).stem = s.stem := rfl
@[simp] theorem State.setCounter_cup (p l c : Nat) (v : Word) : (s.setCounter p l c v).cup = s.cup := rfl
@[simp] theorem State.setCounter_stp (p l c : Nat) (v : Word) : (s.setCounter p l c v).stp = s.stp := rfl
@[simp] theorem State.setCounter_cmp (p l c : Nat) (v : Word) : (s.setCounter p l c v).cmp = s.cmp := rfl
@[simp] theorem State.setCounter_pwr (p l c : Nat) (v : Word) : (s.setCounter p l c v).pwr = s.pwr := rfl
@[simp] theorem State.setCounter_store (p l c : Nat) (v : Word) : (s.setCounter p l c v).store = s.store := rfl
@[simp] theorem State.setCounter_lan (p l c : Nat) (v : Word) : (s.setCounter p l c v).lan = s.lan := rfl
@[simp] theorem State.setCounter_arbs (p l c : Nat) (v : Word) : (s.setCounter p l c v).arbs = s.arbs := rfl

/-! ### setArb -/

@[simp] theorem State.setArb_pending (ty inst : Nat) (a : Arbiter) : (s.setArb ty inst a).pending = s.pending := rfl
@[simp] theorem State.setArb_out (ty inst : Nat) (a : Arbiter) : (s.setArb ty inst a).out = s.out := rfl
@[simp] theorem State.setArb_clk (ty inst : Nat) (a : Arbiter) : (s.setArb ty inst a).clk = s.clk := rfl
@[simp] theorem State.setArb_module (ty inst : Nat) (a : Arbiter) : (s.setArb ty inst a).module = s.module := rfl
@[simp] theorem State.setArb_host (ty inst : Nat) (a : Arbiter) : (s.setArb ty inst a).host = s.host := rfl
@[simp] theorem State.setArb_parts (ty inst : Nat) (a : Arbiter) : (s.setArb ty inst a).parts = s.parts := rfl
@[simp] theorem State.setArb_engineMap (ty inst : Nat) (a : Arbiter) : (s.setArb ty inst a).engineMap = s.engineMap := rfl
@[simp] theorem State.setArb_tok (ty inst : Nat) (a : Arbiter) : (s.setArb ty inst a).tok = s.tok := rfl
@[simp] theorem State.setArb_tokBad (ty inst : Nat) (a : Arbiter) : (s.setArb ty inst a).tokBad = s.tokBad := rfl
@[simp] theorem State.setArb_tiles (ty inst : Nat) (a : Arbiter) : (s.setArb ty inst a).tiles = s.tiles := rfl
@[simp] theorem State.setArb_sp (ty inst : Nat) (a : Arbiter) : (s.setArb ty inst a).sp = s.sp := rfl
@[simp] theorem State.setArb_fab (ty inst : Nat) (a : Arbiter) : (s.setArb ty inst a).fab = s.fab := rfl
@[simp] theorem State.setArb_ddr (ty inst : Nat) (a : Arbiter) : (s.setArb ty inst a).ddr = s.ddr := rfl
@[simp] theorem State.setArb_huv (ty inst : Nat) (a : Arbiter) : (s.setArb ty inst a).huv = s.huv := rfl
@[simp] theorem State.setArb_stem (ty inst : Nat) (a : Arbiter) : (s.setArb ty inst a).stem = s.stem := rfl
@[simp] theorem State.setArb_cup (ty inst : Nat) (a : Arbiter) : (s.setArb ty inst a).cup = s.cup := rfl
@[simp] theorem State.setArb_stp (ty inst : Nat) (a : Arbiter) : (s.setArb ty inst a).stp = s.stp := rfl
@[simp] theorem State.setArb_cmp (ty inst : Nat) (a : Arbiter) : (s.setArb ty inst a).cmp = s.cmp := rfl
@[simp] theorem State.setArb_pwr (ty inst : Nat) (a : Arbiter) : (s.setArb ty inst a).pwr = s.pwr := rfl
@[simp] theorem State.setArb_store (ty inst : Nat) (a : Arbiter) : (s.setArb ty inst a).store = s.store := rfl
@[simp] theorem State.setArb_lan (ty inst : Nat) (a : Arbiter) : (s.setArb ty inst a).lan = s.lan := rfl

/-! ### emit -/

@[simp] theorem State.emit_pending (o : Output) : (s.emit o).pending = s.pending := rfl
@[simp] theorem State.emit_clk (o : Output) : (s.emit o).clk = s.clk := rfl
@[simp] theorem State.emit_module (o : Output) : (s.emit o).module = s.module := rfl
@[simp] theorem State.emit_host (o : Output) : (s.emit o).host = s.host := rfl
@[simp] theorem State.emit_parts (o : Output) : (s.emit o).parts = s.parts := rfl
@[simp] theorem State.emit_engineMap (o : Output) : (s.emit o).engineMap = s.engineMap := rfl
@[simp] theorem State.emit_tok (o : Output) : (s.emit o).tok = s.tok := rfl
@[simp] theorem State.emit_tokBad (o : Output) : (s.emit o).tokBad = s.tokBad := rfl
@[simp] theorem State.emit_tiles (o : Output) : (s.emit o).tiles = s.tiles := rfl
@[simp] theorem State.emit_sp (o : Output) : (s.emit o).sp = s.sp := rfl
@[simp] theorem State.emit_fab (o : Output) : (s.emit o).fab = s.fab := rfl
@[simp] theorem State.emit_ddr (o : Output) : (s.emit o).ddr = s.ddr := rfl
@[simp] theorem State.emit_huv (o : Output) : (s.emit o).huv = s.huv := rfl
@[simp] theorem State.emit_stem (o : Output) : (s.emit o).stem = s.stem := rfl
@[simp] theorem State.emit_cup (o : Output) : (s.emit o).cup = s.cup := rfl
@[simp] theorem State.emit_stp (o : Output) : (s.emit o).stp = s.stp := rfl
@[simp] theorem State.emit_cmp (o : Output) : (s.emit o).cmp = s.cmp := rfl
@[simp] theorem State.emit_pwr (o : Output) : (s.emit o).pwr = s.pwr := rfl
@[simp] theorem State.emit_store (o : Output) : (s.emit o).store = s.store := rfl
@[simp] theorem State.emit_lan (o : Output) : (s.emit o).lan = s.lan := rfl
@[simp] theorem State.emit_arbs (o : Output) : (s.emit o).arbs = s.arbs := rfl

/-! ### take -/

@[simp] theorem State.take_pending (n : Nat) : ((s.take n).2).pending = s.pending := rfl
@[simp] theorem State.take_out (n : Nat) : ((s.take n).2).out = s.out := rfl
@[simp] theorem State.take_module (n : Nat) : ((s.take n).2).module = s.module := rfl
@[simp] theorem State.take_host (n : Nat) : ((s.take n).2).host = s.host := rfl
@[simp] theorem State.take_parts (n : Nat) : ((s.take n).2).parts = s.parts := rfl
@[simp] theorem State.take_engineMap (n : Nat) : ((s.take n).2).engineMap = s.engineMap := rfl
@[simp] theorem State.take_tok (n : Nat) : ((s.take n).2).tok = s.tok := rfl
@[simp] theorem State.take_tokBad (n : Nat) : ((s.take n).2).tokBad = s.tokBad := rfl
@[simp] theorem State.take_tiles (n : Nat) : ((s.take n).2).tiles = s.tiles := rfl
@[simp] theorem State.take_sp (n : Nat) : ((s.take n).2).sp = s.sp := rfl
@[simp] theorem State.take_fab (n : Nat) : ((s.take n).2).fab = s.fab := rfl
@[simp] theorem State.take_ddr (n : Nat) : ((s.take n).2).ddr = s.ddr := rfl
@[simp] theorem State.take_huv (n : Nat) : ((s.take n).2).huv = s.huv := rfl
@[simp] theorem State.take_stem (n : Nat) : ((s.take n).2).stem = s.stem := rfl
@[simp] theorem State.take_cup (n : Nat) : ((s.take n).2).cup = s.cup := rfl
@[simp] theorem State.take_stp (n : Nat) : ((s.take n).2).stp = s.stp := rfl
@[simp] theorem State.take_cmp (n : Nat) : ((s.take n).2).cmp = s.cmp := rfl
@[simp] theorem State.take_pwr (n : Nat) : ((s.take n).2).pwr = s.pwr := rfl
@[simp] theorem State.take_store (n : Nat) : ((s.take n).2).store = s.store := rfl
@[simp] theorem State.take_lan (n : Nat) : ((s.take n).2).lan = s.lan := rfl
@[simp] theorem State.take_arbs (n : Nat) : ((s.take n).2).arbs = s.arbs := rfl

/-! ### newId -/

@[simp] theorem State.newId_pending : (s.newId.2).pending = s.pending := rfl
@[simp] theorem State.newId_out : (s.newId.2).out = s.out := rfl
@[simp] theorem State.newId_module : (s.newId.2).module = s.module := rfl
@[simp] theorem State.newId_host : (s.newId.2).host = s.host := rfl
@[simp] theorem State.newId_parts : (s.newId.2).parts = s.parts := rfl
@[simp] theorem State.newId_engineMap : (s.newId.2).engineMap = s.engineMap := rfl
@[simp] theorem State.newId_tok : (s.newId.2).tok = s.tok := rfl
@[simp] theorem State.newId_tokBad : (s.newId.2).tokBad = s.tokBad := rfl
@[simp] theorem State.newId_tiles : (s.newId.2).tiles = s.tiles := rfl
@[simp] theorem State.newId_sp : (s.newId.2).sp = s.sp := rfl
@[simp] theorem State.newId_fab : (s.newId.2).fab = s.fab := rfl
@[simp] theorem State.newId_ddr : (s.newId.2).ddr = s.ddr := rfl
@[simp] theorem State.newId_huv : (s.newId.2).huv = s.huv := rfl
@[simp] theorem State.newId_stem : (s.newId.2).stem = s.stem := rfl
@[simp] theorem State.newId_cup : (s.newId.2).cup = s.cup := rfl
@[simp] theorem State.newId_stp : (s.newId.2).stp = s.stp := rfl
@[simp] theorem State.newId_cmp : (s.newId.2).cmp = s.cmp := rfl
@[simp] theorem State.newId_pwr : (s.newId.2).pwr = s.pwr := rfl
@[simp] theorem State.newId_store : (s.newId.2).store = s.store := rfl
@[simp] theorem State.newId_lan : (s.newId.2).lan = s.lan := rfl
@[simp] theorem State.newId_arbs : (s.newId.2).arbs = s.arbs := rfl

/-! ### zeroBank -/

@[simp] theorem State.zeroBank_pending (b : Nat) : (s.zeroBank b).pending = s.pending := rfl
@[simp] theorem State.zeroBank_out (b : Nat) : (s.zeroBank b).out = s.out := rfl
@[simp] theorem State.zeroBank_clk (b : Nat) : (s.zeroBank b).clk = s.clk := rfl
@[simp] theorem State.zeroBank_module (b : Nat) : (s.zeroBank b).module = s.module := rfl
@[simp] theorem State.zeroBank_host (b : Nat) : (s.zeroBank b).host = s.host := rfl
@[simp] theorem State.zeroBank_parts (b : Nat) : (s.zeroBank b).parts = s.parts := rfl
@[simp] theorem State.zeroBank_engineMap (b : Nat) : (s.zeroBank b).engineMap = s.engineMap := rfl
@[simp] theorem State.zeroBank_tok (b : Nat) : (s.zeroBank b).tok = s.tok := rfl
@[simp] theorem State.zeroBank_tokBad (b : Nat) : (s.zeroBank b).tokBad = s.tokBad := rfl
@[simp] theorem State.zeroBank_tiles (b : Nat) : (s.zeroBank b).tiles = s.tiles := rfl
@[simp] theorem State.zeroBank_fab (b : Nat) : (s.zeroBank b).fab = s.fab := rfl
@[simp] theorem State.zeroBank_ddr (b : Nat) : (s.zeroBank b).ddr = s.ddr := rfl
@[simp] theorem State.zeroBank_huv (b : Nat) : (s.zeroBank b).huv = s.huv := rfl
@[simp] theorem State.zeroBank_stem (b : Nat) : (s.zeroBank b).stem = s.stem := rfl
@[simp] theorem State.zeroBank_cup (b : Nat) : (s.zeroBank b).cup = s.cup := rfl
@[simp] theorem State.zeroBank_stp (b : Nat) : (s.zeroBank b).stp = s.stp := rfl
@[simp] theorem State.zeroBank_cmp (b : Nat) : (s.zeroBank b).cmp = s.cmp := rfl
@[simp] theorem State.zeroBank_pwr (b : Nat) : (s.zeroBank b).pwr = s.pwr := rfl
@[simp] theorem State.zeroBank_store (b : Nat) : (s.zeroBank b).store = s.store := rfl
@[simp] theorem State.zeroBank_lan (b : Nat) : (s.zeroBank b).lan = s.lan := rfl
@[simp] theorem State.zeroBank_arbs (b : Nat) : (s.zeroBank b).arbs = s.arbs := rfl

/-! ### log -/

@[simp] theorem State.log_pending (i e p : Nat) (d : List Byte) (a : Nat) : (s.log i e p d a).pending = s.pending := rfl
@[simp] theorem State.log_out (i e p : Nat) (d : List Byte) (a : Nat) : (s.log i e p d a).out = s.out := rfl
@[simp] theorem State.log_clk (i e p : Nat) (d : List Byte) (a : Nat) : (s.log i e p d a).clk = s.clk := rfl
@[simp] theorem State.log_module (i e p : Nat) (d : List Byte) (a : Nat) : (s.log i e p d a).module = s.module := rfl
@[simp] theorem State.log_host (i e p : Nat) (d : List Byte) (a : Nat) : (s.log i e p d a).host = s.host := rfl
@[simp] theorem State.log_parts (i e p : Nat) (d : List Byte) (a : Nat) : (s.log i e p d a).parts = s.parts := rfl
@[simp] theorem State.log_engineMap (i e p : Nat) (d : List Byte) (a : Nat) : (s.log i e p d a).engineMap = s.engineMap := rfl
@[simp] theorem State.log_tok (i e p : Nat) (d : List Byte) (a : Nat) : (s.log i e p d a).tok = s.tok := rfl
@[simp] theorem State.log_tokBad (i e p : Nat) (d : List Byte) (a : Nat) : (s.log i e p d a).tokBad = s.tokBad := rfl
@[simp] theorem State.log_tiles (i e p : Nat) (d : List Byte) (a : Nat) : (s.log i e p d a).tiles = s.tiles := rfl
@[simp] theorem State.log_sp (i e p : Nat) (d : List Byte) (a : Nat) : (s.log i e p d a).sp = s.sp := rfl
@[simp] theorem State.log_fab (i e p : Nat) (d : List Byte) (a : Nat) : (s.log i e p d a).fab = s.fab := rfl
@[simp] theorem State.log_ddr (i e p : Nat) (d : List Byte) (a : Nat) : (s.log i e p d a).ddr = s.ddr := rfl
@[simp] theorem State.log_huv (i e p : Nat) (d : List Byte) (a : Nat) : (s.log i e p d a).huv = s.huv := rfl
@[simp] theorem State.log_stem (i e p : Nat) (d : List Byte) (a : Nat) : (s.log i e p d a).stem = s.stem := rfl
@[simp] theorem State.log_cup (i e p : Nat) (d : List Byte) (a : Nat) : (s.log i e p d a).cup = s.cup := rfl
@[simp] theorem State.log_stp (i e p : Nat) (d : List Byte) (a : Nat) : (s.log i e p d a).stp = s.stp := rfl
@[simp] theorem State.log_cmp (i e p : Nat) (d : List Byte) (a : Nat) : (s.log i e p d a).cmp = s.cmp := rfl
@[simp] theorem State.log_pwr (i e p : Nat) (d : List Byte) (a : Nat) : (s.log i e p d a).pwr = s.pwr := rfl
@[simp] theorem State.log_store (i e p : Nat) (d : List Byte) (a : Nat) : (s.log i e p d a).store = s.store := rfl
@[simp] theorem State.log_arbs (i e p : Nat) (d : List Byte) (a : Nat) : (s.log i e p d a).arbs = s.arbs := rfl

/-! ### modWrite -/

@[simp] theorem State.modWrite_pending (n : Nat) (f : Write → Write) : (s.modWrite n f).pending = s.pending := rfl
@[simp] theorem State.modWrite_out (n : Nat) (f : Write → Write) : (s.modWrite n f).out = s.out := rfl
@[simp] theorem State.modWrite_clk (n : Nat) (f : Write → Write) : (s.modWrite n f).clk = s.clk := rfl
@[simp] theorem State.modWrite_module (n : Nat) (f : Write → Write) : (s.modWrite n f).module = s.module := rfl
@[simp] theorem State.modWrite_host (n : Nat) (f : Write → Write) : (s.modWrite n f).host = s.host := rfl
@[simp] theorem State.modWrite_parts (n : Nat) (f : Write → Write) : (s.modWrite n f).parts = s.parts := rfl
@[simp] theorem State.modWrite_engineMap (n : Nat) (f : Write → Write) : (s.modWrite n f).engineMap = s.engineMap := rfl
@[simp] theorem State.modWrite_tok (n : Nat) (f : Write → Write) : (s.modWrite n f).tok = s.tok := rfl
@[simp] theorem State.modWrite_tokBad (n : Nat) (f : Write → Write) : (s.modWrite n f).tokBad = s.tokBad := rfl
@[simp] theorem State.modWrite_tiles (n : Nat) (f : Write → Write) : (s.modWrite n f).tiles = s.tiles := rfl
@[simp] theorem State.modWrite_sp (n : Nat) (f : Write → Write) : (s.modWrite n f).sp = s.sp := rfl
@[simp] theorem State.modWrite_ddr (n : Nat) (f : Write → Write) : (s.modWrite n f).ddr = s.ddr := rfl
@[simp] theorem State.modWrite_huv (n : Nat) (f : Write → Write) : (s.modWrite n f).huv = s.huv := rfl
@[simp] theorem State.modWrite_stem (n : Nat) (f : Write → Write) : (s.modWrite n f).stem = s.stem := rfl
@[simp] theorem State.modWrite_cup (n : Nat) (f : Write → Write) : (s.modWrite n f).cup = s.cup := rfl
@[simp] theorem State.modWrite_stp (n : Nat) (f : Write → Write) : (s.modWrite n f).stp = s.stp := rfl
@[simp] theorem State.modWrite_cmp (n : Nat) (f : Write → Write) : (s.modWrite n f).cmp = s.cmp := rfl
@[simp] theorem State.modWrite_pwr (n : Nat) (f : Write → Write) : (s.modWrite n f).pwr = s.pwr := rfl
@[simp] theorem State.modWrite_store (n : Nat) (f : Write → Write) : (s.modWrite n f).store = s.store := rfl
@[simp] theorem State.modWrite_lan (n : Nat) (f : Write → Write) : (s.modWrite n f).lan = s.lan := rfl
@[simp] theorem State.modWrite_arbs (n : Nat) (f : Write → Write) : (s.modWrite n f).arbs = s.arbs := rfl

/-! ### dropWrite -/

@[simp] theorem State.dropWrite_pending (n : Nat) : (s.dropWrite n).pending = s.pending := rfl
@[simp] theorem State.dropWrite_out (n : Nat) : (s.dropWrite n).out = s.out := rfl
@[simp] theorem State.dropWrite_clk (n : Nat) : (s.dropWrite n).clk = s.clk := rfl
@[simp] theorem State.dropWrite_module (n : Nat) : (s.dropWrite n).module = s.module := rfl
@[simp] theorem State.dropWrite_host (n : Nat) : (s.dropWrite n).host = s.host := rfl
@[simp] theorem State.dropWrite_parts (n : Nat) : (s.dropWrite n).parts = s.parts := rfl
@[simp] theorem State.dropWrite_engineMap (n : Nat) : (s.dropWrite n).engineMap = s.engineMap := rfl
@[simp] theorem State.dropWrite_tok (n : Nat) : (s.dropWrite n).tok = s.tok := rfl
@[simp] theorem State.dropWrite_tokBad (n : Nat) : (s.dropWrite n).tokBad = s.tokBad := rfl
@[simp] theorem State.dropWrite_tiles (n : Nat) : (s.dropWrite n).tiles = s.tiles := rfl
@[simp] theorem State.dropWrite_sp (n : Nat) : (s.dropWrite n).sp = s.sp := rfl
@[simp] theorem State.dropWrite_ddr (n : Nat) : (s.dropWrite n).ddr = s.ddr := rfl
@[simp] theorem State.dropWrite_huv (n : Nat) : (s.dropWrite n).huv = s.huv := rfl
@[simp] theorem State.dropWrite_stem (n : Nat) : (s.dropWrite n).stem = s.stem := rfl
@[simp] theorem State.dropWrite_cup (n : Nat) : (s.dropWrite n).cup = s.cup := rfl
@[simp] theorem State.dropWrite_stp (n : Nat) : (s.dropWrite n).stp = s.stp := rfl
@[simp] theorem State.dropWrite_cmp (n : Nat) : (s.dropWrite n).cmp = s.cmp := rfl
@[simp] theorem State.dropWrite_pwr (n : Nat) : (s.dropWrite n).pwr = s.pwr := rfl
@[simp] theorem State.dropWrite_store (n : Nat) : (s.dropWrite n).store = s.store := rfl
@[simp] theorem State.dropWrite_lan (n : Nat) : (s.dropWrite n).lan = s.lan := rfl
@[simp] theorem State.dropWrite_arbs (n : Nat) : (s.dropWrite n).arbs = s.arbs := rfl

/-! ### addWrite -/

@[simp] theorem State.addWrite_pending (w : Write) : (s.addWrite w).pending = s.pending := rfl
@[simp] theorem State.addWrite_out (w : Write) : (s.addWrite w).out = s.out := rfl
@[simp] theorem State.addWrite_clk (w : Write) : (s.addWrite w).clk = s.clk := rfl
@[simp] theorem State.addWrite_module (w : Write) : (s.addWrite w).module = s.module := rfl
@[simp] theorem State.addWrite_host (w : Write) : (s.addWrite w).host = s.host := rfl
@[simp] theorem State.addWrite_parts (w : Write) : (s.addWrite w).parts = s.parts := rfl
@[simp] theorem State.addWrite_engineMap (w : Write) : (s.addWrite w).engineMap = s.engineMap := rfl
@[simp] theorem State.addWrite_tok (w : Write) : (s.addWrite w).tok = s.tok := rfl
@[simp] theorem State.addWrite_tokBad (w : Write) : (s.addWrite w).tokBad = s.tokBad := rfl
@[simp] theorem State.addWrite_tiles (w : Write) : (s.addWrite w).tiles = s.tiles := rfl
@[simp] theorem State.addWrite_sp (w : Write) : (s.addWrite w).sp = s.sp := rfl
@[simp] theorem State.addWrite_ddr (w : Write) : (s.addWrite w).ddr = s.ddr := rfl
@[simp] theorem State.addWrite_huv (w : Write) : (s.addWrite w).huv = s.huv := rfl
@[simp] theorem State.addWrite_stem (w : Write) : (s.addWrite w).stem = s.stem := rfl
@[simp] theorem State.addWrite_cup (w : Write) : (s.addWrite w).cup = s.cup := rfl
@[simp] theorem State.addWrite_stp (w : Write) : (s.addWrite w).stp = s.stp := rfl
@[simp] theorem State.addWrite_cmp (w : Write) : (s.addWrite w).cmp = s.cmp := rfl
@[simp] theorem State.addWrite_pwr (w : Write) : (s.addWrite w).pwr = s.pwr := rfl
@[simp] theorem State.addWrite_store (w : Write) : (s.addWrite w).store = s.store := rfl
@[simp] theorem State.addWrite_lan (w : Write) : (s.addWrite w).lan = s.lan := rfl
@[simp] theorem State.addWrite_arbs (w : Write) : (s.addWrite w).arbs = s.arbs := rfl

/-! ### failWrite -/

@[simp] theorem State.failWrite_pending (n st : Nat) : (s.failWrite n st).pending = s.pending := rfl
@[simp] theorem State.failWrite_out (n st : Nat) : (s.failWrite n st).out = s.out := rfl
@[simp] theorem State.failWrite_clk (n st : Nat) : (s.failWrite n st).clk = s.clk := rfl
@[simp] theorem State.failWrite_module (n st : Nat) : (s.failWrite n st).module = s.module := rfl
@[simp] theorem State.failWrite_host (n st : Nat) : (s.failWrite n st).host = s.host := rfl
@[simp] theorem State.failWrite_parts (n st : Nat) : (s.failWrite n st).parts = s.parts := rfl
@[simp] theorem State.failWrite_engineMap (n st : Nat) : (s.failWrite n st).engineMap = s.engineMap := rfl
@[simp] theorem State.failWrite_tok (n st : Nat) : (s.failWrite n st).tok = s.tok := rfl
@[simp] theorem State.failWrite_tokBad (n st : Nat) : (s.failWrite n st).tokBad = s.tokBad := rfl
@[simp] theorem State.failWrite_tiles (n st : Nat) : (s.failWrite n st).tiles = s.tiles := rfl
@[simp] theorem State.failWrite_sp (n st : Nat) : (s.failWrite n st).sp = s.sp := rfl
@[simp] theorem State.failWrite_ddr (n st : Nat) : (s.failWrite n st).ddr = s.ddr := rfl
@[simp] theorem State.failWrite_huv (n st : Nat) : (s.failWrite n st).huv = s.huv := rfl
@[simp] theorem State.failWrite_stem (n st : Nat) : (s.failWrite n st).stem = s.stem := rfl
@[simp] theorem State.failWrite_cup (n st : Nat) : (s.failWrite n st).cup = s.cup := rfl
@[simp] theorem State.failWrite_stp (n st : Nat) : (s.failWrite n st).stp = s.stp := rfl
@[simp] theorem State.failWrite_cmp (n st : Nat) : (s.failWrite n st).cmp = s.cmp := rfl
@[simp] theorem State.failWrite_pwr (n st : Nat) : (s.failWrite n st).pwr = s.pwr := rfl
@[simp] theorem State.failWrite_store (n st : Nat) : (s.failWrite n st).store = s.store := rfl
@[simp] theorem State.failWrite_lan (n st : Nat) : (s.failWrite n st).lan = s.lan := rfl
@[simp] theorem State.failWrite_arbs (n st : Nat) : (s.failWrite n st).arbs = s.arbs := rfl

/-! ### modPost -/

@[simp] theorem State.modPost_pending (n : Nat) (f : Post → Post) : (s.modPost n f).pending = s.pending := rfl
@[simp] theorem State.modPost_out (n : Nat) (f : Post → Post) : (s.modPost n f).out = s.out := rfl
@[simp] theorem State.modPost_clk (n : Nat) (f : Post → Post) : (s.modPost n f).clk = s.clk := rfl
@[simp] theorem State.modPost_module (n : Nat) (f : Post → Post) : (s.modPost n f).module = s.module := rfl
@[simp] theorem State.modPost_host (n : Nat) (f : Post → Post) : (s.modPost n f).host = s.host := rfl
@[simp] theorem State.modPost_parts (n : Nat) (f : Post → Post) : (s.modPost n f).parts = s.parts := rfl
@[simp] theorem State.modPost_engineMap (n : Nat) (f : Post → Post) : (s.modPost n f).engineMap = s.engineMap := rfl
@[simp] theorem State.modPost_tok (n : Nat) (f : Post → Post) : (s.modPost n f).tok = s.tok := rfl
@[simp] theorem State.modPost_tokBad (n : Nat) (f : Post → Post) : (s.modPost n f).tokBad = s.tokBad := rfl
@[simp] theorem State.modPost_tiles (n : Nat) (f : Post → Post) : (s.modPost n f).tiles = s.tiles := rfl
@[simp] theorem State.modPost_sp (n : Nat) (f : Post → Post) : (s.modPost n f).sp = s.sp := rfl
@[simp] theorem State.modPost_ddr (n : Nat) (f : Post → Post) : (s.modPost n f).ddr = s.ddr := rfl
@[simp] theorem State.modPost_huv (n : Nat) (f : Post → Post) : (s.modPost n f).huv = s.huv := rfl
@[simp] theorem State.modPost_stem (n : Nat) (f : Post → Post) : (s.modPost n f).stem = s.stem := rfl
@[simp] theorem State.modPost_cup (n : Nat) (f : Post → Post) : (s.modPost n f).cup = s.cup := rfl
@[simp] theorem State.modPost_stp (n : Nat) (f : Post → Post) : (s.modPost n f).stp = s.stp := rfl
@[simp] theorem State.modPost_cmp (n : Nat) (f : Post → Post) : (s.modPost n f).cmp = s.cmp := rfl
@[simp] theorem State.modPost_pwr (n : Nat) (f : Post → Post) : (s.modPost n f).pwr = s.pwr := rfl
@[simp] theorem State.modPost_store (n : Nat) (f : Post → Post) : (s.modPost n f).store = s.store := rfl
@[simp] theorem State.modPost_lan (n : Nat) (f : Post → Post) : (s.modPost n f).lan = s.lan := rfl
@[simp] theorem State.modPost_arbs (n : Nat) (f : Post → Post) : (s.modPost n f).arbs = s.arbs := rfl

/-! ### modSensor -/

@[simp] theorem State.modSensor_pending (i : Nat) (f : Sensor → Sensor) : (s.modSensor i f).pending = s.pending := rfl
@[simp] theorem State.modSensor_out (i : Nat) (f : Sensor → Sensor) : (s.modSensor i f).out = s.out := rfl
@[simp] theorem State.modSensor_clk (i : Nat) (f : Sensor → Sensor) : (s.modSensor i f).clk = s.clk := rfl
@[simp] theorem State.modSensor_module (i : Nat) (f : Sensor → Sensor) : (s.modSensor i f).module = s.module := rfl
@[simp] theorem State.modSensor_host (i : Nat) (f : Sensor → Sensor) : (s.modSensor i f).host = s.host := rfl
@[simp] theorem State.modSensor_parts (i : Nat) (f : Sensor → Sensor) : (s.modSensor i f).parts = s.parts := rfl
@[simp] theorem State.modSensor_engineMap (i : Nat) (f : Sensor → Sensor) : (s.modSensor i f).engineMap = s.engineMap := rfl
@[simp] theorem State.modSensor_tok (i : Nat) (f : Sensor → Sensor) : (s.modSensor i f).tok = s.tok := rfl
@[simp] theorem State.modSensor_tokBad (i : Nat) (f : Sensor → Sensor) : (s.modSensor i f).tokBad = s.tokBad := rfl
@[simp] theorem State.modSensor_tiles (i : Nat) (f : Sensor → Sensor) : (s.modSensor i f).tiles = s.tiles := rfl
@[simp] theorem State.modSensor_sp (i : Nat) (f : Sensor → Sensor) : (s.modSensor i f).sp = s.sp := rfl
@[simp] theorem State.modSensor_fab (i : Nat) (f : Sensor → Sensor) : (s.modSensor i f).fab = s.fab := rfl
@[simp] theorem State.modSensor_ddr (i : Nat) (f : Sensor → Sensor) : (s.modSensor i f).ddr = s.ddr := rfl
@[simp] theorem State.modSensor_huv (i : Nat) (f : Sensor → Sensor) : (s.modSensor i f).huv = s.huv := rfl
@[simp] theorem State.modSensor_stem (i : Nat) (f : Sensor → Sensor) : (s.modSensor i f).stem = s.stem := rfl
@[simp] theorem State.modSensor_stp (i : Nat) (f : Sensor → Sensor) : (s.modSensor i f).stp = s.stp := rfl
@[simp] theorem State.modSensor_cmp (i : Nat) (f : Sensor → Sensor) : (s.modSensor i f).cmp = s.cmp := rfl
@[simp] theorem State.modSensor_pwr (i : Nat) (f : Sensor → Sensor) : (s.modSensor i f).pwr = s.pwr := rfl
@[simp] theorem State.modSensor_store (i : Nat) (f : Sensor → Sensor) : (s.modSensor i f).store = s.store := rfl
@[simp] theorem State.modSensor_lan (i : Nat) (f : Sensor → Sensor) : (s.modSensor i f).lan = s.lan := rfl
@[simp] theorem State.modSensor_arbs (i : Nat) (f : Sensor → Sensor) : (s.modSensor i f).arbs = s.arbs := rfl

/-! ### modGroup -/

@[simp] theorem State.modGroup_pending (g : Nat) (f : Group → Group) : (s.modGroup g f).pending = s.pending := rfl
@[simp] theorem State.modGroup_out (g : Nat) (f : Group → Group) : (s.modGroup g f).out = s.out := rfl
@[simp] theorem State.modGroup_clk (g : Nat) (f : Group → Group) : (s.modGroup g f).clk = s.clk := rfl
@[simp] theorem State.modGroup_module (g : Nat) (f : Group → Group) : (s.modGroup g f).module = s.module := rfl
@[simp] theorem State.modGroup_host (g : Nat) (f : Group → Group) : (s.modGroup g f).host = s.host := rfl
@[simp] theorem State.modGroup_parts (g : Nat) (f : Group → Group) : (s.modGroup g f).parts = s.parts := rfl
@[simp] theorem State.modGroup_engineMap (g : Nat) (f : Group → Group) : (s.modGroup g f).engineMap = s.engineMap := rfl
@[simp] theorem State.modGroup_tok (g : Nat) (f : Group → Group) : (s.modGroup g f).tok = s.tok := rfl
@[simp] theorem State.modGroup_tokBad (g : Nat) (f : Group → Group) : (s.modGroup g f).tokBad = s.tokBad := rfl
@[simp] theorem State.modGroup_tiles (g : Nat) (f : Group → Group) : (s.modGroup g f).tiles = s.tiles := rfl
@[simp] theorem State.modGroup_sp (g : Nat) (f : Group → Group) : (s.modGroup g f).sp = s.sp := rfl
@[simp] theorem State.modGroup_fab (g : Nat) (f : Group → Group) : (s.modGroup g f).fab = s.fab := rfl
@[simp] theorem State.modGroup_ddr (g : Nat) (f : Group → Group) : (s.modGroup g f).ddr = s.ddr := rfl
@[simp] theorem State.modGroup_huv (g : Nat) (f : Group → Group) : (s.modGroup g f).huv = s.huv := rfl
@[simp] theorem State.modGroup_stem (g : Nat) (f : Group → Group) : (s.modGroup g f).stem = s.stem := rfl
@[simp] theorem State.modGroup_stp (g : Nat) (f : Group → Group) : (s.modGroup g f).stp = s.stp := rfl
@[simp] theorem State.modGroup_cmp (g : Nat) (f : Group → Group) : (s.modGroup g f).cmp = s.cmp := rfl
@[simp] theorem State.modGroup_pwr (g : Nat) (f : Group → Group) : (s.modGroup g f).pwr = s.pwr := rfl
@[simp] theorem State.modGroup_store (g : Nat) (f : Group → Group) : (s.modGroup g f).store = s.store := rfl
@[simp] theorem State.modGroup_lan (g : Nat) (f : Group → Group) : (s.modGroup g f).lan = s.lan := rfl
@[simp] theorem State.modGroup_arbs (g : Nat) (f : Group → Group) : (s.modGroup g f).arbs = s.arbs := rfl

/-! ### modStp -/

@[simp] theorem State.modStp_pending (f : Steeple → Steeple) : (s.modStp f).pending = s.pending := rfl
@[simp] theorem State.modStp_out (f : Steeple → Steeple) : (s.modStp f).out = s.out := rfl
@[simp] theorem State.modStp_clk (f : Steeple → Steeple) : (s.modStp f).clk = s.clk := rfl
@[simp] theorem State.modStp_module (f : Steeple → Steeple) : (s.modStp f).module = s.module := rfl
@[simp] theorem State.modStp_host (f : Steeple → Steeple) : (s.modStp f).host = s.host := rfl
@[simp] theorem State.modStp_parts (f : Steeple → Steeple) : (s.modStp f).parts = s.parts := rfl
@[simp] theorem State.modStp_engineMap (f : Steeple → Steeple) : (s.modStp f).engineMap = s.engineMap := rfl
@[simp] theorem State.modStp_tok (f : Steeple → Steeple) : (s.modStp f).tok = s.tok := rfl
@[simp] theorem State.modStp_tokBad (f : Steeple → Steeple) : (s.modStp f).tokBad = s.tokBad := rfl
@[simp] theorem State.modStp_tiles (f : Steeple → Steeple) : (s.modStp f).tiles = s.tiles := rfl
@[simp] theorem State.modStp_sp (f : Steeple → Steeple) : (s.modStp f).sp = s.sp := rfl
@[simp] theorem State.modStp_fab (f : Steeple → Steeple) : (s.modStp f).fab = s.fab := rfl
@[simp] theorem State.modStp_ddr (f : Steeple → Steeple) : (s.modStp f).ddr = s.ddr := rfl
@[simp] theorem State.modStp_huv (f : Steeple → Steeple) : (s.modStp f).huv = s.huv := rfl
@[simp] theorem State.modStp_stem (f : Steeple → Steeple) : (s.modStp f).stem = s.stem := rfl
@[simp] theorem State.modStp_cup (f : Steeple → Steeple) : (s.modStp f).cup = s.cup := rfl
@[simp] theorem State.modStp_cmp (f : Steeple → Steeple) : (s.modStp f).cmp = s.cmp := rfl
@[simp] theorem State.modStp_pwr (f : Steeple → Steeple) : (s.modStp f).pwr = s.pwr := rfl
@[simp] theorem State.modStp_store (f : Steeple → Steeple) : (s.modStp f).store = s.store := rfl
@[simp] theorem State.modStp_lan (f : Steeple → Steeple) : (s.modStp f).lan = s.lan := rfl
@[simp] theorem State.modStp_arbs (f : Steeple → Steeple) : (s.modStp f).arbs = s.arbs := rfl

/-! ### modLoop -/

@[simp] theorem State.modLoop_pending (l : Nat) (f : CLoop → CLoop) : (s.modLoop l f).pending = s.pending := rfl
@[simp] theorem State.modLoop_out (l : Nat) (f : CLoop → CLoop) : (s.modLoop l f).out = s.out := rfl
@[simp] theorem State.modLoop_clk (l : Nat) (f : CLoop → CLoop) : (s.modLoop l f).clk = s.clk := rfl
@[simp] theorem State.modLoop_module (l : Nat) (f : CLoop → CLoop) : (s.modLoop l f).module = s.module := rfl
@[simp] theorem State.modLoop_host (l : Nat) (f : CLoop → CLoop) : (s.modLoop l f).host = s.host := rfl
@[simp] theorem State.modLoop_parts (l : Nat) (f : CLoop → CLoop) : (s.modLoop l f).parts = s.parts := rfl
@[simp] theorem State.modLoop_engineMap (l : Nat) (f : CLoop → CLoop) : (s.modLoop l f).engineMap = s.engineMap := rfl
@[simp] theorem State.modLoop_tok (l : Nat) (f : CLoop → CLoop) : (s.modLoop l f).tok = s.tok := rfl
@[simp] theorem State.modLoop_tokBad (l : Nat) (f : CLoop → CLoop) : (s.modLoop l f).tokBad = s.tokBad := rfl
@[simp] theorem State.modLoop_tiles (l : Nat) (f : CLoop → CLoop) : (s.modLoop l f).tiles = s.tiles := rfl
@[simp] theorem State.modLoop_sp (l : Nat) (f : CLoop → CLoop) : (s.modLoop l f).sp = s.sp := rfl
@[simp] theorem State.modLoop_fab (l : Nat) (f : CLoop → CLoop) : (s.modLoop l f).fab = s.fab := rfl
@[simp] theorem State.modLoop_ddr (l : Nat) (f : CLoop → CLoop) : (s.modLoop l f).ddr = s.ddr := rfl
@[simp] theorem State.modLoop_huv (l : Nat) (f : CLoop → CLoop) : (s.modLoop l f).huv = s.huv := rfl
@[simp] theorem State.modLoop_stem (l : Nat) (f : CLoop → CLoop) : (s.modLoop l f).stem = s.stem := rfl
@[simp] theorem State.modLoop_cup (l : Nat) (f : CLoop → CLoop) : (s.modLoop l f).cup = s.cup := rfl
@[simp] theorem State.modLoop_stp (l : Nat) (f : CLoop → CLoop) : (s.modLoop l f).stp = s.stp := rfl
@[simp] theorem State.modLoop_pwr (l : Nat) (f : CLoop → CLoop) : (s.modLoop l f).pwr = s.pwr := rfl
@[simp] theorem State.modLoop_store (l : Nat) (f : CLoop → CLoop) : (s.modLoop l f).store = s.store := rfl
@[simp] theorem State.modLoop_lan (l : Nat) (f : CLoop → CLoop) : (s.modLoop l f).lan = s.lan := rfl
@[simp] theorem State.modLoop_arbs (l : Nat) (f : CLoop → CLoop) : (s.modLoop l f).arbs = s.arbs := rfl

/-! ### modDie -/

@[simp] theorem State.modDie_pending (d : Nat) (f : DiePower → DiePower) : (s.modDie d f).pending = s.pending := rfl
@[simp] theorem State.modDie_out (d : Nat) (f : DiePower → DiePower) : (s.modDie d f).out = s.out := rfl
@[simp] theorem State.modDie_clk (d : Nat) (f : DiePower → DiePower) : (s.modDie d f).clk = s.clk := rfl
@[simp] theorem State.modDie_module (d : Nat) (f : DiePower → DiePower) : (s.modDie d f).module = s.module := rfl
@[simp] theorem State.modDie_host (d : Nat) (f : DiePower → DiePower) : (s.modDie d f).host = s.host := rfl
@[simp] theorem State.modDie_parts (d : Nat) (f : DiePower → DiePower) : (s.modDie d f).parts = s.parts := rfl
@[simp] theorem State.modDie_engineMap (d : Nat) (f : DiePower → DiePower) : (s.modDie d f).engineMap = s.engineMap := rfl
@[simp] theorem State.modDie_tok (d : Nat) (f : DiePower → DiePower) : (s.modDie d f).tok = s.tok := rfl
@[simp] theorem State.modDie_tokBad (d : Nat) (f : DiePower → DiePower) : (s.modDie d f).tokBad = s.tokBad := rfl
@[simp] theorem State.modDie_tiles (d : Nat) (f : DiePower → DiePower) : (s.modDie d f).tiles = s.tiles := rfl
@[simp] theorem State.modDie_sp (d : Nat) (f : DiePower → DiePower) : (s.modDie d f).sp = s.sp := rfl
@[simp] theorem State.modDie_fab (d : Nat) (f : DiePower → DiePower) : (s.modDie d f).fab = s.fab := rfl
@[simp] theorem State.modDie_ddr (d : Nat) (f : DiePower → DiePower) : (s.modDie d f).ddr = s.ddr := rfl
@[simp] theorem State.modDie_huv (d : Nat) (f : DiePower → DiePower) : (s.modDie d f).huv = s.huv := rfl
@[simp] theorem State.modDie_stem (d : Nat) (f : DiePower → DiePower) : (s.modDie d f).stem = s.stem := rfl
@[simp] theorem State.modDie_cup (d : Nat) (f : DiePower → DiePower) : (s.modDie d f).cup = s.cup := rfl
@[simp] theorem State.modDie_stp (d : Nat) (f : DiePower → DiePower) : (s.modDie d f).stp = s.stp := rfl
@[simp] theorem State.modDie_cmp (d : Nat) (f : DiePower → DiePower) : (s.modDie d f).cmp = s.cmp := rfl
@[simp] theorem State.modDie_store (d : Nat) (f : DiePower → DiePower) : (s.modDie d f).store = s.store := rfl
@[simp] theorem State.modDie_lan (d : Nat) (f : DiePower → DiePower) : (s.modDie d f).lan = s.lan := rfl
@[simp] theorem State.modDie_arbs (d : Nat) (f : DiePower → DiePower) : (s.modDie d f).arbs = s.arbs := rfl

/-! ### modStore -/

@[simp] theorem State.modStore_pending (f : Store → Store) : (s.modStore f).pending = s.pending := rfl
@[simp] theorem State.modStore_out (f : Store → Store) : (s.modStore f).out = s.out := rfl
@[simp] theorem State.modStore_clk (f : Store → Store) : (s.modStore f).clk = s.clk := rfl
@[simp] theorem State.modStore_module (f : Store → Store) : (s.modStore f).module = s.module := rfl
@[simp] theorem State.modStore_host (f : Store → Store) : (s.modStore f).host = s.host := rfl
@[simp] theorem State.modStore_parts (f : Store → Store) : (s.modStore f).parts = s.parts := rfl
@[simp] theorem State.modStore_engineMap (f : Store → Store) : (s.modStore f).engineMap = s.engineMap := rfl
@[simp] theorem State.modStore_tok (f : Store → Store) : (s.modStore f).tok = s.tok := rfl
@[simp] theorem State.modStore_tokBad (f : Store → Store) : (s.modStore f).tokBad = s.tokBad := rfl
@[simp] theorem State.modStore_tiles (f : Store → Store) : (s.modStore f).tiles = s.tiles := rfl
@[simp] theorem State.modStore_sp (f : Store → Store) : (s.modStore f).sp = s.sp := rfl
@[simp] theorem State.modStore_fab (f : Store → Store) : (s.modStore f).fab = s.fab := rfl
@[simp] theorem State.modStore_ddr (f : Store → Store) : (s.modStore f).ddr = s.ddr := rfl
@[simp] theorem State.modStore_huv (f : Store → Store) : (s.modStore f).huv = s.huv := rfl
@[simp] theorem State.modStore_stem (f : Store → Store) : (s.modStore f).stem = s.stem := rfl
@[simp] theorem State.modStore_cup (f : Store → Store) : (s.modStore f).cup = s.cup := rfl
@[simp] theorem State.modStore_stp (f : Store → Store) : (s.modStore f).stp = s.stp := rfl
@[simp] theorem State.modStore_cmp (f : Store → Store) : (s.modStore f).cmp = s.cmp := rfl
@[simp] theorem State.modStore_pwr (f : Store → Store) : (s.modStore f).pwr = s.pwr := rfl
@[simp] theorem State.modStore_lan (f : Store → Store) : (s.modStore f).lan = s.lan := rfl
@[simp] theorem State.modStore_arbs (f : Store → Store) : (s.modStore f).arbs = s.arbs := rfl

/-! ### noteReady -/

@[simp] theorem State.noteReady_pending : (s.noteReady).pending = s.pending := by unfold State.noteReady; simp only []; split <;> rfl
@[simp] theorem State.noteReady_out : (s.noteReady).out = s.out := by unfold State.noteReady; simp only []; split <;> rfl
@[simp] theorem State.noteReady_clk : (s.noteReady).clk = s.clk := by unfold State.noteReady; simp only []; split <;> rfl
@[simp] theorem State.noteReady_module : (s.noteReady).module = s.module := by unfold State.noteReady; simp only []; split <;> rfl
@[simp] theorem State.noteReady_host : (s.noteReady).host = s.host := by unfold State.noteReady; simp only []; split <;> rfl
@[simp] theorem State.noteReady_parts : (s.noteReady).parts = s.parts := by unfold State.noteReady; simp only []; split <;> rfl
@[simp] theorem State.noteReady_engineMap : (s.noteReady).engineMap = s.engineMap := by unfold State.noteReady; simp only []; split <;> rfl
@[simp] theorem State.noteReady_tok : (s.noteReady).tok = s.tok := by unfold State.noteReady; simp only []; split <;> rfl
@[simp] theorem State.noteReady_tokBad : (s.noteReady).tokBad = s.tokBad := by unfold State.noteReady; simp only []; split <;> rfl
@[simp] theorem State.noteReady_tiles : (s.noteReady).tiles = s.tiles := by unfold State.noteReady; simp only []; split <;> rfl
@[simp] theorem State.noteReady_sp : (s.noteReady).sp = s.sp := by unfold State.noteReady; simp only []; split <;> rfl
@[simp] theorem State.noteReady_fab : (s.noteReady).fab = s.fab := by unfold State.noteReady; simp only []; split <;> rfl
@[simp] theorem State.noteReady_ddr : (s.noteReady).ddr = s.ddr := by unfold State.noteReady; simp only []; split <;> rfl
@[simp] theorem State.noteReady_huv : (s.noteReady).huv = s.huv := by unfold State.noteReady; simp only []; split <;> rfl
@[simp] theorem State.noteReady_stem : (s.noteReady).stem = s.stem := by unfold State.noteReady; simp only []; split <;> rfl
@[simp] theorem State.noteReady_stp : (s.noteReady).stp = s.stp := by unfold State.noteReady; simp only []; split <;> rfl
@[simp] theorem State.noteReady_cmp : (s.noteReady).cmp = s.cmp := by unfold State.noteReady; simp only []; split <;> rfl
@[simp] theorem State.noteReady_pwr : (s.noteReady).pwr = s.pwr := by unfold State.noteReady; simp only []; split <;> rfl
@[simp] theorem State.noteReady_store : (s.noteReady).store = s.store := by unfold State.noteReady; simp only []; split <;> rfl
@[simp] theorem State.noteReady_lan : (s.noteReady).lan = s.lan := by unfold State.noteReady; simp only []; split <;> rfl
@[simp] theorem State.noteReady_arbs : (s.noteReady).arbs = s.arbs := by unfold State.noteReady; simp only []; split <;> rfl

/-! ### modSp -/

@[simp] theorem State.modSp_pending (n : Nat) (f : SpSlot → SpSlot) : (s.modSp n f).pending = s.pending := rfl
@[simp] theorem State.modSp_out (n : Nat) (f : SpSlot → SpSlot) : (s.modSp n f).out = s.out := rfl
@[simp] theorem State.modSp_clk (n : Nat) (f : SpSlot → SpSlot) : (s.modSp n f).clk = s.clk := rfl
@[simp] theorem State.modSp_module (n : Nat) (f : SpSlot → SpSlot) : (s.modSp n f).module = s.module := rfl
@[simp] theorem State.modSp_host (n : Nat) (f : SpSlot → SpSlot) : (s.modSp n f).host = s.host := rfl
@[simp] theorem State.modSp_parts (n : Nat) (f : SpSlot → SpSlot) : (s.modSp n f).parts = s.parts := rfl
@[simp] theorem State.modSp_engineMap (n : Nat) (f : SpSlot → SpSlot) : (s.modSp n f).engineMap = s.engineMap := rfl
@[simp] theorem State.modSp_tok (n : Nat) (f : SpSlot → SpSlot) : (s.modSp n f).tok = s.tok := rfl
@[simp] theorem State.modSp_tokBad (n : Nat) (f : SpSlot → SpSlot) : (s.modSp n f).tokBad = s.tokBad := rfl
@[simp] theorem State.modSp_tiles (n : Nat) (f : SpSlot → SpSlot) : (s.modSp n f).tiles = s.tiles := rfl
@[simp] theorem State.modSp_sp (n : Nat) (f : SpSlot → SpSlot) : (s.modSp n f).sp = s.sp := rfl
@[simp] theorem State.modSp_fab (n : Nat) (f : SpSlot → SpSlot) : (s.modSp n f).fab = s.fab := rfl
@[simp] theorem State.modSp_ddr (n : Nat) (f : SpSlot → SpSlot) : (s.modSp n f).ddr = s.ddr := rfl
@[simp] theorem State.modSp_huv (n : Nat) (f : SpSlot → SpSlot) : (s.modSp n f).huv = s.huv := rfl
@[simp] theorem State.modSp_stem (n : Nat) (f : SpSlot → SpSlot) : (s.modSp n f).stem = s.stem := rfl
@[simp] theorem State.modSp_cup (n : Nat) (f : SpSlot → SpSlot) : (s.modSp n f).cup = s.cup := rfl
@[simp] theorem State.modSp_stp (n : Nat) (f : SpSlot → SpSlot) : (s.modSp n f).stp = s.stp := rfl
@[simp] theorem State.modSp_pwr (n : Nat) (f : SpSlot → SpSlot) : (s.modSp n f).pwr = s.pwr := rfl
@[simp] theorem State.modSp_store (n : Nat) (f : SpSlot → SpSlot) : (s.modSp n f).store = s.store := rfl
@[simp] theorem State.modSp_lan (n : Nat) (f : SpSlot → SpSlot) : (s.modSp n f).lan = s.lan := rfl
@[simp] theorem State.modSp_arbs (n : Nat) (f : SpSlot → SpSlot) : (s.modSp n f).arbs = s.arbs := rfl

/-! ### modCan -/

@[simp] theorem State.modCan_pending (n : Nat) (f : CanPort → CanPort) : (s.modCan n f).pending = s.pending := rfl
@[simp] theorem State.modCan_out (n : Nat) (f : CanPort → CanPort) : (s.modCan n f).out = s.out := rfl
@[simp] theorem State.modCan_clk (n : Nat) (f : CanPort → CanPort) : (s.modCan n f).clk = s.clk := rfl
@[simp] theorem State.modCan_module (n : Nat) (f : CanPort → CanPort) : (s.modCan n f).module = s.module := rfl
@[simp] theorem State.modCan_host (n : Nat) (f : CanPort → CanPort) : (s.modCan n f).host = s.host := rfl
@[simp] theorem State.modCan_parts (n : Nat) (f : CanPort → CanPort) : (s.modCan n f).parts = s.parts := rfl
@[simp] theorem State.modCan_engineMap (n : Nat) (f : CanPort → CanPort) : (s.modCan n f).engineMap = s.engineMap := rfl
@[simp] theorem State.modCan_tok (n : Nat) (f : CanPort → CanPort) : (s.modCan n f).tok = s.tok := rfl
@[simp] theorem State.modCan_tokBad (n : Nat) (f : CanPort → CanPort) : (s.modCan n f).tokBad = s.tokBad := rfl
@[simp] theorem State.modCan_tiles (n : Nat) (f : CanPort → CanPort) : (s.modCan n f).tiles = s.tiles := rfl
@[simp] theorem State.modCan_sp (n : Nat) (f : CanPort → CanPort) : (s.modCan n f).sp = s.sp := rfl
@[simp] theorem State.modCan_fab (n : Nat) (f : CanPort → CanPort) : (s.modCan n f).fab = s.fab := rfl
@[simp] theorem State.modCan_ddr (n : Nat) (f : CanPort → CanPort) : (s.modCan n f).ddr = s.ddr := rfl
@[simp] theorem State.modCan_huv (n : Nat) (f : CanPort → CanPort) : (s.modCan n f).huv = s.huv := rfl
@[simp] theorem State.modCan_stem (n : Nat) (f : CanPort → CanPort) : (s.modCan n f).stem = s.stem := rfl
@[simp] theorem State.modCan_cup (n : Nat) (f : CanPort → CanPort) : (s.modCan n f).cup = s.cup := rfl
@[simp] theorem State.modCan_stp (n : Nat) (f : CanPort → CanPort) : (s.modCan n f).stp = s.stp := rfl
@[simp] theorem State.modCan_pwr (n : Nat) (f : CanPort → CanPort) : (s.modCan n f).pwr = s.pwr := rfl
@[simp] theorem State.modCan_store (n : Nat) (f : CanPort → CanPort) : (s.modCan n f).store = s.store := rfl
@[simp] theorem State.modCan_lan (n : Nat) (f : CanPort → CanPort) : (s.modCan n f).lan = s.lan := rfl
@[simp] theorem State.modCan_arbs (n : Nat) (f : CanPort → CanPort) : (s.modCan n f).arbs = s.arbs := rfl

/-! ### modHost -/

@[simp] theorem State.modHost_pending (f : HostIf → HostIf) : (s.modHost f).pending = s.pending := rfl
@[simp] theorem State.modHost_out (f : HostIf → HostIf) : (s.modHost f).out = s.out := rfl
@[simp] theorem State.modHost_clk (f : HostIf → HostIf) : (s.modHost f).clk = s.clk := rfl
@[simp] theorem State.modHost_module (f : HostIf → HostIf) : (s.modHost f).module = s.module := rfl
@[simp] theorem State.modHost_parts (f : HostIf → HostIf) : (s.modHost f).parts = s.parts := rfl
@[simp] theorem State.modHost_engineMap (f : HostIf → HostIf) : (s.modHost f).engineMap = s.engineMap := rfl
@[simp] theorem State.modHost_tok (f : HostIf → HostIf) : (s.modHost f).tok = s.tok := rfl
@[simp] theorem State.modHost_tokBad (f : HostIf → HostIf) : (s.modHost f).tokBad = s.tokBad := rfl
@[simp] theorem State.modHost_tiles (f : HostIf → HostIf) : (s.modHost f).tiles = s.tiles := rfl
@[simp] theorem State.modHost_sp (f : HostIf → HostIf) : (s.modHost f).sp = s.sp := rfl
@[simp] theorem State.modHost_fab (f : HostIf → HostIf) : (s.modHost f).fab = s.fab := rfl
@[simp] theorem State.modHost_ddr (f : HostIf → HostIf) : (s.modHost f).ddr = s.ddr := rfl
@[simp] theorem State.modHost_huv (f : HostIf → HostIf) : (s.modHost f).huv = s.huv := rfl
@[simp] theorem State.modHost_stem (f : HostIf → HostIf) : (s.modHost f).stem = s.stem := rfl
@[simp] theorem State.modHost_cup (f : HostIf → HostIf) : (s.modHost f).cup = s.cup := rfl
@[simp] theorem State.modHost_stp (f : HostIf → HostIf) : (s.modHost f).stp = s.stp := rfl
@[simp] theorem State.modHost_cmp (f : HostIf → HostIf) : (s.modHost f).cmp = s.cmp := rfl
@[simp] theorem State.modHost_pwr (f : HostIf → HostIf) : (s.modHost f).pwr = s.pwr := rfl
@[simp] theorem State.modHost_store (f : HostIf → HostIf) : (s.modHost f).store = s.store := rfl
@[simp] theorem State.modHost_lan (f : HostIf → HostIf) : (s.modHost f).lan = s.lan := rfl
@[simp] theorem State.modHost_arbs (f : HostIf → HostIf) : (s.modHost f).arbs = s.arbs := rfl

/-! ### modBank -/

@[simp] theorem State.modBank_pending (b : Nat) (f : Bank → Bank) : (s.modBank b f).pending = s.pending := rfl
@[simp] theorem State.modBank_out (b : Nat) (f : Bank → Bank) : (s.modBank b f).out = s.out := rfl
@[simp] theorem State.modBank_clk (b : Nat) (f : Bank → Bank) : (s.modBank b f).clk = s.clk := rfl
@[simp] theorem State.modBank_module (b : Nat) (f : Bank → Bank) : (s.modBank b f).module = s.module := rfl
@[simp] theorem State.modBank_host (b : Nat) (f : Bank → Bank) : (s.modBank b f).host = s.host := rfl
@[simp] theorem State.modBank_parts (b : Nat) (f : Bank → Bank) : (s.modBank b f).parts = s.parts := rfl
@[simp] theorem State.modBank_engineMap (b : Nat) (f : Bank → Bank) : (s.modBank b f).engineMap = s.engineMap := rfl
@[simp] theorem State.modBank_tok (b : Nat) (f : Bank → Bank) : (s.modBank b f).tok = s.tok := rfl
@[simp] theorem State.modBank_tokBad (b : Nat) (f : Bank → Bank) : (s.modBank b f).tokBad = s.tokBad := rfl
@[simp] theorem State.modBank_tiles (b : Nat) (f : Bank → Bank) : (s.modBank b f).tiles = s.tiles := rfl
@[simp] theorem State.modBank_fab (b : Nat) (f : Bank → Bank) : (s.modBank b f).fab = s.fab := rfl
@[simp] theorem State.modBank_ddr (b : Nat) (f : Bank → Bank) : (s.modBank b f).ddr = s.ddr := rfl
@[simp] theorem State.modBank_huv (b : Nat) (f : Bank → Bank) : (s.modBank b f).huv = s.huv := rfl
@[simp] theorem State.modBank_stem (b : Nat) (f : Bank → Bank) : (s.modBank b f).stem = s.stem := rfl
@[simp] theorem State.modBank_cup (b : Nat) (f : Bank → Bank) : (s.modBank b f).cup = s.cup := rfl
@[simp] theorem State.modBank_stp (b : Nat) (f : Bank → Bank) : (s.modBank b f).stp = s.stp := rfl
@[simp] theorem State.modBank_cmp (b : Nat) (f : Bank → Bank) : (s.modBank b f).cmp = s.cmp := rfl
@[simp] theorem State.modBank_pwr (b : Nat) (f : Bank → Bank) : (s.modBank b f).pwr = s.pwr := rfl
@[simp] theorem State.modBank_store (b : Nat) (f : Bank → Bank) : (s.modBank b f).store = s.store := rfl
@[simp] theorem State.modBank_lan (b : Nat) (f : Bank → Bank) : (s.modBank b f).lan = s.lan := rfl
@[simp] theorem State.modBank_arbs (b : Nat) (f : Bank → Bank) : (s.modBank b f).arbs = s.arbs := rfl

/-! ### modPort -/

@[simp] theorem State.modPort_pending (h : Nat) (f : Port → Port) : (s.modPort h f).pending = s.pending := rfl
@[simp] theorem State.modPort_out (h : Nat) (f : Port → Port) : (s.modPort h f).out = s.out := rfl
@[simp] theorem State.modPort_clk (h : Nat) (f : Port → Port) : (s.modPort h f).clk = s.clk := rfl
@[simp] theorem State.modPort_module (h : Nat) (f : Port → Port) : (s.modPort h f).module = s.module := rfl
@[simp] theorem State.modPort_host (h : Nat) (f : Port → Port) : (s.modPort h f).host = s.host := rfl
@[simp] theorem State.modPort_parts (h : Nat) (f : Port → Port) : (s.modPort h f).parts = s.parts := rfl
@[simp] theorem State.modPort_engineMap (h : Nat) (f : Port → Port) : (s.modPort h f).engineMap = s.engineMap := rfl
@[simp] theorem State.modPort_tok (h : Nat) (f : Port → Port) : (s.modPort h f).tok = s.tok := rfl
@[simp] theorem State.modPort_tokBad (h : Nat) (f : Port → Port) : (s.modPort h f).tokBad = s.tokBad := rfl
@[simp] theorem State.modPort_tiles (h : Nat) (f : Port → Port) : (s.modPort h f).tiles = s.tiles := rfl
@[simp] theorem State.modPort_sp (h : Nat) (f : Port → Port) : (s.modPort h f).sp = s.sp := rfl
@[simp] theorem State.modPort_fab (h : Nat) (f : Port → Port) : (s.modPort h f).fab = s.fab := rfl
@[simp] theorem State.modPort_ddr (h : Nat) (f : Port → Port) : (s.modPort h f).ddr = s.ddr := rfl
@[simp] theorem State.modPort_stem (h : Nat) (f : Port → Port) : (s.modPort h f).stem = s.stem := rfl
@[simp] theorem State.modPort_cup (h : Nat) (f : Port → Port) : (s.modPort h f).cup = s.cup := rfl
@[simp] theorem State.modPort_stp (h : Nat) (f : Port → Port) : (s.modPort h f).stp = s.stp := rfl
@[simp] theorem State.modPort_cmp (h : Nat) (f : Port → Port) : (s.modPort h f).cmp = s.cmp := rfl
@[simp] theorem State.modPort_pwr (h : Nat) (f : Port → Port) : (s.modPort h f).pwr = s.pwr := rfl
@[simp] theorem State.modPort_store (h : Nat) (f : Port → Port) : (s.modPort h f).store = s.store := rfl
@[simp] theorem State.modPort_lan (h : Nat) (f : Port → Port) : (s.modPort h f).lan = s.lan := rfl
@[simp] theorem State.modPort_arbs (h : Nat) (f : Port → Port) : (s.modPort h f).arbs = s.arbs := rfl

/-! ### modSession -/

@[simp] theorem State.modSession_pending (h : Nat) (f : Session → Session) : (s.modSession h f).pending = s.pending := rfl
@[simp] theorem State.modSession_out (h : Nat) (f : Session → Session) : (s.modSession h f).out = s.out := rfl
@[simp] theorem State.modSession_clk (h : Nat) (f : Session → Session) : (s.modSession h f).clk = s.clk := rfl
@[simp] theorem State.modSession_module (h : Nat) (f : Session → Session) : (s.modSession h f).module = s.module := rfl
@[simp] theorem State.modSession_host (h : Nat) (f : Session → Session) : (s.modSession h f).host = s.host := rfl
@[simp] theorem State.modSession_parts (h : Nat) (f : Session → Session) : (s.modSession h f).parts = s.parts := rfl
@[simp] theorem State.modSession_engineMap (h : Nat) (f : Session → Session) : (s.modSession h f).engineMap = s.engineMap := rfl
@[simp] theorem State.modSession_tok (h : Nat) (f : Session → Session) : (s.modSession h f).tok = s.tok := rfl
@[simp] theorem State.modSession_tokBad (h : Nat) (f : Session → Session) : (s.modSession h f).tokBad = s.tokBad := rfl
@[simp] theorem State.modSession_tiles (h : Nat) (f : Session → Session) : (s.modSession h f).tiles = s.tiles := rfl
@[simp] theorem State.modSession_sp (h : Nat) (f : Session → Session) : (s.modSession h f).sp = s.sp := rfl
@[simp] theorem State.modSession_fab (h : Nat) (f : Session → Session) : (s.modSession h f).fab = s.fab := rfl
@[simp] theorem State.modSession_ddr (h : Nat) (f : Session → Session) : (s.modSession h f).ddr = s.ddr := rfl
@[simp] theorem State.modSession_stem (h : Nat) (f : Session → Session) : (s.modSession h f).stem = s.stem := rfl
@[simp] theorem State.modSession_cup (h : Nat) (f : Session → Session) : (s.modSession h f).cup = s.cup := rfl
@[simp] theorem State.modSession_stp (h : Nat) (f : Session → Session) : (s.modSession h f).stp = s.stp := rfl
@[simp] theorem State.modSession_cmp (h : Nat) (f : Session → Session) : (s.modSession h f).cmp = s.cmp := rfl
@[simp] theorem State.modSession_pwr (h : Nat) (f : Session → Session) : (s.modSession h f).pwr = s.pwr := rfl
@[simp] theorem State.modSession_store (h : Nat) (f : Session → Session) : (s.modSession h f).store = s.store := rfl
@[simp] theorem State.modSession_lan (h : Nat) (f : Session → Session) : (s.modSession h f).lan = s.lan := rfl
@[simp] theorem State.modSession_arbs (h : Nat) (f : Session → Session) : (s.modSession h f).arbs = s.arbs := rfl

/-! ### setAlert -/

@[simp] theorem State.setAlert_pending : (s.setAlert).pending = s.pending := by unfold State.setAlert; simp only []; split <;> rfl
@[simp] theorem State.setAlert_clk : (s.setAlert).clk = s.clk := by unfold State.setAlert; simp only []; split <;> rfl
@[simp] theorem State.setAlert_host : (s.setAlert).host = s.host := by unfold State.setAlert; simp only []; split <;> rfl
@[simp] theorem State.setAlert_parts : (s.setAlert).parts = s.parts := by unfold State.setAlert; simp only []; split <;> rfl
@[simp] theorem State.setAlert_engineMap : (s.setAlert).engineMap = s.engineMap := by unfold State.setAlert; simp only []; split <;> rfl
@[simp] theorem State.setAlert_tok : (s.setAlert).tok = s.tok := by unfold State.setAlert; simp only []; split <;> rfl
@[simp] theorem State.setAlert_tokBad : (s.setAlert).tokBad = s.tokBad := by unfold State.setAlert; simp only []; split <;> rfl
@[simp] theorem State.setAlert_tiles : (s.setAlert).tiles = s.tiles := by unfold State.setAlert; simp only []; split <;> rfl
@[simp] theorem State.setAlert_sp : (s.setAlert).sp = s.sp := by unfold State.setAlert; simp only []; split <;> rfl
@[simp] theorem State.setAlert_fab : (s.setAlert).fab = s.fab := by unfold State.setAlert; simp only []; split <;> rfl
@[simp] theorem State.setAlert_ddr : (s.setAlert).ddr = s.ddr := by unfold State.setAlert; simp only []; split <;> rfl
@[simp] theorem State.setAlert_huv : (s.setAlert).huv = s.huv := by unfold State.setAlert; simp only []; split <;> rfl
@[simp] theorem State.setAlert_stem : (s.setAlert).stem = s.stem := by unfold State.setAlert; simp only []; split <;> rfl
@[simp] theorem State.setAlert_cup : (s.setAlert).cup = s.cup := by unfold State.setAlert; simp only []; split <;> rfl
@[simp] theorem State.setAlert_stp : (s.setAlert).stp = s.stp := by unfold State.setAlert; simp only []; split <;> rfl
@[simp] theorem State.setAlert_cmp : (s.setAlert).cmp = s.cmp := by unfold State.setAlert; simp only []; split <;> rfl
@[simp] theorem State.setAlert_pwr : (s.setAlert).pwr = s.pwr := by unfold State.setAlert; simp only []; split <;> rfl
@[simp] theorem State.setAlert_store : (s.setAlert).store = s.store := by unfold State.setAlert; simp only []; split <;> rfl
@[simp] theorem State.setAlert_lan : (s.setAlert).lan = s.lan := by unfold State.setAlert; simp only []; split <;> rfl
@[simp] theorem State.setAlert_arbs : (s.setAlert).arbs = s.arbs := by unfold State.setAlert; simp only []; split <;> rfl

/-! ### seal -/

@[simp] theorem State.seal_pending : (s.seal).pending = s.pending := rfl
@[simp] theorem State.seal_out : (s.seal).out = s.out := rfl
@[simp] theorem State.seal_clk : (s.seal).clk = s.clk := rfl
@[simp] theorem State.seal_module : (s.seal).module = s.module := rfl
@[simp] theorem State.seal_host : (s.seal).host = s.host := rfl
@[simp] theorem State.seal_parts : (s.seal).parts = s.parts := rfl
@[simp] theorem State.seal_engineMap : (s.seal).engineMap = s.engineMap := rfl
@[simp] theorem State.seal_tok : (s.seal).tok = s.tok := rfl
@[simp] theorem State.seal_tokBad : (s.seal).tokBad = s.tokBad := rfl
@[simp] theorem State.seal_tiles : (s.seal).tiles = s.tiles := rfl
@[simp] theorem State.seal_sp : (s.seal).sp = s.sp := rfl
@[simp] theorem State.seal_fab : (s.seal).fab = s.fab := rfl
@[simp] theorem State.seal_ddr : (s.seal).ddr = s.ddr := rfl
@[simp] theorem State.seal_huv : (s.seal).huv = s.huv := rfl
@[simp] theorem State.seal_stem : (s.seal).stem = s.stem := rfl
@[simp] theorem State.seal_cup : (s.seal).cup = s.cup := rfl
@[simp] theorem State.seal_stp : (s.seal).stp = s.stp := rfl
@[simp] theorem State.seal_cmp : (s.seal).cmp = s.cmp := rfl
@[simp] theorem State.seal_pwr : (s.seal).pwr = s.pwr := rfl
@[simp] theorem State.seal_arbs : (s.seal).arbs = s.arbs := rfl

/-! ### modLan -/

@[simp] theorem State.modLan_pending (f : Lantern → Lantern) : (s.modLan f).pending = s.pending := rfl
@[simp] theorem State.modLan_out (f : Lantern → Lantern) : (s.modLan f).out = s.out := rfl
@[simp] theorem State.modLan_clk (f : Lantern → Lantern) : (s.modLan f).clk = s.clk := rfl
@[simp] theorem State.modLan_module (f : Lantern → Lantern) : (s.modLan f).module = s.module := rfl
@[simp] theorem State.modLan_host (f : Lantern → Lantern) : (s.modLan f).host = s.host := rfl
@[simp] theorem State.modLan_parts (f : Lantern → Lantern) : (s.modLan f).parts = s.parts := rfl
@[simp] theorem State.modLan_engineMap (f : Lantern → Lantern) : (s.modLan f).engineMap = s.engineMap := rfl
@[simp] theorem State.modLan_tok (f : Lantern → Lantern) : (s.modLan f).tok = s.tok := rfl
@[simp] theorem State.modLan_tokBad (f : Lantern → Lantern) : (s.modLan f).tokBad = s.tokBad := rfl
@[simp] theorem State.modLan_tiles (f : Lantern → Lantern) : (s.modLan f).tiles = s.tiles := rfl
@[simp] theorem State.modLan_sp (f : Lantern → Lantern) : (s.modLan f).sp = s.sp := rfl
@[simp] theorem State.modLan_fab (f : Lantern → Lantern) : (s.modLan f).fab = s.fab := rfl
@[simp] theorem State.modLan_ddr (f : Lantern → Lantern) : (s.modLan f).ddr = s.ddr := rfl
@[simp] theorem State.modLan_huv (f : Lantern → Lantern) : (s.modLan f).huv = s.huv := rfl
@[simp] theorem State.modLan_stem (f : Lantern → Lantern) : (s.modLan f).stem = s.stem := rfl
@[simp] theorem State.modLan_cup (f : Lantern → Lantern) : (s.modLan f).cup = s.cup := rfl
@[simp] theorem State.modLan_stp (f : Lantern → Lantern) : (s.modLan f).stp = s.stp := rfl
@[simp] theorem State.modLan_cmp (f : Lantern → Lantern) : (s.modLan f).cmp = s.cmp := rfl
@[simp] theorem State.modLan_pwr (f : Lantern → Lantern) : (s.modLan f).pwr = s.pwr := rfl
@[simp] theorem State.modLan_store (f : Lantern → Lantern) : (s.modLan f).store = s.store := rfl
@[simp] theorem State.modLan_arbs (f : Lantern → Lantern) : (s.modLan f).arbs = s.arbs := rfl

end Sys2Proof.Machine
end

