-- ==== Sys2Proof/Laws/Lane.lean ====
section
/-! SUPPORT. What the shared operations of the lanes do: reading back an updated lane, and a slot that acts. -/

namespace Sys2Proof

/-- A value other than the unlisted one is read back from any table. -/
theorem Map.get_set_of_ne {α : Type} [DecidableEq α] {d : α} (m : Map α) (k : Nat) {v : α} (h : v ≠ d) :
    Map.get d (Map.set d m k v) k = v := by
  simp [Map.set, h]

theorem Map.insert_ne_nil {α : Type} (m : Map α) (k : Nat) (v : α) : Map.insert m k v ≠ [] := by
  cases m with
  | nil => simp [Map.insert]
  | cons e m =>
    obtain ⟨k', v'⟩ := e
    simp only [Map.insert]
    split
    · simp
    · split <;> simp

theorem Map.set_ne_nil {α : Type} [DecidableEq α] {d : α} (m : Map α) (k : Nat) {v : α} (h : v ≠ d) :
    Map.set d m k v ≠ [] := by
  simp only [Map.set, h, if_false]
  exact Map.insert_ne_nil m k v

namespace Machine

/-- A lane update to anything but an idle, empty lane is read back. -/
theorem State.lane_setLane (s : State) (p l : Nat) {v : Lane} (h : v ≠ {}) : (s.setLane p l v).lane p l = v := by
  have hq : ({ s.part p with lanes := Map.set {} (s.part p).lanes l v } : Part) ≠ {} := by
    exact fun e => Map.set_ne_nil _ l h (congrArg Part.lanes e)
  have hp : (s.setLane p l v).part p = { s.part p with lanes := Map.set {} (s.part p).lanes l v } :=
    Map.get_set_of_ne s.parts p hq
  unfold State.lane
  rw [hp]
  exact Map.get_set_of_ne _ l h

theorem State.lane_modLane (s : State) (p l : Nat) (f : Lane → Lane) (h : f (s.lane p l) ≠ {}) :
    (s.modLane p l f).lane p l = f (s.lane p l) := State.lane_setLane s p l h

/-- A fetched lane is not the empty lane. -/
theorem Lane.ne_of_fetched {v : Lane} (h : v.iss.fetched = true) : v ≠ {} := by
  intro e
  rw [e] at h
  exact absurd h (by decide)

/-- An update that leaves a lane fetched is read back as fetched. -/
theorem State.fetched_modLane (s : State) (p l : Nat) (f : Lane → Lane) (h : (f (s.lane p l)).iss.fetched = true) :
    ((s.modLane p l f).lane p l).iss.fetched = true := by
  rw [State.lane_modLane _ _ _ _ (Lane.ne_of_fetched h)]
  exact h

/-- A satisfied wait is passed on the lane alone, which stays fetched. -/
theorem State.passWait_fetched {s : State} {i : Issue} (h : (s.lane i.part i.lane).iss.fetched = true) :
    ((s.passWait i).lane i.part i.lane).iss.fetched = true := by
  unfold State.passWait
  refine State.fetched_modLane _ _ _ _ ?_
  simp only []
  split <;> exact h

/-- A step that opens on a fetched lane leaves it fetched. -/
theorem State.openStep_fetched {s t : State} {i : Issue} (hf : (s.lane i.part i.lane).iss.fetched = true)
    (h : s.openStep i = .go t) : (t.lane i.part i.lane).iss.fetched = true := by
  unfold State.openStep at h
  split at h
  · cases h
  · cases h
    exact State.fetched_modLane _ _ _ _ hf

/-- What the step boundary lets through: the step opens, after its wait where it evaluates one. -/
theorem State.boundary_go {s t : State} {i : Issue} {e : Bool} (h : s.boundary i e = .go t) :
    s.openStep i = .go t ∨ (s.passWait i).openStep i = .go t := by
  unfold State.boundary at h
  split at h
  · cases h
  · split at h
    · split at h
      · cases h
      · split at h
        · exact .inr h
        · cases h
    · exact .inl h

/-- A slot whose gate is open stands in a fetched lane. -/
theorem State.gate_fetched {s t : State} {i : Issue} {slot : Nat} {e : Bool} (h : s.gate i slot e = .go t) :
    (t.lane i.part i.lane).iss.fetched = true := by
  unfold State.gate at h
  simp only at h
  split at h
  · cases h
  · split at h
    · cases h
    · rename_i hf
      have hf : (s.lane i.part i.lane).iss.fetched = true := by simpa using hf
      split at h
      · obtain h | h := State.boundary_go h
        · exact State.openStep_fetched hf h
        · exact State.openStep_fetched (State.passWait_fetched hf) h
      · cases h
        exact hf

/-- A slot that is not held acts, and its issue goes on. -/
theorem State.onSlot_go {s t : State} {i : Issue} {slot : Nat} {rs : List Nat} {busy : State → Bool} {f : State → State}
    {e : Bool} (h : s.gate i slot e = .go t) (hr : t.xHeld i rs = false) (hb : busy t = false)
    (hf : ((f t).lane i.part i.lane).iss.fetched = true) : s.onSlot i slot rs busy f e = (f t).slotDone i slot := by
  unfold State.onSlot
  rw [h]
  simp [hr, hb, hf]

/-- A slot whose register or memory is still awaited costs the lane a cycle. -/
theorem State.onSlot_held {s t : State} {i : Issue} {slot : Nat} {rs : List Nat} {busy : State → Bool} {f : State → State}
    {e : Bool} (h : s.gate i slot e = .go t) (hr : (t.xHeld i rs || busy t) = true) :
    s.onSlot i slot rs busy f e = t.countInterlock i.part i.lane := by
  unfold State.onSlot
  rw [h]
  simp [hr]

/-- A scalar write keeps the lane fetched. -/
theorem State.setX_fetched {t : State} {i : Issue} (r : Nat) (v : DWord) (h : (t.lane i.part i.lane).iss.fetched = true) :
    ((t.setX i r v).lane i.part i.lane).iss.fetched = true := State.fetched_modLane _ _ _ _ h

end Machine
end Sys2Proof
end

