-- ==== Sys2Proof/Laws/Shared.lean ====
section
/-! SUPPORT. What the shared operations can do, said once: the turn of a host command, its refusal, logging, notices,
measurement, outputs. -/

namespace Sys2Proof.Machine

/-! ### The turn of a host command -/

/-- The turn of a command that is at hand and passes the common checks is its own meaning. -/
theorem State.serve_at {s : State} {q op : Nat} {c : Cmd} {mine : Cmd → Bool} {f : State → Cmd → Done} (h : s.turn q = some c)
    (hr : c.ready = true) (hc : s.common q c.entry c.block = none) (ho : c.entry.opcode = op) (hm : mine c = true) :
    s.serve q op mine f = s.settle q c (f s c) := by
  simp [State.serve, h, ho, hr, hm, hc]

/-- All that a turn can do: nothing, a refusal by a common check, or the command's own meaning. -/
theorem State.serve_cases (s : State) (q op : Nat) (mine : Cmd → Bool) (f : State → Cmd → Done) :
    s.serve q op mine f = s ∨
    ∃ c, s.turn q = some c ∧ c.entry.opcode = op ∧ c.ready = true ∧ mine c = true ∧
      ((∃ code, s.common q c.entry c.block = some code ∧ s.serve q op mine f = s.refuse q c.no code) ∨
       (s.common q c.entry c.block = none ∧ s.serve q op mine f = s.settle q c (f s c))) := by
  unfold State.serve
  split
  · exact .inl rfl
  · rename_i c h
    split
    · exact .inl rfl
    · rename_i hm
      simp only [Bool.or_eq_true, not_or, bne_iff_ne, ne_eq, Bool.not_eq_true', Bool.not_eq_false, Decidable.not_not] at hm
      refine .inr ⟨c, h, hm.1.1, hm.1.2, hm.2, ?_⟩
      split
      · exact .inl ⟨_, ‹_›, rfl⟩
      · exact .inr ⟨‹_›, rfl⟩

/-! ### Operations that touch one corner of the state -/

/-- Logging touches Lantern alone. -/
theorem State.log_eq (s : State) (inst event part : Nat) (data : List Byte) (aux : Nat) :
    ∃ l, s.log inst event part data aux = { s with lan := l } := ⟨_, rfl⟩

/-- So does a corrected error's record. -/
theorem State.logCorrected_eq (s : State) (inst event part : Nat) (data : Nat → List Byte) :
    ∃ l, s.logCorrected inst event part data = { s with lan := l } := by
  unfold State.logCorrected
  simp only
  split
  · exact ⟨_, rfl⟩
  · exact ⟨_, rfl⟩

/-- So does a measurement. -/
theorem State.measure_eq (s : State) (i e : Nat) (d : List Byte) : ∃ l, s.measure i e d = { s with lan := l } := ⟨_, rfl⟩

/-- So does the acceptance of a command. -/
theorem State.accept_eq (s : State) (c : Cmd) : ∃ l, s.accept c = { s with lan := l } := by
  have fold : ∀ (is : List Nat) (e : Nat) (d : List Byte) (t : State) , ∃ l, is.foldl (fun u i => u.measure i e d) t = { t with lan := l } := by
    intro is e d
    induction is with
    | nil => exact fun t => ⟨t.lan, rfl⟩
    | cons i is ih =>
      intro t
      obtain ⟨l, h⟩ := State.measure_eq t i e d
      obtain ⟨l', h'⟩ := ih (t.measure i e d)
      rw [List.foldl_cons, h', h]
      exact ⟨l', rfl⟩
  exact fold _ _ _ _

/-- A notice touches the host interface and the outputs alone. -/
theorem State.notice_eq (s : State) (ty part : Nat) (data : List Byte) :
    ∃ h o, s.notice ty part data = { s with host := h, out := o } := by
  unfold State.notice
  simp only
  split
  · exact ⟨s.host, s.out, rfl⟩
  · split
    · exact ⟨_, s.out, rfl⟩
    · split
      · exact ⟨_, _, rfl⟩
      · exact ⟨_, _, rfl⟩

/-- The alert line touches the module's record and the outputs alone. -/
theorem State.setAlert_eq (s : State) : ∃ m o, s.setAlert = { s with module := m, out := o } := by
  unfold State.setAlert
  simp only
  split
  · exact ⟨s.module, s.out, rfl⟩
  · exact ⟨_, _, rfl⟩

/-- An output touches the outputs alone. -/
theorem State.emit_eq (s : State) (o : Output) : s.emit o = { s with out := s.out ++ [o] } := rfl

/-- A completion that is held touches its line of the reserved area alone. -/
theorem State.holdRecord_eq (s : State) (q no : Nat) : ∃ d, s.holdRecord q no = { s with ddr := d } := by
  unfold State.holdRecord State.recWrite
  split
  · split
    · exact ⟨s.ddr, rfl⟩
    · exact ⟨_, rfl⟩
  · exact ⟨s.ddr, rfl⟩

/-- A refusal touches one queue of the host interface, and where no session stands the record of its completion. -/
theorem State.refuse_eq (s : State) (q no code : Nat) : ∃ h d, s.refuse q no code = { s with host := h, ddr := d } := by
  unfold State.refuse State.finish
  obtain ⟨d, hd⟩ := State.holdRecord_eq
    (s.modCmd q no fun c => { c with phase := .done, status := stRefused, reason := code, result := 0, aux := 0, time := s.now }) q no
  exact ⟨_, d, hd⟩

end Sys2Proof.Machine
end

