-- ==== Sys2Proof/Laws/Memory.lean ====
section
/-! SUPPORT. Every operation that writes the addressed memories keeps their canonical form, and reset has it. -/

namespace Sys2Proof

/-- Moving a block of keys keeps the canonical form. -/
theorem Machine.wf_moveBlock {α : Type} [DecidableEq α] {d : α} {m : Map α} (w : Map.wf d m = true) (n src dst : Nat) :
    Map.wf d (moveBlock d m n src dst) = true := by
  have fold : ∀ (es : Map α) (t : Map α), Map.wf d t = true →
      Map.wf d (es.foldl (fun t e => Map.set d t (n * dst + e.1 % n) e.2) t) = true := by
    intro es
    induction es with
    | nil => exact fun _ h => h
    | cons e es ih => exact fun t h => ih _ (Map.wf_set h _ _)
  exact fold _ _ (Map.wf_eraseRange (Map.wf_eraseRange w _ _) _ _)

namespace Machine

theorem State.memWf_iff (s : State) : s.memWf = true ↔
    Map.wf 0 s.sp.mem = true ∧ Map.wf false s.sp.poison = true ∧ Map.wf none s.ddr.mem = true ∧ Map.wf false s.ddr.poison = true := by
  simp [State.memWf, Scratch.wf, Ddr.wf, and_assoc]

/-- The canonical form is a fact of four tables: two states that share them share it. -/
theorem State.memWf_of_eq {s t : State} (h1 : t.sp.mem = s.sp.mem) (h2 : t.sp.poison = s.sp.poison) (h3 : t.ddr.mem = s.ddr.mem)
    (h4 : t.ddr.poison = s.ddr.poison) (h : s.memWf = true) : t.memWf = true := by
  rw [State.memWf_iff] at h ⊢
  rw [h1, h2, h3, h4]
  exact h

theorem State.memWf_reset : State.reset.memWf = true := by
  rw [State.memWf_iff]
  exact ⟨rfl, rfl, rfl, rfl⟩

theorem State.memWf_log {s : State} (h : s.memWf = true) (inst event part : Nat) (data : List Byte) (aux : Nat) :
    (s.log inst event part data aux).memWf = true := State.memWf_of_eq rfl rfl rfl rfl h

theorem State.memWf_logCorrected {s : State} (h : s.memWf = true) (inst event part : Nat) (data : Nat → List Byte) :
    (s.logCorrected inst event part data).memWf = true := by
  obtain ⟨l, e⟩ := State.logCorrected_eq s inst event part data
  rw [e]
  exact State.memWf_of_eq rfl rfl rfl rfl h

theorem State.memWf_notice {s : State} (h : s.memWf = true) (ty part : Nat) (data : List Byte) :
    (s.notice ty part data).memWf = true := by
  obtain ⟨a, o, e⟩ := State.notice_eq s ty part data
  rw [e]
  exact State.memWf_of_eq rfl rfl rfl rfl h

theorem State.memWf_accept {s : State} (h : s.memWf = true) (c : Cmd) : (s.accept c).memWf = true := by
  obtain ⟨l, e⟩ := State.accept_eq s c
  rw [e]
  exact State.memWf_of_eq rfl rfl rfl rfl h

/-! ### The scratchpad -/

/-- A line is poisoned. -/
theorem State.memWf_spoil {s : State} (h : s.memWf = true) (ln : Nat) :
    ({ s with sp := { s.sp with poison := Map.set false s.sp.poison ln true } } : State).memWf = true := by
  rw [State.memWf_iff] at h ⊢
  exact ⟨h.1, Map.wf_set h.2.1 ln true, h.2.2⟩

theorem State.memWf_writeLine {s : State} (h : s.memWf = true) (ln o : Nat) (b : List Byte) (poison : Bool) :
    (s.writeLine ln o b poison).memWf = true := by
  unfold State.writeLine
  split
  · exact h
  · rw [State.memWf_iff] at h ⊢
    exact ⟨Map.wf_setList _ _ _ h.1, Map.wf_set h.2.1 _ _, h.2.2⟩

theorem State.memWf_writeBytesFuel (n : Nat) : ∀ {s : State}, s.memWf = true → ∀ (p addr : Nat) (b : List Byte) (poison : Bool),
    (State.writeBytesFuel n s p addr b poison).memWf = true := by
  induction n with
  | zero => exact fun h _ _ _ _ => h
  | succ n ih =>
    intro s h p addr b poison
    cases b with
    | nil => exact h
    | cons x b => exact ih (State.memWf_writeLine h _ _ _ _) _ _ _ _

theorem State.memWf_writeBytes {s : State} (h : s.memWf = true) (p addr : Nat) (b : List Byte) (poison : Bool) :
    (s.writeBytes p addr b poison).memWf = true := State.memWf_writeBytesFuel _ h _ _ _ _

theorem State.memWf_writeAt {s : State} (h : s.memWf = true) (p addr : Nat) (b : List Byte) (poison : Bool) :
    (s.writeAt p addr b poison).memWf = true := by
  unfold State.writeAt
  split
  · exact State.memWf_writeLine h _ _ _ _
  · exact h

theorem State.memWf_writeLines (l : List (List Byte × Bool)) : ∀ {s : State}, s.memWf = true → ∀ p addr : Nat,
    (s.writeLines p addr l).memWf = true := by
  induction l with
  | nil => exact fun h _ _ => h
  | cons e l ih => exact fun h p addr => ih (State.memWf_writeAt h p addr e.1 e.2) p (addr + 64)

theorem State.memWf_zeroBank {s : State} (h : s.memWf = true) (b : Nat) : (s.zeroBank b).memWf = true := by
  rw [State.memWf_iff] at h ⊢
  exact ⟨Map.wf_eraseRange h.1 _ _, Map.wf_eraseRange h.2.1 _ _, h.2.2⟩

theorem State.memWf_zeroBanks (bs : List Nat) : ∀ {s : State}, s.memWf = true → (s.zeroBanks bs).memWf = true := by
  induction bs with
  | nil => exact fun h => h
  | cons b bs ih => exact fun h => ih (State.memWf_zeroBank h b)

theorem State.memWf_modBank {s : State} (h : s.memWf = true) (b : Nat) (f : Bank → Bank) : (s.modBank b f).memWf = true :=
  State.memWf_of_eq rfl rfl rfl rfl h

theorem State.memWf_bankEcc {s : State} (h : s.memWf = true) (b line granule : Nat) (ecc : Ecc) :
    (s.bankEcc b line granule ecc).memWf = true := by
  cases ecc with
  | clean => exact h
  | corrected => exact State.memWf_logCorrected (State.memWf_modBank h _ _) _ _ _ _
  | uncorrectable =>
    apply State.memWf_log
    apply State.memWf_spoil
    exact State.memWf_modBank h _ _

/-! ### DDR5 -/

theorem State.memWf_ddrWrite {s : State} (h : s.memWf = true) (line : Nat) (b : List Byte) (poison : Bool) :
    (s.ddrWrite line b poison).memWf = true := by
  unfold State.ddrWrite
  split
  · exact h
  · rw [State.memWf_iff] at h ⊢
    exact ⟨h.1, h.2.1, Map.wf_setList _ _ _ h.2.2.1, Map.wf_set h.2.2.2 _ _⟩

theorem State.memWf_ddrEcc {s : State} (h : s.memWf = true) (line : Nat) (ecc : Ecc) : (s.ddrEcc line ecc).memWf = true := by
  cases ecc with
  | clean => exact h
  | corrected =>
    apply State.memWf_logCorrected
    exact State.memWf_of_eq rfl rfl rfl rfl h
  | uncorrectable =>
    apply State.memWf_log
    rw [State.memWf_iff] at h ⊢
    exact ⟨h.1, h.2.1, h.2.2.1, Map.wf_set h.2.2.2 line true⟩

theorem State.memWf_ddrForget {s : State} (h : s.memWf = true) (p : Nat) : (s.ddrForget p).memWf = true := by
  rw [State.memWf_iff] at h ⊢
  exact ⟨h.1, h.2.1, Map.wf_eraseRange h.2.2.1 _ _, Map.wf_eraseRange h.2.2.2 _ _⟩

theorem State.memWf_zeroPage {s : State} (h : s.memWf = true) (p page : Nat) : (s.zeroPage p page).memWf = true := by
  have hm := Map.wf_setList (List.replicate 8192 (some (0 : Byte))) _ (pageAddr p page)
    (Map.wf_eraseRange ((State.memWf_iff s).1 h).2.2.1 (pageAddr p page) (pageAddr p page + 8192))
  have hp := Map.wf_eraseRange ((State.memWf_iff s).1 h).2.2.2 (pageAddr p page / 64) ((pageAddr p page + 8192) / 64)
  unfold State.zeroPage
  generalize List.replicate 8192 (some (0 : Byte)) = z at hm ⊢
  rw [State.memWf_iff]
  exact ⟨((State.memWf_iff s).1 h).1, ((State.memWf_iff s).1 h).2.1, hm, hp⟩

/-! ### Resets -/

theorem State.memWf_wiped (s : State) : s.wiped.memWf = true := by
  rw [State.memWf_iff]
  exact ⟨rfl, rfl, rfl, rfl⟩

theorem State.memWf_stopModule (s : State) (st : ModState) (cause : StartCause) : (s.stopModule st cause).memWf = true :=
  State.memWf_wiped s.outputsOff

end Machine

end Sys2Proof
end

