-- ==== Sys2Proof/Tests/Slice0.lean ====
section
/-! SUPPORT. Tests: ill-formed commands are refused; every hypothesis of every statement is met by some concrete state and
operands; single steps give what the spec's text and examples give. -/

open Sys2Proof Sys2Proof.Machine

namespace Sys2Proof.Tests

set_option Elab.async false

/-! ### Small states -/

/-- A running module with a session and Q00. -/
def host0 : State :=
  { State.reset with
    module := { state := .running }
    host := { bar := { cpReady := true, adminUp := true, adminSize := 16 + 16 * 65536, noticeSize := 16 }
              queues := [(0, { live := true, sqSize := 16, cqSize := 16 })]
              session := some 1 } }

/-- A state, and a command waiting in Q00 with its argument block read. -/
structure Case where
  on : State := host0
  op : Nat
  inl : List Byte := []
  blk : List Byte := []
  dataLen : Nat := 0
  part : Nat := 0xFF
  table : Option (List Byte) := none

def Case.cmd (k : Case) : Cmd :=
  { no := 0
    entry := ⟨k.op, 0, 0, k.part, 0, if k.blk.isEmpty then 0 else 0x1000, k.blk.length, k.dataLen, if k.dataLen = 0 then 0 else 0x2000, k.inl⟩
    block := if k.blk.isEmpty then none else some k.blk
    table := k.table }

/-- The state with the command fetched. -/
def Case.st (k : Case) : State := k.on.setQueue 0 { k.on.queue 0 with fetched := 1, cmds := [k.cmd] }

/-- The command is at its turn and passes the common checks: what the statements on commands begin with. -/
abbrev Case.Ready (k : Case) (op : Nat) : Prop :=
  k.st.turn 0 = some k.cmd ∧ k.cmd.ready = true ∧ k.st.common 0 k.cmd.entry k.cmd.block = none ∧ k.cmd.entry.opcode = op

/-- Little-endian bytes. -/
abbrev le (n v : Nat) : List Byte := leBytes n v

theorem Case.ready {k : Case} {op : Nat}
    (h : ((k.on.queue 0).live && (k.on.queue 0).cont && k.on.cpUp && Map.wf {} k.on.host.queues &&
      (k.st.common 0 k.cmd.entry k.cmd.block).isNone && k.op == op) = true) : k.Ready op := by
  simp only [Bool.and_eq_true, beq_iff_eq, Option.isNone_iff_eq_none] at h
  obtain ⟨⟨⟨⟨⟨h1, h2⟩, h3⟩, h4⟩, h5⟩, h6⟩ := h
  refine ⟨?_, ?_, h5, h6⟩
  · have hq : k.st.queue 0 = { k.on.queue 0 with fetched := 1, cmds := [k.cmd] } := Map.get_set_self h4 _ _
    have hc : k.st.cpUp = true := h3
    simp [State.turn, hq, hc, h1, h2, Queue.free, State.fenceOpen, Case.cmd]
  · simp only [Cmd.ready, Case.cmd]
    cases hb : k.blk <;> simp

/-! ### Witnesses: session commands (SessionCommands) -/

/-- Queue 3 as well. -/
def host3 (x : Queue) : State := host0.setQueue 3 { x with live := true, sqSize := 4, cqSize := 4 }

theorem wit_deviceIdentify : ∃ k : Case, k.Ready 0x0101 :=
  ⟨{ op := 0x0101, dataLen := 64 }, Case.ready (by decide +kernel)⟩

theorem wit_sessionOpen_busy : ∃ k : Case, k.Ready 0x0102 ∧ k.st.host.session.isSome = true :=
  ⟨{ op := 0x0102 }, Case.ready (by decide +kernel), by decide +kernel⟩

theorem wit_sessionOpen : ∃ k : Case, k.Ready 0x0102 ∧ k.st.host.session = none ∧ k.st.host.detached = none :=
  ⟨{ op := 0x0102, on := { host0 with host.session := none } }, Case.ready (by decide +kernel), by decide +kernel⟩

theorem wit_sessionResume : ∃ k : Case, k.Ready 0x0103 ∧ k.st.host.session = none ∧ k.st.host.detached = some (u64 k.inl 0) :=
  ⟨{ op := 0x0103, inl := le 8 7, blk := zeros 1008, on := { host0 with host.session := none, host.detached := some 7 } }, Case.ready (by decide +kernel), by decide +kernel⟩

theorem wit_queueCreate : ∃ k : Case, k.Ready 0x0104 ∧ 1 ≤ u8 k.blk 0 ∧ u8 k.blk 0 ≤ 63 ∧ u8 k.blk 1 ≤ 1 ∧ u8 k.blk 2 ≤ 63 ∧ u8 k.blk 3 = 0 ∧ allZero k.blk 0x18 8 = true ∧
    2 ≤ u16 k.blk 4 ∧ u16 k.blk 4 ≤ 4096 ∧ 2 ≤ u16 k.blk 6 ∧ u16 k.blk 6 ≤ 4096 ∧ u64 k.blk 8 % 4096 = 0 ∧ u64 k.blk 0x10 % 4096 = 0 ∧
    (k.st.queue (u8 k.blk 0)).live = false :=
  ⟨{ op := 0x0104, blk := [63, 1, 63, 0] ++ le 2 2 ++ le 2 4096 ++ le 8 4096 ++ le 8 8192 ++ zeros 8 }, Case.ready (by decide +kernel), by decide +kernel⟩

theorem wit_queueCreate_busy : ∃ k : Case, k.Ready 0x0104 ∧ 1 ≤ u8 k.blk 0 ∧ u8 k.blk 0 ≤ 63 ∧ u8 k.blk 1 ≤ 1 ∧ u8 k.blk 2 ≤ 63 ∧ u8 k.blk 3 = 0 ∧ allZero k.blk 0x18 8 = true ∧
    2 ≤ u16 k.blk 4 ∧ u16 k.blk 4 ≤ 4096 ∧ 2 ≤ u16 k.blk 6 ∧ u16 k.blk 6 ≤ 4096 ∧ u64 k.blk 8 % 4096 = 0 ∧ u64 k.blk 0x10 % 4096 = 0 ∧
    (k.st.queue (u8 k.blk 0)).live = true :=
  ⟨{ op := 0x0104, blk := [3, 1, 63, 0] ++ le 2 2 ++ le 2 4096 ++ le 8 4096 ++ le 8 8192 ++ zeros 8, on := host3 {} }, Case.ready (by decide +kernel), by decide +kernel⟩

theorem wit_queueDestroy : ∃ k : Case, k.Ready 0x0105 ∧ u8 k.inl 0 ≠ 0 ∧ (k.st.queue (u8 k.inl 0)).live = true ∧ (k.st.queue (u8 k.inl 0)).cmds = [] ∧
    k.st.boundByEnabled (u8 k.inl 0) = false :=
  ⟨{ op := 0x0105, inl := [3], on := host3 {} }, Case.ready (by decide +kernel), by decide +kernel⟩

theorem wit_queueRestart : ∃ k : Case, k.Ready 0x0106 ∧ u8 k.inl 0 ≠ 0 ∧ (k.st.queue (u8 k.inl 0)).live = true ∧ (k.st.queue (u8 k.inl 0)).stopped = true :=
  ⟨{ op := 0x0106, inl := [3], on := host3 { stopped := true } }, Case.ready (by decide +kernel), by decide +kernel⟩

theorem wit_queueFence : ∃ k : Case, k.Ready 0x0107 ∧ (k.st.queue (u8 k.inl 0)).live = true :=
  ⟨{ op := 0x0107, inl := [3], on := host3 {} }, Case.ready (by decide +kernel), by decide +kernel⟩

theorem wit_deviceArbiterConfigure : ∃ k : Case, k.Ready 0x0108 ∧ arbWordBad (u8 k.inl 0) (u32 k.inl 4) = false ∧ u16 k.inl 2 < arbInstances (u8 k.inl 0) ∧ u16 k.inl 2 ≠ 0xFFFF :=
  ⟨{ op := 0x0108, inl := [0, 0] ++ le 2 67 ++ le 4 (64 + 2 * 65536 + 2 * 2 ^ 18 + 2 * 2 ^ 20 + 2 ^ 22) }, Case.ready (by decide +kernel), by decide +kernel⟩

theorem wit_sessionOpen_kept : ∃ k : Case, k.Ready 0x0102 ∧ k.st.host.session = none ∧ k.st.host.detached.isSome = true ∧ u8 k.inl 0 ≠ 1 :=
  ⟨{ op := 0x0102, inl := [0], on := { host0 with host.session := none, host.detached := some 7 } }, Case.ready (by decide +kernel), by decide +kernel⟩

theorem wit_sessionOpen_discard : ∃ k : Case, k.Ready 0x0102 ∧ k.st.host.session = none ∧ k.st.host.detached.isSome = true ∧ u8 k.inl 0 = 1 :=
  ⟨{ op := 0x0102, inl := [1], on := { host0 with host.session := none, host.detached := some 7 } }, Case.ready (by decide +kernel), by decide +kernel⟩

theorem wit_deviceArbiterConfigure_all : ∃ k : Case, k.Ready 0x0108 ∧ arbWordBad (u8 k.inl 0) (u32 k.inl 4) = false ∧ u16 k.inl 2 = 0xFFFF :=
  ⟨{ op := 0x0108, inl := [0, 0] ++ le 2 0xFFFF ++ le 4 (64 + 2 * 65536 + 2 * 2 ^ 18 + 2 * 2 ^ 20 + 2 ^ 22) }, Case.ready (by decide +kernel), by decide +kernel⟩

/-! ### Witnesses: partition commands (PartitionCommands) -/

/-- Partition 0 as given. -/
def part0 (x : Part) : State := host0.setPart 0 x

theorem wit_partitionConfigure : ∃ k : Case, k.Ready 0x0201 ∧ partBad k.blk = false ∧ (partRecord k.blk).zeroQuota = false ∧ (k.st.part (u8 k.blk 0)).state ≠ .enabled :=
  ⟨{ op := 0x0201, blk := [15, 0, 0, 0] ++ le 4 50 ++ le 8 0 ++ le 4 100 ++ le 4 0 ++ le 4 0 ++ le 4 1 ++ le 2 0 ++ le 2 0 ++ zeros 92 }, Case.ready (by decide +kernel), by decide +kernel⟩

theorem wit_partitionConfigure_busy : ∃ k : Case, k.Ready 0x0201 ∧ partBad k.blk = false ∧ (partRecord k.blk).zeroQuota = false ∧ (k.st.part (u8 k.blk 0)).state = .enabled :=
  ⟨{ op := 0x0201, blk := [0, 0, 0, 0] ++ le 4 50 ++ le 8 0 ++ le 4 100 ++ le 4 0 ++ le 4 0 ++ le 4 1 ++ le 2 0 ++ le 2 0 ++ zeros 92, on := part0 { state := .enabled } }, Case.ready (by decide +kernel), by decide +kernel⟩

theorem wit_partitionEnable : ∃ k : Case, k.Ready 0x0202 ∧ k.st.enableCheck (k.st.bindSpares (u8 k.inl 0)) (u8 k.inl 0) = none :=
  ⟨{ op := 0x0202, inl := [0], on := part0 { state := .disabled } }, Case.ready (by decide +kernel), by decide +kernel⟩

theorem wit_partitionEnable_refused : ∃ k : Case, k.Ready 0x0202 ∧ (k.st.enableCheck (k.st.bindSpares (u8 k.inl 0)) (u8 k.inl 0)).isSome = true :=
  ⟨{ op := 0x0202, inl := [1] }, Case.ready (by decide +kernel), by decide +kernel⟩

theorem wit_partitionDisable : ∃ k : Case, k.Ready 0x0203 ∧ (k.st.part (u8 k.inl 0)).state = .enabled ∧ (k.st.part (u8 k.inl 0)).holdsJob = false :=
  ⟨{ op := 0x0203, inl := [0], on := part0 { state := .enabled } }, Case.ready (by decide +kernel), by decide +kernel⟩

theorem wit_partitionDisable_busy : ∃ k : Case, k.Ready 0x0203 ∧ (k.st.part (u8 k.inl 0)).state = .enabled ∧ (k.st.part (u8 k.inl 0)).holdsJob = true :=
  ⟨{ op := 0x0203, inl := [0], on := part0 { state := .enabled, ctxs := [(0, { state := .ready, job := some { cmd := none, prio := 0 } })] } }, Case.ready (by decide +kernel), by decide +kernel⟩

theorem wit_partitionDisable_empty : ∃ k : Case, k.Ready 0x0203 ∧ (k.st.part (u8 k.inl 0)).state = .disabled :=
  ⟨{ op := 0x0203, inl := [0], on := part0 { state := .disabled } }, Case.ready (by decide +kernel), by decide +kernel⟩

theorem wit_partitionReset : ∃ k : Case, k.Ready 0x0204 :=
  ⟨{ op := 0x0204, inl := [0], on := part0 { state := .disabled } }, Case.ready (by decide +kernel)⟩

theorem wit_partitionPolicySet : ∃ k : Case, k.Ready 0x0205 ∧ u8 k.inl 1 % 4 ≠ 3 :=
  ⟨{ op := 0x0205, inl := [0, 0xF4], on := part0 { state := .disabled } }, Case.ready (by decide +kernel), by decide +kernel⟩

theorem wit_partitionPolicySet_bad : ∃ k : Case, k.Ready 0x0205 ∧ u8 k.inl 1 % 4 = 3 :=
  ⟨{ op := 0x0205, inl := [0, 3], on := part0 { state := .disabled } }, Case.ready (by decide +kernel), by decide +kernel⟩

theorem wit_partitionDst : ∃ k : Case, k.Ready 0x0206 :=
  ⟨{ op := 0x0206, inl := [0], dataLen := 4096, on := part0 { state := .enabled } }, Case.ready (by decide +kernel)⟩

/-! ### Witnesses: program, model and job commands (ProgramJobCommands) -/

/-- Partition 0 enabled, with context 0 as given. -/
def ctx0 (x : Ctx) : State := part0 { state := .enabled, ctxs := [(0, x)] }
/-- Partition 0 with one staged model, of MODEL_ID 1. -/
def model0 : State := part0 { state := .enabled, models := { staged := [(0, { used := true, id := le 16 1, ready := true })] } }
/-- A job of partition 0, context 0, without a length table. -/
def jobBlock : List Byte := zeros 64

theorem wit_programUnload : ∃ k : Case, k.Ready 0x0302 ∧ (k.st.ctx (u8 k.inl 0) (u8 k.inl 1)).image.isSome = true ∧ (k.st.ctx (u8 k.inl 0) (u8 k.inl 1)).holdsJob = false :=
  ⟨{ op := 0x0302, inl := [0, 0], on := ctx0 { state := .loaded, image := some {} } }, Case.ready (by decide +kernel), by decide +kernel⟩

theorem wit_modelUnstage : ∃ k : Case, k.Ready 0x0402 ∧ (k.st.part (u8 k.inl 0)).models.find (slice k.inl 16 16) = some 0 ∧ (k.st.part (u8 k.inl 0)).modelBusy 0 = false :=
  ⟨{ op := 0x0402, inl := zeros 16 ++ le 16 1, on := model0 }, Case.ready (by decide +kernel), by decide +kernel⟩

theorem wit_modelEvict : ∃ k : Case, k.Ready 0x0403 ∧ (slice k.inl 16 16).all (· == 0xFF) = false ∧ (k.st.part (u8 k.inl 0)).models.find (slice k.inl 16 16) = some 0 :=
  ⟨{ op := 0x0403, inl := zeros 16 ++ le 16 1, on := model0 }, Case.ready (by decide +kernel), by decide +kernel⟩

theorem wit_modelList : ∃ k : Case, k.Ready 0x0404 :=
  ⟨{ op := 0x0404, inl := [0], dataLen := 2048, on := model0 }, Case.ready (by decide +kernel)⟩

theorem wit_jobSubmit_noImage : ∃ k : Case, k.Ready 0x0501 ∧ (k.st.ctx (u8 k.blk 0) (u8 k.blk 1)).refuse = 0 ∧ (k.st.ctx (u8 k.blk 0) (u8 k.blk 1)).image = none :=
  ⟨{ op := 0x0501, blk := jobBlock, on := ctx0 {} }, Case.ready (by decide +kernel), by decide +kernel⟩

theorem wit_jobSubmit : ∃ k : Case, k.Ready 0x0501 ∧ (k.st.ctx (u8 k.blk 0) (u8 k.blk 1)).refuse = 0 ∧ (k.st.ctx (u8 k.blk 0) (u8 k.blk 1)).image = some {} ∧ u64 k.blk 8 = 0 ∧
    k.st.submitCheck (u8 k.blk 0) {} k.blk [] = none :=
  ⟨{ op := 0x0501, blk := jobBlock, on := ctx0 { state := .loaded, image := some {} } }, Case.ready (by decide +kernel), by decide +kernel⟩

theorem wit_jobPreempt : ∃ k : Case, k.Ready 0x0502 ∧ (k.st.part (u8 k.inl 0)).cfg.reserved = false ∧ (k.st.ctx (u8 k.inl 0) (u8 k.inl 1)).resident = true :=
  ⟨{ op := 0x0502, inl := [0, 0], on := ctx0 { state := .running, image := some {}, job := some { cmd := none, prio := 0 } } }, Case.ready (by decide +kernel), by decide +kernel⟩

theorem wit_jobAbort : ∃ k : Case, k.Ready 0x0503 ∧ (k.st.ctx (u8 k.inl 0) (u8 k.inl 1)).job.isSome = true :=
  ⟨{ op := 0x0503, inl := [0, 0], on := ctx0 { state := .ready, image := some {}, job := some { cmd := none, prio := 0 } } }, Case.ready (by decide +kernel), by decide +kernel⟩

theorem wit_programLoad_media : ∃ k : Case, k.Ready 0x0301 ∧ (k.st.ctx (u8 k.inl 0) (u8 k.inl 1)).image = none ∧
    k.st.slotCheck (u16 k.inl 2) 0 (u8 k.inl 0) = none ∧ k.st.mediaBad (u16 k.inl 2) = true :=
  ⟨{ op := 0x0301, inl := [0, 0, 5, 0], on := { ctx0 {} with store := { slots := [(5, { state := 2 })], mediaBad := [5] } } },
    Case.ready (by decide +kernel), by decide +kernel⟩

theorem wit_jobSubmit_range : ∃ k : Case, k.Ready 0x0501 ∧ (k.st.ctx (u8 k.blk 0) (u8 k.blk 1)).refuse = 0 ∧ (k.st.ctx (u8 k.blk 0) (u8 k.blk 1)).image = some {} ∧ u64 k.blk 8 = 0 ∧
    (k.st.submitCheck (u8 k.blk 0) {} k.blk []).isSome = true :=
  ⟨{ op := 0x0501, blk := zeros 0x20 ++ le 2 1 ++ zeros 38, on := ctx0 { state := .loaded, image := some {} } }, Case.ready (by decide +kernel), by decide +kernel⟩

/-- A loaded context beside a region for the copy of the length table. -/
def tabled0 : State := part0 { state := .enabled, ctxs := [(0, { state := .loaded, image := some {} })], regions := [(0, { defined := true, mode := 1, banks := [8] })] }

theorem wit_jobSubmit_table : ∀ n ∈ [0, 1], ∃ k : Case, k.Ready 0x0501 ∧ (k.st.ctx (u8 k.blk 0) (u8 k.blk 1)).refuse = 0 ∧ (k.st.ctx (u8 k.blk 0) (u8 k.blk 1)).image = some {} ∧
    u64 k.blk 8 ≠ 0 ∧ k.cmd.table.isSome = true ∧ k.st.submitCheck (u8 k.blk 0) {} k.blk (k.cmd.table.getD []) = none ∧ u32 (k.cmd.table.getD []) 0 = n := by
  intro n hn
  have h : n = 0 ∨ n = 1 := by simpa using hn
  rcases h with rfl | rfl
  · exact ⟨{ op := 0x0501, blk := zeros 8 ++ le 8 4096 ++ le 8 64 ++ zeros 40, table := some (zeros 16), on := tabled0 },
      Case.ready (by decide +kernel), by decide +kernel⟩
  · exact ⟨{ op := 0x0501, blk := zeros 8 ++ le 8 4096 ++ le 8 64 ++ zeros 40, table := some (le 4 1 ++ zeros 12 ++ le 4 20 ++ le 4 4 ++ zeros 8), on := tabled0 },
      Case.ready (by decide +kernel), by decide +kernel⟩

/-! ### Witnesses: region, memory, window and fabric commands (MemoryFabricCommands) -/

/-- Partition 0 with two regions of one bank, near and spread. -/
def region0 (st : PState) : State := part0 { state := st, cfg := { tiers := 0x21, windowBudget := 4, yieldLimit := 1, scratchBytes := 2 ^ 20, hostSwapBytes := 2 ^ 21 }, regions :=
  [(0, { defined := true, mode := 0, nearWidth := 1, banks := [0] }), (1, { defined := true, mode := 1, banks := [8] })] }
/-- A region descriptor of near mode, width 1, with bank 16 for region 2. -/
def defineBlock : List Byte := [0, 2, 0, 1] ++ zeros 4 ++ le 2 1 ++ zeros 6 ++ [0, 0, 1] ++ zeros 77
/-- A window descriptor over the first line of region 0, for the shared counters. -/
def openBlock : List Byte := [0, 0, 0, 3] ++ zeros 12 ++ le 8 64 ++ [0xFF, 0] ++ le 2 256 ++ zeros 4

theorem wit_regionDefine : ∃ k : Case, k.Ready 0x0601 ∧ k.st.defineCheck k.blk = none :=
  ⟨{ op := 0x0601, blk := defineBlock, on := region0 .disabled }, Case.ready (by decide +kernel), by decide +kernel⟩

theorem wit_regionDefine_busy : ∃ k : Case, k.Ready 0x0601 ∧ (k.st.defineCheck k.blk).isSome = true :=
  ⟨{ op := 0x0601, blk := defineBlock, on := region0 .enabled }, Case.ready (by decide +kernel), by decide +kernel⟩

theorem wit_regionRelease : ∃ k : Case, k.Ready 0x0602 ∧ ((k.st.part (u8 k.inl 0)).region (u8 k.inl 1)).defined = true ∧ (k.st.part (u8 k.inl 0)).state ≠ .enabled :=
  ⟨{ op := 0x0602, inl := [0, 1], on := region0 .disabled }, Case.ready (by decide +kernel), by decide +kernel⟩

theorem wit_regionReseed : ∃ k : Case, k.Ready 0x0603 ∧ ((k.st.part (u8 k.inl 0)).region (u8 k.inl 1)).defined = true ∧ ((k.st.part (u8 k.inl 0)).region (u8 k.inl 1)).mode ≠ 0 ∧ (k.st.part (u8 k.inl 0)).running = none ∧ (∀ e ∈ (k.st.part (u8 k.inl 0)).ctxs, e.2.liveIn (u8 k.inl 1) = false) :=
  ⟨{ op := 0x0603, inl := [0, 1, 0, 0] ++ le 4 0xFFFFFFFF, on := region0 .enabled }, Case.ready (by decide +kernel), by decide +kernel⟩

theorem wit_memFill : ∃ k : Case, k.Ready 0x0604 ∧ ((k.st.part (u8 k.inl 0)).region (u8 k.inl 1)).defined = true ∧ ((k.st.part (u8 k.inl 0)).region (u8 k.inl 1)).lines (u32 k.inl 4) (u32 k.inl 8) = true ∧ (k.st.part (u8 k.inl 0)).running = none ∧ u32 k.inl 8 ≠ 0 :=
  ⟨{ op := 0x0604, inl := [0, 0, 0, 0] ++ le 4 0x7FFC0 ++ le 4 64 ++ le 4 0xFFFFFFFF, on := region0 .enabled }, Case.ready (by decide +kernel), by decide +kernel⟩

theorem wit_memCopy : ∃ k : Case, k.Ready 0x0605 ∧ ((k.st.part (u8 k.inl 0)).region (u8 k.inl 1)).defined = true ∧ ((k.st.part (u8 k.inl 0)).region (u8 k.inl 2)).defined = true ∧ ((k.st.part (u8 k.inl 0)).region (u8 k.inl 1)).lines (u32 k.inl 4) (u32 k.inl 12) = true ∧
    ((k.st.part (u8 k.inl 0)).region (u8 k.inl 2)).lines (u32 k.inl 8) (u32 k.inl 12) = true ∧ u8 k.inl 1 ≠ u8 k.inl 2 ∧ (k.st.part (u8 k.inl 0)).running = none ∧ u32 k.inl 12 ≠ 0 :=
  ⟨{ op := 0x0605, inl := [0, 0, 1, 0] ++ le 4 0x7FFC0 ++ le 4 0 ++ le 4 64, on := region0 .enabled }, Case.ready (by decide +kernel), by decide +kernel⟩

theorem wit_memBankStats : ∃ k : Case, k.Ready 0x0606 :=
  ⟨{ op := 0x0606, inl := le 2 543, dataLen := 32 }, Case.ready (by decide +kernel)⟩

theorem wit_memDdr5Stats : ∃ k : Case, k.Ready 0x0607 :=
  ⟨{ op := 0x0607, inl := [7], dataLen := 128 }, Case.ready (by decide +kernel)⟩

theorem wit_memCacheStats : ∃ k : Case, k.Ready 0x0608 :=
  ⟨{ op := 0x0608, inl := [0], dataLen := 40, on := model0 }, Case.ready (by decide +kernel)⟩

theorem wit_memHostRegister : ∃ k : Case, k.Ready 0x0609 ∧ u64 k.inl 16 ≠ 0 ∧ u64 k.inl 8 % 8192 = 0 ∧ u64 k.inl 16 % 8192 = 0 ∧ k.st.hostOverlap (u64 k.inl 8) (u64 k.inl 16) = false ∧
    u64 k.inl 16 ≤ (k.st.part (u8 k.inl 0)).cfg.quota 5 (k.st.part (u8 k.inl 0)).cfg.hostSwapBytes ∧ k.st.hostUnits (u8 k.inl 0) + u64 k.inl 16 / 8192 ≤ 2 ^ 25 ∧ (k.st.part (u8 k.inl 0)).host.units = [] :=
  ⟨{ op := 0x0609, inl := zeros 8 ++ le 8 (2 ^ 40) ++ le 8 (2 ^ 21), on := region0 .disabled }, Case.ready (by decide +kernel), by decide +kernel⟩

theorem wit_windowOpen : ∃ k : Case, k.Ready 0x060A ∧ k.st.openCheck k.blk = none ∧ k.st.freeWindow = some 0 :=
  ⟨{ op := 0x060A, blk := openBlock, on := region0 .enabled }, Case.ready (by decide +kernel), by decide +kernel⟩

theorem wit_windowOpen_refused : ∃ k : Case, k.Ready 0x060A ∧ (k.st.openCheck k.blk).isSome = true :=
  ⟨{ op := 0x060A, blk := [0, 0, 1, 8] ++ openBlock.drop 4, on := region0 .enabled }, Case.ready (by decide +kernel), by decide +kernel⟩

theorem wit_windowClose_stale : ∃ k : Case, k.Ready 0x060B ∧ k.st.handleOpen (BitVec.ofNat 64 (u64 k.inl 0)) = false :=
  ⟨{ op := 0x060B }, Case.ready (by decide +kernel), by decide +kernel⟩

theorem wit_windowClose : ∃ k : Case, k.Ready 0x060B ∧ k.st.handleOpen (BitVec.ofNat 64 (u64 k.inl 0)) = true :=
  ⟨{ op := 0x060B, inl := le 8 (0xFFFF + 5 * 65536 + 2 * 2 ^ 28), on := host0.setWin 5 { isOpen := true, gen := 2 } }, Case.ready (by decide +kernel), by decide +kernel⟩

theorem wit_fabricSetId : ∃ k : Case, k.Ready 0x060C ∧ u16 k.inl 0 ≠ 0xFFFF ∧ ∀ h, h < 4 → (k.st.port h).state = .down :=
  ⟨{ op := 0x060C, inl := le 2 0xFFFE }, Case.ready (by decide +kernel), by decide +kernel⟩

theorem wit_fabricRoute : ∃ k : Case, k.Ready 0x060D ∧ routeList k.blk ≠ [] ∧ ∀ e ∈ routeList k.blk, routeBad e = false :=
  ⟨{ op := 0x060D, blk := [1, 0, 2, 0, 7, 15, 0xFE, 0xFF] }, Case.ready (by decide +kernel), by decide +kernel⟩

theorem wit_fabricRoute_bad : ∃ k : Case, k.Ready 0x060D ∧ routeList k.blk ≠ [] ∧ ∃ e ∈ routeList k.blk, routeBad e = true :=
  ⟨{ op := 0x060D, blk := [1, 0, 2, 0, 7, 16, 0xFE, 0xFF] }, Case.ready (by decide +kernel), by decide +kernel⟩

theorem wit_fabricRetrain : ∃ k : Case, k.Ready 0x060E ∧ (k.st.port (u8 k.inl 0)).state = .up :=
  ⟨{ op := 0x060E, inl := [3], on := host0.setPort 3 { state := .up } }, Case.ready (by decide +kernel), by decide +kernel⟩

theorem wit_fabricPortStats : ∃ k : Case, k.Ready 0x060F :=
  ⟨{ op := 0x060F, inl := [3], dataLen := 64 }, Case.ready (by decide +kernel)⟩

theorem wit_windowClose_bound : ∃ k : Case, k.Ready 0x060B ∧ k.st.handleOpen (BitVec.ofNat 64 (u64 k.inl 0)) = true ∧ k.st.freeWindow.isSome = true :=
  ⟨{ op := 0x060B, inl := le 8 (0xFFFF + 4095 * 65536 + 2 * 2 ^ 28), on := host0.setWin 4095 { isOpen := true, gen := 2 } }, Case.ready (by decide +kernel), by decide +kernel⟩

theorem wit_fabricSetId_none : ∃ k : Case, k.Ready 0x060C ∧ u16 k.inl 0 = 0xFFFF :=
  ⟨{ op := 0x060C, inl := le 2 0xFFFF }, Case.ready (by decide +kernel), by decide +kernel⟩

theorem wit_fabricSetId_up : ∃ k : Case, k.Ready 0x060C ∧ ∃ h, h < 4 ∧ (k.st.port h).isUp = true :=
  ⟨{ op := 0x060C, inl := le 2 1, on := host0.setPort 3 { state := .up } }, Case.ready (by decide +kernel), 3, by decide +kernel⟩

theorem wit_fabricSetId_attesting : ∃ k : Case, k.Ready 0x060C ∧ u16 k.inl 0 ≠ 0xFFFF ∧ ∀ h, h < 4 → (k.st.port h).isUp = false :=
  ⟨{ op := 0x060C, inl := le 2 1, on := host0.setPort 3 { state := .attesting, session := { step := .bringup } } }, Case.ready (by decide +kernel), by decide +kernel⟩

theorem wit_fabricRetrain_down : ∃ k : Case, k.Ready 0x060E ∧ (k.st.port (u8 k.inl 0)).state ≠ .up ∧ (k.st.port (u8 k.inl 0)).state ≠ .retraining :=
  ⟨{ op := 0x060E, inl := [3] }, Case.ready (by decide +kernel), by decide +kernel⟩

/-! ### Witnesses: KV commands (KvCommands) -/

/-- Partition 0 with a KV pool of one layer and head, three sequence slots and one staged model. -/
def kv0 (seqs : Map Seq) (domains : List Nat) : State := part0 {
  state := .enabled, cfg := { tiers := 0x3F, kvPages := 16, ddr5Bytes := 2 ^ 26, hostSwapBytes := 2 ^ 21 }
  models := { staged := [(0, { used := true, id := le 16 1, ready := true })] }
  host := { base := 2 ^ 40, bytes := 2 ^ 21 }
  kv := { pool := { configured := true, layers := 1, heads := 1, maxSeq := 3, swapUnits := 1 }, segs := 1, seqs := seqs, domains := domains } }
def openSeq0 : Seq := { isOpen := true, model := le 16 1, ids := List.range 20, length := 20 }

theorem wit_kvPoolConfigure : ∃ k : Case, k.Ready 0x0610 ∧ poolBad k.blk = false ∧ (∀ e ∈ (k.st.part (u8 k.blk 0)).kv.seqs, e.2.isOpen = false) ∧ u16 k.blk 2 ≠ 0 ∧ u16 k.blk 4 ≠ 0 ∧ u16 k.blk 6 ≠ 0 ∧
    (k.st.part (u8 k.blk 0)).cfg.quota 3 (k.st.part (u8 k.blk 0)).cfg.kvPages ≠ 0 ∧ 8192 * u32 k.blk 8 ≤ (k.st.part (u8 k.blk 0)).cfg.quota 5 (k.st.part (u8 k.blk 0)).cfg.hostSwapBytes :=
  ⟨{ op := 0x0610, blk := [0, 2] ++ le 2 256 ++ le 2 256 ++ le 2 4096 ++ le 4 256 ++ zeros 4, on := kv0 [] [] }, Case.ready (by decide +kernel), by decide +kernel⟩

theorem wit_kvSeqOpen : ∃ k : Case, k.Ready 0x0611 ∧ u8 k.blk 0 < 16 ∧ u8 k.blk 1 = 0 ∧ u8 k.blk 2 ≤ 7 ∧ u8 k.blk 3 = 0 ∧ u16 k.blk 6 = 0 ∧ u32 k.blk 8 = 0 ∧ u32 k.blk 12 = 0 ∧
    u64 k.blk 0x28 = 0 ∧ (k.st.part (u8 k.blk 0)).kv.hasSlot (u16 k.blk 4) = true ∧ ((k.st.part (u8 k.blk 0)).kv.seq (u16 k.blk 4)).isOpen = false ∧
    ((k.st.part (u8 k.blk 0)).models.find (slice k.blk 0x10 16)).isSome = true ∧ k.st.tableEntries ≤ 16777216 :=
  ⟨{ op := 0x0611, blk := [0, 0, 7, 0] ++ le 2 2 ++ zeros 10 ++ le 16 1 ++ zeros 16, on := kv0 [] [] }, Case.ready (by decide +kernel), by decide +kernel⟩

theorem wit_kvSeqOpen_waits : ∃ k : Case, k.Ready 0x0611 ∧ u8 k.blk 0 < 16 ∧ u8 k.blk 1 = 0 ∧ u8 k.blk 2 ≤ 7 ∧ u8 k.blk 3 = 0 ∧ u16 k.blk 6 = 0 ∧ u32 k.blk 8 ≠ 0 ∧ u32 k.blk 8 ≤ 2 ^ 20 ∧
    u32 k.blk 12 = 0 ∧ u64 k.blk 0x28 = 0 ∧ (k.st.part (u8 k.blk 0)).kv.hasSlot (u16 k.blk 4) = true ∧ ((k.st.part (u8 k.blk 0)).kv.seq (u16 k.blk 4)).isOpen = false ∧
    ((k.st.part (u8 k.blk 0)).models.find (slice k.blk 0x10 16)).isSome = true ∧ k.cmd.tokens = none :=
  ⟨{ op := 0x0611, blk := [0, 0, 7, 0] ++ le 2 2 ++ zeros 2 ++ le 4 1 ++ zeros 4 ++ le 16 1 ++ le 8 0x1000 ++ zeros 8, on := kv0 [] [] }, Case.ready (by decide +kernel), by decide +kernel⟩

/-- A domain, and a list of seventeen tokens. -/
theorem wit_kvSeqOpen_tokens : ∃ (s : State) (c : Cmd), s.turn 0 = some c ∧ c.ready = true ∧ s.common 0 c.entry c.block = none ∧ c.entry.opcode = 0x0611 ∧
    u8 c.blk 0 < 16 ∧ u8 c.blk 1 ≠ 0 ∧ (s.part (u8 c.blk 0)).kv.domains.contains (u8 c.blk 1) = true ∧ u8 c.blk 2 ≤ 7 ∧ u8 c.blk 3 = 0 ∧ u16 c.blk 6 = 0 ∧ u32 c.blk 8 ≤ 2 ^ 20 ∧
    u32 c.blk 12 = 0 ∧ u64 c.blk 0x28 = 0 ∧ (s.part (u8 c.blk 0)).kv.hasSlot (u16 c.blk 4) = true ∧ ((s.part (u8 c.blk 0)).kv.seq (u16 c.blk 4)).isOpen = false ∧
    ((s.part (u8 c.blk 0)).models.find (slice c.blk 0x10 16)).isSome = true ∧ c.tokens.isSome = true ∧
    s.tableEntries + ((s.part (u8 c.blk 0)).kv.blockRefs ((s.part (u8 c.blk 0)).kv.matchPrefix (u8 c.blk 1) (slice c.blk 0x10 16) 65536 0 0
      (tokenIds (c.tokens.getD []) (u32 c.blk 8)))).length ≤ 16777216 := by
  let c : Cmd := { ({ op := 0x0611, blk := [0, 4, 7, 0] ++ le 2 2 ++ zeros 2 ++ le 4 1 ++ zeros 4 ++ le 16 1 ++ le 8 0x1000 ++ zeros 8 } : Case).cmd with tokens := some [7, 0, 0, 0] }
  exact ⟨(kv0 [] [4]).setQueue 0 { live := true, sqSize := 16, cqSize := 16, cmds := [c] }, c, by decide +kernel⟩

/-- kv.seq_extend with its token list read. -/
theorem wit_kvSeqExtend : ∃ (s : State) (c : Cmd), s.turn 0 = some c ∧ c.ready = true ∧ s.common 0 c.entry c.block = none ∧
    c.entry.opcode = 0x0612 ∧ (s.part (u8 c.inl 0)).kv.idle (u16 c.inl 2) = true ∧ c.tokens = some [7, 0, 0, 0] ∧ u32 c.inl 4 ≠ 0 ∧
    ((s.part (u8 c.inl 0)).kv.seq (u16 c.inl 2)).ids.length + u32 c.inl 4 ≤ 2 ^ 20 := by
  let c : Cmd := { ({ op := 0x0612, inl := [0, 0] ++ le 2 1 ++ le 4 1 ++ le 8 0x1000 } : Case).cmd with tokens := some [7, 0, 0, 0] }
  exact ⟨(kv0 [(1, openSeq0)] []).setQueue 0 { live := true, sqSize := 16, cqSize := 16, cmds := [c] }, c, by decide +kernel⟩

theorem wit_kvSeqExtend_notIdle : ∃ k : Case, k.Ready 0x0612 ∧ (k.st.part (u8 k.inl 0)).kv.idle (u16 k.inl 2) = false :=
  ⟨{ op := 0x0612, inl := [0, 0] ++ le 2 1 ++ le 4 1 ++ le 8 0, on := kv0 [(1, { openSeq0 with busy := some 0 })] [] }, Case.ready (by decide +kernel), by decide +kernel⟩

theorem wit_kvSeqFork_notIdle : ∃ k : Case, k.Ready 0x0613 ∧ (k.st.part (u8 k.inl 0)).kv.idle (u16 k.inl 2) = false :=
  ⟨{ op := 0x0613, inl := [0, 0] ++ le 2 1 ++ le 2 2, on := kv0 [(1, { openSeq0 with busy := some 0 })] [] }, Case.ready (by decide +kernel), by decide +kernel⟩

theorem wit_kvSeqTruncate_notIdle : ∃ k : Case, k.Ready 0x0614 ∧ (k.st.part (u8 k.inl 0)).kv.idle (u16 k.inl 2) = false :=
  ⟨{ op := 0x0614, inl := [0, 0] ++ le 2 1 ++ le 4 0, on := kv0 [(1, { openSeq0 with busy := some 0 })] [] }, Case.ready (by decide +kernel), by decide +kernel⟩

theorem wit_kvSeqClose_notIdle : ∃ k : Case, k.Ready 0x0615 ∧ (k.st.part (u8 k.inl 0)).kv.idle (u16 k.inl 2) = false :=
  ⟨{ op := 0x0615, inl := [0, 0] ++ le 2 1, on := kv0 [(1, { openSeq0 with busy := some 0 })] [] }, Case.ready (by decide +kernel), by decide +kernel⟩

theorem wit_kvSeqSwapOut_notIdle : ∃ k : Case, k.Ready 0x0616 ∧ (k.st.part (u8 k.inl 0)).kv.idle (u16 k.inl 2) = false :=
  ⟨{ op := 0x0616, inl := [0, 0] ++ le 2 1, on := kv0 [(1, { openSeq0 with busy := some 0 })] [] }, Case.ready (by decide +kernel), by decide +kernel⟩

/-- A sequence of one full page, shared by nobody, and one token more. -/
def forked0 (poison : Map Bool) (ref : PRef) : State :=
  { (kv0 [(1, { openSeq0 with table := [(0, .resident 3), (1, ref)] })] []).modKv 0 fun y =>
      { y with pages := [(3, { refs := 1, readOnly := true }), (4, { refs := 1 })] } with ddr := { poison := poison } }

theorem wit_kvSeqFork : ∃ k : Case, k.Ready 0x0613 ∧ (k.st.part (u8 k.inl 0)).kv.idle (u16 k.inl 2) = true ∧ (k.st.part (u8 k.inl 0)).kv.hasSlot (u16 k.inl 4) = true ∧
    ((k.st.part (u8 k.inl 0)).kv.seq (u16 k.inl 4)).isOpen = false ∧ k.st.tableEntries + ((k.st.part (u8 k.inl 0)).kv.seq (u16 k.inl 2)).table.length ≤ 16777216 ∧
    (k.st.part (u8 k.inl 0)).kv.hasSwapped (u16 k.inl 2) = false ∧ k.st.copiesPoison (u8 k.inl 0) (u16 k.inl 2) ((k.st.part (u8 k.inl 0)).kv.ownPages (u16 k.inl 2) true) = false ∧
    ((k.st.part (u8 k.inl 0)).kv.ownPages (u16 k.inl 2) true) ≠ [] ∧ (k.st.allocKeys (u8 k.inl 0) (u16 k.inl 4) (((k.st.part (u8 k.inl 0)).kv.ownPages (u16 k.inl 2) true).map Prod.fst)).isSome = true :=
  ⟨{ op := 0x0613, inl := [0, 0] ++ le 2 1 ++ le 2 2, on := forked0 [] (.resident 4) }, Case.ready (by decide +kernel), by decide +kernel⟩

theorem wit_kvSeqFork_poison : ∃ k : Case, k.Ready 0x0613 ∧ (k.st.part (u8 k.inl 0)).kv.idle (u16 k.inl 2) = true ∧ (k.st.part (u8 k.inl 0)).kv.hasSlot (u16 k.inl 4) = true ∧
    ((k.st.part (u8 k.inl 0)).kv.seq (u16 k.inl 4)).isOpen = false ∧ k.st.tableEntries + ((k.st.part (u8 k.inl 0)).kv.seq (u16 k.inl 2)).table.length ≤ 16777216 ∧
    (k.st.part (u8 k.inl 0)).kv.hasSwapped (u16 k.inl 2) = false ∧ k.st.copiesPoison (u8 k.inl 0) (u16 k.inl 2) ((k.st.part (u8 k.inl 0)).kv.ownPages (u16 k.inl 2) true) = true :=
  ⟨{ op := 0x0613, inl := [0, 0] ++ le 2 1 ++ le 2 2, on := forked0 [(pageAddr 0 4 / 64 + 127, true)] (.resident 4) }, Case.ready (by decide +kernel), by decide +kernel⟩

theorem wit_kvSeqFork_recall : ∃ k : Case, k.Ready 0x0613 ∧ (k.st.part (u8 k.inl 0)).kv.idle (u16 k.inl 2) = true ∧ (k.st.part (u8 k.inl 0)).kv.hasSlot (u16 k.inl 4) = true ∧
    ((k.st.part (u8 k.inl 0)).kv.seq (u16 k.inl 4)).isOpen = false ∧ k.st.tableEntries + ((k.st.part (u8 k.inl 0)).kv.seq (u16 k.inl 2)).table.length ≤ 16777216 ∧
    (k.st.part (u8 k.inl 0)).kv.hasSwapped (u16 k.inl 2) = true ∧ (k.st.allocPage (u8 k.inl 0)).isSome = true :=
  ⟨{ op := 0x0613, inl := [0, 0] ++ le 2 1 ++ le 2 2, on := forked0 [] (.swapped 0) }, Case.ready (by decide +kernel), by decide +kernel⟩

theorem wit_kvSeqTruncate : ∃ k : Case, k.Ready 0x0614 ∧ (k.st.part (u8 k.inl 0)).kv.idle (u16 k.inl 2) = true ∧ u32 k.inl 4 < ((k.st.part (u8 k.inl 0)).kv.seq (u16 k.inl 2)).length ∧ u32 k.inl 4 % 16 = 0 :=
  ⟨{ op := 0x0614, inl := [0, 0] ++ le 2 1 ++ le 4 16, on := kv0 [(1, openSeq0)] [] }, Case.ready (by decide +kernel), by decide +kernel⟩

/-- A cut inside a page: the page stays, its tokens past the length become zero, and it may be written again. -/
theorem wit_kvSeqTruncate_tail : ∃ k : Case, k.Ready 0x0614 ∧ (k.st.part (u8 k.inl 0)).kv.idle (u16 k.inl 2) = true ∧ u32 k.inl 4 < ((k.st.part (u8 k.inl 0)).kv.seq (u16 k.inl 2)).length ∧ u32 k.inl 4 % 16 ≠ 0 ∧
    k.st.copiesPoison (u8 k.inl 0) (u16 k.inl 2) ((((k.st.part (u8 k.inl 0)).kv.seq (u16 k.inl 2)).table.filter fun e => e.1 % 65536 = (u32 k.inl 4 - 1) / 16).filterMap fun e =>
      ((k.st.part (u8 k.inl 0)).kvPage (u16 k.inl 2) e.1).map fun g => (e.1, g)) = false ∧
    (let s1 := k.st.modPart (u8 k.inl 0) fun y =>
        let z := y.dropEntries (u16 k.inl 2) fun key => decide (pagesOf (u32 k.inl 4) ≤ key % 65536)
        { z with kv := (z.kv.setSeq (u16 k.inl 2) { z.kv.seq (u16 k.inl 2) with length := u32 k.inl 4, ids := ((k.st.part (u8 k.inl 0)).kv.seq (u16 k.inl 2)).ids.take (u32 k.inl 4) }).settle (u16 k.inl 2) }
     let tail := ((s1.part (u8 k.inl 0)).kv.seq (u16 k.inl 2)).table.filterMap fun e =>
        if e.1 % 65536 = (u32 k.inl 4 - 1) / 16 then ((s1.part (u8 k.inl 0)).kvPage (u16 k.inl 2) e.1).map fun g => (e.1, g) else none
     tail ≠ [] ∧ ∀ e ∈ tail, (Map.get {} (s1.part (u8 k.inl 0)).kv.pages e.2).readOnly = false) :=
  ⟨{ op := 0x0614, inl := [0, 0] ++ le 2 1 ++ le 4 17, on := forked0 [] (.resident 4) }, Case.ready (by decide +kernel), by decide +kernel⟩

theorem wit_kvSeqClose : ∃ k : Case, k.Ready 0x0615 ∧ (k.st.part (u8 k.inl 0)).kv.idle (u16 k.inl 2) = true :=
  ⟨{ op := 0x0615, inl := [0, 0] ++ le 2 1, on := kv0 [(1, openSeq0)] [] }, Case.ready (by decide +kernel), by decide +kernel⟩

theorem wit_kvSeqSwapOut : ∃ k : Case, k.Ready 0x0616 ∧ (k.st.part (u8 k.inl 0)).kv.idle (u16 k.inl 2) = true ∧ ((k.st.part (u8 k.inl 0)).kv.seq (u16 k.inl 2)).swapped = false ∧ (k.st.part (u8 k.inl 0)).kv.alone (u16 k.inl 2) ≠ [] ∧ (k.st.swapOut (u8 k.inl 0) (u16 k.inl 2)).isSome = true :=
  ⟨{ op := 0x0616, inl := [0, 0] ++ le 2 1, on := (kv0 [(1, { openSeq0 with table := [(0, .resident 3)] })] []).modKv 0 fun y => { y with pages := [(3, { refs := 1 })] } }, Case.ready (by decide +kernel), by decide +kernel⟩

theorem wit_kvSeqSwapOut_full : ∃ k : Case, k.Ready 0x0616 ∧ (k.st.part (u8 k.inl 0)).kv.idle (u16 k.inl 2) = true ∧ ((k.st.part (u8 k.inl 0)).kv.seq (u16 k.inl 2)).swapped = false ∧ (k.st.part (u8 k.inl 0)).kv.alone (u16 k.inl 2) ≠ [] ∧ (k.st.swapOut (u8 k.inl 0) (u16 k.inl 2)).isNone = true :=
  ⟨{ op := 0x0616, inl := [0, 0] ++ le 2 1, on := (kv0 [(1, { openSeq0 with table := [(0, .resident 3), (1, .resident 4)] })] []).modKv 0 fun y => { y with pages := [(3, { refs := 1 }), (4, { refs := 1 })] } }, Case.ready (by decide +kernel), by decide +kernel⟩

theorem wit_kvDomainCreate : ∃ k : Case, k.Ready 0x0617 ∧ u8 k.inl 1 ≠ 0 ∧ (k.st.part (u8 k.inl 0)).kv.domains.contains (u8 k.inl 1) = false :=
  ⟨{ op := 0x0617, inl := [0, 4], on := kv0 [] [1] }, Case.ready (by decide +kernel), by decide +kernel⟩

theorem wit_kvDomainDestroy : ∃ k : Case, k.Ready 0x0618 ∧ u8 k.inl 1 ≠ 0 ∧ (k.st.part (u8 k.inl 0)).kv.domains.contains (u8 k.inl 1) = true ∧ ∀ e ∈ (k.st.part (u8 k.inl 0)).kv.seqs, e.2.isOpen = true → e.2.domain ≠ u8 k.inl 1 :=
  ⟨{ op := 0x0618, inl := [0, 4], on := kv0 [(1, openSeq0)] [4] }, Case.ready (by decide +kernel), by decide +kernel⟩

theorem wit_kvStats : ∃ k : Case, k.Ready 0x0619 :=
  ⟨{ op := 0x0619, inl := [0], dataLen := 64, on := kv0 [] [] }, Case.ready (by decide +kernel)⟩

/-! ### Lanes: a slot at its gate -/

/-- An image of one engine lane and the shared lane; wait entry 0 asks for 2 of counter 0 and consumes them. -/
def image0 : Image :=
  { needs := { lanes := 1, engineTokens := 4, sharedTokens := 4, ddr5 := 2 ^ 20, raggedMax := 8 }
    code := [⟨0x140, 3, [0x10100]⟩, ⟨0x180, 3, []⟩] }
/-- Partition 0 enabled with engine 0 and region 0, its context 0 on the engines, both lanes as given. -/
def tile0 (st : CState) (x : Lane) : State :=
  host0.setPart 0 { state := .enabled, cfg := { tiers := 0x3F, engineMask := 1, yieldLimit := 1, ddr5Bytes := 2 ^ 26 }
                    regions := [(0, { defined := true, mode := 0, nearWidth := 1, banks := [0] })]
                    ctxs := [(0, { state := st, image := some image0, job := some { cmd := none, prio := 0 } })], lanes := [(0, x), (255, x)] }
/-- A lane that runs its first lane word, with the step under issue as given. -/
def lane0 (iss : LaneIssue) : Lane := { iss := iss, run := .running }
/-- The lane with its code at hand: a slot may act. -/
def ready0 : State := tile0 .running (lane0 { fetched := true })
/-- The lane word of one slot. -/
def only (l slot : Nat) : Issue := ⟨0, l, BitVec.ofNat 32 (2 ^ slot)⟩

/-- The gate of a slot is open, at a state with a property. -/
theorem goes {s : State} {i : Issue} {k : Nat} {e : Bool} {P : State → Prop} [DecidablePred P]
    (h : (match s.gate i k e with
      | .go t => decide (P t)
      | _ => false) = true) : ∃ t, s.gate i k e = .go t ∧ P t := by
  split at h
  · exact ⟨_, ‹_›, of_decide_eq_true h⟩
  · cases h

/-! ### Witnesses: LaneWordGate -/

theorem wit_gate_fetch : ∃ (s : State) (i : Issue) (slot : Nat), s.laneOn i.part i.lane = true ∧ i.next (s.lane i.part i.lane).iss.done slot = true ∧
    (s.lane i.part i.lane).iss.fetched = false :=
  ⟨tile0 .running (lane0 {}), ⟨0, 0, 1⟩, 0, by decide +kernel⟩

theorem wit_gate_stop : ∃ (s : State) (i : Issue) (slot : Nat), s.laneOn i.part i.lane = true ∧ i.next (s.lane i.part i.lane).iss.done slot = true ∧
    (s.lane i.part i.lane).iss.fetched = true ∧ (s.lane i.part i.lane).iss.done = 0 ∧ s.mustStop i false = true :=
  ⟨tile0 .stopping (lane0 { fetched := true }), ⟨0, 0, 1⟩, 0, by decide +kernel⟩

theorem wit_gate_end_stop : ∃ (s : State) (i : Issue) (slot : Nat), s.laneOn i.part i.lane = true ∧ i.next (s.lane i.part i.lane).iss.done slot = true ∧
    (s.lane i.part i.lane).iss.fetched = true ∧ (s.lane i.part i.lane).iss.done = 0 ∧ s.mustStop i true = true :=
  ⟨tile0 .stopping (lane0 { fetched := true }), ⟨0, 0, 1⟩, 0, by decide +kernel⟩

theorem wit_gate_off : ∃ (s : State) (i : Issue) (slot : Nat), s.laneOn i.part i.lane = false ∧ i.next (s.lane i.part i.lane).iss.done (slot + 1) = false :=
  ⟨tile0 .ready (lane0 { fetched := true }), ⟨0, 0, 1⟩, 0, by decide +kernel⟩

theorem wit_gate_wait : ∃ (s : State) (i : Issue) (slot : Nat), s.laneOn i.part i.lane = true ∧ i.next (s.lane i.part i.lane).iss.done slot = true ∧
    (s.lane i.part i.lane).iss.fetched = true ∧ (s.lane i.part i.lane).iss.done = 0 ∧ s.mustStop i false = false ∧ s.waits i = true ∧ s.waitBad i = false ∧ s.waitMet i = false :=
  ⟨ready0, ⟨0, 0, 0x8001⟩, 0, by decide +kernel⟩

theorem wit_gate_waitMet : ∃ (s : State) (i : Issue) (slot : Nat), s.laneOn i.part i.lane = true ∧ i.next (s.lane i.part i.lane).iss.done slot = true ∧
    (s.lane i.part i.lane).iss.fetched = true ∧ (s.lane i.part i.lane).iss.done = 0 ∧ s.mustStop i false = false ∧ s.waits i = true ∧ s.waitBad i = false ∧ s.waitMet i = true :=
  ⟨{ ready0 with tok := [(ready0.tokKey 0 0 0, 2)] }, ⟨0, 0, 0x8001⟩, 0, by decide +kernel⟩

theorem wit_gate_waitBad : ∃ (s : State) (i : Issue) (slot : Nat), s.laneOn i.part i.lane = true ∧ i.next (s.lane i.part i.lane).iss.done slot = true ∧
    (s.lane i.part i.lane).iss.fetched = true ∧ (s.lane i.part i.lane).iss.done = 0 ∧ s.mustStop i false = false ∧ s.waits i = true ∧ s.waitBad i = true :=
  ⟨{ ready0 with tokBad := [(ready0.tokKey 0 0 0, true)] }, ⟨0, 0, 0x8001⟩, 0, by decide +kernel⟩

theorem wit_gate_stride : ∃ (s : State) (i : Issue) (slot : Nat), s.laneOn i.part i.lane = true ∧ i.next (s.lane i.part i.lane).iss.done slot = true ∧
    (s.lane i.part i.lane).iss.fetched = true ∧ (s.lane i.part i.lane).iss.done = 0 ∧ s.mustStop i false = false ∧ s.waits i = false ∧ (s.lane i.part i.lane).strideBusy = true :=
  ⟨tile0 .running { arch := { stride := [(15, 8)] }, iss := { fetched := true, xBusy := [15] }, run := .running }, ⟨0, 0, 1⟩, 0, by decide +kernel⟩

theorem wit_gate_first : ∃ (s : State) (i : Issue) (slot : Nat), s.laneOn i.part i.lane = true ∧ i.next (s.lane i.part i.lane).iss.done slot = true ∧
    (s.lane i.part i.lane).iss.fetched = true ∧ (s.lane i.part i.lane).iss.done = 0 ∧ s.mustStop i false = false ∧ s.waits i = false ∧ (s.lane i.part i.lane).strideBusy = false :=
  ⟨ready0, ⟨0, 0, 1⟩, 0, by decide +kernel⟩

theorem wit_gate_later : ∃ (s : State) (i : Issue) (slot : Nat), s.laneOn i.part i.lane = true ∧ i.next (s.lane i.part i.lane).iss.done slot = true ∧
    (s.lane i.part i.lane).iss.fetched = true ∧ (s.lane i.part i.lane).iss.done ≠ 0 := ⟨tile0 .running (lane0 { fetched := true, done := 1 }), ⟨0, 0, 3⟩, 1, by decide +kernel⟩

/-! ### Witnesses: the S slot (ScalarArithmetic, ScalarMovesAndStatus, LaneSequence, RaggedDispatch, ScalarMemory) -/

/-- A word of the S slot: opcode, RD 31, RS1 30, source 2 an immediate. -/
def sWord (op imm : Nat) : DWord := BitVec.ofNat 64 (op * 2 ^ 58 + 31 * 2 ^ 53 + 30 * 2 ^ 48 + 2 ^ 42 + imm)

theorem wit_scalar : ∀ op ∈ List.range 26, ∃ t, ready0.gate (only 0 0) 0 = .go t ∧ sOp (sWord op 0) = op ∧
    t.xHeld (only 0 0) (sRd (sWord op 0) :: sRs1 (sWord op 0) :: src2Regs (sWord op 0)) = false :=
  fun op h => goes (by revert op; decide +kernel)
theorem wit_scalar_held : ∀ op ∈ List.range 26, ∃ t, (tile0 .running (lane0 { fetched := true, xBusy := [30] })).gate (only 0 0) 0 = .go t ∧
    sOp (sWord op 0) = op ∧ t.xHeld (only 0 0) (sRd (sWord op 0) :: sRs1 (sWord op 0) :: src2Regs (sWord op 0)) = true :=
  fun op h => goes (by revert op; decide +kernel)
theorem wit_rdst_item : ∀ item ∈ [0, 1, 2, 3, 4, 5, 6], bits (sImm (sWord 22 item)) 8 0 = item := by decide +kernel

theorem wit_rdst_counter : ∃ t, (ready0).gate (only 0 0) 0 = .go t ∧ 0x100 ≤ bits (sImm (sWord 22 0x103)) 8 0 ∧ t.badCounter 0 0 (bits (sImm (sWord 22 0x103)) 8 0 % 256) = false :=
  goes (by decide +kernel)

theorem wit_rdst_poison : ∃ t, ({ ready0 with tokBad := [(ready0.tokKey 0 0 3, true)] } : State).gate (only 0 0) 0 = .go t ∧ 0x100 ≤ bits (sImm (sWord 22 0x103)) 8 0 ∧
    t.badCounter 0 0 (bits (sImm (sWord 22 0x103)) 8 0 % 256) = true :=
  goes (by decide +kernel)

theorem wit_sNop_empty : ∃ t, ready0.laneOn 0 0 = true ∧ (ready0.lane 0 0).iss.fetched = true ∧ ready0.boundary ⟨0, 0, 0⟩ false = .go t ∧ sOp (sWord 0 0) = 0 := by
  have h : (match ready0.boundary ⟨0, 0, 0⟩ false with
      | .go _ => true
      | _ => false) = true := by decide +kernel
  split at h
  · exact ⟨_, by decide +kernel, by decide +kernel, ‹_›, by decide +kernel⟩
  · cases h

theorem wit_clrst : sRs1 (BitVec.ofNat 64 (23 * 2 ^ 58)) = 0 ∧ sRs1 (sWord 23 0) ≠ 0 := by decide +kernel

theorem wit_laneEnd : ∃ t, (ready0).gate (only 0 0) 0 true = .go t ∧ sOp (sWord 25 0) = 25 :=
  goes (by decide +kernel)

theorem wit_slotDone : ∃ (i : Issue) (u : State), i.mask &&& ((u.lane i.part i.lane).iss.done ||| 2 ^ 0) = i.mask ∧ i.rep ≤ (u.lane i.part i.lane).iss.iter ∧
    (u.lane i.part i.lane).iss.fetched = true ∧ (u.lane i.part i.lane).run = .running ∧
    (u.lane i.part i.lane).iss.ending = false ∧ (u.lane i.part i.lane).iss.target = some 7 :=
  ⟨only 0 0, tile0 .running (lane0 { fetched := true, target := some 7 }), by decide +kernel⟩
theorem wit_slotDone_end : ∃ (i : Issue) (u : State), i.mask &&& ((u.lane i.part i.lane).iss.done ||| 2 ^ 0) = i.mask ∧ i.rep ≤ (u.lane i.part i.lane).iss.iter ∧
    (u.lane i.part i.lane).iss.fetched = true ∧ (u.lane i.part i.lane).run = .running ∧ (u.lane i.part i.lane).iss.ending = true :=
  ⟨only 0 0, tile0 .running (lane0 { fetched := true, ending := true }), by decide +kernel⟩

/-- A length table at 0 of one entry: sequence 0, 20 tokens of context and 4 new. -/
def table0 (x : Lane) : State := (tile0 .running x).writeBytes 0 0 (le 4 1 ++ zeros 12 ++ le 4 20 ++ le 4 4 ++ zeros 8) false
/-- A RAGGED of MODE 0: RD 3, LC3, the table at register 0. -/
def raggedWord : DWord := BitVec.ofNat 64 (24 * 2 ^ 58 + 3 * 2 ^ 53 + 3 * 2 ^ 30 + 5 * 2 ^ 16 + 7)

/-- The loop that a RAGGED word arms. -/
def raggedLoop (t : State) (w : DWord) : Loop :=
  { active := true, start := (t.lane 0 0).arch.pc + 1, len := bits (sImm w) 27 16 + 1, ragged := true, reg := sRd w, mode := bits (sImm w) 29 28,
    gran := bits (sImm w) 15 0, split := (t.lx (only 0 0) (sRs2 w)).toNat % 65536, parts := (t.lx (only 0 0) (sRs2 w)).toNat / 65536 % 65536,
    table := t.lx (only 0 0) (sRs1 w) }

theorem wit_ragged_item : ∃ t, (table0 (lane0 { fetched := true })).gate (only 0 0) 0 = .go t ∧ sOp raggedWord = 24 ∧
    t.xHeld (only 0 0) [sRs1 raggedWord, (if bits (sImm raggedWord) 29 28 = 2 then sRs2 raggedWord else sRs1 raggedWord), sRd raggedWord,
      sRd raggedWord + 1, sRd raggedWord + 2] = false ∧
    (let lp := raggedLoop t raggedWord
     let u := t.flushTable 0 lp
     let q := t.part 0
     q.inRegion lp.table.toNat 16 = true ∧ lp.table.toNat % 16 = 0 ∧ u.anyPoison 0 lp.table.toNat 16 = false ∧ u.raggedCount 0 lp ≤ q.maxSeq ∧
     allZero (u.readBytes 0 lp.table.toNat 16) 4 12 = true ∧ (u.lane 0 0).iss.fetched = true ∧
     (match State.raggedScan (u.raggedCount 0 lp) u 0 ((((u.onEngines 0).image.map (·.needs.raggedMax))).getD 0) lp with
      | .item .. => true
      | .done => false
      | _ => false) = true) :=
  goes (by decide +kernel)

theorem wit_ragged_done : ∃ t, (ready0).gate (only 0 0) 0 = .go t ∧ sOp raggedWord = 24 ∧
    t.xHeld (only 0 0) [sRs1 raggedWord, (if bits (sImm raggedWord) 29 28 = 2 then sRs2 raggedWord else sRs1 raggedWord), sRd raggedWord,
      sRd raggedWord + 1, sRd raggedWord + 2] = false ∧
    (let lp := raggedLoop t raggedWord
     let u := t.flushTable 0 lp
     let q := t.part 0
     q.inRegion lp.table.toNat 16 = true ∧ lp.table.toNat % 16 = 0 ∧ u.anyPoison 0 lp.table.toNat 16 = false ∧ u.raggedCount 0 lp ≤ q.maxSeq ∧
     allZero (u.readBytes 0 lp.table.toNat 16) 4 12 = true ∧ (u.lane 0 0).iss.fetched = true ∧
     (match State.raggedScan (u.raggedCount 0 lp) u 0 ((((u.onEngines 0).image.map (·.needs.raggedMax))).getD 0) lp with
      | .item .. => false
      | .done => true
      | _ => false) = true) :=
  goes (by decide +kernel)

theorem wit_ragged_misplaced : ∃ t, (tile0 .running { arch := { x := [(4, 8)] }, iss := { fetched := true }, run := .running }).gate (only 0 0) 0 = .go t ∧ sOp (BitVec.ofNat 64 (24 * 2 ^ 58 + 3 * 2 ^ 53 + 4 * 2 ^ 48)) = 24 ∧
    t.xHeld (only 0 0) [sRs1 (BitVec.ofNat 64 (24 * 2 ^ 58 + 3 * 2 ^ 53 + 4 * 2 ^ 48)), (if bits (sImm (BitVec.ofNat 64 (24 * 2 ^ 58 + 3 * 2 ^ 53 + 4 * 2 ^ 48))) 29 28 = 2 then sRs2 (BitVec.ofNat 64 (24 * 2 ^ 58 + 3 * 2 ^ 53 + 4 * 2 ^ 48)) else sRs1 (BitVec.ofNat 64 (24 * 2 ^ 58 + 3 * 2 ^ 53 + 4 * 2 ^ 48))), sRd (BitVec.ofNat 64 (24 * 2 ^ 58 + 3 * 2 ^ 53 + 4 * 2 ^ 48)),
      sRd (BitVec.ofNat 64 (24 * 2 ^ 58 + 3 * 2 ^ 53 + 4 * 2 ^ 48)) + 1, sRd (BitVec.ofNat 64 (24 * 2 ^ 58 + 3 * 2 ^ 53 + 4 * 2 ^ 48)) + 2] = false ∧
    (let lp := raggedLoop t (BitVec.ofNat 64 (24 * 2 ^ 58 + 3 * 2 ^ 53 + 4 * 2 ^ 48))
     let u := t.flushTable 0 lp
     let q := t.part 0
     u.raggedCount 0 lp ≤ q.maxSeq ∧ (q.inRegion lp.table.toNat 16 = false ∨ lp.table.toNat % 16 ≠ 0) ∧ (u.lane 0 0).iss.fetched = true) :=
  goes (by decide +kernel)

/-- A RAGGED of MODE 2 whose parts are none. -/
def splitWord : DWord := BitVec.ofNat 64 (24 * 2 ^ 58 + 3 * 2 ^ 53 + 2 * 2 ^ 28)
theorem wit_ragged_split : ∃ t, (ready0).gate (only 0 0) 0 = .go t ∧ sOp splitWord = 24 ∧
    t.xHeld (only 0 0) [sRs1 splitWord, (if bits (sImm splitWord) 29 28 = 2 then sRs2 splitWord else sRs1 splitWord), sRd splitWord,
      sRd splitWord + 1, sRd splitWord + 2] = false ∧
    (let lp := raggedLoop t splitWord
     let u := t.flushTable 0 lp
     bits (sImm splitWord) 29 28 = 2 ∧ lp.parts ≤ lp.split ∧ (u.lane 0 0).iss.fetched = true) :=
  goes (by decide +kernel)

theorem wit_ragged_poison : ∃ t, (ready0.writeBytes 0 0 (zeros 64) true).gate (only 0 0) 0 = .go t ∧ sOp raggedWord = 24 ∧
    t.xHeld (only 0 0) [sRs1 raggedWord, (if bits (sImm raggedWord) 29 28 = 2 then sRs2 raggedWord else sRs1 raggedWord), sRd raggedWord,
      sRd raggedWord + 1, sRd raggedWord + 2] = false ∧
    (let lp := raggedLoop t raggedWord
     let u := t.flushTable 0 lp
     let q := t.part 0
     q.inRegion lp.table.toNat 16 = true ∧ lp.table.toNat % 16 = 0 ∧ u.anyPoison 0 lp.table.toNat 16 = true ∧ (u.lane 0 0).iss.fetched = true) :=
  goes (by decide +kernel)

theorem wit_ragged_malformed : ∃ t, (ready0.writeBytes 0 0 (zeros 4 ++ [1]) false).gate (only 0 0) 0 = .go t ∧ sOp raggedWord = 24 ∧
    t.xHeld (only 0 0) [sRs1 raggedWord, (if bits (sImm raggedWord) 29 28 = 2 then sRs2 raggedWord else sRs1 raggedWord), sRd raggedWord,
      sRd raggedWord + 1, sRd raggedWord + 2] = false ∧
    (let lp := raggedLoop t raggedWord
     let u := t.flushTable 0 lp
     let q := t.part 0
     q.inRegion lp.table.toNat 16 = true ∧ lp.table.toNat % 16 = 0 ∧ u.anyPoison 0 lp.table.toNat 16 = false ∧ allZero (u.readBytes 0 lp.table.toNat 16) 4 12 = false ∧ (u.lane 0 0).iss.fetched = true) :=
  goes (by decide +kernel)

theorem wit_ragged_noGather : ∃ t, ready0.gate (only 0 0) 0 = .go t ∧ ∀ g < 68, t.gathered g = [] :=
  goes (by decide +kernel)

/-- An SLD or SST of opcode `op` into or from register 3, of 8 bytes, at an immediate address. -/
def memWord (op imm : Nat) : DWord := BitVec.ofNat 64 (op * 2 ^ 58 + 3 * 2 ^ 43 + imm)

theorem wit_sld : ∃ t, (ready0).gate (only 0 0) 0 = .go t ∧ sOp (memWord 16 0x8) = 16 ∧ t.xHeld (only 0 0) [sRd (memWord 16 0x8), sRs1 (memWord 16 0x8)] = false ∧
    (let n := if sRs2 (memWord 16 0x8) % 4 < 2 then 4 else 8
     let a := (t.lx (only 0 0) (sRs1 (memWord 16 0x8)) + sImmX (memWord 16 0x8)).toNat
     t.lineHeld (only 0 0) a n = false ∧ (a % n = 0 ∧ (t.part 0).inRegion a n = true ∧ (t.gathered ((t.part 0).line a / 8192 / 8)).length < 16) ∧ (t.lane 0 0).iss.fetched = true) :=
  goes (by decide +kernel)

theorem wit_sst : ∃ t, (ready0).gate (only 0 0) 0 = .go t ∧ sOp (memWord 17 0x7fff8) = 17 ∧ t.xHeld (only 0 0) [sRd (memWord 17 0x7fff8), sRs1 (memWord 17 0x7fff8)] = false ∧
    (let n := if sRs2 (memWord 17 0x7fff8) % 4 < 2 then 4 else 8
     let a := (t.lx (only 0 0) (sRd (memWord 17 0x7fff8)) + sImmX (memWord 17 0x7fff8)).toNat
     t.lineHeld (only 0 0) a n = false ∧ (a % n = 0 ∧ (t.part 0).inRegion a n = true ∧ (t.gathered ((t.part 0).line a / 8192 / 8)).length < 16) ∧ (t.lane 0 0).iss.fetched = true) :=
  goes (by decide +kernel)

theorem wit_sld_fault : ∃ t, (ready0).gate (only 0 0) 0 = .go t ∧ sOp (memWord 16 0x7fffc) = 16 ∧ t.xHeld (only 0 0) [sRd (memWord 16 0x7fffc), sRs1 (memWord 16 0x7fffc)] = false ∧
    (let n := if sRs2 (memWord 16 0x7fffc) % 4 < 2 then 4 else 8
     let a := (t.lx (only 0 0) (sRs1 (memWord 16 0x7fffc)) + sImmX (memWord 16 0x7fffc)).toNat
     t.lineHeld (only 0 0) a n = false ∧ (a % n ≠ 0 ∨ (t.part 0).inRegion a n = false) ∧ (t.lane 0 0).iss.fetched = true) :=
  goes (by decide +kernel)

theorem wit_sst_fault : ∃ t, (ready0).gate (only 0 0) 0 = .go t ∧ sOp (memWord 17 0x7fffc) = 17 ∧ t.xHeld (only 0 0) [sRd (memWord 17 0x7fffc), sRs1 (memWord 17 0x7fffc)] = false ∧
    (let n := if sRs2 (memWord 17 0x7fffc) % 4 < 2 then 4 else 8
     let a := (t.lx (only 0 0) (sRd (memWord 17 0x7fffc)) + sImmX (memWord 17 0x7fffc)).toNat
     t.lineHeld (only 0 0) a n = false ∧ (a % n ≠ 0 ∨ (t.part 0).inRegion a n = false) ∧ (t.lane 0 0).iss.fetched = true) :=
  goes (by decide +kernel)

/-- An earlier write of the same lane to the line is still on its way: the access waits. -/
theorem wit_sld_held : ∃ t, ({ ready0 with clk.nextId := 5, fab.writes := [{ id := 4, src := .lane 0 0, op := .wb, data := zeros 64 }] } : State).gate (only 0 0) 0 = .go t ∧ sOp (memWord 16 8) = 16 ∧
    t.lineHeld (only 0 0) (t.lx (only 0 0) (sRs1 (memWord 16 8)) + sImmX (memWord 16 8)).toNat 8 = true :=
  goes (by decide +kernel)

/-- Two accesses wait in the gather entry of line 1. -/
def gather0 : State := ready0.setGathered 0 [⟨1, [⟨0, 0, true, 56, 8, false, 0, 7⟩, ⟨0, 0, false, 56, 8, false, 16, 0⟩]⟩]
theorem wit_gatherEntryIssue : ∃ e, (gather0.gathered 0).find? (·.line == 1) = some e ∧ 1 / 8192 / 8 = 0 := ⟨_, rfl, rfl⟩
theorem wit_access_store : ∃ (s : State) (a : GAccess), a.store = true ∧ (s.bank (1 / 8192)).state ≠ .fenced ∧ Map.wf 0 s.sp.mem = true :=
  ⟨ready0, ⟨0, 0, true, 56, 8, false, 0, 7⟩, by decide +kernel⟩
theorem wit_access_poison : ∃ (s : State) (a : GAccess), a.store = false ∧ s.linePoison 1 = true :=
  ⟨ready0.writeBytes 0 64 (zeros 64) true, ⟨0, 0, false, 56, 8, false, 16, 0⟩, by decide +kernel⟩

/-- A group of banks with sixteen entries. -/
theorem wit_gather_full : ∃ e rest, (ready0.setGathered 0 ((List.range 16).map fun (k : Nat) => (⟨k, []⟩ : GEntry))).gathered 0 = e :: rest ∧
    (∀ x ∈ e :: rest, x.line ≠ 16) ∧ 16 ≤ (e :: rest).length := ⟨⟨0, []⟩, ((List.range 15).map fun (k : Nat) => (⟨k + 1, []⟩ : GEntry)), by decide +kernel⟩

theorem wit_access_load : ∃ (s : State) (a : GAccess), a.store = false ∧ s.linePoison 1 = false ∧
    (s.lane a.part a.lane).iss.xBusy.contains a.rd = true ∧ (s.lane a.part a.lane).iss.xNew.contains a.rd = false ∧
    (s.lane a.part a.lane).iss.fetched = true ∧ Map.wf 0 (s.lane a.part a.lane).arch.x = true :=
  ⟨tile0 .running (lane0 { fetched := true, xBusy := [16] }), ⟨0, 0, false, 56, 8, false, 16, 0⟩, by decide +kernel⟩

/-! ### Witnesses: TileLoads, MatrixOperations -/

/-- A word of an L slot: register 0, destination `dst`, `n` units, offset `off`. -/
def lWord (op dst n off : Nat) : DWord := BitVec.ofNat 64 (op * 2 ^ 60 + dst * 2 ^ 45 + (n - 1) * 2 ^ 37 + off)

theorem wit_ldt : ∃ t, (ready0).gate (only 0 1) 1 = .go t ∧
    lOp (lWord 0 5 2 523744) = 0 ∧ t.xHeld (only 0 1) [lAreg (lWord 0 5 2 523744)] = false ∧ t.destBusy (only 0 1) .ldt (lWord 0 5 2 523744) = false ∧
    ((t.lx (only 0 1) (lAreg (lWord 0 5 2 523744)) + lOff (lWord 0 5 2 523744)).toNat % RKind.align .ldt = 0 ∧
      (t.part 0).inRegion (t.lx (only 0 1) (lAreg (lWord 0 5 2 523744)) + lOff (lWord 0 5 2 523744)).toNat (RKind.unit .ldt * lCount (lWord 0 5 2 523744)) = true) :=
  goes (by decide +kernel)

theorem wit_ldt_fault : ∃ t, (ready0).gate (only 0 1) 1 = .go t ∧
    lOp (lWord 0 5 2 8) = 0 ∧ t.xHeld (only 0 1) [lAreg (lWord 0 5 2 8)] = false ∧ t.destBusy (only 0 1) .ldt (lWord 0 5 2 8) = false ∧
    ¬ ((t.lx (only 0 1) (lAreg (lWord 0 5 2 8)) + lOff (lWord 0 5 2 8)).toNat % RKind.align .ldt = 0 ∧
      (t.part 0).inRegion (t.lx (only 0 1) (lAreg (lWord 0 5 2 8)) + lOff (lWord 0 5 2 8)).toNat (RKind.unit .ldt * lCount (lWord 0 5 2 8)) = true) :=
  goes (by decide +kernel)

theorem wit_ldl : ∃ t, (ready0).gate (only 0 1) 1 = .go t ∧
    lOp (lWord 1 5 2 524160) = 1 ∧ t.xHeld (only 0 1) [lAreg (lWord 1 5 2 524160)] = false ∧ t.destBusy (only 0 1) .ldl (lWord 1 5 2 524160) = false ∧
    ((t.lx (only 0 1) (lAreg (lWord 1 5 2 524160)) + lOff (lWord 1 5 2 524160)).toNat % RKind.align .ldl = 0 ∧
      (t.part 0).inRegion (t.lx (only 0 1) (lAreg (lWord 1 5 2 524160)) + lOff (lWord 1 5 2 524160)).toNat (RKind.unit .ldl * lCount (lWord 1 5 2 524160)) = true) :=
  goes (by decide +kernel)

theorem wit_ldl_fault : ∃ t, (ready0).gate (only 0 1) 1 = .go t ∧
    lOp (lWord 1 5 2 8) = 1 ∧ t.xHeld (only 0 1) [lAreg (lWord 1 5 2 8)] = false ∧ t.destBusy (only 0 1) .ldl (lWord 1 5 2 8) = false ∧
    ¬ ((t.lx (only 0 1) (lAreg (lWord 1 5 2 8)) + lOff (lWord 1 5 2 8)).toNat % RKind.align .ldl = 0 ∧
      (t.part 0).inRegion (t.lx (only 0 1) (lAreg (lWord 1 5 2 8)) + lOff (lWord 1 5 2 8)).toNat (RKind.unit .ldl * lCount (lWord 1 5 2 8)) = true) :=
  goes (by decide +kernel)

theorem wit_ldv : ∃ t, (ready0).gate (only 0 1) 1 = .go t ∧
    lOp (lWord 2 5 2 523776) = 2 ∧ t.xHeld (only 0 1) [lAreg (lWord 2 5 2 523776)] = false ∧ t.destBusy (only 0 1) .ldv (lWord 2 5 2 523776) = false ∧
    ((t.lx (only 0 1) (lAreg (lWord 2 5 2 523776)) + lOff (lWord 2 5 2 523776)).toNat % RKind.align .ldv = 0 ∧
      (t.part 0).inRegion (t.lx (only 0 1) (lAreg (lWord 2 5 2 523776)) + lOff (lWord 2 5 2 523776)).toNat (RKind.unit .ldv * lCount (lWord 2 5 2 523776)) = true) :=
  goes (by decide +kernel)

theorem wit_ldv_fault : ∃ t, (ready0).gate (only 0 1) 1 = .go t ∧
    lOp (lWord 2 5 2 8) = 2 ∧ t.xHeld (only 0 1) [lAreg (lWord 2 5 2 8)] = false ∧ t.destBusy (only 0 1) .ldv (lWord 2 5 2 8) = false ∧
    ¬ ((t.lx (only 0 1) (lAreg (lWord 2 5 2 8)) + lOff (lWord 2 5 2 8)).toNat % RKind.align .ldv = 0 ∧
      (t.part 0).inRegion (t.lx (only 0 1) (lAreg (lWord 2 5 2 8)) + lOff (lWord 2 5 2 8)).toNat (RKind.unit .ldv * lCount (lWord 2 5 2 8)) = true) :=
  goes (by decide +kernel)

theorem wit_mvt : ∃ t, (ready0).gate (only 0 2) 2 = .go t ∧
    lOp (lWord 3 5 2 1) = 3 ∧ meet (run (bits (lWord 3 5 2 1).toNat 9 0) (lCount (lWord 3 5 2 1)) ++ run (lDst (lWord 3 5 2 1)) (lCount (lWord 3 5 2 1)))
      (t.slotsInFlight 0 0) = false ∧ meet (run (lDst (lWord 3 5 2 1)) (lCount (lWord 3 5 2 1))) (t.tileAt 0 0).slotsRead = false :=
  goes (by decide +kernel)

/-- Read 4 of lane 0 from address 64, which fills two line-buffer units, with a mark of the lane's present step. -/
def read0 (iss : LaneIssue) (poison : Bool) (writes : List Write) : State :=
  let u := (tile0 .running (lane0 iss)).writeBytes 0 64 (zeros 64) poison
  { u with fab.reads := [{ id := 4, kind := .ldl, part := 0, lane := 0, addr := 64, dst := 0, count := 2 }], fab.writes := writes }
theorem wit_scratchpadReadReturn : ∀ bad : Bool, ∃ r, ((read0 { fetched := true } bad []).fab.reads.find? (·.id == 4)) = some r ∧
    ((read0 { fetched := true } bad []).lane r.part r.lane).iss.rNew.contains 4 = false ∧ (read0 { fetched := true } bad []).readTurn r = true ∧
    ((read0 { fetched := true } bad []).flushRun r.part r.addr.toNat (r.kind.unit * r.count)).anyPoison r.part r.addr.toNat (r.kind.unit * r.count) = bad :=
  fun bad => ⟨_, rfl, by cases bad <;> decide +kernel⟩
theorem wit_scratchpadReadReturn_new : ∃ r, ((read0 { fetched := true, rNew := [4] } false []).fab.reads.find? (·.id == 4)) = some r ∧
    ((read0 { fetched := true, rNew := [4] } false []).lane r.part r.lane).iss.rNew.contains 4 = true := ⟨_, rfl, by decide +kernel⟩
theorem wit_scratchpadReadReturn_behind : ∃ r, ((read0 { fetched := true } false [{ id := 3, src := .lane 0 0, op := .wb, dst := 64, data := zeros 64 }]).fab.reads.find? (·.id == 4)) = some r ∧
    (read0 { fetched := true } false [{ id := 3, src := .lane 0 0, op := .wb, dst := 64, data := zeros 64 }]).readTurn r = false := ⟨_, rfl, by decide +kernel⟩
theorem wit_scratchpadReadReturn_none : ready0.fab.reads.find? (·.id == 4) = none := rfl
theorem wit_writeSlot : ∃ b : List Byte, b.length = 272 := ⟨zeros 272, by decide +kernel⟩

theorem wit_matmul_direct : ∃ t, (ready0).gate (only 0 3) 3 = .go t ∧
    bits (BitVec.ofNat 96 (0 * 2 ^ 57)).toNat 95 92 = 0 ∧ t.matrixHeld (only 0 3) (mDecode (BitVec.ofNat 96 (0 * 2 ^ 57))) = false ∧ (mDecode (BitVec.ofNat 96 (0 * 2 ^ 57))).wino = 0 :=
  goes (by decide +kernel)

theorem wit_matmul_wino2 : ∃ t, (ready0).gate (only 0 3) 3 = .go t ∧
    bits (BitVec.ofNat 96 (1 * 2 ^ 57)).toNat 95 92 = 0 ∧ t.matrixHeld (only 0 3) (mDecode (BitVec.ofNat 96 (1 * 2 ^ 57))) = false ∧ (mDecode (BitVec.ofNat 96 (1 * 2 ^ 57))).wino = 1 :=
  goes (by decide +kernel)

theorem wit_matmul_wino4 : ∃ t, (ready0).gate (only 0 3) 3 = .go t ∧
    bits (BitVec.ofNat 96 (2 * 2 ^ 57)).toNat 95 92 = 0 ∧ t.matrixHeld (only 0 3) (mDecode (BitVec.ofNat 96 (2 * 2 ^ 57))) = false ∧ 1 < (mDecode (BitVec.ofNat 96 (2 * 2 ^ 57))).wino :=
  goes (by decide +kernel)

theorem wit_accumulatorWrite : ∃ s : State, (s.tileAt 0 0).accPend ≠ [] :=
  ⟨ready0.modTileAt 0 0 fun x => { x with accPend := [⟨2047, List.replicate 16 7, true, false⟩] }, by decide +kernel⟩

theorem wit_winoOut : ∃ t, (ready0).gate (only 0 3) 3 = .go t ∧
    bits (BitVec.ofNat 96 (2 ^ 92)).toNat 95 92 = 1 ∧ t.winoOutHeld (only 0 3) (mDecode (BitVec.ofNat 96 (2 ^ 92))) = false :=
  goes (by decide +kernel)

theorem wit_direct : ∃ (o : MOp) (j r n : Nat), o.fp = false ∧ j < o.ng ∧ r < o.rows ∧ n < 16 := ⟨mDecode 0, 0, 0, 15, by decide +kernel⟩
theorem wit_writeAcc : ∃ r : AccRow, r.words.length = 16 := ⟨⟨2047, List.replicate 16 0, true, false⟩, rfl⟩

/-! ### Witnesses: VectorArithmetic, VectorFunctions -/

/-- A word of the V slot: opcode, VD 31, VS1 30, VS2 29, VS3 28. -/
def vWord (op more : Nat) : BitVec 96 := BitVec.ofNat 96 (op * 2 ^ 90 + 31 * 2 ^ 85 + 30 * 2 ^ 80 + 29 * 2 ^ 75 + 28 * 2 ^ 70 + more)
theorem wit_vector : ∀ op ∈ List.range 24, ∃ t, ready0.gate (only 0 4) 4 = .go t ∧ (vDecode (vWord op 0)).op = op ∧
    t.vHeld (only 0 4) (vDecode (vWord op 0)) 1 false = false ∧ t.vHeld (only 0 4) (vDecode (vWord op 0)) 2 false = false ∧
    t.vHeld (only 0 4) (vDecode (vWord op 0)) 3 false = false ∧ t.vHeld (only 0 4) (vDecode (vWord op 0)) 1 true = false :=
  fun op h => goes (by revert op; decide +kernel)
theorem wit_vLogic : ∀ k ∈ [0, 1, 2], (vDecode (vWord 10 (k * 2 ^ 12))).imm.toNat % 4 = k := by decide +kernel
theorem wit_qblk : (vDecode (vWord 19 (5 * 2 ^ 56))).op = 19 ∧ (vDecode (vWord 19 (5 * 2 ^ 56))).memSel = true ∧ (vDecode (vWord 19 (5 * 2 ^ 56))).kind = 1 := by decide +kernel
theorem wit_qblk_free : ∃ t, ready0.gate (only 0 4) 4 = .go t ∧ t.vHeld (only 0 4) (vDecode (vWord 19 (5 * 2 ^ 56))) 1 true = false := goes (by decide +kernel)
theorem wit_vst_free : ∃ t, ready0.gate (only 0 4) 4 = .go t ∧ (vDecode (vWord 23 (2 ^ 58))).op = 23 ∧ (vDecode (vWord 23 (2 ^ 58))).memSel = true ∧
    t.vHeld (only 0 4) (vDecode (vWord 23 (2 ^ 58))) 1 true = false := goes (by decide +kernel)
theorem wit_qblk_reg : ∃ t, ready0.gate (only 0 4) 4 = .go t ∧ (vDecode (vWord 19 0)).op = 19 ∧ ¬ ((vDecode (vWord 19 0)).memSel = true ∧ (vDecode (vWord 19 0)).kind = 1) ∧
    t.vHeld (only 0 4) (vDecode (vWord 19 0)) 1 true = false := goes (by decide +kernel)
theorem wit_vst_none : ∃ t, ready0.gate (only 0 4) 4 = .go t ∧ (vDecode (vWord 23 0)).op = 23 ∧ (vDecode (vWord 23 0)).memSel = false ∧
    t.vHeld (only 0 4) (vDecode (vWord 23 0)) 1 true = false := goes (by decide +kernel)
theorem wit_vectorResult_reg : ∃ s : State, (s.lane 0 0).iss.vPend = [.reg 31 (List.replicate 64 7) false] :=
  ⟨tile0 .running (lane0 { fetched := true, vPend := [.reg 31 (List.replicate 64 7) false] }), rfl⟩
theorem wit_vectorResult_mem : ∃ s : State, (s.lane 0 0).iss.vPend = [.mem 0 4 [(0, zeros 64)] false false] :=
  ⟨tile0 .running (lane0 { fetched := true, vPend := [.mem 0 4 [(0, zeros 64)] false false] }), rfl⟩
theorem wit_writeV : ∃ ws : List Word, ws.length = 64 := ⟨List.replicate 64 1, rfl⟩

/-! ### Witnesses: LaneWrites, TokensAndFence -/

/-- D15 holds the handle of window 9, of this device; D0 is 0. -/
def put0 : State := (tile0 .running { arch := { x := [(31, 0x9FFFF)] }, iss := { fetched := true }, run := .running }).setWin 9 { isOpen := true, kind := .partition, flags := 1, len := 4096 }
/-- A word of the X slot: HREG `h`, OREG 0, line-buffer units from 3, `n` of them, counter 2, increment `amt`. -/
def xWord (op h n amt : Nat) : DWord := BitVec.ofNat 64 (op * 2 ^ 60 + h * 2 ^ 56 + 2 * 2 ^ 50 + 3 * 2 ^ 39 + (n - 1) * 2 ^ 31 + 2 * 2 ^ 23 + amt * 2 ^ 15)

/-- Register 1 lies past region 0: an address there faults. -/
def put1 : State := (tile0 .running { arch := { x := [(1, 0x80000), (31, 0x9FFFF)] }, iss := { fetched := true }, run := .running }).setWin 9 { isOpen := true, kind := .partition, flags := 1, len := 4096 }
/-- The same word with a scratchpad source at A register `a`, or with OREG 15. -/
def fromMem (a : Nat) (w : DWord) : DWord := w + BitVec.ofNat 64 (2 ^ 50 + a * 2 ^ 39) - BitVec.ofNat 64 (3 * 2 ^ 39)
def oreg15 (w : DWord) : DWord := w + BitVec.ofNat 64 (15 * 2 ^ 52)

/-- The conditions under which PUT acts. -/
abbrev PutActs (w : DWord) (t : State) : Prop :=
  xOp w = 0 ∧ t.xHeld (only 0 5) (xRegs w true) = false ∧ t.xSourceHeld (only 0 5) w = false ∧ t.trackerFull (t.lx (only 0 5) (xHreg w)) = false ∧
  ((t.xFlush (only 0 5) w).lane 0 0).iss.fetched = true

theorem wit_put : ∃ t, (put0).gate (only 0 5) 5 = .go t ∧ PutActs (xWord 0 15 2 1) t ∧
    ((t.xFlush (only 0 5) (xWord 0 15 2 1)).xSource (only 0 5) (xWord 0 15 2 1)).isSome = true ∧
    ((t.xFlush (only 0 5) (xWord 0 15 2 1)).lx (only 0 5) (xOreg (xWord 0 15 2 1))).toNat % 64 = 0 :=
  goes (by decide +kernel)

theorem wit_put_scratchpad : ∃ t, put1.gate (only 0 5) 5 = .go t ∧ PutActs (fromMem 0 (xWord 0 15 2 1)) t ∧
    ((t.xFlush (only 0 5) (fromMem 0 (xWord 0 15 2 1))).xSource (only 0 5) (fromMem 0 (xWord 0 15 2 1))).isSome = true ∧
    ((t.xFlush (only 0 5) (fromMem 0 (xWord 0 15 2 1))).lx (only 0 5) (xOreg (fromMem 0 (xWord 0 15 2 1)))).toNat % 64 = 0 :=
  goes (by decide +kernel)

theorem wit_put_noSource : ∃ t, put1.gate (only 0 5) 5 = .go t ∧ PutActs (fromMem 1 (xWord 0 15 2 1)) t ∧
    (t.xFlush (only 0 5) (fromMem 1 (xWord 0 15 2 1))).xSource (only 0 5) (fromMem 1 (xWord 0 15 2 1)) = none :=
  goes (by decide +kernel)

theorem wit_put_offset : ∃ t, (put0).gate (only 0 5) 5 = .go t ∧ PutActs (oreg15 (xWord 0 15 2 1)) t ∧
    ((t.xFlush (only 0 5) (oreg15 (xWord 0 15 2 1))).lx (only 0 5) (xOreg (oreg15 (xWord 0 15 2 1)))).toNat % 64 ≠ 0 :=
  goes (by decide +kernel)

theorem wit_signal : ∀ n ∈ [0, 1, 255], ∃ t, (put0).gate (only 0 5) 5 = .go t ∧
    xOp (xWord 1 15 1 n) = 1 ∧ t.xHeld (only 0 5) [xHreg (xWord 1 15 1 n)] = false ∧ t.trackerFull (t.lx (only 0 5) (xHreg (xWord 1 15 1 n))) = false ∧ xTamt (xWord 1 15 1 n) = n :=
  fun n h => goes (by revert n; decide +kernel)

/-- The conditions under which HALO acts, and whether its place exists. -/
abbrev HaloActs (w : DWord) (t : State) : Prop :=
  xOp w = 2 ∧ t.xHeld (only 0 5) (xRegs w true) = false ∧ t.xSourceHeld (only 0 5) w = false ∧ ((t.xFlush (only 0 5) w).lane 0 0).iss.fetched = true
abbrev haloPlaced (w : DWord) (u : State) : Prop :=
  (u.lx (only 0 5) (xHreg w)).toNat < ((u.onEngines 0).image.map (·.needs.lanes)).getD 0 ∧ (u.lx (only 0 5) (xOreg w)).toNat + xLen w ≤ 1024

theorem wit_halo : ∃ t, (put0).gate (only 0 5) 5 = .go t ∧ HaloActs (xWord 2 0 256 1) t ∧
    ((t.xFlush (only 0 5) (xWord 2 0 256 1)).xSource (only 0 5) (xWord 2 0 256 1)).isSome = true ∧ haloPlaced (xWord 2 0 256 1) (t.xFlush (only 0 5) (xWord 2 0 256 1)) :=
  goes (by decide +kernel)

theorem wit_halo_unplaced : ∃ t, (put0).gate (only 0 5) 5 = .go t ∧ HaloActs (oreg15 (xWord 2 0 256 1)) t ∧
    ¬ haloPlaced (oreg15 (xWord 2 0 256 1)) (t.xFlush (only 0 5) (oreg15 (xWord 2 0 256 1))) :=
  goes (by decide +kernel)

theorem wit_halo_noSource : ∃ t, put1.gate (only 0 5) 5 = .go t ∧ HaloActs (fromMem 1 (xWord 2 0 2 1)) t ∧
    (t.xFlush (only 0 5) (fromMem 1 (xWord 2 0 2 1))).xSource (only 0 5) (fromMem 1 (xWord 2 0 2 1)) = none :=
  goes (by decide +kernel)

/-- A word of the W slot: operand slots from 2, four of them, DREG `d`, OREG `o`. -/
def wWord (op d o : Nat) : DWord := BitVec.ofNat 64 (op * 2 ^ 60 + 2 * 2 ^ 58 + 2 * 2 ^ 47 + 3 * 2 ^ 39 + d * 2 ^ 35 + o * 2 ^ 31 + 7)

/-- Whether a WB's destination exists. -/
abbrev wbPlaced (w : DWord) (t : State) : Prop :=
  (t.lx (only 0 6) (wDecode w).dreg).toNat % 64 = 0 ∧ (t.part 0).inRegion (t.lx (only 0 6) (wDecode w).dreg).toNat (t.wData (only 0 6) (wDecode w)).1.length = true

theorem wit_wb : ∃ t, put1.gate (only 0 6) 6 = .go t ∧ wOp (wWord 0 0 0) = 0 ∧ t.xHeld (only 0 6) [(wDecode (wWord 0 0 0)).dreg] = false ∧
    t.wHeld (only 0 6) (wDecode (wWord 0 0 0)) = false ∧ wbPlaced (wWord 0 0 0) t :=
  goes (by decide +kernel)

theorem wit_wb_unplaced : ∃ t, put1.gate (only 0 6) 6 = .go t ∧ wOp (wWord 0 1 0) = 0 ∧ t.xHeld (only 0 6) [(wDecode (wWord 0 1 0)).dreg] = false ∧
    t.wHeld (only 0 6) (wDecode (wWord 0 1 0)) = false ∧ ¬ wbPlaced (wWord 0 1 0) t :=
  goes (by decide +kernel)

theorem wit_wbw : ∀ r ∈ [(0, true), (15, false)], ∃ t, (put0).gate (only 0 6) 6 = .go t ∧ wOp (wWord 1 15 r.1) = 1 ∧
    t.xHeld (only 0 6) [16 + (wDecode (wWord 1 15 r.1)).dreg, 16 + (wDecode (wWord 1 15 r.1)).oreg] = false ∧ t.wHeld (only 0 6) (wDecode (wWord 1 15 r.1)) = false ∧
    t.trackerFull (t.lx (only 0 6) (16 + (wDecode (wWord 1 15 r.1)).dreg)) = false ∧
    decide ((t.lx (only 0 6) (16 + (wDecode (wWord 1 15 r.1)).oreg)).toNat % 64 = 0) = r.2 :=
  fun r h => goes (by revert r; decide +kernel)

/-- The record post: two lines from A register `a`, through the handle in D15. -/
def recWord (a : Nat) : DWord := BitVec.ofNat 64 (a * 2 ^ 56 + 15 * 2 ^ 52 + 2 ^ 36 + 2 ^ 28)
/-- The shared lane with register 1 past region 0. -/
def rec0 : State := put0.modLane 0 255 fun x => { x with arch.x := [(1, 0x80000), (31, 0x9FFFF)] }

theorem wit_unitRecordPost : ∀ r ∈ [(0, true), (1, false)], ∃ t, rec0.gate (only 255 6) 6 = .go t ∧ wOp (recWord r.1) = 0 ∧
    t.xHeld (only 255 6) [bits (recWord r.1).toNat 59 56, 16 + bits (recWord r.1).toNat 55 52] = false ∧ t.recordHeld (only 255 6) (recWord r.1) = false ∧
    (let a := (t.lx (only 255 6) (bits (recWord r.1).toNat 59 56)).toNat
     let u := t.flushRun 0 a 128
     (u.lane 0 255).iss.fetched = true ∧ decide (a % 64 = 0 ∧ (u.part 0).inRegion a 128 = true) = r.2) :=
  fun r h => goes (by revert r; decide +kernel)

theorem wit_issueWrite : ∃ (v : State) (h : DWord), hReserved h = 0 ∧ v.isOwn (hDevice h) = true := ⟨put0, 0x9FFFF, by decide +kernel⟩

theorem wit_tokens : ∀ op ∈ [3, 4, 5], ∃ t, ready0.gate (only 0 5) 5 = .go t ∧ xOp (xWord op 0 1 1) = op ∧ t.xHeld (only 0 5) [xOreg (xWord op 0 1 1)] = false :=
  fun op h => goes (by revert op; decide +kernel)
theorem wit_xfence_waits : ∃ t, ({ ready0 with fab := { ready0.fab with writes := [{ id := 1, src := .lane 0 0, op := .wb, part := 0 }] } } : State).gate (only 0 5) 5 = .go t ∧
    (t.fab.writes.any fun x => x.src == .lane 0 0) = true := goes (by decide +kernel)
/-- The lane waits at its first wait entry, and the counter stands at 2. -/
def wait0 : State := { ready0 with tok := [(ready0.tokKey 0 0 0, 2)] }
theorem wit_increment : Map.wf 0 wait0.tok = true := by decide +kernel
theorem wit_waitSatisfied : ∃ (s : State) (i : Issue), s.laneOn i.part i.lane = true ∧ (s.lane i.part i.lane).iss.fetched = true ∧
    (s.lane i.part i.lane).iss.done = 0 ∧ s.mustStop i (s.atYield i.part i.lane) = false ∧ s.waits i = true ∧
    Map.get false s.tokBad (s.tokKey i.part i.lane (s.tokBase i.part i.lane + bits (s.waitEntry i) 7 0)) = false ∧
    bits (s.waitEntry i) 31 16 + 1 ≤ (s.counter i.part i.lane (s.tokBase i.part i.lane + bits (s.waitEntry i) 7 0)).toNat ∧
    (s.waitEntry i).testBit 8 = true := ⟨wait0, ⟨0, 0, 0x8001⟩, by decide +kernel⟩
theorem wit_xfence_record : ∃ t, ({ put0 with fab := { put0.fab with writes := [{ id := 1, src := .post 0 3, op := .record, part := 0 }] } } : State).gate (only 255 5) 5 = .go t ∧
    (t.fab.writes.any fun x => x.op == .record && x.src.ofPart 0) = true := goes (by decide +kernel)
theorem wit_waitSatisfied_poison : ∃ (s : State) (i : Issue), s.laneOn i.part i.lane = true ∧ (s.lane i.part i.lane).iss.fetched = true ∧
    (s.lane i.part i.lane).iss.done = 0 ∧ s.mustStop i (s.atYield i.part i.lane) = false ∧ s.waits i = true ∧
    Map.get false s.tokBad (s.tokKey i.part i.lane (s.tokBase i.part i.lane + bits (s.waitEntry i) 7 0)) = true :=
  ⟨{ ready0 with tokBad := [(ready0.tokKey 0 0 0, true)] }, ⟨0, 0, 0x8001⟩, by decide +kernel⟩
theorem wit_waitSatisfied_short : ∃ (s : State) (i : Issue), s.laneOn i.part i.lane = true ∧ (s.lane i.part i.lane).iss.fetched = true ∧
    (s.lane i.part i.lane).iss.done = 0 ∧ s.mustStop i (s.atYield i.part i.lane) = false ∧ s.waits i = true ∧
    Map.get false s.tokBad (s.tokKey i.part i.lane (s.tokBase i.part i.lane + bits (s.waitEntry i) 7 0)) = false ∧
    (s.counter i.part i.lane (s.tokBase i.part i.lane + bits (s.waitEntry i) 7 0)).toNat < bits (s.waitEntry i) 31 16 + 1 :=
  ⟨ready0, ⟨0, 0, 0x8001⟩, by decide +kernel⟩
/-- A queue that holds nothing, or holds bytes up to where the lane stands; the code clean or poisoned. -/
theorem wit_laneFetchReturn : ∀ r ∈ [(0, false), (0, true), (16, false)], ∃ s : State, s.laneOn 0 0 = true ∧
    (let q := (s.lane 0 0).iss
     let lo := (s.fillTo 0 0).1
     let hi := (s.fillTo 0 0).2
     let a := if q.qLo ≤ lo ∧ lo ≤ q.qHi then max lo q.qHi else lo
     let u := s.flushRun 0 a (hi - a)
     u.laneOn 0 0 = true ∧ lo < hi ∧ u.anyPoison 0 a (hi - a) = r.2) := by
  intro r h
  refine ⟨(tile0 .running (lane0 { qLo := 0x140, qHi := 0x140 + r.1 })).writeBytes 0 0x140 (zeros 64) r.2, ?_⟩
  revert r
  decide +kernel
/-! ### Witnesses: SharedLanePosts, PostedDataMove -/

theorem wit_dmaPost : ∀ op ∈ List.range 6, ∃ t, ready0.gate (only 255 1) 1 = .go t ∧ bits (BitVec.ofNat 64 (op * 2 ^ 60) : DWord).toNat 63 60 = op ∧
    t.xHeld (only 255 1) [bits (BitVec.ofNat 64 (op * 2 ^ 60) : DWord).toNat 59 56] = false :=
  fun op h => goes (by revert op; decide +kernel)

theorem wit_dmaPost_second : ∃ t, (ready0).gate (only 255 2) 2 = .go t ∧
    t.xHeld (only 255 2) [0] = false :=
  goes (by decide +kernel)

/-- Partition 0 with a NAND object in slot 7 and 2 MiB of registered host memory; the chain's first entry stands at 0. -/
def chain0 (entry : List Byte) : State :=
  let u := ready0.writeBytes 0 0 entry false
  { (u.modPart 0 fun y => { y with host := { base := 2 ^ 40, bytes := 2 ^ 21 }
                                   models := { staged := [(0, { used := true, id := le 16 1, bytes := 4096, ready := true })] } }).modCtx 0 0
      (fun y => { y with job := some { cmd := none, prio := 0, bound := [0] } }) with
    store := { slots := [(7, { state := 2, kind := 4, owner := 0, total := 2 ^ 20 })] } }
/-- A descriptor. -/
def desc (src dst len : Nat) : List Byte := le 8 src ++ le 8 dst ++ le 4 len ++ zeros 12
/-- What the statements ask of a chain's head: readable, sound, not of length zero. -/
abbrev HeadOk (op : Nat) (t : State) : Prop :=
  let x : Post := { id := t.clk.nextId, queue := .l0, part := 0, op := op, addr := 0, tctr := t.tokBase 0 255, tamt := 0, sel := 0,
                    base := ((t.onEngines 0).image.map (·.dataBase)).getD 0, span := ((t.onEngines 0).image.map (·.needs.ddr5)).getD 0, ctx := ((t.part 0).running).getD 0 }
  let u : State := { t with clk.nextId := t.clk.nextId + 1, fab.posts := t.fab.posts ++ [x] }
  (∀ g < 68, t.gathered g = []) ∧ (t.part 0).inRegion 0 32 = true ∧ t.anyPoison 0 0 32 = false ∧ u.descOk x (t.readBytes 0 0 32) = true ∧ dLen (t.readBytes 0 0 32) ≠ 0

theorem wit_chain_ddr5In : ∃ t, (chain0 (desc 0xFFF80 64 128)).gate (only 255 1) 1 = .go t ∧ HeadOk 0 t := goes (by decide +kernel)
theorem wit_chain_ddr5Out : ∃ t, (chain0 (desc 64 0xFFF80 128)).gate (only 255 1) 1 = .go t ∧ HeadOk 1 t := goes (by decide +kernel)
theorem wit_chain_nand : ∃ t, (chain0 (desc (7 * 2 ^ 32 + 0xFFF80) 64 128)).gate (only 255 1) 1 = .go t ∧ HeadOk 2 t := goes (by decide +kernel)
theorem wit_chain_hostIn : ∃ t, (chain0 (desc (2 ^ 21 - 8192) 64 8192)).gate (only 255 1) 1 = .go t ∧ HeadOk 3 t := goes (by decide +kernel)
theorem wit_chain_hostOut : ∃ t, (chain0 (desc 64 (2 ^ 21 - 8192) 8192)).gate (only 255 1) 1 = .go t ∧ HeadOk 4 t := goes (by decide +kernel)
theorem wit_chain_huveip : ∃ t, (chain0 (desc 64 0 128)).gate (only 255 1) 1 = .go t ∧ HeadOk 5 t := goes (by decide +kernel)

theorem wit_floamPost : ∃ t, (ready0).gate (only 255 3) 3 = .go t ∧
    t.xHeld (only 255 3) [bits (0 : BitVec 96).toNat 59 56] = false ∧ bits (0 : BitVec 96).toNat 63 60 = 0 :=
  goes (by decide +kernel)

/-- An entry of two tiles from the head of model 0's stream, not cached. -/
theorem wit_floamPost_head : ∃ t, (chain0 (le 8 (2 ^ 63) ++ le 8 64 ++ le 4 272 ++ le 4 1 ++ zeros 8)).gate (only 255 3) 3 = .go t ∧
    (let x : Post := { id := t.clk.nextId, queue := .floam, part := 0, op := 0, addr := 0, tctr := t.tokBase 0 255, tamt := 0, sel := 0,
                       base := ((t.onEngines 0).image.map (·.dataBase)).getD 0, span := ((t.onEngines 0).image.map (·.needs.ddr5)).getD 0, ctx := ((t.part 0).running).getD 0 }
     let u : State := { t with clk.nextId := t.clk.nextId + 1, fab.posts := t.fab.posts ++ [x] }
     (∀ g < 68, t.gathered g = []) ∧ (t.part 0).inRegion 0 32 = true ∧ t.anyPoison 0 0 32 = false ∧ u.entryOk x (t.readBytes 0 0 32) = true ∧
     fBytes (t.readBytes 0 0 32) ≠ 0 ∧ fCache (t.readBytes 0 0 32) = false) := goes (by decide +kernel)

/-- A stem record of mode 1: one input and one output channel, one pixel; its reserved byte 0x0B as given. -/
def stemRec (bad : Byte) : List Byte :=
  [1, 0, 1, 1, 1, 1, 1, 0, 0, 0, 0, bad] ++ zeros 12 ++ le 2 1 ++ le 2 1 ++ zeros 4 ++ le 8 0x1000 ++ le 4 64 ++ le 4 64 ++ le 8 0x2000 ++ le 8 0x3000 ++
  le 8 0x4000 ++ zeros 16 ++ le 8 0x5000 ++ zeros 32
def stem0 (bad : Byte) : State := ready0.writeBytes 0 0 (stemRec bad) false

/-- What a stem record and its requantisation entries must be. -/
abbrev StemSound (u : State) : Prop := stemFieldsOk (u.readBytes 0 0 128) (u.sharedTokens 0) = true ∧ (u.part 0).stemRangesOk (u.readBytes 0 0 128) = true
abbrev StemRead (t : State) : Prop :=
  t.xHeld (only 255 4) [0] = false ∧ (t.part 0).inRegion 0 128 = true ∧ ((t.flushRun 0 0 128).lane 0 255).iss.fetched = true ∧ (t.flushRun 0 0 128).anyPoison 0 0 128 = false
abbrev stemQuants (u : State) : Bool :=
  let b := u.readBytes 0 0 128
  let z := u.flushRun 0 (sQuant b) (16 * sCout b)
  (z.lane 0 255).iss.fetched && (List.range (sCout b)).all fun k => quantOk (z.readBytes 0 (sQuant b + 16 * k) 16)

theorem wit_stemPost : ∃ t, (stem0 0).gate (only 255 4) 4 = .go t ∧ StemRead t ∧ StemSound (t.flushRun 0 0 128) ∧ sEmpty ((t.flushRun 0 0 128).readBytes 0 0 128) = false ∧
    stemQuants (t.flushRun 0 0 128) = true := goes (by decide +kernel)
theorem wit_stemPost_empty : ∃ t, (ready0.writeBytes 0 0 ((stemRec 0).take 0x18 ++ zeros 4 ++ (stemRec 0).drop 0x1C) false).gate (only 255 4) 4 = .go t ∧ StemRead t ∧
    StemSound (t.flushRun 0 0 128) ∧ sEmpty ((t.flushRun 0 0 128).readBytes 0 0 128) = true := goes (by decide +kernel)
theorem wit_stemPost_bad : ∃ t, (stem0 1).gate (only 255 4) 4 = .go t ∧ StemRead t ∧ ¬ StemSound (t.flushRun 0 0 128) := goes (by decide +kernel)
theorem wit_stemPost_quant : ∃ t, ((stem0 0).writeBytes 0 (sQuant (stemRec 0)) (List.replicate 16 255) false).gate (only 255 4) 4 = .go t ∧ StemRead t ∧ StemSound (t.flushRun 0 0 128) ∧
    sEmpty ((t.flushRun 0 0 128).readBytes 0 0 128) = false ∧ stemQuants (t.flushRun 0 0 128) = false := goes (by decide +kernel)
theorem wit_stemPost_poison : ∃ t, (ready0.writeBytes 0 0 (stemRec 0) true).gate (only 255 4) 4 = .go t ∧ t.xHeld (only 255 4) [0] = false ∧ (t.part 0).inRegion 0 128 = true ∧
    (t.flushRun 0 0 128).anyPoison 0 0 128 = true := goes (by decide +kernel)
theorem wit_stemPost_away : ∃ t, rec0.gate (only 255 4) 4 = .go t ∧ t.xHeld (only 255 4) [1] = false ∧ (t.part 0).inRegion (t.lx (only 255 4) 1).toNat 128 = false := goes (by decide +kernel)

/-- A post of partition 0 in work. -/
def post0 (x : Post) : State := { ready0 with fab := { ready0.fab with posts := [x] } }
/-- A DMA descriptor in work: 128 bytes from 0 to 0x40. -/
def desc0 : List Byte := zeros 8 ++ le 8 0x40 ++ le 4 128 ++ zeros 12
theorem wit_inWork : ∀ op ∈ [0, 1, 2, 3], ∃ x, (post0 { id := 4, queue := .l0, part := 0, op := op, cur := desc0 }).post 4 = some x ∧ x.inWork op = true :=
  fun op h => ⟨_, rfl, by revert op; decide +kernel⟩
theorem wit_ddr5WriteAck_write : ∃ (s : State) (w : Write), s.post 4 = none ∧ s.write 4 = some w ∧ w.phase = .accepted ∧ s.toDdr w = true :=
  ⟨{ (host0.setWin 9 { isOpen := true, kind := .partition, ddr5 := true, len := 4096 }) with fab := { (host0.setWin 9 { isOpen := true, kind := .partition, ddr5 := true, len := 4096 }).fab with
      writes := [{ id := 4, src := .lane 0 0, op := .put, phase := .accepted, handle := 0x9FFFF, data := zeros 128 }] } }, _, rfl, rfl, by decide +kernel⟩
theorem wit_dmaPostComplete : ∃ (s : State) (x : Post), s.post 4 = some x ∧ x.drained = true ∧ x.write = none ∧ (x.queue = .l0 ∨ x.queue = .l1) :=
  ⟨post0 { id := 4, queue := .l0, part := 0, drained := true }, _, rfl, by decide +kernel⟩
theorem wit_floamEntryComplete : ∃ (s : State) (x : Post), s.post 4 = some x ∧ x.queue = .floam ∧ x.drained = true :=
  ⟨post0 { id := 4, queue := .floam, part := 0, drained := true }, _, rfl, by decide +kernel⟩
theorem wit_floamBlockExpand : ∃ (s : State) (x : Post), s.post 4 = some x ∧ x.queue = .floam ∧ x.cur ≠ [] ∧ (s.boundModel x.part x.cur).isSome = true ∧
    (s.arb 6 x.sel).holder = some x.part :=
  ⟨((post0 { id := 4, queue := .floam, part := 0, sel := 3, cur := zeros 32 }).modCtx 0 0 fun y => { y with job := some { cmd := none, prio := 0, bound := [0] } }).setArb 6 3 { holder := some 0 },
    _, rfl, by decide +kernel⟩
theorem wit_ddr5ReadReturn_floam : ∃ (s : State) (x : Post), s.post 4 = some x ∧ x.queue = .floam ∧ x.cur ≠ [] ∧ ((s.boundModel x.part x.cur).map fun m => m.2.nandDirect) = some false :=
  ⟨(post0 { id := 4, queue := .floam, part := 0, cur := zeros 32 }).modCtx 0 0 fun y => { y with job := some { cmd := none, prio := 0, bound := [0] } }, _, rfl, by decide +kernel⟩
theorem wit_nandRead : ∀ step ∈ List.range 8, ∃ (s : State) (x : Post), (s.nandStep step).post 4 = some x ∧ x.inWork 2 = true := by
  intro step h
  refine ⟨post0 { id := 4, queue := .l0, part := 0, op := 2, cur := desc0 }, { id := 4, queue := .l0, part := 0, op := 2, cur := desc0 }, ?_, by decide +kernel⟩
  revert step
  decide +kernel
/-- The stem engine with one command, its grant held by partition `p`. -/
def line0 (b : List Byte) (p : Option Nat) : State := ({ stem0 0 with stem := [{ post := 4, part := 0, record := b }] } : State).setArb 7 0 { holder := p }
theorem wit_stemLineStart : ∀ p ∈ [some 0, some 1, none], ∃ c, (line0 (stemRec 0) p).stem.find? (·.post == 4) = some c ∧ sEmpty c.record = false ∧ sMode c.record ≠ 0 ∧
    ((line0 (stemRec 0) p).flushInputs c).stem.any (·.post == 4) = true ∧ (((line0 (stemRec 0) p).flushInputs c).arb 7 0).holder = p ∧
    (match ((line0 (stemRec 0) p).flushInputs c).stemInputs c with
     | some (some _) => true
     | _ => false) = true := fun p h => ⟨{ post := 4, part := 0, record := stemRec 0 }, by revert p; decide +kernel⟩
theorem wit_stemLineStart_empty : ∃ (s : State) (c : StemCmd), s.stem.find? (·.post == 4) = some c ∧ sEmpty c.record = true :=
  ⟨{ ready0 with stem := [{ post := 4, part := 0, record := zeros 128 }] }, _, rfl, by decide +kernel⟩
theorem wit_stemLineStart_absent : ∃ (s : State) (c : StemCmd), s.stem.find? (·.post == 4) = some c ∧ sEmpty c.record = false ∧ sMode c.record = 0 ∧ (s.sensor (u8 c.record 1)).stemOk c.record = false :=
  ⟨line0 (0 :: (stemRec 0).drop 1) none, _, rfl, by decide +kernel⟩

/-! ### Witnesses: TrackedWrites -/

/-- Window 9 of partition 0, and a write through it. -/
def win0 (x : Win) (w : Write) : State := { (ready0.setWin 9 x) with fab := { (ready0.setWin 9 x).fab with writes := [w] } }
def winRw : Win := { isOpen := true, kind := .partition, flags := 3, len := 4096, tokFirst := 1, tokCount := 2 }
def wr (op : WOp) (phase : WPhase) (off tctr tamt : Nat) : Write :=
  { id := 4, src := .lane 0 0, op := op, phase := phase, handle := 0x30000009FFFF, off := off, data := zeros 64, tctr := tctr, tamt := tamt }

/-- The checks of an arriving write in their order: the number of the first that fails, 4 where none does. -/
def arrival (s : State) (w : Write) : Nat :=
  let x := s.win (hWindow w.handle)
  if x.isOpen = false ∨ hGen w.handle ≠ x.gen then 0
  else if hFlags w.handle ≠ x.hFlags ∨ x.flags.testBit (if w.op = .signal then 1 else 0) = false ∨ (w.src.foreign x.part = true ∧ x.flags.testBit 2 = false) then 1
  else if x.len < w.off + (w.data.length + 64 * w.missing) then 2
  else if w.multi = false ∧ w.tamt ≠ 0 ∧ x.tokCount ≤ w.tctr then 3 else 4

theorem wit_windowWriteArrival : ∀ k ∈ List.range 5, ∃ (s : State) (w : Write), s.write 4 = some w ∧ w.phase = .issued ∧ w.windowed = true ∧
    s.isOwn (hDevice w.handle) = true ∧ arrival s w = k := by
  intro k h
  match k, h with
  | 0, _ => exact ⟨win0 {} (wr .put .issued 0 1 1), _, rfl, by decide +kernel⟩
  | 1, _ => exact ⟨win0 { winRw with flags := 2 } (wr .put .issued 0 1 1), _, rfl, by decide +kernel⟩
  | 2, _ => exact ⟨win0 winRw (wr .put .issued 4096 1 1), _, rfl, by decide +kernel⟩
  | 3, _ => exact ⟨win0 winRw (wr .put .issued 4032 2 1), _, rfl, by decide +kernel⟩
  | 4, _ => exact ⟨win0 winRw (wr .put .issued 4032 1 1), _, rfl, by decide +kernel⟩

theorem wit_scratchpadWriteComplete : ∃ (s : State) (w : Write), s.write 4 = some w ∧ w.windowed = false ∧ w.phase = .issued ∧
    meet (run w.off (w.data.length / 64)) (s.tileAt w.part w.dst).unitsRead = false ∧ s.writeTurn w = true ∧ w.data ≠ [] :=
  ⟨win0 winRw (wr .halo .issued 0 1 1), _, rfl, by decide +kernel⟩

theorem wit_scratchpadWriteComplete_window : ∀ d ∈ [[], zeros 64], ∃ w, (win0 winRw { wr .put .accepted 0 1 1 with data := d }).write 4 = some w ∧ w.windowed = true ∧ w.phase = .accepted ∧ w.missing = 0 ∧
    ((win0 winRw { wr .put .accepted 0 1 1 with data := d }).toDdr w = false ∨ w.data = []) ∧ (win0 winRw { wr .put .accepted 0 1 1 with data := d }).writeTurn w = true ∧ w.data = d :=
  fun d h => ⟨_, rfl, by revert d; decide +kernel⟩

/-- An earlier write of the same lane to the same line. -/
theorem wit_scratchpadWriteComplete_behind : ∃ (s : State) (w : Write), s.write 4 = some w ∧ w.windowed = false ∧ w.phase = .issued ∧ w.op = .wb ∧ s.writeTurn w = false :=
  ⟨{ ready0 with fab.writes := [{ id := 4, src := .lane 0 0, op := .wb, data := zeros 64 }, { id := 3, src := .lane 0 0, op := .wb, data := zeros 64 }] }, _, rfl, by decide +kernel⟩

theorem wit_incrementApply_none : ∃ (s : State) (w : Write), s.write 4 = some w ∧ w.phase = .landed ∧ w.id = 4 ∧ w.tamt = 0 ∧ w.windowed = true :=
  ⟨win0 winRw (wr .put .landed 0 1 0), _, rfl, by decide +kernel⟩

theorem wit_incrementApply_halo : ∃ (s : State) (w : Write), s.write 4 = some w ∧ w.phase = .landed ∧ w.id = 4 ∧ w.tamt ≠ 0 ∧ w.op = .halo :=
  ⟨win0 winRw (wr .halo .landed 0 1 255), _, rfl, by decide +kernel⟩

theorem wit_incrementApply_wb : ∃ (s : State) (w : Write), s.write 4 = some w ∧ w.phase = .landed ∧ w.id = 4 ∧ w.tamt ≠ 0 ∧ w.op = .wb ∧ w.src = .lane 0 0 :=
  ⟨win0 winRw (wr .wb .landed 0 1 255), _, rfl, by decide +kernel⟩

theorem wit_incrementApply_window : ∃ (s : State) (w : Write), s.write 4 = some w ∧ w.phase = .landed ∧ w.id = 4 ∧ w.tamt ≠ 0 ∧ w.windowed = true ∧ w.tctr < (s.win (hWindow w.handle)).tokCount ∧
    (s.win (hWindow w.handle)).kind = .partition :=
  ⟨win0 winRw (wr .put .landed 0 1 255), _, rfl, by decide +kernel⟩

theorem wit_writeCompletion : ∃ (s : State) (w : Write), s.write 4 = some w ∧ (w.phase = .applied ∨ w.phase = .faulted) :=
  ⟨win0 winRw (wr .put .faulted 0 1 255), _, rfl, by decide +kernel⟩

theorem wit_writeTrackerTimeout : ∃ (s : State) (w : Write), s.write 4 = some w ∧ w.phase = .sent :=
  ⟨win0 winRw (wr .put .sent 0 1 255), _, rfl, by decide +kernel⟩

theorem wit_incrementApply_plain : ∃ (s : State) (w : Write), s.write 4 = some w ∧ w.phase = .landed ∧ w.id = 4 ∧ w.tamt = 0 ∧ w.windowed = false :=
  ⟨win0 winRw (wr .halo .landed 0 1 0), _, rfl, by decide +kernel⟩

theorem wit_incrementApply_past : ∃ (s : State) (w : Write), s.write 4 = some w ∧ w.phase = .landed ∧ w.id = 4 ∧ w.tamt ≠ 0 ∧ w.windowed = true ∧ (s.win (hWindow w.handle)).tokCount ≤ w.tctr :=
  ⟨win0 winRw (wr .put .landed 0 2 1), _, rfl, by decide +kernel⟩

theorem wit_remoteWriteAbandon : ∃ (s : State) (w : Write), s.write 4 = some w ∧ w.phase = .issued ∧ w.missing ≠ 0 :=
  ⟨win0 winRw { wr .put .issued 0 1 255 with missing := 3 }, _, rfl, by decide +kernel⟩

theorem wit_remoteWriteAbandon_accepted : ∀ ddr5 : Bool, ∃ (s : State) (w : Write), s.write 4 = some w ∧ w.phase = .accepted ∧ w.missing ≠ 0 ∧ s.toDdr w = ddr5 :=
  fun ddr5 => ⟨win0 { winRw with ddr5 := ddr5 } { wr .put .accepted 0 1 255 with missing := 3 }, _, rfl, by cases ddr5 <;> decide +kernel⟩

theorem wit_releaseSignal : ∃ (s : State) (w : Write), s.write 4 = some w ∧ s.fab.writes.find? (fun y =>
    y.phase == .landed && y.windowed && (s.win (hWindow y.handle)).kind == .release 2 && y.tamt == 255) = some w :=
  ⟨win0 { winRw with kind := .release 2 } (wr .signal .landed 0 0 255), _, rfl, by decide +kernel⟩

/-! ### Witnesses: JobsStartAndEnd, PreemptionCourse, RebindAndSwap -/

/-- A job on sequence 1, and the pool it needs. -/
def job0 : Job := { cmd := none, prio := 3, hasLt := true, lt := [⟨20, 4, 1⟩], statsAddr := 0x1000 }
def kvJob (x : Ctx) (rest : Map Ctx) : State :=
  ((kv0 [(1, openSeq0)] []).modPart 0 fun q => { q with cfg := { q.cfg with engineMask := 1 }, ctxs := (0, x) :: rest })
theorem wit_jobStart : ∃ s : State, (s.ctx 0 0).state = .loaded ∧ (s.part 0).state = .enabled ∧ (s.ctx 0 0).image = some image0 ∧
    (s.ctx 0 0).waiting = [job0] ∧ ¬ (∃ e ∈ (s.part 0).cfg.engines, s.hasTile e = false ∧ s.spareGone e = true) ∧ job0.lt.all (s.part 0).kv.ltOk = true :=
  ⟨kvJob { state := .loaded, image := some image0, waiting := [job0] } [], by decide +kernel⟩
theorem wit_jobStart_sequence : ∃ s : State, (s.ctx 0 0).state = .loaded ∧ (s.part 0).state = .enabled ∧ (s.ctx 0 0).image = some image0 ∧
    (s.ctx 0 0).waiting = [{ job0 with lt := [⟨19, 4, 1⟩] }] ∧ ¬ (∃ e ∈ (s.part 0).cfg.engines, s.hasTile e = false ∧ s.spareGone e = true) ∧
    [(⟨19, 4, 1⟩ : LtEntry)].all (s.part 0).kv.ltOk = false :=
  ⟨kvJob { state := .loaded, image := some image0, waiting := [{ job0 with lt := [⟨19, 4, 1⟩] }] } [], by decide +kernel⟩
theorem wit_jobStart_tile : ∃ s : State, (s.ctx 0 0).state = .loaded ∧ (s.part 0).state = .enabled ∧ (s.ctx 0 0).image = some image0 ∧
    (s.ctx 0 0).waiting = [job0] ∧ ∃ e ∈ (s.part 0).cfg.engines, s.hasTile e = false ∧ s.spareGone e = true :=
  ⟨{ kvJob { state := .loaded, image := some image0, waiting := [job0] } [] with engineMap := [(0, 69)], module := { host0.module with fencedTiles := [0, 16] } }, by decide +kernel⟩
theorem wit_startJob : ∃ s : State, (s.ctx 0 0).state = .starting ∧ (s.ctx 0 0).image = some image0 ∧ (s.ctx 0 0).job = some job0 ∧
    s.tableEntries + sumNat (((s.part 0).kv.need job0.lt).map fun e => e.2.length) ≤ 16777216 ∧
    (match ((s.part 0).kv.need job0.lt).foldl (fun (t : Option State) e => t.bind fun u => u.allocKeys 0 e.1 e.2) (some s) with
     | some t => !((ltNamed job0.lt).any (t.part 0).kv.hasSwapped)
     | none => false) = true :=
  ⟨kvJob { state := .starting, image := some image0, job := some job0 } [], by decide +kernel⟩
theorem wit_jobComplete : ∃ s : State, ((s.ctx 0 0).state = .running ∨ (s.ctx 0 0).state = .stopping) ∧
    (∀ l ∈ (s.ctx 0 0).laneIds, (s.lane 0 l).run = .ended) ∧ s.quiet 0 = true := ⟨tile0 .running { run := .ended }, by decide +kernel⟩
theorem wit_jobTimeout : ∃ s : State, (s.part 0).cfg.jobTimeoutMs ≠ 0 := ⟨part0 { cfg := { jobTimeoutMs := 1 } }, by decide +kernel⟩
theorem wit_endJob : ∃ s : State, (s.ctx 0 0).image = some image0 ∧ (s.ctx 0 0).job.isSome = true ∧ ((s.ctx 0 0).state = .running ∨ (s.ctx 0 0).state = .stopping) :=
  ⟨ready0, by decide +kernel⟩
/-- A context of priority `prio` ready beside the one on the engines, whose job has priority 3. -/
def rival0 (st : CState) (prio : Nat) (l : Lane) : State :=
  (tile0 st l).modPart 0 fun q => { q with cfg := { q.cfg with waitSwitchUs := 1 }, ctxs := [(0, { state := st, image := some image0, job := some job0 }), (1, { state := .ready, job := some { cmd := none, prio := prio } })] }
theorem wit_preempt_higher : ∃ s : State, (s.part 0).running = some 0 ∧ (s.part 0).cfg.reserved = false ∧ (s.ctx 0 0).state = .running ∧
    (∃ y ∈ (s.part 0).rivals 0, (s.ctx 0 0).prio < y.prio) := ⟨rival0 .running 4 (lane0 {}), by decide +kernel⟩
theorem wit_preempt_equal : ∃ s : State, (s.part 0).running = some 0 ∧ (s.part 0).cfg.reserved = false ∧ (s.ctx 0 0).state = .running ∧
    (∃ y ∈ (s.part 0).rivals 0, y.prio = (s.ctx 0 0).prio) := ⟨rival0 .running 3 (lane0 {}), by decide +kernel⟩
theorem wit_preempt_none : ∃ s : State, (s.part 0).running = some 0 ∧ (s.part 0).cfg.reserved = false ∧ (s.ctx 0 0).state = .running ∧
    (∀ y ∈ (s.part 0).rivals 0, y.prio ≠ (s.ctx 0 0).prio) := ⟨rival0 .running 2 (lane0 {}), by decide +kernel⟩
theorem wit_preempt_victim : ∃ s : State, (s.part 0).running = some 0 ∧ (s.part 0).cfg.reserved = false ∧ (s.ctx 0 0).state = .running ∧
    (s.part 0).kv.victim = some 1 ∧ ((s.part 0).kv.seq 1).busy = some 0 :=
  ⟨(rival0 .running 2 (lane0 {})).modKv 0 fun y => { y with seqs := [(1, { openSeq0 with busy := some 0 })], victim := some 1 }, by decide +kernel⟩
theorem wit_waitSwitchExpiry : ∃ s : State, (s.part 0).running = some 0 ∧ (s.part 0).cfg.reserved = false ∧ (s.ctx 0 0).state = .running ∧
    (s.part 0).cfg.waitSwitchUs ≠ 0 ∧ (s.part 0).rivals 0 ≠ [] ∧
    (∀ l ∈ (s.ctx 0 0).laneIds, (s.lane 0 l).run = .ended ∨ (s.lane 0 l).iss.waitSince.isSome = true) :=
  ⟨rival0 .running 2 (lane0 { fetched := true, waitSince := some 0 }), by decide +kernel⟩
theorem wit_yieldStop : ∃ s : State, s.laneOn 0 0 = true ∧ (s.onEngines 0).state = .stopping ∧ (s.lane 0 0).iss.iter = 0 ∧ (s.lane 0 0).iss.done = 0 ∧
    (s.lane 0 0).iss.granted = false ∧ s.atYield 0 0 = true := ⟨tile0 .stopping (lane0 {}), by decide +kernel⟩
theorem wit_contextSave : ∃ s : State, (s.part 0).running = some 0 ∧ (s.ctx 0 0).image = some image0 ∧ (s.ctx 0 0).state = .stopping ∧
    (∀ l ∈ image0.laneIds, (s.lane 0 l).run = .stopped ∨ (s.lane 0 l).run = .ended) ∧ (∃ l ∈ image0.laneIds, (s.lane 0 l).run = .stopped) ∧
    s.quiet 0 = true := ⟨tile0 .stopping { run := .stopped }, by decide +kernel⟩
/-- A page event whose victim is sequence 1. -/
def victim0 : State := (kv0 [(1, { openSeq0 with table := [(0, .resident 3)] })] []).modKv 0 fun y => { y with pages := [(3, { refs := 1 })], victim := some 1 }
theorem wit_swapOutComplete : ∃ s : State, (s.part 0).kv.victim = some 1 ∧ s.host.swapPaused = false ∧ ((s.part 0).kv.seq 1).busy = none ∧
    (s.swapOut 0 1).isSome = true := ⟨victim0, by decide +kernel⟩
theorem wit_swapOutComplete_saved : ∃ s : State, (s.part 0).kv.victim = some 1 ∧ s.host.swapPaused = false ∧ ((s.part 0).kv.seq 1).busy = some 0 ∧
    (s.ctx 0 0).resident = false ∧ (s.swapOut 0 1).isSome = true :=
  ⟨(victim0.modKv 0 fun y => { y with seqs := [(1, { openSeq0 with table := [(0, .resident 3)], busy := some 0 })] }).modCtx 0 0 fun y => { y with state := .saved, job := some job0 }, by decide +kernel⟩
theorem wit_swapOutComplete_none : ∃ s : State, s.swapOut 0 1 = none := by
  have h : (((kv0 [(1, { openSeq0 with table := [(0, .resident 3), (1, .resident 4)] })] []).modKv 0 fun y => { y with pages := [(3, { refs := 1 }), (4, { refs := 1 })] }).swapOut 0 1).isNone = true := by
    decide +kernel
  exact ⟨_, Option.isNone_iff_eq_none.1 h⟩
theorem wit_preempt_asked : ∃ s : State, (s.part 0).running = some 0 ∧ (s.part 0).cfg.reserved = false ∧ (s.ctx 0 0).state = .running ∧
    ∃ e ∈ s.host.queues, ∃ k ∈ e.2.cmds, k.await = some (0, 0) :=
  ⟨(rival0 .running 2 (lane0 {})).setQueue 3 { live := true, cmds := [{ ({ op := 0x0502 } : Case).cmd with await := some (0, 0) }] }, by decide +kernel⟩
theorem wit_preemptTimeout : ∃ s : State, (s.part 0).running = some 0 ∧ (s.ctx 0 0).state = .stopping := ⟨tile0 .stopping (lane0 {}), by decide +kernel⟩
/-- A post reads host unit 0, which stands as given. -/
def swapIn0 (u : SwapUnit) : State :=
  (post0 { id := 4, queue := .l0, part := 0, op := 3, cur := desc0 }).modPart 0 fun q => { q with host := { q.host with units := [(0, u)] } }

theorem wit_swapIn_match : ∃ s : State, s.host.swapPaused = false ∧
    (s.fab.posts.find? fun x => x.part == 0 && x.inWork 3 && (dSrc x.cur + x.moved) / 8192 == 0).isSome = true ∧
    (let r := Map.get {} (s.part 0).host.units 0; r.written = true ∧ r.carried = false) := ⟨swapIn0 { written := true }, by decide +kernel⟩

theorem wit_swapIn_complement : ∃ s : State, s.host.swapPaused = false ∧
    (s.fab.posts.find? fun x => x.part == 0 && x.inWork 3 && (dSrc x.cur + x.moved) / 8192 == 0).isSome = true ∧
    (let r := Map.get {} (s.part 0).host.units 0; r.written = true ∧ r.carried = true) := ⟨swapIn0 { written := true, carried := true }, by decide +kernel⟩

theorem wit_swapIn_fault : ∃ s : State, s.host.swapPaused = false ∧
    (s.fab.posts.find? fun x => x.part == 0 && x.inWork 3 && (dSrc x.cur + x.moved) / 8192 == 0).isSome = true ∧
    (let r := Map.get {} (s.part 0).host.units 0; (r.written = false ∨ r.carried = false ∧ TagCheck.fail ≠ TagCheck.match ∨ r.carried = true ∧ TagCheck.fail ≠ TagCheck.complement)) := ⟨swapIn0 { written := true }, by decide +kernel⟩

/-- Engine 0 has lost its tile; the spare of its quadrant is free, or fenced. -/
def tileless0 (fenced : List Nat) : State :=
  { part0 { state := .enabled, cfg := { engineMask := 1 } } with engineMap := [(0, 69)], module := { host0.module with fencedTiles := fenced } }

theorem wit_rebind : ∃ s : State, (s.part 0).state ≠ .free ∧ (∀ e ∈ (s.part 0).ctxs, e.2.state ≠ .starting ∧ e.2.state ≠ .running ∧ e.2.state ≠ .stopping) ∧
    ((s.part 0).cfg.engines.foldl (fun t e => t.bindSpare 0 e) s).allTiles 0 = true := ⟨tileless0 [0], by decide +kernel⟩

theorem wit_rebind_none : ∃ s : State, (s.part 0).state ≠ .free ∧ (∀ e ∈ (s.part 0).ctxs, e.2.state ≠ .starting ∧ e.2.state ≠ .running ∧ e.2.state ≠ .stopping) ∧
    ((s.part 0).cfg.engines.foldl (fun t e => t.bindSpare 0 e) s).allTiles 0 = false := ⟨tileless0 [0, 16], by decide +kernel⟩

theorem wit_bindSpare : ∃ s : State, s.hasTile 0 = false ∧ 17 * (0 / 16) + 16 ∉ s.module.fencedTiles ∧ s.engineOn (17 * (0 / 16) + 16) = none := ⟨tileless0 [0], by decide +kernel⟩

/-! ### Witnesses: ArbiterDecisions, ScratchpadBanks -/

/-- Arbiter of type 1, instance 7, as given. -/
def arb0 (x : Arbiter) : State := host0.setArb 1 7 x
abbrev pendingOf (s : State) (ty inst : Nat) (l : List Nat) : List Nat :=
  (dedup l).filter fun r => decide (r < arbRequesters ty) && !(s.arb ty inst).masked.contains r && !s.portOff ty inst r
abbrev Urgent (s : State) (ty inst : Nat) (em : Bool) (w : Nat) : Prop :=
  em = true ∧ arbEmergency ty = some w ∧ (s.arb ty inst).masked.contains w = false ∧ (ty = 1 → 5 ≤ (Map.get {} s.ddr.subs inst).owed)

theorem wit_arbiterGrant : ∃ s : State, (∀ w, ¬ Urgent s 1 7 false w) ∧ (s.arb 1 7).interrupted = none ∧
    (s.arbChoose 1 7 (pendingOf s 1 7 [3, 19, 3, 99])).isSome = true ∧ (s.arb 1 7).rotating 1 = false :=
  ⟨arb0 {}, fun w h => by simpa using h.1, by decide +kernel⟩

/-- An arbiter of a shared engine turns round and round. -/
theorem wit_arbiterGrant_rotating : ∃ s : State, (∀ w, ¬ Urgent s 7 0 true w) ∧ (s.arb 7 0).interrupted = none ∧
    (s.arbChoose 7 0 (pendingOf s 7 0 [3, 9])).isSome = true ∧ (s.arb 7 0).rotating 7 = true :=
  ⟨host0.setArb 7 0 ((host0.arb 7 0).configure 7 ((host0.arb 7 0).cfg 7 / 4 * 4 + 1)), fun w h => by have := h.2.1; revert this; simp [arbEmergency], by decide +kernel⟩

theorem wit_arbiterGrant_none : ∃ s : State, (∀ w, ¬ Urgent s 1 7 true w) ∧ (s.arb 1 7).interrupted = none ∧ pendingOf s 1 7 [3, 99] = [] :=
  ⟨arb0 { masked := [3] }, fun w h => by have := h.2.2.2 rfl; revert this; decide +kernel, by decide +kernel⟩

theorem wit_arbiterGrant_emergency : ∃ s : State, Urgent s 1 7 true 22 :=
  ⟨{ arb0 {} with ddr := { subs := [(7, { owed := 5 })] } }, by decide +kernel⟩

theorem wit_arbiterGrant_emergency_masked : ∃ s : State, ∀ w, ¬ Urgent s 1 7 true w :=
  ⟨{ arb0 { masked := [22] } with ddr := { subs := [(7, { owed := 5 })] } }, fun w h => by
    have h2 : w = 22 := by simpa [arbEmergency] using h.2.1.symm
    have h3 := h.2.2.1
    rw [h2] at h3
    revert h3
    decide +kernel⟩

theorem wit_arbiterGrant_resume : ∃ s : State, (∀ w, ¬ Urgent s 1 7 false w) ∧ (s.arb 1 7).interrupted = some 4 :=
  ⟨arb0 { interrupted := some 4 }, fun w h => by simpa using h.1, by decide +kernel⟩

theorem wit_starvationPromotion : ∃ s : State, (s.arb 1 7).rotating 1 = false ∧ (s.arb 1 7).threshold 1 ≤ Map.get 0 (s.arb 1 7).waits 3 ∧ s.effClass 1 7 3 < 3 :=
  ⟨arb0 { waits := [(3, 64)] }, by decide +kernel⟩

theorem wit_sidebandMask : 543 < arbInstances 0 ∧ 4 < arbRequesters 0 ∧ 0 < arbInstances 7 ∧ (22 < arbRequesters 1 ∨ arbEmergency 1 = some 22) := by decide +kernel


/-- Bank 0 as given. -/
def bank0 (x : Bank) : State := host0.setBank 0 x
/-- The same, and no bank is spare. -/
def spent0 (x : Bank) : State := { host0 with sp := { host0.sp with banks := [(0, x)] } }

theorem wit_patrolScrub : ∃ s : State, (s.bank 0).state = .inService :=
  ⟨bank0 {}, by decide +kernel⟩

theorem wit_bankRetirement : ∃ s : State, (s.bank 0).state = .inService ∧ ((s.bank 0).ceTrigger = true ∨ (s.bank 0).ueTrigger = true) ∧ s.spareFor 0 = some 128 :=
  ⟨bank0 { ceTrigger := true }, by decide +kernel⟩

theorem wit_bankRetirement_none : ∃ s : State, (s.bank 0).state = .inService ∧ (s.bank 0).ueTrigger = true ∧ s.spareFor 0 = none :=
  ⟨spent0 { ueTrigger := true }, by decide +kernel⟩

theorem wit_bankRetirement_kept : ∃ s : State, (s.bank 0).state = .inService ∧ (s.bank 0).ueTrigger = false ∧ (s.bank 0).ceTrigger = true ∧ s.spareFor 0 = none :=
  ⟨spent0 { ceTrigger := true }, by decide +kernel⟩

theorem wit_spareFor : ∃ s : State, ∀ b ∈ [0, 136, 543], s.spareFor b ≠ none := ⟨host0, by decide +kernel⟩

theorem wit_hotWindowEnd : ∃ s : State, s.bankOwner 0 = none := ⟨bank0 {}, by decide +kernel⟩

/-- Banks 0 and 1 in one region: bank 0 ends its window `n`, bank 1 stands at its window 4. -/
def hot0 (n : Nat) : State :=
  ((part0 { regions := [(0, { defined := true, mode := 1, banks := [0, 1] })] }).setBank 0 { windows := n, windowNow := 786432 }).setBank 1 { windows := 4 }
theorem wit_hotWindowEnd_region : ∀ n ∈ [2, 3], (hot0 n).bankOwner 0 = some (0, 0) ∧
    decide (∀ k ∈ (((hot0 n).part 0).region 0).banks, (((hot0 n).setBank 0 { (hot0 n).bank 0 with windows := n + 1 }).bank k).windows = n + 1) = (n == 3) := by decide +kernel
theorem wit_hotWindowEnd_judged : ∃ t : State, (t.bank 0).windows ≠ 0 := ⟨hot0 1, by decide +kernel⟩

theorem wit_retention : ∃ s : State, (s.bank 0).retention = true :=
  ⟨bank0 { retention := true }, by decide +kernel⟩

/-! ### Witnesses: HuveipFrames, HuveipBringUp, HuveipLinkUpkeep -/

/-- Port 3 as given, of device 1. -/
def port0 (x : Port) : State := { host0.setPort 3 x with huv := { (host0.setPort 3 x).huv with devId := 1 } }
/-- Frame 5 of one write: no acknowledgment, CRC and tag good. -/
def frame0 (crc : Bool) : RxFrame := ⟨5, 0, false, false, 0, 1, 2, true, true, 9, 0, 3, 0, 0, 0, 7, 15, zeros 64, crc, false, true⟩
def up0 : State := port0 { state := .up, rxNext := 5, credits := { c0 := 1, c1 := 1, cc := 1 } }
/-- The conditions under which port 3 accepts a frame in order. -/
abbrev Sound (s : State) (ty : Nat) (rx : RxFrame) : Prop :=
  (s.port 3).carries ty = true ∧ rx.crcInverted = false ∧ rx.crcOk = true ∧ rx.tagOk = true ∧ rx.ackv = false ∧ rx.nak = false ∧
  rx.seq = ((s.drainWaiting 3).port 3).rxNext % 4096
/-- The state once it has accepted it. -/
def accepted (s : State) (rx : RxFrame) : State :=
  let u := s.drainWaiting 3
  (u.setPort 3 { u.port 3 with
    rxNext := (u.port 3).rxNext + 1
    session := { (u.port 3).session with frames := (u.port 3).session.frames + 1 }
    stats := { (u.port 3).stats with framesRx := (u.port 3).stats.framesRx + 1 } }).emit (.link 3 kAck [rx.seq])

theorem wit_receive_bad : ∃ s : State, (s.port 3).carries tyWrite = true ∧ (frame0 false).crcInverted = false ∧ (frame0 false).crcOk = false :=
  ⟨up0, by decide +kernel⟩

theorem wit_receive : ∀ ty ∈ [tyWrite, tySignal, tyCompletion, tyLink, tyPace], Sound up0 ty (frame0 true) ∧ up0.huv.heldRoutes = [] := by decide +kernel

theorem wit_frame_pace : (accepted up0 (frame0 true)).huv.paceSeen.contains (u16 (fit 0 64 (frame0 true).payload) 0, u16 (fit 0 64 (frame0 true).payload) 2) = false := by decide +kernel

def paced0 : State := { up0 with huv := { up0.huv with paceSeen := [(0, 0)] } }
theorem wit_frame_pace_seen : Sound paced0 tyPace (frame0 true) ∧
    (accepted paced0 (frame0 true)).huv.paceSeen.contains (u16 (fit 0 64 (frame0 true).payload) 0, u16 (fit 0 64 (frame0 true).payload) 2) = true := by decide +kernel
def here0 : State := { up0 with huv := { up0.huv with routes := [(65536 * 7 + 1, 1), (65536 * 7 + 3, 12)] } }
theorem wit_frame_completion : Sound here0 tyCompletion (frame0 true) ∧ (accepted here0 (frame0 true)).way (4 + 3) (frame0 true).dst = .here := by decide +kernel
theorem wit_frame_completion_none : Sound up0 tyCompletion { frame0 true with dst := 9 } ∧ (accepted up0 (frame0 true)).way (4 + 3) 9 = .none := by decide +kernel

theorem wit_way : ∃ s : State, s.way (4 + 3) 1 = .here ∧ s.way (4 + 3) 2 = .none ∧ (match s.way (4 + 3) 3 with
    | .out _ _ => true
    | _ => false) = true :=
  ⟨here0, by decide +kernel⟩

theorem wit_forwardFrame : ({ frame0 true with hops := 1 }).hops ≤ 1 ∧ 1 < (frame0 true).hops ∧ (up0.port 3).carries 0 = true ∧ (up0.port 2).carries 0 = false := by decide +kernel

/-- The frame as it goes on. -/
abbrev onward (ty : Nat) (rx : RxFrame) : TxFrame :=
  { ty := ty, f := { rx with vc := if rx.vc = 1 ∨ false = true then 1 else 0, hops := rx.hops - 1 }, source := some (3, rx.vc) }
theorem wit_forwardFrame_clear : ∀ k ∈ [(1, true), (0, false)], 1 < (frame0 true).hops ∧
    ((port0 { state := .up, credits := { c0 := k.1 } }).port 3).carries tyWrite = true ∧
    ((port0 { state := .up, credits := { c0 := k.1 } }).port 3).clear (onward tyWrite (frame0 true)) = k.2 := by decide +kernel

theorem wit_trainingDone : ∀ st ∈ [PortState.training, .up, .retraining], ∀ k ∈ [(0xFF, 8), (0x7F, 7), (0x3F, 6), (0xF, 4)], k.2 ∈ [4, 6, 7, 8] ∧
    ((port0 { state := st, usable := k.1 }).port 3).state = st ∧ k.2 ≤ (bitList ((port0 { state := st, usable := k.1 }).port 3).usable 8).length := by decide +kernel

theorem wit_linkBringup : ∃ s : State, (s.port 3).state = .attesting ∧ (s.port 3).session.step = .bringup ∧ s.huv.devId ≠ 0xFFFF ∧ 0xFFFE ≠ 0xFFFF ∧ 0xFFFE ≠ s.huv.devId :=
  ⟨port0 { state := .attesting, session := { step := .bringup } }, by decide +kernel⟩

theorem wit_linkHello : ∃ s : State, (s.port 3).state = .attesting ∧ (s.port 3).session.step = .hello ∧ (zeros 32).length = 32 ∧ (s.port 3).session.initiator = true :=
  ⟨port0 { state := .attesting, session := { step := .hello, initiator := true } }, by decide +kernel⟩

theorem wit_linkHello_peer : ∃ s : State, (s.port 3).state = .attesting ∧ (s.port 3).session.step = .hello ∧ (zeros 32).length = 32 ∧ (s.port 3).session.initiator = false ∧ (zeros 1568).length = 1568 :=
  ⟨port0 { state := .attesting, session := { step := .hello } }, by decide +kernel⟩

theorem wit_linkHello_bad : ∀ init : Bool, ∃ s : State, (s.port 3).state = .attesting ∧ (s.port 3).session.step = .hello ∧ (s.port 3).session.initiator = init ∧
    (2 ≠ (s.port 3).peerId ∨ (zeros 31).length ≠ 32 ∨ (zeros 7).length ≠ (if init then 0 else 1568)) :=
  fun init => ⟨port0 { state := .attesting, peerId := 2, session := { step := .hello, initiator := init } }, by cases init <;> decide +kernel⟩

theorem wit_linkEncap_bad : ∃ s : State, (s.port 3).state = .attesting ∧ (s.port 3).session.step = .encap ∧ (zeros 1567).length ≠ 1568 :=
  ⟨port0 { state := .attesting, session := { step := .encap } }, by decide +kernel⟩

theorem wit_linkAbort : ∃ s : State, (s.port 3).state = .attesting := ⟨port0 { state := .attesting }, by decide +kernel⟩

theorem wit_linkEncap : ∃ s : State, (s.port 3).state = .attesting ∧ (s.port 3).session.step = .encap ∧ (zeros 1568).length = 1568 :=
  ⟨port0 { state := .attesting, session := { step := .encap } }, by decide +kernel⟩

/-- An owned device, its port 3 at the report. -/
def report0 : State := { port0 { state := .attesting, peerId := 2, session := { step := .report } } with lan := { host0.lan with life := .owned } }
theorem wit_linkReport : ∃ v, (report0.port 3).state = .attesting ∧ (report0.port 3).session.step = .report ∧ report0.admits 3 v = true :=
  ⟨⟨true, true, true, 2, report0.lan.life.code, false, report0.ownerRootId⟩, rfl, rfl, by
    have h : report0.debugOpen = false := by decide +kernel
    have h1 : (report0.port 3).peerId = 2 := rfl
    have h2 : report0.lan.life = .owned := rfl
    simp [State.admits, h, h1, h2]⟩
theorem wit_linkReport_refused : ∃ v, (report0.port 3).state = .attesting ∧ (report0.port 3).session.step = .report ∧ report0.admits 3 v = false :=
  ⟨⟨false, true, true, 2, 2, false, []⟩, rfl, rfl, by decide +kernel⟩

theorem wit_linkFinish : ∃ s : State, (s.port 3).state = .attesting ∧ (s.port 3).session.step = .finish :=
  ⟨port0 { state := .attesting, session := { step := .finish } }, by decide +kernel⟩

theorem wit_bringupRetry : ∃ s : State, (s.port 3).session.refused = true :=
  ⟨port0 { state := .attesting, session := { refused := true } }, by decide +kernel⟩

theorem wit_rekeyStart : ∃ s : State, (s.port 3).state = .up ∧ (s.port 3).session.initiator = true ∧ (s.port 3).session.rekeying = false :=
  ⟨port0 { state := .up, session := { initiator := true } }, by decide +kernel⟩

theorem wit_linkRekey : ∃ s : State, (s.port 3).state = .up ∧ (s.port 3).session.initiator = true ∧ (s.port 3).session.rekeying = true ∧ (zeros 1568).length = 1568 :=
  ⟨port0 { state := .up, session := { initiator := true, rekeying := true } }, by decide +kernel⟩

theorem wit_rekeyTimeout : ∃ s : State, (s.port 3).session.rekeying = true :=
  ⟨port0 { state := .up, session := { rekeying := true } }, by decide +kernel⟩

theorem wit_replayTimeout_retrain : ∃ s : State, (s.port 3).replay ≠ [] ∧ 7 ≤ (s.port 3).replayRuns :=
  ⟨port0 { state := .up, replay := [{ ty := 0, f := frame0 true }], replayRuns := 7 }, by decide +kernel⟩

theorem wit_replayTimeout : ∃ s : State, (s.port 3).replay ≠ [] ∧ (s.port 3).replayRuns < 7 :=
  ⟨port0 { state := .up, replay := [{ ty := 0, f := frame0 true }], replayRuns := 6 }, by decide +kernel⟩

theorem wit_creditReturn : ∃ s : State, (s.port 3).owed.total ≠ 0 :=
  ⟨port0 { state := .up, owed := { cc := 1 } }, by decide +kernel⟩

theorem wit_laneLockLoss : ∃ s : State, (s.port 3).laneMask.testBit 7 = true ∧ 0 < 100000 * 1 ∧ 100000 * 1 ≤ 100000 :=
  ⟨port0 { state := .up, laneMask := 255 }, by decide +kernel⟩

theorem wit_laneLockLoss_down : ∃ s : State, (s.port 3).laneMask.testBit 7 = true ∧ (bitList ((s.port 3).laneMask &&& (255 - 2 ^ 7)) 8).length < 4 ∧ (s.port 3).state ≠ .up ∧ (s.port 3).state ≠ .retraining :=
  ⟨port0 { state := .attesting, laneMask := 0xF0 }, by decide +kernel⟩

/-- Five lanes left run as four; four, six and seven as they are. -/
theorem wit_laneLockLoss_left : ∀ k ∈ [(0xF8, 4, 4), (0xFC, 5, 4), (0xFE, 6, 6), (0xFF, 7, 7)], ∃ s : State, (s.port 3).laneMask.testBit 7 = true ∧
    (bitList ((s.port 3).laneMask &&& (255 - 2 ^ 7)) 8).length = k.2.1 ∧
    (k.2.1 = 5 ∧ k.2.2 = 4 ∨ k.2.1 ≠ 5 ∧ 4 ≤ k.2.1 ∧ k.2.2 = k.2.1) :=
  fun k h => ⟨port0 { state := .up, laneMask := k.1 }, by revert k; decide +kernel⟩

theorem wit_portRetrain : ∃ s : State, (s.port 3).state = .retraining ∧ (s.port 3).failedRetrains < 2 :=
  ⟨port0 { state := .retraining, failedRetrains := 1 }, by decide +kernel⟩

theorem wit_portRetrain_lost : ∃ s : State, (s.port 3).state = .retraining ∧ 2 ≤ (s.port 3).failedRetrains :=
  ⟨port0 { state := .retraining, failedRetrains := 2 }, by decide +kernel⟩

/-! ### Witnesses: DdrUpkeep, PowerCeilings, HeatEnergyPace -/

theorem wit_ddrWrite : ∃ s : State, Map.wf none s.ddr.mem = true ∧ s.ddrFenced 0x1FFFFFF = false ∧ (zeros 64).length = 64 :=
  ⟨host0, by decide +kernel⟩

theorem wit_refreshDue : ∃ s : State, (Map.get {} s.ddr.subs 7).owed + 1 < 5 :=
  ⟨{ host0 with ddr := { host0.ddr with subs := [(7, { owed := 3 })] } }, by decide +kernel⟩

theorem wit_refreshDue_urgent : ∃ s : State, 5 ≤ (Map.get {} s.ddr.subs 7).owed + 1 :=
  ⟨{ host0 with ddr := { host0.ddr with subs := [(7, { owed := 4 })] } }, by decide +kernel⟩

theorem wit_pageRetirement : ∃ s : State, (Map.get {} s.ddr.pages 9).fenced = false ∧ ((Map.get {} s.ddr.pages 9).bad = true ∨ 4 ≤ (Map.get {} s.ddr.pages 9).corrected.length) ∧ s.ddr.sparesUsed < 8192 :=
  ⟨{ host0 with ddr := { host0.ddr with pages := [(9, { corrected := [0, 0, 0, 0] })], sparesUsed := 8191 } }, by decide +kernel⟩

theorem wit_pageRetirement_none : ∃ s : State, (Map.get {} s.ddr.pages 9).fenced = false ∧ ((Map.get {} s.ddr.pages 9).bad = true ∨ 4 ≤ (Map.get {} s.ddr.pages 9).corrected.length) ∧ 8192 ≤ s.ddr.sparesUsed ∧ (Map.get {} s.ddr.pages 9).bad = true :=
  ⟨{ host0 with ddr := { host0.ddr with pages := [(9, { bad := true })], sparesUsed := 8192 } }, by decide +kernel⟩

theorem wit_subchannelRetrain : ∃ s : State, (Map.get {} s.ddr.subs 7).fenced = false ∧ (s.now :: (Map.get {} s.ddr.subs 7).retrains.filter fun t => decide (s.now < t + 3600000000)).length < 3 :=
  ⟨{ host0 with ddr := { host0.ddr with subs := [(7, { retrains := [0] })] } }, by decide +kernel⟩

theorem wit_subchannelRetrain_third : ∃ s : State, (Map.get {} s.ddr.subs 7).fenced = false ∧ 3 ≤ (s.now :: (Map.get {} s.ddr.subs 7).retrains.filter fun t => decide (s.now < t + 3600000000)).length :=
  ⟨{ host0 with ddr := { host0.ddr with subs := [(7, { retrains := [0, 0] })] } }, by decide +kernel⟩

theorem wit_railReport : ∃ s : State, nth 0 railLimits 3 < 110001 ∧ (s.rail 3).high = 1 :=
  ⟨{ host0 with pwr := { host0.pwr with rails := [(3, { high := 1 })] } }, by decide +kernel⟩

theorem wit_railReport_main : (host0.pwr.lowered = none) ∧ (({ host0 with pwr.lowered := some (0, 5000) } : State).pwr.lowered = some (0, 5000)) := by decide +kernel

theorem wit_capEvaluation_lower : ∃ s : State, 1000 * s.pwr.capW < s.pwr.inputs.headD 0 ∧ 1 ≤ s.pwr.sinceLower ∧ (∃ k, k < 4 ∧ (s.die k).step ≠ 7) ∧
    s.mostDraw ((List.range 4).filter fun k => decide ((s.die k).cap < 7)) = some 3 :=
  ⟨{ host0 with pwr := { host0.pwr with inputs := [400001], sinceLower := 1, capW := 400, dies := [(3, { step := 6 })], rails := [(3, { mv := 1000, ma := 1 })] } },
    by decide +kernel⟩

theorem wit_capEvaluation_raise : ∃ s : State, s.pwr.inputs.headD 0 ≤ 1000 * s.pwr.capW ∧ s.leastDraw ((List.range 4).filter fun k => decide (0 < (s.die k).cap)) = some 2 ∧
    sumNat s.pwr.inputs / max 1 s.pwr.inputs.length + (s.die 2).saved ≤ 1000 * s.pwr.capW ∧ 99 ≤ s.pwr.calm :=
  ⟨{ host0 with pwr := { host0.pwr with inputs := [398000, 398000], capW := 400, calm := 99, dies := [(2, { cap := 1, saved := 2000 })] } }, by decide +kernel⟩

theorem wit_stepChange : ∃ s : State, (s.die 3).step ≠ s.dieTarget 3 :=
  ⟨{ host0 with pwr := { host0.pwr with dies := [(3, { step := 6 })], interlock := true } }, by decide +kernel⟩

/-- The thousandth trip within a second, or not. -/
theorem wit_droopTrip : ∀ t ∈ [0, 1000000], ∃ s : State,
    (let times := (s.now :: (s.die 3).tripsAt).take 1001
     times.length = 1001 ∧ decide (s.now < times.getLastD 0 + 1000000) = (t == 0)) := by
  intro t h
  refine ⟨{ host0 with clk.cp := t, pwr.dies := [(3, { tripsAt := List.replicate 1000 0 })] }, ?_⟩
  revert t
  decide +kernel

theorem wit_ceilingsSet : ∃ s u : State, ((List.range 4).all fun d => (s.setAlert.die d).step == s.setAlert.dieTarget d) = true ∧
    ((List.range 4).all fun d => (u.setAlert.die d).step == u.setAlert.dieTarget d) = false :=
  ⟨{ host0 with pwr.interlock := true }, { host0 with pwr.interlock := false }, by decide +kernel⟩

theorem wit_ddrFenced : ∃ s : State, s.ddrFenced 0 = true := ⟨{ host0 with ddr.pages := [(0, { fenced := true })] }, by decide +kernel⟩

theorem wit_modelStageCopyDone : ∃ s : State, (((s.part 0).models.staged.find? fun e => e.2.used && !e.2.ready && leNat 16 e.2.id == 1).isSome) = true :=
  ⟨part0 { models := { staged := [(0, { used := true, id := le 16 1, slot := 5 })] } }, by decide +kernel⟩

theorem wit_flowLoss : ∀ b : Bool, ∃ s : State, s.pwr.interlock = b ∧ s.pwr.flowLost = b := fun b =>
  ⟨{ host0 with pwr.interlock := b, pwr.flowLost := b }, by cases b <;> decide +kernel⟩

theorem wit_coolantRead : (650 : Int) ≤ 650 ∧ (750 : Int) ≤ 650 + 100 ∧ 95 ≤ 95 := by decide

theorem wit_brownOutExit : ∃ s : State, s.pwr.brownOut = true :=
  ⟨{ host0 with pwr := { host0.pwr with brownOut := true } }, by decide +kernel⟩

theorem wit_thermalRead : ∃ h : List Int, h.length = 6 ∧ (∀ x ∈ h, x < 950) ∧ (∀ d, d < 4 → (host0.die d).thermal = 0) :=
  ⟨[949, 0, -40, 0, 0, 0], by decide +kernel⟩

theorem wit_interlockRelease : ∃ s : State, s.pwr.flowLost = true :=
  ⟨{ host0 with pwr := { host0.pwr with flowLost := true } }, by decide +kernel⟩

theorem wit_bill : ∃ s : State, (s.part 0).billed = none :=
  ⟨part0 { state := .enabled }, by decide +kernel⟩

theorem wit_hold : ∃ x : PartPower, 0 < x.budgetW ∧ 1000 * x.budgetW < x.estimate :=
  ⟨{ budgetW := 1, shares := List.replicate 10 1001 }, by decide +kernel⟩

theorem wit_paceRepeat : ∃ s : State, s.holdCause ≠ 0 :=
  ⟨{ host0 with pwr := { host0.pwr with brownOut := true } }, by decide +kernel⟩

/-! ### Witnesses: sensor and group commands (SensorCommands) -/

/-- A camera on CSI0: one component of RAW8, 64 by 48, 16 lines of ring. -/
def camera (i port : Nat) : List Byte :=
  [BitVec.ofNat 8 i, 0, BitVec.ofNat 8 port, 0, 1, 0x2A, 0, 0] ++ le 2 64 ++ le 2 48 ++ le 2 16 ++ le 2 0 ++
  [0, 0, 1, 1] ++ le 4 0x3F800000 ++ le 8 (2 ^ 32) ++ le 4 1000 ++ le 4 10 ++ zeros 24
/-- A lidar on ETH0, UDP port 2368, parse table 2, timed by arrival. -/
def lidar (i : Nat) : List Byte :=
  [BitVec.ofNat 8 i, 3, 8, 0, 1, 0, 0, 2] ++ zeros 6 ++ le 2 2368 ++ [1, 0, 1, 1] ++ le 4 0x3F800000 ++ zeros 24 ++ le 4 0x3F800000 ++ zeros 12
/-- A calibration of sensor `i`: identity rotation, no offset; `scale` stands at 0x58. -/
def calibBlock (i scale : Nat) : List Byte :=
  [BitVec.ofNat 8 i, 0, 0, 0] ++ le 4 0x3F800000 ++ zeros 12 ++ le 4 0x3F800000 ++ zeros 12 ++ le 4 0x3F800000 ++ zeros 48 ++ le 4 scale ++ zeros 4
/-- Parse table 2: a cartesian point of three 16-bit integers and an intensity. -/
def parseBlock (fields : Nat) : List Byte :=
  [2, BitVec.ofNat 8 fields, 0, 1] ++ le 2 2 ++ le 2 1 ++ le 2 16 ++ le 2 16 ++ zeros 4 ++ le 2 64 ++ zeros 62 ++
  le 2 0 ++ [2, 0, 0, 16, 3, 0] ++ zeros 8 ++ le 2 4 ++ [2, 0, 0, 16, 4, 0] ++ zeros 8 ++ le 2 8 ++ [2, 0, 0, 16, 5, 0] ++ zeros 8 ++
  le 2 12 ++ [2, 0, 0, 8, 7, 0] ++ zeros 8 ++ zeros (16 * (fields - 4)) ++ zeros 2048
/-- Group 0: sensor 0, its anchor; header slots and points in window 0. -/
def groupBlock : List Byte :=
  [0, 0, 0, 0] ++ le 2 1 ++ [1, 0] ++ le 4 1000 ++ le 4 1000 ++ [1, 0, 0, 2] ++ le 2 100 ++ le 2 100 ++ zeros 4 ++ le 2 16 ++ le 2 0 ++
  zeros 6 ++ [1, 0] ++ zeros 8 ++ le 2 0 ++ le 2 100 ++ zeros 2 ++ le 2 100 ++ le 4 0x3F800000 ++ le 4 0x3F800000 ++ zeros 8 ++ le 4 8 ++
  [0, 1, 0, 0] ++ le 8 0xFFFF ++ le 8 0xFFFF ++ zeros 32
/-- Sensor 0 configured, and group 0 as given. -/
def sense0 (g : Group) : State :=
  ((host0.modSensor 0 fun _ => { cfg := camera 0 0 }).setWin 0 { isOpen := true, kind := .partition, part := 0, flags := 5, len := 1024, tokCount := 1 }).modGroup 0 fun _ => g

theorem wit_sensorConfigure_bad : ∃ k : Case, k.Ready 0x0701 ∧ u8 k.blk 1 ≠ 0xFF ∧ sensorBad k.blk = true :=
  ⟨{ op := 0x0701, blk := camera 0 8 }, Case.ready (by decide +kernel), by decide +kernel⟩

theorem wit_sensorConfigure : ∃ k : Case, k.Ready 0x0701 ∧ u8 k.blk 1 ≠ 0xFF ∧ sensorBad k.blk = false ∧
    (let y : Sensor := { cfg := k.blk }
     y.isCamera = true ∧ y.depth ≠ 0 ∧ k.st.ringBytes (u8 k.blk 0) + y.depth * y.lineBytes ≤ 8388608 ∧
     k.st.groupOf (u8 k.blk 0) = none ∧ (∀ j, j < 16 → j ≠ u8 k.blk 0 → y.clashes (k.st.sensor j) = false) ∧
     (k.st.sensor (u8 k.blk 0)).kind = 0xFF) :=
  ⟨{ op := 0x0701, blk := camera 15 7, on := sense0 {} }, Case.ready (by decide +kernel), by decide +kernel⟩

theorem wit_sensorConfigure_lidar : ∃ k : Case, k.Ready 0x0701 ∧ u8 k.blk 1 ≠ 0xFF ∧ sensorBad k.blk = false ∧
    (let y : Sensor := { cfg := k.blk }
     y.isCamera = false ∧ k.st.groupOf (u8 k.blk 0) = none ∧ (∀ j, j < 16 → j ≠ u8 k.blk 0 → y.clashes (k.st.sensor j) = false) ∧
     (k.st.sensor (u8 k.blk 0)).kind = 0xFF) :=
  ⟨{ op := 0x0701, blk := lidar 15 }, Case.ready (by decide +kernel), by decide +kernel⟩

theorem wit_sensorRelease : ∃ k : Case, k.Ready 0x0701 ∧ u8 k.blk 1 = 0xFF ∧ u8 k.blk 0 ≤ 15 ∧ allZero k.blk 0x34 12 = true ∧ k.st.groupOf (u8 k.blk 0) = none :=
  ⟨{ op := 0x0701, blk := [0, 0xFF] ++ zeros 62, on := sense0 {} }, Case.ready (by decide +kernel), by decide +kernel⟩

theorem wit_sensorCalibrate : ∃ k : Case, k.Ready 0x0702 ∧ u8 k.blk 0 ≤ 15 ∧ calibBad (k.st.sensor (u8 k.blk 0)) k.blk = false :=
  ⟨{ op := 0x0702, blk := calibBlock 0 0x3F800000, on := sense0 {} }, Case.ready (by decide +kernel), by decide +kernel⟩

theorem wit_sensorCalibrate_bad : ∃ k : Case, k.Ready 0x0702 ∧ calibBad (k.st.sensor (u8 k.blk 0)) k.blk = true :=
  ⟨{ op := 0x0702, blk := calibBlock 1 0, on := sense0 {} }, Case.ready (by decide +kernel), by decide +kernel⟩

theorem wit_sensorParseTable : ∃ k : Case, k.Ready 0x0703 ∧ tableMalformed k.blk = false :=
  ⟨{ op := 0x0703, blk := parseBlock 4 }, Case.ready (by decide +kernel), by decide +kernel⟩

theorem wit_sensorParseTable_bad : ∃ k : Case, k.Ready 0x0703 ∧ tableMalformed k.blk = true :=
  ⟨{ op := 0x0703, blk := parseBlock 25 }, Case.ready (by decide +kernel), by decide +kernel⟩

theorem wit_sensorTrigger : ∃ k : Case, k.Ready 0x0704 ∧ triggerBad k.blk = false :=
  ⟨{ op := 0x0704, blk := [7, 1, 2, 1] ++ le 4 7500 ++ le 4 7499 ++ le 2 1 ++ le 2 3750 }, Case.ready (by decide +kernel), by decide +kernel⟩

theorem wit_sensorTrigger_bad : ∃ k : Case, k.Ready 0x0704 ∧ triggerBad k.blk = true :=
  ⟨{ op := 0x0704, blk := [7, 1, 2, 1] ++ le 4 7499 ++ le 4 7498 ++ le 2 1 ++ le 2 3000 }, Case.ready (by decide +kernel), by decide +kernel⟩

theorem wit_sensorEthSend : ∃ k : Case, k.Ready 0x0705 ∧ 8 ≤ u8 k.inl 0 ∧ u8 k.inl 0 ≤ 11 ∧ 60 ≤ u16 k.inl 2 ∧ u16 k.inl 2 ≤ 1518 ∧ k.st.cup.portsDown.contains (u8 k.inl 0) = false :=
  ⟨{ op := 0x0705, inl := [11, 0] ++ le 2 1518, blk := zeros 1518 }, Case.ready (by decide +kernel), by decide +kernel⟩

theorem wit_sensorStats : ∃ k : Case, k.Ready 0x0706 :=
  ⟨{ op := 0x0706, inl := [15], dataLen := 120 }, Case.ready (by decide +kernel)⟩

theorem wit_groupConfigure : ∃ k : Case, k.Ready 0x0707 ∧ k.st.groupCheck k.blk = none ∧ k.st.freeWindow = some 1 :=
  ⟨{ op := 0x0707, blk := groupBlock, on := sense0 {} }, Case.ready (by decide +kernel), by decide +kernel⟩

theorem wit_groupConfigure_refused : ∃ k : Case, k.Ready 0x0707 ∧ (k.st.groupCheck k.blk).isSome = true :=
  ⟨{ op := 0x0707, blk := [4] ++ groupBlock.drop 1, on := sense0 {} }, Case.ready (by decide +kernel), by decide +kernel⟩

theorem wit_groupStart : ∃ k : Case, k.Ready 0x0708 ∧ (k.st.group (u8 k.inl 0)).configured = true ∧ (k.st.group (u8 k.inl 0)).started = false :=
  ⟨{ op := 0x0708, inl := [0], on := sense0 { configured := true, cfg := groupBlock } }, Case.ready (by decide +kernel), by decide +kernel⟩

theorem wit_groupStart_busy : ∃ k : Case, k.Ready 0x0708 ∧ (k.st.group (u8 k.inl 0)).configured = true ∧ (k.st.group (u8 k.inl 0)).started = true :=
  ⟨{ op := 0x0708, inl := [0], on := sense0 { configured := true, started := true, cfg := groupBlock } }, Case.ready (by decide +kernel), by decide +kernel⟩

theorem wit_groupStop : ∃ k : Case, k.Ready 0x0709 ∧ (k.st.group (u8 k.inl 0)).started = true ∧ (k.st.group (u8 k.inl 0)).stopping = none ∧ (k.st.group (u8 k.inl 0)).frame = none :=
  ⟨{ op := 0x0709, inl := [0], on := sense0 { configured := true, started := true, cfg := groupBlock } }, Case.ready (by decide +kernel), by decide +kernel⟩

theorem wit_groupStop_frame : ∃ k : Case, k.Ready 0x0709 ∧ (k.st.group (u8 k.inl 0)).started = true ∧ (k.st.group (u8 k.inl 0)).stopping = none ∧ (k.st.group (u8 k.inl 0)).frame.isSome = true :=
  ⟨{ op := 0x0709, inl := [0], on := sense0 { configured := true, started := true, cfg := groupBlock, frame := some { t := 0 } } }, Case.ready (by decide +kernel), by decide +kernel⟩

/-! ### Witnesses: world and planning commands (PlanCommands) -/

/-- The planner as given. -/
def plan0 (x : Steeple) : State := { host0 with stp := x }
/-- world.configure: a cell of 500 mm. -/
def worldArgs (cell modes : Nat) : List Byte := le 4 cell ++ zeros 8 ++ [BitVec.ofNat 8 modes]
/-- One edit record: place a box, an identity rotation, as primitive `id`. -/
def editBlock (id : Nat) : List Byte :=
  [0, 0] ++ le 2 id ++ zeros 12 ++ [0, 0] ++ le 2 id ++ zeros 12 ++ le 2 10 ++ le 2 10 ++ le 2 10 ++ zeros 2 ++ zeros 6 ++ le 2 0x7FFF
/-- A machine of `n` spheres of 1 m. -/
def machineBlock (n : Nat) : List Byte := (List.range n).flatMap fun _ => zeros 12 ++ le 4 0x3F800000
/-- A lattice of one motion primitive: straight on from heading `h` over one cell of 1 m, and it ends at heading 0. -/
def latticeBlock (h : Nat) : List Byte :=
  [3, 16] ++ le 2 1 ++ le 4 1000 ++ zeros 24 ++ [BitVec.ofNat 8 h, 0] ++ le 2 1 ++ le 2 0 ++ [0, 1] ++ le 4 5 ++ zeros 4 ++
  le 4 0x3F800000 ++ zeros 8 ++ zeros 180 ++ zeros 48
/-- A query of machine 1 and lattice 3 that waits. -/
def query0 : Query := { part := 0, post := 0, reserved := false, record := [1, 3] ++ zeros 126 }

theorem wit_worldConfigure : ∃ k : Case, k.Ready 0x0801 ∧ worldBad k.inl = false ∧ k.st.stp.busy = false :=
  ⟨{ op := 0x0801, inl := worldArgs 500 0xAA }, Case.ready (by decide +kernel), by decide +kernel⟩

theorem wit_worldConfigure_bad : ∃ k : Case, k.Ready 0x0801 ∧ worldBad k.inl = true :=
  ⟨{ op := 0x0801, inl := worldArgs 20001 0 }, Case.ready (by decide +kernel), by decide +kernel⟩

theorem wit_worldConfigure_busy : ∃ k : Case, k.Ready 0x0801 ∧ worldBad k.inl = false ∧ k.st.stp.busy = true :=
  ⟨{ op := 0x0801, inl := worldArgs 20000 0, on := plan0 { queue := [query0] } }, Case.ready (by decide +kernel), by decide +kernel⟩

theorem wit_worldEdit : ∃ k : Case, k.Ready 0x0802 ∧ editList k.blk ≠ [] ∧ (editList k.blk).any editBad = false ∧ (k.st.stp.pubPending || k.st.stp.copying) = false ∧
    (k.st.stp.applyEdits (editList k.blk)).isSome = true :=
  ⟨{ op := 0x0802, blk := editBlock 32767 }, Case.ready (by decide +kernel), by decide +kernel⟩

theorem wit_worldEdit_bad : ∃ k : Case, k.Ready 0x0802 ∧ editList k.blk ≠ [] ∧ (editList k.blk).any editBad = true :=
  ⟨{ op := 0x0802, blk := editBlock 32768 }, Case.ready (by decide +kernel), by decide +kernel⟩

theorem wit_worldEdit_behind : ∃ k : Case, k.Ready 0x0802 ∧ editList k.blk ≠ [] ∧ (editList k.blk).any editBad = false ∧ (k.st.stp.pubPending || k.st.stp.copying) = true :=
  ⟨{ op := 0x0802, blk := editBlock 0, on := plan0 { copying := true } }, Case.ready (by decide +kernel), by decide +kernel⟩

theorem wit_worldPublish : ∃ k : Case, k.Ready 0x0803 :=
  ⟨{ op := 0x0803 }, Case.ready (by decide +kernel)⟩

theorem wit_worldUnload : ∃ k : Case, k.Ready 0x0805 ∧ k.st.stp.busy = false ∧ k.st.stp.mesh.isSome = true :=
  ⟨{ op := 0x0805, on := plan0 { mesh := some [], meshSlot := 4 } }, Case.ready (by decide +kernel), by decide +kernel⟩

theorem wit_worldUnload_none : ∃ k : Case, k.Ready 0x0805 ∧ k.st.stp.busy = false ∧ k.st.stp.mesh = none :=
  ⟨{ op := 0x0805 }, Case.ready (by decide +kernel), by decide +kernel⟩

theorem wit_worldLoad_media : ∃ k : Case, k.Ready 0x0804 ∧ k.st.slotCheck (u16 k.inl 0) 2 0xFF = none ∧ k.st.mediaBad (u16 k.inl 0) = true :=
  ⟨{ op := 0x0804, inl := le 2 5, on := { host0 with store := { slots := [(5, { state := 2, kind := 2, owner := 0xFF })], mediaBad := [5] } } },
    Case.ready (by decide +kernel), by decide +kernel⟩

theorem wit_worldUnload_busy : ∃ k : Case, k.Ready 0x0805 ∧ k.st.stp.busy = true :=
  ⟨{ op := 0x0805, on := plan0 { queue := [query0] } }, Case.ready (by decide +kernel), by decide +kernel⟩

theorem wit_planMachine_bad : ∃ k : Case, k.Ready 0x0806 ∧ (7 < u8 k.inl 0 ∨ 32 < u8 k.inl 1) :=
  ⟨{ op := 0x0806, inl := [8, 32], blk := machineBlock 32 }, Case.ready (by decide +kernel), by decide +kernel⟩

theorem wit_planMachine_none : ∃ k : Case, k.Ready 0x0806 ∧ u8 k.inl 0 ≤ 7 ∧ u8 k.inl 1 = 0 :=
  ⟨{ op := 0x0806, inl := [7, 0] }, Case.ready (by decide +kernel), by decide +kernel⟩

theorem wit_planMachine : ∃ k : Case, k.Ready 0x0806 ∧ u8 k.inl 0 ≤ 7 ∧ 1 ≤ u8 k.inl 1 ∧ u8 k.inl 1 ≤ 32 ∧
    (∀ i, i < u8 k.inl 1 → finiteAt k.blk (16 * i) 4 = true ∧ above0 (u32 k.blk (16 * i + 12)) = true) ∧
    (∀ x ∈ k.st.stp.live, qMachine x.record ≠ u8 k.inl 0) :=
  ⟨{ op := 0x0806, inl := [7, 32], blk := machineBlock 32, on := plan0 { queue := [query0] } }, Case.ready (by decide +kernel), by decide +kernel⟩

theorem wit_planMachine_busy : ∃ k : Case, k.Ready 0x0806 ∧ u8 k.inl 0 ≤ 7 ∧ 1 ≤ u8 k.inl 1 ∧ u8 k.inl 1 ≤ 32 ∧
    (∀ i, i < u8 k.inl 1 → finiteAt k.blk (16 * i) 4 = true ∧ above0 (u32 k.blk (16 * i + 12)) = true) ∧
    (∃ x ∈ k.st.stp.live, qMachine x.record = u8 k.inl 0) :=
  ⟨{ op := 0x0806, inl := [1, 1], blk := machineBlock 1, on := plan0 { queue := [query0] } }, Case.ready (by decide +kernel), by decide +kernel⟩

theorem lattice_sound : ∀ x ∈ (recordsOf 256 ((latticeBlock 0).drop 32)).take (u16 (latticeBlock 0) 2),
    motionBad (u8 (latticeBlock 0) 1) (u32 (latticeBlock 0) 4) x = false := by
  have h : (recordsOf 256 ((latticeBlock 0).drop 32)).take (u16 (latticeBlock 0) 2) = [(latticeBlock 0).drop 32] := by decide +kernel
  have h1 : u8 (latticeBlock 0) 1 = 16 := by decide +kernel
  have h2 : u32 (latticeBlock 0) 4 = 1000 := by decide +kernel
  rw [h, h1, h2]
  decide +kernel

theorem wit_planLattice : ∃ k : Case, k.Ready 0x0807 ∧ u8 k.blk 0 ≤ 3 ∧ u8 k.blk 1 ∈ [16, 32, 64] ∧ 1 ≤ u16 k.blk 2 ∧ u16 k.blk 2 ≤ 256 ∧ 10 ≤ u32 k.blk 4 ∧ u32 k.blk 4 ≤ 10000 ∧
    finiteAt k.blk 8 2 = true ∧ allZero k.blk 0x10 16 = true ∧ (∀ x ∈ ((recordsOf 256 (k.blk.drop 32)).take (u16 k.blk 2)), motionBad (u8 k.blk 1) (u32 k.blk 4) x = false) ∧
    (∀ x ∈ k.st.stp.live, qLattice x.record ≠ u8 k.blk 0) :=
  ⟨{ op := 0x0807, blk := latticeBlock 0 }, Case.ready (by decide +kernel), by decide +kernel, by decide +kernel, by decide +kernel, by decide +kernel, by decide +kernel, by decide +kernel, by decide +kernel, by decide +kernel,
    lattice_sound, by decide +kernel⟩

theorem wit_planLattice_bad : ∃ k : Case, k.Ready 0x0807 ∧ u8 k.blk 0 ≤ 3 ∧ u8 k.blk 1 ∈ [16, 32, 64] ∧ 1 ≤ u16 k.blk 2 ∧ u16 k.blk 2 ≤ 256 ∧ 10 ≤ u32 k.blk 4 ∧ u32 k.blk 4 ≤ 10000 ∧
    finiteAt k.blk 8 2 = true ∧ allZero k.blk 0x10 16 = true ∧ (∃ x ∈ ((recordsOf 256 (k.blk.drop 32)).take (u16 k.blk 2)), motionBad (u8 k.blk 1) (u32 k.blk 4) x = true) :=
  ⟨{ op := 0x0807, blk := latticeBlock 16 }, Case.ready (by decide +kernel), by decide +kernel⟩

theorem wit_planLattice_busy : ∃ k : Case, k.Ready 0x0807 ∧ u8 k.blk 0 ≤ 3 ∧ u8 k.blk 1 ∈ [16, 32, 64] ∧ 1 ≤ u16 k.blk 2 ∧ u16 k.blk 2 ≤ 256 ∧ 10 ≤ u32 k.blk 4 ∧ u32 k.blk 4 ≤ 10000 ∧
    finiteAt k.blk 8 2 = true ∧ allZero k.blk 0x10 16 = true ∧ (∀ x ∈ ((recordsOf 256 (k.blk.drop 32)).take (u16 k.blk 2)), motionBad (u8 k.blk 1) (u32 k.blk 4) x = false) ∧
    (∃ x ∈ k.st.stp.live, qLattice x.record = u8 k.blk 0) :=
  ⟨{ op := 0x0807, blk := latticeBlock 0, on := plan0 { queue := [query0] } }, Case.ready (by decide +kernel), by decide +kernel, by decide +kernel, by decide +kernel, by decide +kernel, by decide +kernel, by decide +kernel, by decide +kernel, by decide +kernel,
    lattice_sound, by decide +kernel⟩

theorem wit_planQueryWindow : ∃ k : Case, k.Ready 0x0808 ∧ k.st.freeWindow = some 0 :=
  ⟨{ op := 0x0808, inl := [0], on := part0 { state := .enabled } }, Case.ready (by decide +kernel), by decide +kernel⟩

theorem wit_planStats : ∃ k : Case, k.Ready 0x0809 :=
  ⟨{ op := 0x0809, dataLen := 80 }, Case.ready (by decide +kernel)⟩

theorem get_every (w : Win) : ∀ n a j, a ≤ j → j < a + n → Map.get ({} : Win) ((List.range' a n).map fun (k : Nat) => (k, w)) j = w := by
  intro n
  induction n with
  | zero => intro a j h1 h2; omega
  | succ n ih =>
    intro a j h1 h2
    simp only [List.range'_succ, List.map_cons, Map.get]
    by_cases h : j = a
    · simp [h]
    · rw [if_neg (by simpa using h)]
      exact ih (a + 1) j (by omega) (by omega)

/-- Every window is open. -/
def open0 : State := { part0 { state := .enabled } with fab.wins := (List.range' 0 4096).map fun (k : Nat) => (k, ({ isOpen := true } : Win)) }

theorem none_free (s : State) (hw : s.fab.wins = (List.range' 0 4096).map fun (k : Nat) => (k, ({ isOpen := true } : Win)))
    (hc : s.fab.closedOrder = []) : s.freeWindow = none := by
  have hj : ∀ n, n < 4096 → s.win n = { isOpen := true } := fun n hn =>
    (congrArg (fun m => Map.get ({} : Win) m n) hw).trans (get_every _ 4096 0 n (Nat.zero_le _) (by omega))
  have h : (List.range 4096).find? (fun n => (s.win n).isFree && !s.fab.closedOrder.contains n) = none :=
    List.find?_eq_none.2 fun n hn => by
      rw [hj n (List.mem_range.1 hn)]
      simp [Win.isFree]
  unfold State.freeWindow
  rw [h]
  simp only [hc, List.find?_nil]

theorem wit_planQueryWindow_none : ∃ k : Case, k.Ready 0x0808 ∧ k.st.freeWindow = none :=
  ⟨{ op := 0x0808, inl := [0], on := open0 }, Case.ready (by decide +kernel), none_free _ rfl rfl⟩

/-! ### Witnesses: loop commands (LoopCommands, LoopPortCommands) -/

/-- A loop of one instruction at the top of program memory, run every 50 us; `can` takes its trigger from CAN3 instead. -/
def loopBlock (l : Nat) (can : Bool) (len : Nat) : List Byte :=
  (if can then [BitVec.ofNat 8 l, 1, 3, 0] ++ le 4 0x7FF ++ le 4 0 else [BitVec.ofNat 8 l, 0, 0, 0] ++ le 4 0 ++ le 4 20000) ++
  le 4 48 ++ le 2 (4096 - len) ++ le 2 len ++ zeros 172
/-- The same with output 0 on PWM 7. -/
def pwmLoop (l : Nat) : List Byte := (loopBlock l false 1).take 96 ++ le 8 (3 + 7 * 4 + 23 * 256) ++ zeros 88
/-- Loop 15 configured and as given. -/
def loop0 (b : List Byte) (started : Bool) : State :=
  host0.modLoop 15 fun x => { x with cfg := b, status := { x.status with started := started } }
def loopRun (started : Bool) : State := (loop0 (loopBlock 15 false 1) started).modLoop 15 fun x => { x with run := some { trigger := 0 } }

theorem wit_loopConfigure_bad : ∃ k : Case, k.Ready 0x0901 ∧ loopBad k.blk = true :=
  ⟨{ op := 0x0901, blk := loopBlock 16 false 1 }, Case.ready (by decide +kernel), by decide +kernel⟩

theorem wit_loopConfigure_zero : ∃ k : Case, k.Ready 0x0901 ∧ loopBad k.blk = false ∧ cProgLen k.blk = 0 :=
  ⟨{ op := 0x0901, blk := [15] ++ (loopBlock 15 false 1).drop 1 |>.take 18 |>.append (zeros 174) }, Case.ready (by decide +kernel), by decide +kernel⟩

theorem wit_loopConfigure : ∃ k : Case, k.Ready 0x0901 ∧ loopBad k.blk = false ∧ cProgLen k.blk ≠ 0 ∧ (cReport k.blk = 0 ∨ u16 k.blk 0x16 ≠ 0) ∧ (k.st.loop (u8 k.blk 0)).status.started = false ∧ k.st.outputTaken (u8 k.blk 0) k.blk = false :=
  ⟨{ op := 0x0901, blk := pwmLoop 15, on := loop0 (pwmLoop 15) false }, Case.ready (by decide +kernel), by decide +kernel⟩

theorem wit_loopConfigure_busy : ∃ k : Case, k.Ready 0x0901 ∧ loopBad k.blk = false ∧ cProgLen k.blk ≠ 0 ∧ (cReport k.blk = 0 ∨ u16 k.blk 0x16 ≠ 0) ∧ (k.st.loop (u8 k.blk 0)).status.started = true :=
  ⟨{ op := 0x0901, blk := loopBlock 15 false 1, on := loop0 (loopBlock 15 false 1) true }, Case.ready (by decide +kernel), by decide +kernel⟩

theorem wit_loopConfigure_output : ∃ k : Case, k.Ready 0x0901 ∧ loopBad k.blk = false ∧ cProgLen k.blk ≠ 0 ∧ (cReport k.blk = 0 ∨ u16 k.blk 0x16 ≠ 0) ∧ (k.st.loop (u8 k.blk 0)).status.started = false ∧ k.st.outputTaken (u8 k.blk 0) k.blk = true :=
  ⟨{ op := 0x0901, blk := pwmLoop 0, on := loop0 (pwmLoop 15) true }, Case.ready (by decide +kernel), by decide +kernel⟩

theorem nops_sound {l : List DWord} (h : (l.all fun w => decide (iOp w ≤ 0x10) && decide (bits w.toNat 39 32 = 0)) = true) :
    ∀ w ∈ l, iOp w ≤ 0x10 ∧ bits w.toNat 39 32 = 0 := by simpa using h

theorem wit_loopProgram : ∃ k : Case, k.Ready 0x0902 ∧ k.blk.length / 8 ≠ 0 ∧ u16 k.inl 0 + k.blk.length / 8 ≤ 4096 ∧
    (∀ w ∈ ((List.range (k.blk.length / 8)).map fun j => BitVec.ofNat 64 (u64 k.blk (8 * j)) : List DWord), iOp w ≤ 0x10 ∧ bits w.toNat 39 32 = 0) ∧ k.st.programBusy (u16 k.inl 0) (k.blk.length / 8) = false :=
  ⟨{ op := 0x0902, inl := le 2 4094, blk := zeros 8, on := loop0 (loopBlock 15 false 1) true }, Case.ready (by decide +kernel), by decide +kernel, by decide +kernel,
    nops_sound (by decide +kernel), by decide +kernel⟩

theorem wit_loopProgram_busy : ∃ k : Case, k.Ready 0x0902 ∧ k.blk.length / 8 ≠ 0 ∧ u16 k.inl 0 + k.blk.length / 8 ≤ 4096 ∧
    (∀ w ∈ ((List.range (k.blk.length / 8)).map fun j => BitVec.ofNat 64 (u64 k.blk (8 * j)) : List DWord), iOp w ≤ 0x10 ∧ bits w.toNat 39 32 = 0) ∧ k.st.programBusy (u16 k.inl 0) (k.blk.length / 8) = true :=
  ⟨{ op := 0x0902, inl := le 2 4094, blk := zeros 16, on := loop0 (loopBlock 15 false 1) true }, Case.ready (by decide +kernel), by decide +kernel, by decide +kernel,
    nops_sound (by decide +kernel), by decide +kernel⟩

theorem wit_loopProgram_bad : ∃ k : Case, k.Ready 0x0902 ∧ k.blk.length / 8 ≠ 0 ∧ (4096 < u16 k.inl 0 + k.blk.length / 8 ∨
    (∃ w ∈ ((List.range (k.blk.length / 8)).map fun j => BitVec.ofNat 64 (u64 k.blk (8 * j)) : List DWord), 0x10 < iOp w ∨ bits w.toNat 39 32 ≠ 0)) :=
  ⟨{ op := 0x0902, inl := le 2 4095, blk := zeros 16 }, Case.ready (by decide +kernel), by decide +kernel⟩

theorem wit_loopCoeffs : ∃ k : Case, k.Ready 0x0903 ∧ coeffsBad k.blk = false ∧ (k.st.loop (u8 k.inl 0)).run.isNone = true :=
  ⟨{ op := 0x0903, inl := [15], blk := (List.range 64).flatMap fun _ => [1, 0, 0, 0, 31, 0, 0, 0] }, Case.ready (by decide +kernel), by decide +kernel⟩

theorem wit_loopCoeffs_bad : ∃ k : Case, k.Ready 0x0903 ∧ coeffsBad k.blk = true :=
  ⟨{ op := 0x0903, inl := [15], blk := (List.range 64).flatMap fun _ => [1, 0, 0, 0, 32, 0, 0, 0] }, Case.ready (by decide +kernel), by decide +kernel⟩

theorem wit_loopCoeffs_run : ∃ k : Case, k.Ready 0x0903 ∧ coeffsBad k.blk = false ∧ (k.st.loop (u8 k.inl 0)).run.isNone = false :=
  ⟨{ op := 0x0903, inl := [15], blk := zeros 512, on := loopRun true }, Case.ready (by decide +kernel), by decide +kernel⟩

theorem wit_loopStart : ∃ k : Case, k.Ready 0x0904 ∧ (k.st.loop (u8 k.inl 0)).status.started = false ∧ (k.st.loop (u8 k.inl 0)).cfg ≠ [] ∧ (k.st.loop (u8 k.inl 0)).status.fault = false ∧ k.st.outputTaken (u8 k.inl 0) (k.st.loop (u8 k.inl 0)).cfg = false ∧
    k.st.sourceAbsent (k.st.loop (u8 k.inl 0)).cfg = false :=
  ⟨{ op := 0x0904, inl := [15], on := loop0 (loopBlock 15 false 1) false }, Case.ready (by decide +kernel), by decide +kernel⟩

theorem wit_loopStart_busy : ∃ k : Case, k.Ready 0x0904 ∧ ((k.st.loop (u8 k.inl 0)).status.started = true ∨ (k.st.loop (u8 k.inl 0)).cfg = [] ∨ (k.st.loop (u8 k.inl 0)).status.fault = true) :=
  ⟨{ op := 0x0904, inl := [15], on := loop0 (loopBlock 15 false 1) true }, Case.ready (by decide +kernel), by decide +kernel⟩

theorem wit_loopStart_source : ∃ k : Case, k.Ready 0x0904 ∧ (k.st.loop (u8 k.inl 0)).status.started = false ∧ (k.st.loop (u8 k.inl 0)).cfg ≠ [] ∧ (k.st.loop (u8 k.inl 0)).status.fault = false ∧ k.st.outputTaken (u8 k.inl 0) (k.st.loop (u8 k.inl 0)).cfg = false ∧
    k.st.sourceAbsent (k.st.loop (u8 k.inl 0)).cfg = true :=
  ⟨{ op := 0x0904, inl := [15], on := loop0 (loopBlock 15 true 1) false }, Case.ready (by decide +kernel), by decide +kernel⟩

theorem wit_loopStop : ∃ k : Case, k.Ready 0x0905 ∧ ((k.st.loop (u8 k.inl 0)).status.started && (k.st.loop (u8 k.inl 0)).run.isSome) = false :=
  ⟨{ op := 0x0905, inl := [15], on := loop0 (loopBlock 15 false 1) true }, Case.ready (by decide +kernel), by decide +kernel⟩

theorem wit_loopStop_run : ∃ k : Case, k.Ready 0x0905 ∧ ((k.st.loop (u8 k.inl 0)).status.started && (k.st.loop (u8 k.inl 0)).run.isSome) = true :=
  ⟨{ op := 0x0905, inl := [15], on := loopRun true }, Case.ready (by decide +kernel), by decide +kernel⟩

theorem wit_loopClear : ∃ k : Case, k.Ready 0x0906 :=
  ⟨{ op := 0x0906, inl := [15, 0, 0, 0] ++ le 4 0x16 }, Case.ready (by decide +kernel)⟩

theorem wit_loopWindowOpen : ∃ k : Case, k.Ready 0x0907 ∧ k.st.spCheck k.inl = none ∧ k.st.freeWindow = some 0 :=
  ⟨{ op := 0x0907, inl := [15, 0, 0, 0] ++ le 4 0 ++ le 4 4096 ++ [3, 0, 0, 0] ++ le 4 10000000, on := region0 .enabled }, Case.ready (by decide +kernel), by decide +kernel⟩

theorem wit_loopWindowOpen_refused : ∃ k : Case, k.Ready 0x0907 ∧ (k.st.spCheck k.inl).isSome = true :=
  ⟨{ op := 0x0907, inl := [15, 0, 0, 0] ++ le 4 0 ++ le 4 4100 ++ [3, 0, 0, 0] ++ le 4 1000, on := region0 .enabled }, Case.ready (by decide +kernel), by decide +kernel⟩

theorem wit_loopWindowClose : ∃ k : Case, k.Ready 0x0908 ∧ (k.st.spSlot (u8 k.inl 0)).isOpen = true :=
  ⟨{ op := 0x0908, inl := [15], on := (host0.modSp 15 fun x => { x with isOpen := true, win := 9 }).setWin 9 { isOpen := true, kind := .setpoint 15 } }, Case.ready (by decide +kernel), by decide +kernel⟩

theorem wit_loopWindowClose_closed : ∃ k : Case, k.Ready 0x0908 ∧ (k.st.spSlot (u8 k.inl 0)).isOpen = false :=
  ⟨{ op := 0x0908, inl := [15] }, Case.ready (by decide +kernel), by decide +kernel⟩

theorem wit_loopSafeRelease : ∃ k : Case, k.Ready 0x0909 ∧ (∀ n, n < 16 → (k.st.loop n).held = 0) ∧ ((k.st.cmp.safeA || (u8 k.inl 0).testBit 0) ≠ k.st.cmp.safeA ∨ (k.st.cmp.safeB || (u8 k.inl 0).testBit 1) ≠ k.st.cmp.safeB) :=
  ⟨{ op := 0x0909, inl := [1] }, Case.ready (by decide +kernel), by decide +kernel⟩

theorem wit_loopSafeRelease_held : ∃ k : Case, k.Ready 0x0909 ∧ ∃ n, n < 16 ∧ (k.st.loop n).held ≠ 0 :=
  ⟨{ op := 0x0909, inl := [3], on := host0.modLoop 15 fun x => { x with dropSup := 1 } }, Case.ready (by decide +kernel), by decide +kernel⟩

theorem wit_loopStats : ∃ k : Case, k.Ready 0x090A :=
  ⟨{ op := 0x090A, inl := [15], dataLen := 80 }, Case.ready (by decide +kernel)⟩

/-- Port records: CAN3 at 80 quanta, chip select 3 of SPI1 with 64-bit words, PWM 7. -/
def canBlock (kind : Byte) : List Byte := [kind, 0, 3, 0] ++ zeros 4 ++ le 2 1 ++ le 2 63 ++ [16, 1] ++ zeros 50
def spiBlock : List Byte := [1, 0, 1, 3] ++ zeros 4 ++ [4, 3, 64, 1, 1, 1, 0, 0] ++ le 8 (2 ^ 64 - 1) ++ zeros 40
def pwmBlock (period : Nat) : List Byte := [2, 0, 7, 0] ++ zeros 4 ++ le 4 period ++ zeros 52

theorem wit_loopPortConfigureCan : ∃ k : Case, k.Ready 0x090B ∧ u8 k.blk 0 = 0 ∧ portHeadBad 1 k.blk = false ∧ canRecordBad k.blk = false ∧ u8 k.blk 1 = 0 ∧ k.st.portUsed (1, (u8 k.blk 2), (u8 k.blk 3)) = false :=
  ⟨{ op := 0x090B, blk := canBlock 0 }, Case.ready (by decide +kernel), by decide +kernel⟩

theorem wit_loopPortConfigureCan_busy : ∃ k : Case, k.Ready 0x090B ∧ u8 k.blk 0 = 0 ∧ portHeadBad 1 k.blk = false ∧ canRecordBad k.blk = false ∧ u8 k.blk 1 = 0 ∧ k.st.portUsed (1, (u8 k.blk 2), (u8 k.blk 3)) = true :=
  ⟨{ op := 0x090B, blk := canBlock 0, on := loop0 (loopBlock 15 true 1) true }, Case.ready (by decide +kernel), by decide +kernel⟩

theorem wit_loopPortConfigureCan_bad : ∃ k : Case, k.Ready 0x090B ∧ u8 k.blk 0 = 0 ∧ (portHeadBad 1 k.blk = true ∨ u8 k.blk 1 ≠ 0 ∨ canRecordBad k.blk = true) :=
  ⟨{ op := 0x090B, blk := (canBlock 0).take 10 ++ le 2 1 ++ (canBlock 0).drop 12 }, Case.ready (by decide +kernel), by decide +kernel⟩

theorem wit_loopPortConfigureSpi : ∃ k : Case, k.Ready 0x090B ∧ u8 k.blk 0 = 1 ∧ portHeadBad 2 k.blk = false ∧ spiRecordBad k.blk = false ∧ u8 k.blk 1 = 0 ∧ k.st.portUsed (2, (u8 k.blk 2), (u8 k.blk 3)) = false :=
  ⟨{ op := 0x090B, blk := spiBlock }, Case.ready (by decide +kernel), by decide +kernel⟩

theorem wit_loopPortConfigureSpi_busy : ∃ k : Case, k.Ready 0x090B ∧ u8 k.blk 0 = 1 ∧ portHeadBad 2 k.blk = false ∧ spiRecordBad k.blk = false ∧ u8 k.blk 1 = 0 ∧ k.st.portUsed (2, (u8 k.blk 2), (u8 k.blk 3)) = true :=
  ⟨{ op := 0x090B, blk := spiBlock, on := loop0 ((loopBlock 15 false 1).take 32 ++ le 8 (2 + 1 * 4 + 3 * 16) ++ zeros 152) true }, Case.ready (by decide +kernel), by decide +kernel⟩

theorem wit_loopPortConfigureSpi_bad : ∃ k : Case, k.Ready 0x090B ∧ u8 k.blk 0 = 1 ∧ (portHeadBad 2 k.blk = true ∨ u8 k.blk 1 ≠ 0 ∨ spiRecordBad k.blk = true) :=
  ⟨{ op := 0x090B, blk := [1, 0, 1, 4] ++ spiBlock.drop 4 }, Case.ready (by decide +kernel), by decide +kernel⟩

theorem wit_loopPortConfigurePwm : ∃ k : Case, k.Ready 0x090B ∧ u8 k.blk 0 = 2 ∧ portHeadBad 3 k.blk = false ∧ pwmRecordBad k.blk = false ∧ u8 k.blk 1 = 0 ∧ k.st.portUsed (3, (u8 k.blk 2), (u8 k.blk 3)) = false :=
  ⟨{ op := 0x090B, blk := pwmBlock 16 }, Case.ready (by decide +kernel), by decide +kernel⟩

theorem wit_loopPortConfigurePwm_busy : ∃ k : Case, k.Ready 0x090B ∧ u8 k.blk 0 = 2 ∧ portHeadBad 3 k.blk = false ∧ pwmRecordBad k.blk = false ∧ u8 k.blk 1 = 0 ∧ k.st.portUsed (3, (u8 k.blk 2), (u8 k.blk 3)) = true :=
  ⟨{ op := 0x090B, blk := pwmBlock 16, on := loop0 (pwmLoop 15) true }, Case.ready (by decide +kernel), by decide +kernel⟩

theorem wit_loopPortConfigurePwm_bad : ∃ k : Case, k.Ready 0x090B ∧ u8 k.blk 0 = 2 ∧ (portHeadBad 3 k.blk = true ∨ u8 k.blk 1 ≠ 0 ∨ pwmRecordBad k.blk = true) :=
  ⟨{ op := 0x090B, blk := pwmBlock 15 }, Case.ready (by decide +kernel), by decide +kernel⟩

theorem wit_loopPortRelease_can : ∃ k : Case, k.Ready 0x090B ∧ u8 k.blk 0 = 3 ∧ allZero k.blk 8 56 = true ∧ u8 k.blk 1 = 0 ∧ portHeadBad 1 k.blk = false ∧ k.st.portUsed (1, (u8 k.blk 2), (u8 k.blk 3)) = false :=
  ⟨{ op := 0x090B, blk := [3, 0, 3, 0] ++ zeros 60 }, Case.ready (by decide +kernel), by decide +kernel⟩

theorem wit_loopPortRelease_spi : ∃ k : Case, k.Ready 0x090B ∧ u8 k.blk 0 = 3 ∧ allZero k.blk 8 56 = true ∧ u8 k.blk 1 = 1 ∧ portHeadBad 2 k.blk = false ∧ k.st.portUsed (2, (u8 k.blk 2), (u8 k.blk 3)) = false :=
  ⟨{ op := 0x090B, blk := [3, 1, 1, 3] ++ zeros 60 }, Case.ready (by decide +kernel), by decide +kernel⟩

theorem wit_loopPortRelease_pwm : ∃ k : Case, k.Ready 0x090B ∧ u8 k.blk 0 = 3 ∧ allZero k.blk 8 56 = true ∧ u8 k.blk 1 = 2 ∧ portHeadBad 3 k.blk = false ∧ k.st.portUsed (3, (u8 k.blk 2), (u8 k.blk 3)) = false ∧ (Map.get {} k.st.cmp.pwm (u8 k.blk 2)).duty ≠ 0 :=
  ⟨{ op := 0x090B, blk := [3, 2, 7, 0] ++ zeros 60, on := { host0 with cmp := { host0.cmp with pwm := [(7, { nextPeriod := 16, period := 16, duty := 5 })] } } }, Case.ready (by decide +kernel), by decide +kernel⟩

/-! ### Witnesses: CupolaIngest, CupolaTimes -/

/-- Group 0 of camera 0, its anchor, started; the camera's state as given. -/
def run0 (f : Sensor → Sensor) (g : Group → Group := id) : State :=
  (sense0 (g { configured := true, started := true, cfg := groupBlock })).modSensor 0 f
/-- Lidar 5 on ETH0, the anchor of started group 0. -/
def beam0 (f : Sensor → Sensor) (q : List EthFrame := []) : State :=
  let s := (host0.modSensor 5 fun _ => f { cfg := lidar 5 }).modGroup 0 fun _ =>
    { configured := true, started := true, cfg := [0, 5, 0, 0] ++ le 2 32 ++ groupBlock.drop 6 }
  { s with cup := { s.cup with tables := [(2, parseBlock 4)], queues := if q = [] then [] else [(8, q)] } }
/-- A UDP datagram of 64 zero bytes for port 2368, in IPv4 in Ethernet II. -/
def udpFrame : EthFrame := ⟨zeros 12 ++ [8, 0, 0x45, 0, 0, 92, 0, 0, 0, 0, 64, 17] ++ zeros 10 ++ [0, 0, 9, 0x40, 0, 72, 0, 0] ++ zeros 64, true, 500⟩

theorem wit_csiFrameStart : ∃ s : State, s.cameraAt 0 0 = some (0, 0) :=
  ⟨run0 id, by decide +kernel⟩

/-- The camera with two gates. -/
def gated0 (f : Sensor → Sensor) : State := run0 fun x => f { x with cfg := [0, 2, 0, 0, 2] ++ (camera 0 0).drop 5 }
theorem wit_csiFrameStart_gate : ∃ s : State, s.cameraAt 0 1 = some (0, 0 + 1) :=
  ⟨gated0 id, by decide +kernel⟩

theorem wit_csiFrameEnd_gates : ∀ l ∈ [[], [1]], ∃ s : State, s.cameraAt 0 0 = some (0, 0) ∧ (s.sensor 0).inImage = true ∧
    decide ((dedup (0 :: (s.sensor 0).gatesEnded)).length < (s.sensor 0).gates) = (l == []) :=
  fun l h => ⟨gated0 fun x => { x with inImage := true, gatesEnded := l }, by revert l; decide +kernel⟩

theorem wit_takeLine : ∃ (s : State) (px : List Nat), (s.sensor 0).kind ≠ 2 ∧ (s.sensor 0).dataType ≠ 0x24 ∧ (s.sensor 0).dataType ≠ 0x1E ∧ (s.sensor 0).bayer = 0 ∧ s.stem = [] ∧
    (Map.get {} (s.sensor 0).ring (7 % (s.sensor 0).depth)).y ≠ 7 ∧ px.length = (s.sensor 0).width ∧ ∀ v ∈ px, v < 2 ^ (s.sensor 0).compBits :=
  ⟨run0 fun x => { x with inImage := true, lineNo := [(0, 7)] }, List.replicate 64 255, by decide +kernel⟩

theorem wit_csiLongPacket : ∃ s : State, s.cameraAt 0 0 = some (0, 0) ∧ (s.sensor 0).inImage = true ∧ (s.sensor 0).gatesEnded.contains 0 = false ∧
    Map.get 0 (s.sensor 0).lineNo 0 = 47 ∧ 47 < (s.sensor 0).height :=
  ⟨run0 fun x => { x with inImage := true, lineNo := [(0, 47)] }, by decide +kernel⟩

theorem wit_csiFrameEnd : ∃ s : State, s.cameraAt 0 0 = some (0, 0) ∧ (s.sensor 0).inImage = true ∧ (s.sensor 0).gates ≤ (dedup (0 :: (s.sensor 0).gatesEnded)).length :=
  ⟨run0 fun x => { x with inImage := true }, by decide +kernel⟩

theorem wit_joinImage : ∃ s : State, s.groupOf 0 = some 0 ∧ (s.sensor 0).time.timed = true ∧ (s.sensor 0).damaged = false ∧
    (s.sensor 0).lines = (s.sensor 0).height :=
  ⟨run0 fun x => { x with time := { x.time with state := .aligned }, lineNo := [(0, 48)] }, by decide +kernel⟩

theorem wit_joinImage_damaged : ∃ s : State, s.groupOf 0 = some 0 ∧ (s.sensor 0).time.timed = true ∧ (s.sensor 0).damaged = true :=
  ⟨run0 fun x => { x with time := { x.time with state := .arrival }, damaged := true }, by decide +kernel⟩

theorem wit_joinImage_untimed : ∃ s : State, s.groupOf 0 = some 0 ∧ (s.sensor 0).time.timed = false := ⟨run0 id, by decide +kernel⟩

theorem wit_ethFrameReceive_group : ∃ (s : State) (u : Nat) (p : List Byte), s.cup.portsDown.contains 8 = false ∧ udpFrame.fcsOk = true ∧
    udpOf udpFrame.bytes = some (u, p) ∧ s.lidarAt 8 u = some 5 ∧ s.groupOf 5 = some 0 ∧ (Map.get [] s.cup.queues 8).length < 64 :=
  ⟨beam0 id, 2368, zeros 64, by decide +kernel⟩

theorem wit_ethFrameReceive : ∃ (s : State) (u : Nat) (p : List Byte), s.cup.portsDown.contains 8 = false ∧ udpFrame.fcsOk = true ∧
    udpOf udpFrame.bytes = some (u, p) ∧ s.lidarAt 8 u = some 5 ∧ s.groupOf 5 = none ∧ (Map.get [] s.cup.queues 8).length < 64 :=
  ⟨host0.modSensor 5 fun _ => { cfg := lidar 5 }, 2368, zeros 64, by decide +kernel⟩

theorem wit_ethFrameReceive_full : ∃ (s : State) (u : Nat) (p : List Byte), s.cup.portsDown.contains 8 = false ∧ udpFrame.fcsOk = true ∧
    udpOf udpFrame.bytes = some (u, p) ∧ s.lidarAt 8 u = some 5 ∧ s.groupOf 5 = none ∧ 64 ≤ (Map.get [] s.cup.queues 8).length :=
  ⟨{ host0 with cup := { host0.cup with sensors := [(5, { cfg := lidar 5 })], queues := [(8, List.replicate 64 ⟨[], true, 0⟩)] } },
    2368, zeros 64, by decide +kernel⟩

theorem wit_ethFrameReceive_bad : ∃ f : EthFrame, host0.cup.portsDown.contains 11 = false ∧ f.fcsOk = false :=
  ⟨⟨[], false, 0⟩, by decide +kernel⟩

theorem wit_lidarPacketParse : ∃ (s : State) (u : Nat) (p : List Byte), Map.get [] s.cup.queues 8 = udpFrame :: [] ∧
    udpOf udpFrame.bytes = some (u, p) ∧ s.lidarAt 8 u = some 5 ∧
    (let b := Map.get [] s.cup.tables (s.sensor 5).parse
     b ≠ [] ∧ tMinLen b ≤ p.length ∧ matchesAll b p = true) :=
  ⟨beam0 id [udpFrame], 2368, zeros 64, by decide +kernel⟩

theorem wit_lidarPacketParse_failed : ∃ (s : State) (u : Nat) (p : List Byte), Map.get [] s.cup.queues 8 = udpFrame :: [] ∧
    udpOf udpFrame.bytes = some (u, p) ∧ s.lidarAt 8 u = some 5 ∧ Map.get [] s.cup.tables (s.sensor 5).parse = [] :=
  ⟨{ beam0 id [udpFrame] with cup := { (beam0 id [udpFrame]).cup with tables := [] } }, 2368, zeros 64, by decide +kernel⟩

theorem wit_joinReturns : ∃ s : State, Map.wf {} s.cup.sensors = true ∧ s.groupOf 5 = some 0 ∧ (s.sensor 5).time.timed = true :=
  ⟨beam0 fun x => { x with time := { x.time with state := .arrival } }, by decide +kernel⟩

theorem wit_joinReturns_untimed : ∃ s : State, Map.wf {} s.cup.sensors = true ∧ s.groupOf 5 = some 0 ∧ (s.sensor 5).time.timed = false :=
  ⟨beam0 id, by decide +kernel⟩

/-- Sixteen pairs on a line at the nominal rate. -/
def pairs16 : List (Int × Int) := (List.range 16).map fun (k : Nat) => ((1000 * (15 - k : Nat) : Int), (1000 * (15 - k : Nat) + 7 : Int))
def fit16 : Fit := ((fitOf pairs16).getD ⟨0, 0, 0, 0, 0⟩)

theorem wit_strobe_aligned : ∃ (x : SensorTime) (t : Int), fitOf x.pairs = some fit16 ∧ x.state = .aligned ∧
    fit16.consistent 10 (2 ^ 32) (fit16.nearest 1000 t) t = true :=
  ⟨{ state := .aligned, pairs := pairs16 }, 16017, by decide +kernel⟩

theorem wit_strobe_slip : ∃ (x : SensorTime) (t : Int), fitOf x.pairs = some fit16 ∧ x.state = .aligned ∧
    fit16.consistent 10 (2 ^ 32) (fit16.nearest 1000 t) t = false :=
  ⟨{ state := .aligned, pairs := pairs16 }, 16018, by decide +kernel⟩

theorem wit_strobe_sixteenth : ∃ (x : SensorTime) (t : Int), fitOf x.pairs = some fit16 ∧ x.state = .unaligned ∧ x.run = 15 ∧
    fit16.consistent 10 (2 ^ 32) (nearestInt x.sample 1000 * 1000) t = true :=
  ⟨{ state := .unaligned, pairs := pairs16, run := 15, sample := 16000 }, 16007, by decide +kernel⟩

theorem wit_strobe_counts : ∃ (x : SensorTime) (t : Int), fitOf x.pairs = some fit16 ∧ x.state = .unaligned ∧ x.run < 15 ∧
    fit16.consistent 10 (2 ^ 32) (nearestInt x.sample 1000 * 1000) t = true :=
  ⟨{ state := .unaligned, pairs := pairs16, run := 14, sample := 16000 }, 16007, by decide +kernel⟩

theorem wit_strobe_restarts : ∃ (x : SensorTime) (t : Int), fitOf x.pairs = some fit16 ∧ x.state = .unaligned ∧ 2 ≤ x.run ∧
    fit16.consistent 10 (2 ^ 32) (nearestInt x.sample 1000 * 1000) t = false :=
  ⟨{ state := .unaligned, pairs := pairs16, run := 2, sample := 16000 }, 16018, by decide +kernel⟩

theorem wit_strobeMissed : ∃ s : State, s.groupOf 0 = some 0 ∧ (s.sensor 0).strobeTimed = true ∧ (s.sensor 0).time.state = .aligned ∧
    (s.sensor 0).time.missed < 3 :=
  ⟨run0 fun x => { x with time := { x.time with state := .aligned, missed := 2 } }, by decide +kernel⟩

theorem wit_strobeMissed_fourth : ∃ s : State, s.groupOf 0 = some 0 ∧ (s.sensor 0).strobeTimed = true ∧
    (s.sensor 0).time.state = .aligned ∧ 3 ≤ (s.sensor 0).time.missed :=
  ⟨run0 fun x => { x with time := { x.time with state := .aligned, missed := 3 } }, by decide +kernel⟩

theorem wit_anchorCountUpdate : ∃ s : State, (s.group 0).started = true ∧ (2 ^ 64 - 1 : Nat) < 2 ^ 64 :=
  ⟨run0 id, by decide +kernel⟩

theorem wit_strobeMissed_unaligned : ∃ s : State, s.groupOf 0 = some 0 ∧ (s.sensor 0).strobeTimed = true ∧ (s.sensor 0).time.state = .unaligned := ⟨run0 fun x => { x with time := { x.time with state := .unaligned } }, by decide +kernel⟩

/-- A trigger in the middle of its period: its next pulse stands at a count of its phase; and one that is off. -/
def pulse0 : Trigger := { mode := 1, period := 7500, phase := 9, last := some 9 }
theorem wit_triggerPulse : (∃ k y, pulse0.nextPulse 9 = (some k, y) ∧ k < 2 ^ 64) ∧ ∃ y, ({} : Trigger).nextPulse 9 = (none, y) :=
  ⟨⟨7509, pulse0, by decide +kernel⟩, {}, by decide +kernel⟩
theorem wit_nextPulse : pulse0.mode = 1 ∧ 0 < pulse0.period ∧ pulse0.phase < pulse0.period ∧ pulse0.next = none := by decide

theorem wit_sensorPortLockLoss : ∃ s : State, s.cup.portsDown.contains 11 = false := ⟨host0, by decide +kernel⟩

theorem wit_portLockRegain : ∃ s : State, s.cup.portsDown.contains 0 = true :=
  ⟨{ host0 with cup := { host0.cup with portsDown := [0] } }, by decide +kernel⟩

/-! ### Witnesses: stem lines of a camera (PostedDataMove) -/

/-- A stem command of mode 0 on camera 0 and line 0 of its image 7, the camera as given. -/
def stemOn (f : Sensor → Sensor) : State :=
  { run0 f with stem := [{ post := 4, part := 0, record := [0, 0, 1, 1, 1, 1, 1, 0, 0, 0, 0, 0] ++ zeros 4 ++ le 4 7 ++ zeros 4 ++ le 2 1 ++ le 2 1 ++ zeros 100 }] }
theorem wit_stemLineStart_awaited : ∃ (s : State) (c : StemCmd), s.stem.find? (·.post == 4) = some c ∧ sEmpty c.record = false ∧ sMode c.record = 0 ∧
    (s.sensor (u8 c.record 1)).stemOk c.record = true ∧ (match s.stemInputs c with
     | some none => true
     | _ => false) = true :=
  ⟨stemOn fun x => { x with seqNo := some 6 }, _, rfl, by decide +kernel⟩
theorem wit_stemLineStart_gone : ∃ (s : State) (c : StemCmd), s.stem.find? (·.post == 4) = some c ∧ sEmpty c.record = false ∧ sMode c.record = 0 ∧
    (s.sensor (u8 c.record 1)).stemOk c.record = true ∧ (s.stemInputs c).isNone = true :=
  ⟨stemOn fun x => { x with seqNo := some 8 }, _, rfl, by decide +kernel⟩

/-! ### Witnesses: FusionFrames -/

/-- The anchor is timed, and group 0 as given. -/
def timed0 (g : Group → Group) : State := run0 (fun x => { x with time := { x.time with state := .aligned } }) g

theorem wit_frameInstant : ∃ s : State, (s.group 0).due = [9] ∧ (s.group 0).started = true ∧ (s.group 0).stopping = none ∧ (s.group 0).broken = false ∧
    s.anchorOk 0 = true ∧ wrapI 64 9 = (9 : Nat) := ⟨timed0 fun g => { g with due := [9] }, by decide +kernel⟩

theorem wit_frameDeadline : ∀ n ∈ [1008, 1009], ∃ s : State, (s.group 0).frame = some { t := 9 } ∧ decide (((s.group 0).count : Int) < 9 + (s.group 0).deadline) = (n == 1008) :=
  fun n h => ⟨timed0 fun g => { g with count := n, frame := some { t := 9 } }, by revert n; decide +kernel⟩

theorem wit_frameAssembly : ∃ (s : State) (f : Frame), (s.group 0).frame = some f ∧ f.assembled = false ∧ f.closed = true ∧
    s.noteReady.cup.ready.head? = some 0 ∧ (∀ k, k < 4 → k ≠ 0 → (s.group k).frame = none) :=
  ⟨timed0 fun g => { g with frame := some { t := 9, closed := true } }, { t := 9, closed := true }, by decide +kernel⟩

theorem wit_frameHeaderWrite (lost failed : Bool) : ∃ (s : State) (f : Frame), (s.group 0).frame = some f ∧ f.assembled = true ∧
    f.writes = [] ∧ f.headerWrite = none ∧ s.boxesFed 0 = true ∧ f.lost = lost ∧ f.failed = failed :=
  ⟨timed0 fun g => { g with frame := some { t := 9, closed := true, assembled := true, lost := lost, failed := failed } },
    { t := 9, closed := true, assembled := true, lost := lost, failed := failed }, by cases lost <;> cases failed <;> decide +kernel⟩

theorem wit_boxesFed : ∃ (s : State) (f : Frame), (s.group 0).boxesReady = true ∧ (s.group 0).frame = some f ∧ s.boxesFed 0 = false :=
  ⟨timed0 fun g => { g with boxesReady := true, frame := some { t := 9 } }, { t := 9 }, by decide +kernel⟩

theorem wit_timeBreak : ∃ s : State, (s.group 0).broken = true ∧ (s.group 0).started = true ∧ (s.group 0).frame = none :=
  ⟨timed0 fun g => { g with broken := true }, by decide +kernel⟩

theorem wit_issueFrame_blocked : ∃ s : State, (s.group 0).slots = 2 ∧ (s.group 0).released + (s.group 0).slots ≤ (s.group 0).written :=
  ⟨timed0 fun g => { g with written := 2 }, by decide +kernel⟩

theorem wit_issueFrame : ∃ s : State, (s.group 0).written < (s.group 0).released + (s.group 0).slots := ⟨timed0 id, by decide +kernel⟩

theorem wit_isLate : ∃ (g : Group) (t : Int), g.sequence ≠ 0 ∧ t ≤ g.tLast := ⟨{ sequence := 1, tLast := 9 }, 9, by decide⟩

/-! ### Witnesses: WorldPublication, QueryCourse, CollisionBand -/

/-- Group 0 with a set of boxes for Steeple, which stands as given. -/
def boxes0 (x : Steeple) : State :=
  { (timed0 fun g => { g with boxesReady := true, boxes := [⟨0, 1, 0, 1, 100⟩] }) with stp := x }

theorem wit_boxSetTake_off : ∃ s : State, (s.group 0).boxesReady = true ∧ s.stp.mode 0 = 0 := ⟨boxes0 {}, by decide +kernel⟩

theorem wit_boxSetTake_place : ∃ s : State, (s.group 0).boxesReady = true ∧ s.stp.mode 0 = 1 ∧ (s.group 0).urgent = false ∧
    s.stp.pubPending = false ∧ s.stp.copying = false := ⟨boxes0 { modes := 1 }, by decide +kernel⟩

theorem wit_boxSetTake_wait : ∃ s : State, (s.group 0).boxesReady = true ∧ s.stp.mode 0 = 1 ∧ (s.group 0).urgent = false ∧
    s.stp.copying = true := ⟨boxes0 { modes := 1, copying := true }, by decide +kernel⟩

theorem wit_boxSetTake_urgent : ∃ s : State, (s.group 0).boxesReady = true ∧ s.stp.mode 0 = 1 ∧ (s.group 0).urgent = true ∧ s.stp.pubPending = true ∧ s.stp.copying = false :=
  ⟨(boxes0 { modes := 1, pubPending := true }).modGroup 0 fun g => { g with urgent := true }, by decide +kernel⟩

theorem wit_boxSetTake_trigger : ∃ s : State, (s.group 0).boxesReady = true ∧ s.stp.mode 0 = 2 ∧ s.stp.pubPending = false ∧
    s.stp.copying = false := ⟨boxes0 { modes := 2 }, by decide +kernel⟩

theorem wit_publication : ∃ s : State, s.stp.pubPending = true ∧ s.stp.copying = false ∧
    (∀ r, s.stp.running = some r → r.buffer ≠ s.stp.retained ∨ r.stale = true) :=
  ⟨plan0 { pubPending := true, epoch := 2 ^ 32 - 1 }, rfl, rfl, fun _ h => by cases h⟩

theorem wit_publication_bad : ∃ s : State, s.stp.pubPending = true ∧ s.stp.copying = false ∧ s.stp.pubUrgent = true ∧ (s.stp.buffer s.stp.building).bad = true :=
  ⟨plan0 { pubPending := true, pubUrgent := true, buffers := [(1, { bad := true })] }, by decide +kernel⟩

theorem wit_buildingCopyDone : ∃ s : State, s.stp.copying = true ∧ s.stp.waitingOps = [] := ⟨plan0 { copying := true }, rfl, rfl⟩

theorem wit_editWorld : ∃ s : State, (s.stp.applyEdits [editBlock 7]).isSome = true := ⟨host0, by decide +kernel⟩

theorem wit_editBuffer_place : u8 (editBlock 7) 0 = 0 := by decide +kernel

theorem wit_editBuffer : ∃ r : List Byte, u8 r 0 = 1 ∧ u16 r 2 = 32767 := ⟨[1, 0, 255, 127], by decide +kernel⟩

theorem full_world (l : List (List Byte)) (h : l.length = 32768) :
    (plan0 { buffers := [(1, { sets := [(0, l)] })] }).stp.applyEdits [editBlock 7] = none := by
  have h0 : u8 (editBlock 7) 0 = 0 := by decide +kernel
  simp [Steeple.applyEdits, Steeple.buffer, Steeple.editBuffer, Buffer.delist, Buffer.setCount, plan0, h0, Map.get, Map.insert, sumNat, h]

theorem wit_editWorld_full : ∃ s : State, s.stp.applyEdits [editBlock 7] = none :=
  ⟨_, full_world (List.replicate 32768 []) List.length_replicate⟩

/-- A query of machine 1 and lattice 3: results to window 2, workspace in window 3. -/
def query1 : Query :=
  ⟨0, 5, false, [1, 3, 0, 0] ++ le 4 50000 ++ le 4 1000 ++ zeros 28 ++ le 8 0x50000002FFFF ++ zeros 8 ++ le 8 0x50000003FFFF ++ zeros 8 ++ le 4 1 ++ zeros 52⟩
/-- Machine 1 and lattice 3 set, windows 2 and 3 open, the record of post 5 landed in query window 4; the planner else as given. -/
def steeple0 (x : Steeple) : State :=
  let w : Win := { isOpen := true, kind := .partition, part := 0, flags := 5, len := 4096, tokCount := 1 }
  let s := (((plan0 { x with machines := [(1, machineBlock 1)], lattices := [(3, { set := true, headings := 16, res := 1000 })] }).setWin 2 w).setWin 3 w).setWin 4
    { w with kind := .query 0 }
  { s with fab := { s.fab with writes := [{ id := 6, src := .post 0 5, op := .unit, phase := .landed, handle := 0x50000004FFFF, data := query1.record, tamt := 1 }] } }
/-- The query under way, as given. -/
def plan1 (f : Running → Running) : State := steeple0 { running := some (f { query := query1, epoch := 0, buffer := 0, nodes := [⟨0, 0, 0, 0, 0, 0, 0⟩] }) }

theorem wit_queryPost : ∃ (s : State) (w : Write), s.write 6 = some w ∧ (s.win (hWindow w.handle)).kind = .query 0 ∧ w.phase = .landed ∧
    w.tamt ≠ 0 ∧ w.op ≠ .halo ∧ w.op ≠ .wb ∧ w.src = .post 0 5 ∧ s.stp.slotsUsed 0 < 4 ∧ w.data.length = 128 ∧
    w.poison.contains true = false ∧ s.queryOk 0 w.data = true :=
  ⟨steeple0 { queue := List.replicate 3 query1 },
    { id := 6, src := .post 0 5, op := .unit, phase := .landed, handle := 0x50000004FFFF, data := query1.record, tamt := 1 }, by decide +kernel⟩

theorem wit_queryPost_busy : ∃ (s : State) (w : Write), s.write 6 = some w ∧ (s.win (hWindow w.handle)).kind = .query 0 ∧ w.phase = .landed ∧
    w.tamt ≠ 0 ∧ w.op ≠ .halo ∧ w.op ≠ .wb ∧ 4 ≤ s.stp.slotsUsed 0 :=
  ⟨steeple0 { queue := List.replicate 4 query1 },
    { id := 6, src := .post 0 5, op := .unit, phase := .landed, handle := 0x50000004FFFF, data := query1.record, tamt := 1 }, by decide +kernel⟩

theorem wit_queryStart : ∃ s : State, s.stp.running = none ∧ s.stp.nextQuery = some { query1 with reserved := true } :=
  ⟨steeple0 { queue := [query1, { query1 with reserved := true }] }, by decide +kernel⟩

/-- The query from cell (`x`, 0) to cell (`y`, 0). -/
def way (x y : Nat) : Query := { query1 with record := query1.record.take 16 ++ le 4 x ++ zeros 8 ++ le 4 y ++ zeros 4 ++ query1.record.drop 36 }
/-- A small box stands at the origin, in the published buffer. -/
def solid0 : Steeple := { ((({} : Steeple).applyEdits [editBlock 7]).getD {}) with published := 1, building := 0 }

theorem wit_queryStart_start : ∃ s : State, s.stp.running = none ∧ s.stp.nextQuery = some (way 0 10) ∧
    ∃ c ∈ s.contacts s.stp.published (way 0 10).record [(Map.get {} s.stp.lattices (qLattice (way 0 10).record)).pose (qStartX (way 0 10).record) (qStartY (way 0 10).record) (u8 (way 0 10).record 0x18)], c.sure = true :=
  ⟨steeple0 { solid0 with queue := [way 0 10] }, by decide +kernel⟩

theorem wit_queryStart_goal : ∃ s : State, s.stp.running = none ∧ s.stp.nextQuery = some (way 10 0) ∧
    s.contacts s.stp.published (way 10 0).record [(Map.get {} s.stp.lattices (qLattice (way 10 0).record)).pose (qStartX (way 10 0).record) (qStartY (way 10 0).record) (u8 (way 10 0).record 0x18)] = [] ∧
    ∃ c ∈ s.contacts s.stp.published (way 10 0).record [(Map.get {} s.stp.lattices (qLattice (way 10 0).record)).pose (qGoalX (way 10 0).record) (qGoalY (way 10 0).record) (u8 (way 10 0).record 0x19)], c.sure = true :=
  ⟨steeple0 { solid0 with queue := [way 10 0] }, by decide +kernel⟩

theorem wit_queryStart_clean : ∃ s : State, s.stp.running = none ∧ s.stp.nextQuery = some (way 10 20) ∧
    s.contacts s.stp.published (way 10 20).record [(Map.get {} s.stp.lattices (qLattice (way 10 20).record)).pose (qStartX (way 10 20).record) (qStartY (way 10 20).record) (u8 (way 10 20).record 0x18)] = [] ∧
    s.contacts s.stp.published (way 10 20).record [(Map.get {} s.stp.lattices (qLattice (way 10 20).record)).pose (qGoalX (way 10 20).record) (qGoalY (way 10 20).record) (u8 (way 10 20).record 0x19)] = [] ∧
    inGoal (way 10 20).record (Map.get {} s.stp.lattices (qLattice (way 10 20).record)).headings ⟨qStartX (way 10 20).record, qStartY (way 10 20).record, 0, 0, 0, 0, 0⟩ = false :=
  ⟨steeple0 { solid0 with queue := [way 10 20] }, by decide +kernel⟩

/-- The straight primitive of `latticeBlock` from a node, beside the box and away from it. -/
theorem wit_candidate_sure : ∃ s : State, ∃ c ∈ s.sweep 1 (way 0 10).record (Map.get {} s.stp.lattices 3) ⟨0, 0, 0, 0, 0, 0, 0⟩ ((latticeBlock 0).drop 32), c.sure = true :=
  ⟨steeple0 solid0, by decide +kernel⟩
theorem wit_candidate_clear : ∃ (s : State) (r : Running), s.sweep 1 (way 0 10).record (Map.get {} s.stp.lattices 3) ⟨10, 0, 0, 0, 0, 0, 0⟩ ((latticeBlock 0).drop 32) = [] ∧
    ∀ v, r.bestG (11, 0, 0) = some v → satCost 0 5 < v :=
  ⟨steeple0 solid0, { query := query1, epoch := 0, buffer := 1, best := [((11, 0, 0), 6)] }, by decide +kernel, fun v h => by
    have h1 : some 6 = some v := h
    cases h1
    decide⟩

/-- The budget's microsecond, the expansion it allows last, and a full queue. -/
theorem wit_checkBudgets : qBudget query1.record = 50000 ∧ qMaxExp query1.record = 1000 ∧ pqMin [⟨5, 0⟩] = some ⟨5, 0⟩ := by decide +kernel

theorem wit_queryExpansion_on : ∃ (s : State) (r : Running) (e : PqEnt), s.stp.running = some r ∧ r.stale = false ∧ r.lost = false ∧
    s.unitWindow r.query.part (qWorkspace r.query.record) = true ∧ pqMin r.pq = some e ∧
    (r.bestG ((r.node e.node).x, (r.node e.node).y, (r.node e.node).h)).any (fun v => decide (v < (r.node e.node).g)) = false ∧
    inGoal r.query.record (Map.get {} s.stp.lattices (qLattice r.query.record)).headings (r.node e.node) = false :=
  ⟨plan1 fun r => { r with query := way 0 10, pq := [⟨5, 0⟩] }, _, ⟨5, 0⟩, rfl, rfl, rfl, by decide +kernel⟩

theorem wit_queryExpansion_stale : ∃ (s : State) (r : Running), s.stp.running = some r ∧ r.stale = true :=
  ⟨plan1 fun r => { r with stale := true }, _, rfl, rfl⟩

theorem wit_queryExpansion_empty : ∃ (s : State) (r : Running), s.stp.running = some r ∧ r.stale = false ∧ r.lost = false ∧
    s.unitWindow r.query.part (qWorkspace r.query.record) = true ∧ r.pq = [] :=
  ⟨plan1 id, _, rfl, rfl, rfl, by decide +kernel, rfl⟩

theorem wit_queryExpansion_goal : ∃ (s : State) (r : Running) (e : PqEnt), s.stp.running = some r ∧ r.stale = false ∧ r.lost = false ∧
    s.unitWindow r.query.part (qWorkspace r.query.record) = true ∧ pqMin r.pq = some e ∧
    (r.bestG ((r.node e.node).x, (r.node e.node).y, (r.node e.node).h)).any (fun v => decide (v < (r.node e.node).g)) = false ∧
    inGoal r.query.record (Map.get {} s.stp.lattices (qLattice r.query.record)).headings (r.node e.node) = true :=
  ⟨plan1 fun r => { r with pq := [⟨5, 0⟩, ⟨5, 0⟩] }, _, ⟨5, 0⟩, rfl, rfl, rfl, by decide +kernel⟩

theorem wit_queryResultWrite : ∃ (s : State) (e : Ended), s.stp.ended.find? (·.write.isNone) = some e ∧ qForward e.query.record = false :=
  ⟨steeple0 { ended := [{ query := query1, status := stNoPath }] }, { query := query1, status := stNoPath }, by decide +kernel⟩

/-- The same query, its path to be forwarded. -/
def query2 : Query := { query1 with record := [1, 3, 1] ++ query1.record.drop 3 }
theorem wit_queryResultWrite_forward : ∃ (s : State) (e : Ended), s.stp.ended.find? (·.write.isNone) = some e ∧
    qForward e.query.record = true ∧ e.status = stPathFound ∧ e.forwarded = false :=
  ⟨steeple0 { ended := [{ query := query2, status := stPathFound }] }, { query := query2, status := stPathFound }, by decide +kernel⟩

/-- Half a metre, in units of 2^-40 m; a pose at rest at the origin. -/
def half0 : Int := 2 ^ 39
def rest0 : MPose := ⟨0, 0, 2 ^ 80, 0⟩
/-- A point `x` millimetres away. -/
def away (x : Int) : Shape := .ball ⟨mmUnits x, 0, 0⟩ 0
abbrev slack0 : Int := mmUnits 1 - 2 ^ 20
abbrev limit0 : Int := half0 + ((away 0).dist2 (rest0.place ⟨0, 0, 0⟩) (rest0.place ⟨0, 0, 0⟩)).2 + mmUnits 100
abbrev gap0 (x : Int) : Int := ((away x).dist2 (rest0.place ⟨0, 0, 0⟩) (rest0.place ⟨0, 0, 0⟩)).1
abbrev bounded0 (x : Int) : Bool := (rest0.place ⟨0, 0, 0⟩).inBounds && (rest0.place ⟨0, 0, 0⟩).inBounds && (away x).inBounds

theorem wit_meets_none : bounded0 602 = true ∧ (limit0 + slack0).natAbs ^ 2 < gap0 602 := by decide +kernel

theorem wit_meets_sure : bounded0 598 = true ∧ 0 < limit0 - slack0 ∧ gap0 598 < (limit0 - slack0).natAbs ^ 2 := by decide +kernel

theorem wit_meets_band : bounded0 600 = true ∧ 0 ≤ limit0 + slack0 ∧ gap0 600 ≤ (limit0 + slack0).natAbs ^ 2 ∧ (limit0 - slack0).natAbs ^ 2 ≤ gap0 600 := by decide +kernel

theorem wit_meets_negative : bounded0 600 = true ∧ - mmUnits 5 + ((away 600).dist2 (rest0.place ⟨0, 0, 0⟩) (rest0.place ⟨0, 0, 0⟩)).2 + mmUnits 3 + slack0 < 0 := by decide +kernel

theorem wit_meets_far : bounded0 10000001 = false := by decide +kernel

theorem wit_clashes : ∃ l : List Contact, (∃ c ∈ l, c.sure = true) ∧ (∃ c ∈ l, c.sure = false) :=
  ⟨[⟨1, true⟩, ⟨2, false⟩], by decide⟩

/-! ### Witnesses: LoopTriggers, LoopRunEnd, LoopPorts, LoopArithmetic, OutputField -/

/-- Loop 15, run by the divider, as given. -/
def spin0 (f : CLoop → CLoop) : State := (loop0 (loopBlock 15 false 1) true).modLoop 15 f

theorem wit_triggerLoop_rate : ∃ s : State, (s.loop 15).status.started = true ∧ (s.loop 15).stopping = [] ∧ (s.loop 15).status.fault = false ∧
    (s.loop 15).lastTrigger = some 100 ∧ 20099 < 100 + 20000 := ⟨spin0 fun x => { x with lastTrigger := some 100 }, by decide +kernel⟩

theorem wit_triggerLoop_overrun : ∃ s : State, (s.loop 15).status.started = true ∧ (s.loop 15).stopping = [] ∧ (s.loop 15).status.fault = false ∧
    (s.loop 15).lastTrigger = some 100 ∧ 100 + 20000 ≤ 20100 ∧ (s.loop 15).run.isSome = true :=
  ⟨spin0 fun x => { x with lastTrigger := some 100, run := some {} }, by decide +kernel⟩

theorem wit_triggerLoop_run : ∃ s : State, (s.loop 15).status.started = true ∧ (s.loop 15).stopping = [] ∧ (s.loop 15).status.fault = false ∧
    (s.loop 15).lastTrigger = none ∧ (s.loop 15).run = none ∧ (∀ i, i < 8 → eKind (cSource (s.loop 15).cfg i) ≠ 2) :=
  ⟨spin0 id, by decide +kernel⟩

/-- Loop 15 with source 7 an SPI field and output 3 of kind `k`. -/
def edged0 (k : Nat) : State := spin0 fun x => { x with
  cfg := x.cfg.take 88 ++ le 8 (2 + 15 * 256) ++ x.cfg.drop 96 |>.take 144 |>.append (le 8 (k + 15 * 256) ++ zeros 40) }

theorem wit_triggerLoop_spi : ∃ s : State, (s.loop 15).status.started = true ∧ (s.loop 15).stopping = [] ∧ (s.loop 15).status.fault = false ∧
    (s.loop 15).lastTrigger = some 100 ∧ 100 + 20000 ≤ 20100 ∧ (s.loop 15).run = none ∧
    ((List.range 8).filter fun i => eKind (cSource (s.loop 15).cfg i) == 2) ≠ [] :=
  ⟨(edged0 0).modLoop 15 fun x => { x with lastTrigger := some 100 }, by decide +kernel⟩

theorem wit_canFrameReceive_fd : ∃ (s : State) (f : CanFrame), (s.canPort 3).record ≠ [] ∧ f.fd = true ∧ bitAt (u8 (s.canPort 3).record 0x12) 0 = true ∧
    s.namesId 3 (f.ident % 2 ^ 29 + (if f.extended = true then 2 ^ 29 else 0)) = true :=
  ⟨(loop0 (loopBlock 15 true 1) true).modCan 3 fun x => { x with record := (canBlock 0).take 18 ++ [1] ++ zeros 45 }, ⟨0x7FF, false, true, zeros 64⟩, by decide +kernel⟩

theorem wit_canFrameReceive : ∃ s : State, (s.canPort 3).record ≠ [] ∧ s.namesId 3 0x7FF = true :=
  ⟨(loop0 (loopBlock 15 true 1) true).modCan 3 fun x => { x with record := canBlock 0 }, by decide +kernel⟩

theorem wit_dividerExpiry : ∃ s : State, (s.loop 15).cfg ≠ [] ∧ cTrigger (s.loop 15).cfg = 0 := ⟨spin0 id, by decide +kernel⟩

theorem wit_dividerExpiry_hit : ∃ s : State, (s.loop 15).cfg ≠ [] ∧ cTrigger (s.loop 15).cfg = 0 ∧
    (s.loop 15).startedAt + u32 (s.loop 15).cfg 8 ≤ 20005 ∧ (20005 - (s.loop 15).startedAt) % u32 (s.loop 15).cfg 8 = 0 :=
  ⟨spin0 fun x => { x with startedAt := 5 }, by decide +kernel⟩
theorem wit_dividerExpiry_early : ∃ s : State, (s.loop 15).cfg ≠ [] ∧ cTrigger (s.loop 15).cfg = 0 ∧ 20004 < (s.loop 15).startedAt + u32 (s.loop 15).cfg 8 :=
  ⟨spin0 fun x => { x with startedAt := 5 }, by decide +kernel⟩
theorem wit_dividerExpiry_off : ∃ s : State, (s.loop 15).cfg ≠ [] ∧ cTrigger (s.loop 15).cfg = 0 ∧
    (s.loop 15).startedAt + u32 (s.loop 15).cfg 8 ≤ 20006 ∧ (20006 - (s.loop 15).startedAt) % u32 (s.loop 15).cfg 8 ≠ 0 :=
  ⟨spin0 fun x => { x with startedAt := 5 }, by decide +kernel⟩

theorem wit_spiReadDone : ∃ s : State, ((s.loop 15).run.map (·.waitingSpi)) = some true ∧ (∀ e ∈ s.cmp.spi, ∀ t ∈ e.2, t.loop = 15 → t.read = false) :=
  ⟨spin0 fun x => { x with run := some { waitingSpi := true } }, by decide +kernel⟩

theorem wit_nextInstr : ∃ (s : State) (r : Run) (w : DWord), s.nextInstr 15 = some (r, w) ∧ r.skip = false ∧ iOp w = 0 :=
  ⟨loopRun true, { trigger := 0 }, 0, by decide +kernel⟩

/-- Loop 15 under way, its instruction `w`, Z1 = -8, Z2 = 3, coefficient 5 with shift 1. -/
def calc0 (w : Nat) (f : Run → Run := id) : State :=
  { ((loopRun true).modLoop 15 fun x => { x with
      run := some (f { trigger := 0, z := [(1, 0xFFFFFFF8), (2, 3)] }), coeff := [(5, 5)], shift := [(5, 1)] }) with
    cmp := { (loopRun true).cmp with
      loops := ((loopRun true).modLoop 15 fun x => { x with
        run := some (f { trigger := 0, z := [(1, 0xFFFFFFF8), (2, 3)] }), coeff := [(5, 5)], shift := [(5, 1)] }).cmp.loops
      prog := [(4095, BitVec.ofNat 64 w)] } }
/-- A loop instruction: ZD = Z1 as well, ZA = Z1, ZB = Z2, coefficient 5. -/
def cWord (op imm : Nat) : Nat := op * 2 ^ 58 + 1 * 2 ^ 54 + 1 * 2 ^ 50 + 2 * 2 ^ 46 + 5 * 2 ^ 40 + imm

theorem wit_loopInstr : ∀ op ∈ List.range 17, ∃ (s : State) (r : Run) (w : DWord), s.nextInstr 15 = some (r, w) ∧ iOp w = op ∧ r.skip = false := by
  intro op h
  exact ⟨calc0 (cWord op 0), { trigger := 0, z := [(1, 0xFFFFFFF8), (2, 3)] }, BitVec.ofNat 64 (cWord op 0), by revert op; decide +kernel⟩

theorem wit_loopInstr_skip : ∀ op ∈ List.range 17, ∃ (s : State) (r : Run) (w : DWord), s.nextInstr 15 = some (r, w) ∧ iOp w = op ∧ r.skip = true := by
  intro op h
  exact ⟨calc0 (cWord op 0) fun r => { r with skip := true }, { trigger := 0, z := [(1, 0xFFFFFFF8), (2, 3)], skip := true },
    BitVec.ofNat 64 (cWord op 0), by revert op; decide +kernel⟩

theorem wit_lds_slot : ∃ (s : State) (r : Run) (w : DWord), s.nextInstr 15 = some (r, w) ∧ iOp w = 0x0D ∧ r.skip = false ∧
    Map.get 0 r.latched (bits (bits w.toNat 31 0) 13 10) = 2 + 1 :=
  ⟨calc0 (cWord 13 (15 * 1024 + 1023)) fun r => { r with latched := [(15, 3)] }, { trigger := 0, z := [(1, 0xFFFFFFF8), (2, 3)], latched := [(15, 3)] },
    BitVec.ofNat 64 (cWord 13 (15 * 1024 + 1023)), by decide +kernel⟩

theorem wit_lds : ∃ r : Run, Map.get 0 r.latched 3 = 1 + 1 := ⟨{ latched := [(3, 2)] }, by decide⟩

theorem wit_outputField : ∃ e : Nat, eBig e = true ∧ eWidth e = 16 ∧ eBit e + eWidth e ≤ 64 ∧ eKind e = 3 :=
  ⟨3 + 128 + 15 * 256 + 48 * 8192, by decide +kernel⟩

theorem wit_placeCan_little : ∃ e : Nat, eBig e = false ∧ eWidth e = 32 := ⟨31 * 256, by decide +kernel⟩
theorem wit_placeSpi : ∃ e : Nat, eBit e + eWidth e = 64 := ⟨31 * 256 + 32 * 8192, by decide +kernel⟩
theorem wit_handOne_pwm : ∃ s : State, eKind (cOutput (s.loop 15).cfg 3) = 3 := ⟨edged0 3, by decide +kernel⟩
theorem wit_handOne_spi : ∃ s : State, eKind (cOutput (s.loop 15).cfg 3) = 2 := ⟨edged0 2, by decide +kernel⟩
theorem wit_outputField_over : ∃ v : Word, v.toInt = 2 ^ (31 - 1) := ⟨2 ^ 30, by decide⟩
theorem wit_outputField_under : ∃ v : Word, v.toInt = -2 ^ (31 - 1) - 1 := ⟨0xBFFFFFFF, by decide⟩

theorem wit_runDeadline : ∃ (s : State) (r : Run), (s.loop 15).run = some r ∧ r.trigger + cDeadline (s.loop 15).cfg ≤ 48 :=
  ⟨loopRun true, { trigger := 0 }, rfl, by decide +kernel⟩

theorem wit_shadowSwitch_flight : ∃ s : State, (s.spSlot 15).copying = some 0 ∧ s.inFlight (s.spSlot 15).win = true :=
  ⟨(win0 winRw (wr .put .landed 0 0 0)).modSp 15 fun x => { x with isOpen := true, copying := some 0, win := 9, len := 64 }, by decide +kernel⟩

theorem wit_shadowSwitch_poison : ∃ s : State, (s.spSlot 15).copying = some 1 ∧ s.inFlight (s.spSlot 15).win = false ∧ (s.spSlot 15).dirty = false ∧
    (let x := s.spSlot 15
     let w := s.win x.win
     (s.flushRun w.part (w.spAddr 0) x.len).anyPoison w.part (w.spAddr 0) x.len = true) :=
  ⟨((region0 .enabled).writeBytes 0 0 (zeros 64) true).modSp 15 fun x => { x with isOpen := true, copying := some 1, win := 9, len := 64 },
    by decide +kernel⟩

theorem wit_runCommit (course : Nat) : ∃ (s : State) (r : Run), (s.loop 15).run = some r ∧ r.waitingSpi = false ∧ r.course = course ∧
    r.trigger + cDeadline (s.loop 15).cfg ≤ r.trigger + cDeadline (s.loop 15).cfg ∧ cProgLen (s.loop 15).cfg ≤ r.index :=
  ⟨spin0 fun x => { x with run := some { index := 1, course := course } }, { index := 1, course := course }, rfl, rfl, rfl, Nat.le_refl _, by
    show cProgLen (loopBlock 15 false 1) ≤ 1
    decide +kernel⟩

theorem wit_shadowSwitch (dirty : Bool) : ∃ s : State, (s.spSlot 15).copying = some 2 ∧ s.inFlight (s.spSlot 15).win = false ∧ (s.spSlot 15).dirty = dirty ∧
    (let x := s.spSlot 15
     let w := s.win x.win
     (s.flushRun w.part (w.spAddr 0) x.len).anyPoison w.part (w.spAddr 0) x.len = false) :=
  ⟨(region0 .enabled).modSp 15 fun x => { x with isOpen := true, copying := some 2, dirty := dirty, win := 9, len := 64 },
    by cases dirty <;> decide +kernel⟩

theorem wit_loopFence : ∃ s : State, (s.loop 15).status.fault = false ∧ (s.loop 15).run = none := ⟨spin0 id, by decide +kernel⟩
theorem wit_loopFence_run : ∃ s : State, (s.loop 15).status.fault = false ∧ (s.loop 15).run.isSome = true := ⟨loopRun true, by decide +kernel⟩

/-- A CAN frame of loop 15. -/
def can0 : CanTx := ⟨15, 0x7FF, false, 8, zeros 8⟩
theorem wit_canTransmitDone : ∃ s : State, (s.canPort 3).sending.isSome = true := ⟨host0.modCan 3 fun x => { x with sending := some can0 }, by decide +kernel⟩
theorem wit_canBusOffRecovery : ∃ s : State, (s.canPort 3).busOff = true := ⟨host0.modCan 3 fun x => { x with busOff := true }, by decide +kernel⟩
theorem wit_startCan : ∃ s : State, (s.canPort 3).sending = none ∧ (s.canPort 3).busOff = false ∧ (s.canPort 3).waiting ≠ [] :=
  ⟨host0.modCan 3 fun x => { x with waiting := [can0] }, by decide +kernel⟩
theorem wit_startCan_held : ∃ s : State, (s.canPort 3).sending.isSome = true ∨ (s.canPort 3).busOff = true ∨ (s.canPort 3).waiting = [] :=
  ⟨host0, by decide +kernel⟩
theorem wit_sendCan_replace : ∃ s : State, ∃ g ∈ (s.canPort 3).waiting, g.loop = can0.loop ∧ g.ident = can0.ident :=
  ⟨host0.modCan 3 fun x => { x with waiting := [can0] }, by decide +kernel⟩
theorem wit_sendCan : ∃ s : State, ∀ g ∈ (s.canPort 3).waiting, g.loop = can0.loop → g.ident ≠ can0.ident :=
  ⟨host0.modCan 3 fun x => { x with waiting := [{ can0 with ident := 1 }] }, by decide +kernel⟩
theorem wit_spiTransactionDone : ∃ (s : State) (t u : SpiTx), Map.get [] s.cmp.spi 1 = [t, u] :=
  ⟨{ host0 with cmp := { host0.cmp with spi := [(1, [⟨15, 3, true, 7⟩, ⟨15, 2, false, 9⟩])] } }, _, _, rfl⟩
theorem wit_spiTransactionDone_last : ∃ (s : State) (t : SpiTx), Map.get [] s.cmp.spi 1 = [t] :=
  ⟨{ host0 with cmp := { host0.cmp with spi := [(1, [⟨15, 3, true, 7⟩])] } }, _, rfl⟩
theorem wit_pwmPeriodBoundary : ∃ s : State, (Map.get {} s.cmp.pwm 7).nextPeriod ≠ 0 :=
  ⟨{ host0 with cmp := { host0.cmp with pwm := [(7, { nextPeriod := 16 })] } }, by decide +kernel⟩

/-! ### Sealed images: the verdict of the signature check is the signature's

Signature verdicts are an open constant, so no concrete state settles them; for an image that is sound in every
other respect the check answers by the signature alone, and the witnesses below hold under either verdict. -/

/-- A signature block by signer `id` of key `key`. -/
def sealBlock (kind target id : Byte) (key body : List Byte) : List Byte :=
  ([0x53, 0x49, 0x47, 0x42, 1, 0, kind, target, 0, 0, id, 0, 0, 0, 0, 0] : List Byte) ++ (digest16 key ++ (zeros 16 ++ (digest body ++ zeros 3984)))
/-- A sealed image. -/
def sealed (kind target id : Byte) (key body : List Byte) : List Byte := body ++ sealBlock kind target id key body

theorem sponge_length (rate ds n : Nat) (b : List Byte) : (sponge rate ds n b).length = n := by
  simp only [sponge, fit, List.length_take, List.length_append, List.length_replicate]
  omega
theorem digest_length (l : List Byte) : (digest l).length = 64 := sponge_length _ _ _ _
theorem digest16_length (l : List Byte) : (digest16 l).length = 16 := by simp [digest16, digest_length]
theorem slice_mid {a b c : List Byte} {o n : Nat} (ho : a.length = o) (hn : b.length = n) : slice (a ++ (b ++ c)) o n = b := by
  subst ho hn
  simp [slice, fit]

theorem zeros_length (n : Nat) : (zeros n).length = n := List.length_replicate
theorem sealBlock_length (kind target id : Byte) (key body : List Byte) : (sealBlock kind target id key body).length = 4096 := by
  simp only [sealBlock, List.length_append, digest_length, digest16_length, zeros_length, List.length_cons, List.length_nil]
theorem sealed_length (kind target id : Byte) (key body : List Byte) : (sealed kind target id key body).length = body.length + 4096 := by
  rw [sealed, List.length_append, sealBlock_length]
theorem sealed_block (kind target id : Byte) (key body : List Byte) :
    sigBlock (sealed kind target id key body) = sealBlock kind target id key body := by
  rw [sigBlock, sealed_length, Nat.add_sub_cancel, sealed, List.drop_left]
theorem sealed_body (kind target id : Byte) (key body : List Byte) :
    (sealed kind target id key body).take ((sealed kind target id key body).length - 4096) = body := by
  rw [sealed_length, Nat.add_sub_cancel, sealed, List.take_left]
theorem sealBlock_key (kind target id : Byte) (key body : List Byte) : slice (sealBlock kind target id key body) 0x10 16 = digest16 key :=
  slice_mid (by rfl) (digest16_length key)
theorem sealBlock_digest (kind target id : Byte) (key body : List Byte) : slice (sealBlock kind target id key body) 0x30 64 = digest body := by
  rw [sealBlock, ← List.append_assoc, ← List.append_assoc]
  exact slice_mid (by simp only [List.length_append, digest16_length, zeros_length, List.length_cons, List.length_nil]) (digest_length body)
theorem sealBlock_tail (kind target id : Byte) (key body : List Byte) (o n : Nat) :
    slice (sealBlock kind target id key body) (0x70 + o) n = slice (zeros 3984) o n := by
  have h : sealBlock kind target id key body =
      (([0x53, 0x49, 0x47, 0x42, 1, 0, kind, target, 0, 0, id, 0, 0, 0, 0, 0] : List Byte) ++ digest16 key ++ zeros 16 ++ digest body) ++ zeros 3984 := by
    simp only [sealBlock, List.append_assoc]
  rw [slice, slice, h, ← List.drop_drop, List.drop_left' (by
    simp only [List.length_append, digest16_length, digest_length, zeros_length, List.length_cons, List.length_nil])]

theorem slice_zeros (a o n : Nat) : slice (zeros a) o n = zeros n := by
  simp only [slice, fit, zeros, List.drop_replicate, List.replicate_append_replicate, List.take_replicate]
  congr 1
  omega
theorem allZero_zeros (a o n : Nat) : allZero (zeros a) o n = true := by
  rw [allZero, slice_zeros, zeros]
  simp

theorem head_fields (kind target id : Byte) (t : List Byte) :
    let g := ([0x53, 0x49, 0x47, 0x42, 1, 0, kind, target, 0, 0, id, 0, 0, 0, 0, 0] : List Byte) ++ t
    u32 g 0 = 0x42474953 ∧ u16 g 4 = 1 ∧ u8 g 6 = kind.toNat ∧ u8 g 7 = target.toNat ∧ u16 g 8 = 0 ∧ u8 g 0x0A = id.toNat ∧ allZero g 0x0C 4 = true :=
  ⟨by simp [u32, uN, leNat], by simp [u16, uN, leNat], rfl, rfl, by simp [u16, uN, leNat], rfl, by simp [allZero, slice, fit]⟩

/-- The check of a sealed image whose signer may sign it is the verdict on its signature. -/
theorem sealed_verdict (l : Lantern) (kind part target : Nat) (id : Byte) (key body : List Byte)
    (hs : l.signer id.toNat kind part = some key) (ha : l.life.accepts kind = true) (hc : l.policy = {})
    (hk : kind < 4) (ht : target = 0 ∨ kind = 3 ∧ target ≤ 2) (hf : l.targets = []) :
    ∃ v, l.sigCheck (sealed (BitVec.ofNat 8 kind) (BitVec.ofNat 8 target) id key body) kind part = (if v then none else some rcSignature) ∧
      v = signedBy key (slice (sealBlock (BitVec.ofNat 8 kind) (BitVec.ofNat 8 target) id key body) 0 0x80) (zeros 1280) := by
  let g := sealBlock (BitVec.ofNat 8 kind) (BitVec.ofNat 8 target) id key body
  have f := head_fields (BitVec.ofNat 8 kind) (BitVec.ofNat 8 target) id (digest16 key ++ (zeros 16 ++ (digest body ++ zeros 3984)))
  change u32 g 0 = _ ∧ u16 g 4 = _ ∧ u8 g 6 = _ ∧ u8 g 7 = _ ∧ u16 g 8 = _ ∧ u8 g 0x0A = _ ∧ allZero g 0x0C 4 = true at f
  have h8 : u8 g 0x0A = id.toNat := f.2.2.2.2.2.1
  have hm : sigMalformed g kind = false := by
    have e1 : allZero g 0x70 16 = true := by
      rw [allZero, show 0x70 = 0x70 + 0 from rfl, sealBlock_tail]; exact allZero_zeros 3984 0 16
    have e2 : allZero g 0xA80 1408 = true := by
      rw [allZero, show 0xA80 = 0x70 + 0xA10 from rfl, sealBlock_tail]; exact allZero_zeros 3984 0xA10 1408
    obtain ⟨e4, e5, e6, e7, e8, -, e3⟩ := f
    rw [BitVec.toNat_ofNat, Nat.mod_eq_of_lt (by omega)] at e6 e7
    simp only [sigMalformed, e1, e2, e3, e4, e5, e6, e7, e8]
    rcases ht with rfl | ⟨rfl, h⟩ <;> simp <;> omega
  have hz : slice g 0x80 1280 = zeros 1280 := by
    rw [show 0x80 = 0x70 + 0x10 from rfl, sealBlock_tail]; exact slice_zeros 3984 0x10 1280
  have hb : l.cosignBad g kind = false := by
    simp [Lantern.cosignBad, hc]
  have hv : decide (u16 g 8 <
      l.svnFloor g kind) = false := by
    have e8 : u16 g 8 = 0 := f.2.2.2.2.1
    rw [e8, decide_eq_false_iff_not, Nat.not_lt, Nat.le_zero, Lantern.svnFloor, hc, hf]
    split
    · rfl
    · rename_i h
      have : kind = 0 ∨ kind = 1 ∨ kind = 2 := by omega
      rcases this with rfl | rfl | rfl <;> rfl
  have hk' : slice g 0x10 16 = digest16 key := sealBlock_key _ _ _ _ _
  have hd : slice g 0x30 64 = digest body := sealBlock_digest _ _ _ _ _
  refine ⟨_, ?_, rfl⟩
  rw [Lantern.sigCheck, sealed_block, sealed_body, sealed_length]
  change firstFail [(decide (body.length + 4096 < 4096) || sigMalformed g kind, _), (!l.life.accepts kind, _),
    ((l.signer (u8 g 0x0A) kind part).isNone || (l.signer (u8 g 0x0A) kind part).any (fun k => slice g 0x10 16 != digest16 k), _),
    (slice g 0x30 64 != digest body || !(l.signer (u8 g 0x0A) kind part).any (fun k => signedBy k (slice g 0 0x80) (slice g 0x80 1280)), _),
    (l.cosignBad g kind, _), (decide (u16 g 8 < l.svnFloor g kind), _)] = if signedBy key (slice g 0 0x80) (zeros 1280) then _ else _
  have hl : decide (body.length + 4096 < 4096) = false := by simp
  rw [hl, hm, h8, hs, hk', hd, hz, hb, hv, ha]
  cases h : signedBy key (slice g 0 0x80) (zeros 1280) <;> simp [firstFail, h]

/-! ### Witnesses: commands that read a sealed image -/

/-- An owned device with root key 1, and a slot that holds an image. -/
def owned0 (on : State) (slot : Nat) (x : Slot) : State :=
  { on with lan := { on.lan with life := .owned, root := [1] }, store := { on.store with slots := [(slot, x)] } }
/-- A sealed image of the owner's, signed by the root. -/
def rootImage (kind owner : Nat) (body : List Byte) : Slot :=
  { state := 2, kind := kind, owner := owner, total := body.length + 4096, data := sealed (BitVec.ofNat 8 kind) (BitVec.ofNat 8 0) 0xFE [1] body }
/-- The verdict on such an image. -/
theorem root_verdict (s : State) (slot kind part : Nat) (x : Slot) (body : List Byte) (hk : kind < 3) (hl : s.lan.targets = []) (hp : s.lan.policy = {}) :
    ∃ v : Bool, (owned0 s slot x).lan.sigCheck (rootImage kind part body).data kind part = if v then none else some rcSignature := by
  obtain ⟨v, h, -⟩ := sealed_verdict (owned0 s slot x).lan kind part 0 0xFE [1] body
    (by have h3 : kind ≠ 3 := by omega
        simp [Lantern.signer, h3, owned0, Lantern.ownerMay, Lantern.ownerKey])
    (by have h3 : kind ≠ 3 := by omega
        simp [Life.accepts, h3, owned0, Life.isOwned]) hp (by omega) (.inl rfl) hl
  exact ⟨v, h⟩

/-- A world image: one leaf of one triangle. -/
def meshBody : List Byte :=
  le 4 0x444C5257 ++ le 2 1 ++ le 2 0 ++ le 4 1 ++ le 4 1 ++ le 8 64 ++ le 8 96 ++ le 8 (116 + 4096) ++ zeros 24 ++
  zeros 12 ++ le 4 0x3F800000 ++ le 4 0x3F800000 ++ le 4 0x3F800000 ++ le 4 0 ++ le 2 1 ++ le 2 0 ++ zeros 20
/-- The planner's slot 5 holds it. -/
def world0 : State := owned0 host0 5 (rootImage 2 0xFF meshBody)
theorem mesh_sound : meshCheck (rootImage 2 0xFF meshBody).data = none := by
  have h : (rootImage 2 0xFF meshBody).data.length = 116 + 4096 := sealed_length _ _ _ _ _
  rw [meshCheck, meshHeaderBad, h]
  decide +kernel
theorem wit_worldLoad : ∃ k : Case, k.Ready 0x0804 ∧ k.st.slotCheck (u16 k.inl 0) 2 0xFF = none ∧ k.st.mediaBad (u16 k.inl 0) = false ∧
    (∃ v : Bool, k.st.lan.sigCheck (k.st.slot (u16 k.inl 0)).data 2 0xFF = if v then none else some rcSignature) ∧
    k.st.stp.busy = false ∧ meshCheck (k.st.slot (u16 k.inl 0)).data = none :=
  ⟨{ op := 0x0804, inl := le 2 5, on := world0 }, Case.ready (by decide +kernel), by decide +kernel, by decide +kernel,
    root_verdict host0 5 2 0xFF (rootImage 2 0xFF meshBody) meshBody (by decide) rfl rfl, by decide +kernel, mesh_sound⟩

/-- A compiled DST that names region 0. -/
def dstBody : List Byte := (zeros 0x80 ++ [1, 0, 0, 0, 1, 0]) ++ zeros 3962
/-- A program: the shared lane alone, of one END; it names region 0. -/
def progHead : List Byte :=
  le 4 0x31494743 ++ le 2 1 ++ le 2 0x100 ++ le 8 (0x1150 + 4096) ++ zeros 4 ++ le 4 1 ++ zeros 72 ++
  le 8 0x100 ++ zeros 16 ++ le 8 0x150 ++ zeros 16 ++ le 8 0x110 ++ le 8 0x1150 ++ zeros 96 ++
  le 8 0x140 ++ le 4 3 ++ zeros 4 ++ zeros 32 ++ zeros 16 ++ le 4 1 ++ le 8 (0x19 * 2 ^ 58) ++ zeros 4
def progBody : List Byte := progHead ++ dstBody
def prog0 : State := owned0 (region0 .enabled) 5 (rootImage 0 0 progBody)
theorem u8_zeros {l : List Byte} {n o : Nat} (h : l.length ≤ o) : u8 (l ++ zeros n) o = 0 := by
  have : nth 0 (l ++ zeros n) o = 0 := by
    simp only [nth, zeros, List.getElem?_append_right h, List.getElem?_replicate]
    split <;> rfl
  rw [u8, this]
  rfl
theorem dst_sound : dstReserved dstBody = false := by
  have h : ∀ o, 134 ≤ o → u8 dstBody o = 0 := fun o ho => u8_zeros (l := zeros 0x80 ++ [1, 0, 0, 0, 1, 0]) ho
  have h1 : ((List.range 255).any fun i => u8 dstBody (0x603 + 8 * i) != 0) = false := by
    rw [List.any_eq_false]
    intro i _
    rw [h _ (by omega)]
    decide
  rw [dstReserved, h1, Bool.or_false]
  decide +kernel
def progLanes : List LLane := [{ id := 255, shared := true, words := [⟨1, [(0, 0x19 * 2 ^ 58)]⟩], wct := [], ext := 0, own := 0 }]
theorem prog_shape : shapeBad (rootImage 0 0 progBody).data = false := by
  have h : (rootImage 0 0 progBody).data.length = 0x1150 + 4096 := (sealed_length _ _ _ _ _).trans (by decide +kernel)
  rw [shapeBad, h]
  decide +kernel
theorem prog_lanes : loadLanes (rootImage 0 0 progBody).data = some progLanes := by decide +kernel
theorem prog_dst : hBytes (rootImage 0 0 progBody).data 3 = dstBody := by
  have h1 : hSection (rootImage 0 0 progBody).data 3 = 0x150 := by decide +kernel
  have h2 : nth 0 (sectionLens (rootImage 0 0 progBody).data) 3 = 4096 := by decide +kernel
  have h3 : (rootImage 0 0 progBody).data = progHead ++ (dstBody ++ sealBlock 0 0 0xFE [1] progBody) := List.append_assoc _ _ _
  rw [hBytes, h1, h2, h3]
  exact slice_mid (by decide +kernel) (by decide +kernel)
theorem prog_tables : tablesBad (rootImage 0 0 progBody).data progLanes = false := by
  rw [tablesBad, prog_dst, dst_sound]
  decide +kernel
theorem prog_sound : imageCheck (rootImage 0 0 progBody).data = none := by
  rw [imageCheck, prog_shape, prog_lanes]
  simp only [prog_tables]
  decide +kernel
def progCase : Case := { op := 0x0301, inl := [0, 7, 5, 0], on := prog0 }
theorem prog_data : (progCase.st.slot (u16 progCase.inl 2)).data = (rootImage 0 0 progBody).data := rfl
theorem prog_fits : progCase.st.loadFit (u8 progCase.inl 0) (u8 progCase.inl 1) (buildImage (u16 progCase.inl 2) (progCase.st.slot (u16 progCase.inl 2)).data)
    (imageWindows (progCase.st.slot (u16 progCase.inl 2)).data) = none := by decide +kernel
theorem wit_programLoad : ∃ k : Case, k.Ready 0x0301 ∧ (k.st.ctx (u8 k.inl 0) (u8 k.inl 1)).image = none ∧
    k.st.slotCheck (u16 k.inl 2) 0 (u8 k.inl 0) = none ∧ k.st.mediaBad (u16 k.inl 2) = false ∧
    (∃ v : Bool, k.st.lan.sigCheck (k.st.slot (u16 k.inl 2)).data 0 (u8 k.inl 0) = if v then none else some rcSignature) ∧
    imageCheck (k.st.slot (u16 k.inl 2)).data = none ∧
    k.st.loadFit (u8 k.inl 0) (u8 k.inl 1) (buildImage (u16 k.inl 2) (k.st.slot (u16 k.inl 2)).data)
      (imageWindows (k.st.slot (u16 k.inl 2)).data) = none :=
  ⟨progCase, Case.ready (by decide +kernel), by decide +kernel, by decide +kernel, by decide +kernel,
    prog_data ▸ root_verdict (region0 .enabled) 5 0 0 (rootImage 0 0 progBody) progBody (by decide) rfl rfl,
    prog_data ▸ prog_sound, prog_fits⟩

/-- A model image, of any bytes. -/
def modelBody : List Byte := zeros 64
theorem model_body : (rootImage 1 0 modelBody).body = modelBody := by
  rw [Slot.body, if_pos (by decide)]
  exact sealed_body _ _ _ _ _
theorem wit_modelStage (mode : Nat) (hm : mode = 0 ∨ mode = 1) : ∃ k : Case, k.Ready 0x0401 ∧ u8 k.inl 4 = mode ∧ k.st.slotCheck (u16 k.inl 2) 1 (u8 k.inl 0) = none ∧
    k.st.mediaBad (u16 k.inl 2) = false ∧
    (∃ v : Bool, k.st.lan.sigCheck (k.st.slot (u16 k.inl 2)).data 1 (u8 k.inl 0) = if v then none else some rcSignature) ∧
    (k.st.part (u8 k.inl 0)).stageCheck (digest16 (k.st.slot (u16 k.inl 2)).body) (k.st.slot (u16 k.inl 2)).body.length mode = none := by
  have hx : ∀ n : Nat, n = (rootImage 1 0 modelBody).body.length → (part0 { state := .enabled, cfg := { ddr5Bytes := 2 ^ 20, tiers := 4 } } |>.part 0).stageCheck
      (digest16 (rootImage 1 0 modelBody).body) n mode = none := by
    intro n hn
    rw [hn, model_body]
    have h64 : modelBody.length = 64 := zeros_length 64
    rw [h64]
    rcases hm with rfl | rfl <;> decide +kernel
  rcases hm with rfl | rfl
  · exact ⟨{ op := 0x0401, inl := [0, 0, 5, 0, 0], on := owned0 (part0 { state := .enabled, cfg := { ddr5Bytes := 2 ^ 20, tiers := 4 } }) 5 (rootImage 1 0 modelBody) },
      Case.ready (by decide +kernel), by decide +kernel, by decide +kernel, by decide +kernel,
      root_verdict (part0 { state := .enabled, cfg := { ddr5Bytes := 2 ^ 20, tiers := 4 } }) 5 1 0 (rootImage 1 0 modelBody) modelBody (by decide) rfl rfl, hx _ rfl⟩
  · exact ⟨{ op := 0x0401, inl := [0, 0, 5, 0, 1], on := owned0 (part0 { state := .enabled, cfg := { ddr5Bytes := 2 ^ 20, tiers := 4 } }) 5 (rootImage 1 0 modelBody) },
      Case.ready (by decide +kernel), by decide +kernel, by decide +kernel, by decide +kernel,
      root_verdict (part0 { state := .enabled, cfg := { ddr5Bytes := 2 ^ 20, tiers := 4 } }) 5 1 0 (rootImage 1 0 modelBody) modelBody (by decide) rfl rfl, hx _ rfl⟩

/-- A firmware image for target 2, signed by Tithen's first firmware key. -/
def fwImage : Slot := { state := 2, kind := 3, owner := 0xFF, total := 64 + 4096, data := sealed 3 2 0xF0 (tithenKey 0xF0) (zeros 64) }
theorem wit_secUpdate : ∃ k : Case, k.Ready 0x0C02 ∧ k.st.lan.update = none ∧ u8 k.inl 2 ≤ 2 ∧ k.st.slotCheck (u16 k.inl 0) 3 0xFF = none ∧
    k.st.mediaBad (u16 k.inl 0) = false ∧
    (∃ v : Bool, k.st.lan.sigCheck (k.st.slot (u16 k.inl 0)).data 3 0xFF = if v then none else some rcSignature) ∧
    u8 (sigBlock (k.st.slot (u16 k.inl 0)).data) 7 = u8 k.inl 2 ∧ (k.st.slot (u16 k.inl 0)).data.length ≤ targetBytes (u8 k.inl 2) := by
  have hl : (sealed 3 2 0xF0 (tithenKey 0xF0) (zeros 64)).length ≤ targetBytes 2 := by
    rw [sealed_length]
    decide +kernel
  have hg : u8 (sigBlock (sealed 3 2 0xF0 (tithenKey 0xF0) (zeros 64))) 7 = 2 := by
    rw [sealed_block]
    exact (head_fields 3 2 0xF0 _).2.2.2.1
  have hv : ∃ v : Bool, ({ host0.lan with life := .owned } : Lantern).sigCheck fwImage.data 3 0xFF = if v then none else some rcSignature := by
    obtain ⟨v, h, -⟩ := sealed_verdict ({ host0.lan with life := .owned } : Lantern) 3 0xFF 2 0xF0 (tithenKey 0xF0) (zeros 64) rfl rfl rfl
      (by decide) (.inr ⟨rfl, by decide⟩) rfl
    exact ⟨v, h⟩
  exact ⟨{ op := 0x0C02, inl := [5, 0, 2], on := { host0 with lan := { host0.lan with life := .owned }, store := { host0.store with slots := [(5, fwImage)] } } },
    Case.ready (by decide +kernel), by decide +kernel, by decide +kernel, by decide +kernel, by decide +kernel, hv, hg, hl⟩

theorem wit_secUpdate_other : ∃ k : Case, k.Ready 0x0C02 ∧ k.st.lan.update = none ∧ u8 k.inl 2 ≤ 2 ∧ k.st.slotCheck (u16 k.inl 0) 3 0xFF = none ∧
    k.st.mediaBad (u16 k.inl 0) = false ∧
    (∃ v : Bool, k.st.lan.sigCheck (k.st.slot (u16 k.inl 0)).data 3 0xFF = if v then none else some rcSignature) ∧
    u8 (sigBlock (k.st.slot (u16 k.inl 0)).data) 7 ≠ u8 k.inl 2 := by
  have hg : u8 (sigBlock (sealed 3 2 0xF0 (tithenKey 0xF0) (zeros 64))) 7 = 2 := by
    rw [sealed_block]
    exact (head_fields 3 2 0xF0 _).2.2.2.1
  have hv : ∃ v : Bool, ({ host0.lan with life := .owned } : Lantern).sigCheck fwImage.data 3 0xFF = if v then none else some rcSignature := by
    obtain ⟨v, h, -⟩ := sealed_verdict ({ host0.lan with life := .owned } : Lantern) 3 0xFF 2 0xF0 (tithenKey 0xF0) (zeros 64) rfl rfl rfl
      (by decide) (.inr ⟨rfl, by decide⟩) rfl
    exact ⟨v, h⟩
  exact ⟨{ op := 0x0C02, inl := [5, 0, 1], on := { host0 with lan := { host0.lan with life := .owned }, store := { host0.store with slots := [(5, fwImage)] } } },
    Case.ready (by decide +kernel), by decide +kernel, by decide +kernel, by decide +kernel, by decide +kernel, hv, by
      change u8 (sigBlock (sealed 3 2 0xF0 (tithenKey 0xF0) (zeros 64))) 7 ≠ 1
      rw [hg]
      decide⟩

/-- A slot of the planner's world but for its last eight bytes, and the FINAL write that brings them. -/
def sealCase (bad : List Nat) : Case :=
  { op := 0x0B01, blk := le 2 5 ++ [2, 255, 1, 0, 0, 0] ++ le 8 (108 + 4096) ++ le 4 8 ++ zeros 4 ++ le 8 (116 + 4096) ++ zeros 8
    on := let x := rootImage 2 0xFF meshBody
          let s := owned0 host0 5 { x with state := 1, data := x.data.take (108 + 4096) }
          { s with store := { s.store with mediaBad := bad } } }
theorem seal_whole : ((sealCase []).st.slotAppend (sealCase []).blk).slot 5 = { rootImage 2 0xFF meshBody with state := 1 } := by
  have h : (rootImage 2 0xFF meshBody).data = (rootImage 2 0xFF meshBody).data.take (108 + 4096) ++ zeros 8 := by
    have hd : (rootImage 2 0xFF meshBody).data = (meshBody ++ (([0x53, 0x49, 0x47, 0x42, 1, 0, 2, 0, 0, 0, 0xFE, 0, 0, 0, 0, 0] : List Byte) ++
        digest16 [1] ++ zeros 16 ++ digest meshBody)) ++ zeros 3984 := by
      simp only [rootImage, sealed, sealBlock, List.append_assoc]
      rfl
    have hl : (meshBody ++ (([0x53, 0x49, 0x47, 0x42, 1, 0, 2, 0, 0, 0, 0xFE, 0, 0, 0, 0, 0] : List Byte) ++
        digest16 [1] ++ zeros 16 ++ digest meshBody)).length = 228 := by
      simp only [List.length_append, digest16_length, digest_length, zeros_length, List.length_cons, List.length_nil]
      decide +kernel
    have he : (rootImage 2 0xFF meshBody).data.drop (108 + 4096) = zeros 8 := by
      rw [hd, show 108 + 4096 = 228 + 3976 from rfl, ← List.drop_drop, List.drop_left' hl]
      decide +kernel
    rw [← he, List.take_append_drop]
  have hs : ((sealCase []).st.slotAppend (sealCase []).blk).slot 5 =
    { state := 1, kind := 2, owner := 255, total := 116 + 4096, data := (rootImage 2 0xFF meshBody).data.take (108 + 4096) ++ zeros 8 } := rfl
  rw [hs, ← h]
  rfl
theorem wit_slotSeal_image : ∃ k : Case, k.Ready 0x0B01 ∧ sealing k.cmd = true ∧ k.st.slotWriteCheck k.blk = none ∧ u8 k.blk 2 < 4 ∧ k.st.mediaBad (u16 k.blk 0) = false ∧
    (∃ v : Bool, (k.st.slotAppend k.blk).lan.sigCheck ((k.st.slotAppend k.blk).slot (u16 k.blk 0)).data (u8 k.blk 2) (u8 k.blk 3) = if v then none else some rcSignature) :=
  ⟨sealCase [], Case.ready (by decide +kernel), by decide +kernel, by decide +kernel, by decide +kernel, by decide +kernel, by
    change ∃ v : Bool, ((sealCase []).st.slotAppend (sealCase []).blk).lan.sigCheck (((sealCase []).st.slotAppend (sealCase []).blk).slot 5).data 2 255 = _
    rw [seal_whole]
    exact root_verdict host0 5 2 0xFF (rootImage 2 0xFF meshBody) meshBody (by decide) rfl rfl⟩
theorem wit_slotSeal_media : ∃ k : Case, k.Ready 0x0B01 ∧ sealing k.cmd = true ∧ k.st.slotWriteCheck k.blk = none ∧ u8 k.blk 2 < 4 ∧ k.st.mediaBad (u16 k.blk 0) = true :=
  ⟨sealCase [5], Case.ready (by decide +kernel), by decide +kernel⟩
/-! ### Witnesses: power and store commands (PowerStoreCommands) -/

/-- A partition of 300 W that runs, under a cap of 400 W. -/
def watts0 : State := { part0 { state := .enabled, power := { budgetW := 300 } } with pwr := { capW := 400 } }
/-- The store as given. -/
def store0 (x : Store) : State := { host0 with store := x }
/-- An owner's object, its name 32 bytes of `A`. -/
def objName : List Byte := List.replicate 32 0x41
def putBlock (n : Nat) : List Byte := objName ++ le 4 n ++ zeros 28 ++ zeros n

theorem wit_powerCapSet_low : ∃ k : Case, k.Ready 0x0A01 ∧ (u16 k.inl 0 < 120 ∨ 450 < u16 k.inl 0) :=
  ⟨{ op := 0x0A01, inl := le 2 119 }, Case.ready (by decide +kernel), by decide +kernel⟩

theorem wit_powerCapSet_high : ∃ k : Case, k.Ready 0x0A01 ∧ (u16 k.inl 0 < 120 ∨ 450 < u16 k.inl 0) :=
  ⟨{ op := 0x0A01, inl := le 2 451 }, Case.ready (by decide +kernel), by decide +kernel⟩

theorem wit_powerCapSet_budget : ∃ k : Case, k.Ready 0x0A01 ∧ 120 ≤ u16 k.inl 0 ∧ u16 k.inl 0 ≤ 450 ∧ u16 k.inl 0 < k.st.budgetsBut 16 :=
  ⟨{ op := 0x0A01, inl := le 2 299, on := watts0 }, Case.ready (by decide +kernel), by decide +kernel⟩

theorem wit_powerCapSet : ∃ k : Case, k.Ready 0x0A01 ∧ 120 ≤ u16 k.inl 0 ∧ u16 k.inl 0 ≤ 450 ∧ k.st.budgetsBut 16 ≤ u16 k.inl 0 :=
  ⟨{ op := 0x0A01, inl := le 2 300, on := watts0 }, Case.ready (by decide +kernel), by decide +kernel⟩

theorem wit_powerBudgetSet_high : ∃ k : Case, k.Ready 0x0A02 ∧ 450 < u16 k.inl 2 :=
  ⟨{ op := 0x0A02, inl := [0, 0] ++ le 2 451 }, Case.ready (by decide +kernel), by decide +kernel⟩

theorem wit_powerBudgetSet_cap : ∃ k : Case, k.Ready 0x0A02 ∧ u16 k.inl 2 ≤ 450 ∧ (k.st.part (u8 k.inl 0)).state = .enabled ∧ k.st.pwr.capW < k.st.budgetsBut (u8 k.inl 0) + u16 k.inl 2 :=
  ⟨{ op := 0x0A02, inl := [0, 0] ++ le 2 401, on := watts0 }, Case.ready (by decide +kernel), by decide +kernel⟩

theorem wit_powerBudgetSet : ∃ k : Case, k.Ready 0x0A02 ∧ u16 k.inl 2 ≤ 450 ∧ ((k.st.part (u8 k.inl 0)).state ≠ .enabled ∨ k.st.budgetsBut (u8 k.inl 0) + u16 k.inl 2 ≤ k.st.pwr.capW) :=
  ⟨{ op := 0x0A02, inl := [0, 0] ++ le 2 400, on := watts0 }, Case.ready (by decide +kernel), by decide +kernel⟩

theorem wit_powerPaceFollow : ∃ k : Case, k.Ready 0x0A03 :=
  ⟨{ op := 0x0A03, inl := [15, 1] }, Case.ready (by decide +kernel)⟩

theorem wit_powerRead : ∃ k : Case, k.Ready 0x0A04 :=
  ⟨{ op := 0x0A04, dataLen := 1024 }, Case.ready (by decide +kernel)⟩

theorem wit_storeSlotWrite : ∃ k : Case, k.Ready 0x0B01 ∧ (bitAt (u8 k.blk 4) 0 && u32 k.blk 0x10 != 0) = false ∧ k.st.slotWriteCheck k.blk = none ∧ u32 k.blk 0x10 ≠ 0 :=
  ⟨{ op := 0x0B01, blk := le 2 4095 ++ [4, 0, 0, 0, 0, 0] ++ le 8 0 ++ le 4 8 ++ zeros 4 ++ le 8 64 ++ zeros 8, on := part0 { state := .disabled, cfg := { nandBytes := 2 ^ 22, tiers := 16 } } }, Case.ready (by decide +kernel), by decide +kernel⟩

theorem wit_storeSlotWrite_empty : ∃ k : Case, k.Ready 0x0B01 ∧ (bitAt (u8 k.blk 4) 0 && u32 k.blk 0x10 != 0) = false ∧ k.st.slotWriteCheck k.blk = none ∧ u32 k.blk 0x10 = 0 :=
  ⟨{ op := 0x0B01, blk := le 2 4095 ++ [4, 0, 0, 0, 0, 0] ++ le 8 0 ++ le 4 0 ++ zeros 4 ++ le 8 64, on := part0 { state := .disabled, cfg := { nandBytes := 2 ^ 22, tiers := 16 } } }, Case.ready (by decide +kernel), by decide +kernel⟩

theorem wit_storeSlotWrite_bad : ∃ k : Case, k.Ready 0x0B01 ∧ (bitAt (u8 k.blk 4) 0 && u32 k.blk 0x10 != 0) = false ∧ (k.st.slotWriteCheck k.blk).isSome = true :=
  ⟨{ op := 0x0B01, blk := le 2 4096 ++ [4, 0, 0, 0, 0, 0] ++ le 8 0 ++ le 4 8 ++ zeros 4 ++ le 8 64 ++ zeros 8, on := part0 { state := .disabled, cfg := { nandBytes := 2 ^ 22, tiers := 16 } } }, Case.ready (by decide +kernel), by decide +kernel⟩

theorem wit_slotSeal : ∃ k : Case, k.Ready 0x0B01 ∧ (bitAt (u8 k.blk 4) 0 && u32 k.blk 0x10 != 0) = true ∧ k.st.slotWriteCheck k.blk = none ∧ ¬ u8 k.blk 2 < 4 :=
  ⟨{ op := 0x0B01, blk := le 2 4095 ++ [4, 0, 1, 0, 0, 0] ++ le 8 0 ++ le 4 8 ++ zeros 4 ++ le 8 8 ++ zeros 8, on := part0 { state := .disabled, cfg := { nandBytes := 2 ^ 22, tiers := 16 } } }, Case.ready (by decide +kernel), by decide +kernel⟩

theorem wit_slotSeal_signature : ∃ k : Case, k.Ready 0x0B01 ∧ (bitAt (u8 k.blk 4) 0 && u32 k.blk 0x10 != 0) = true ∧ k.st.slotWriteCheck k.blk = none ∧ u8 k.blk 2 < 4 ∧ k.st.mediaBad (u16 k.blk 0) = false ∧
    ((k.st.slotAppend k.blk).lan.sigCheck ((k.st.slotAppend k.blk).slot (u16 k.blk 0)).data (u8 k.blk 2) (u8 k.blk 3)).isSome = true :=
  ⟨{ op := 0x0B01, blk := le 2 4095 ++ [2, 255, 1, 0, 0, 0] ++ le 8 0 ++ le 4 8 ++ zeros 4 ++ le 8 8 ++ zeros 8 }, Case.ready (by decide +kernel), by decide +kernel⟩

theorem wit_slotSeal_bad : ∃ k : Case, k.Ready 0x0B01 ∧ (bitAt (u8 k.blk 4) 0 && u32 k.blk 0x10 != 0) = true ∧ (k.st.slotWriteCheck k.blk).isSome = true :=
  ⟨{ op := 0x0B01, blk := le 2 4095 ++ [4, 0, 1, 0, 0, 0] ++ le 8 0 ++ le 4 8 ++ zeros 4 ++ le 8 9 ++ zeros 8, on := part0 { state := .disabled, cfg := { nandBytes := 2 ^ 22, tiers := 16 } } }, Case.ready (by decide +kernel), by decide +kernel⟩

theorem wit_storeSlotErase : ∃ k : Case, k.Ready 0x0B02 ∧ (k.st.slot (u16 k.inl 0)).state ≠ 0 ∧ k.st.slotInUse (u16 k.inl 0) = false :=
  ⟨{ op := 0x0B02, inl := le 2 4095, on := store0 { slots := [(4095, { state := 1 })] } }, Case.ready (by decide +kernel), by decide +kernel⟩

theorem wit_storeSlotErase_empty : ∃ k : Case, k.Ready 0x0B02 ∧ (k.st.slot (u16 k.inl 0)).state = 0 :=
  ⟨{ op := 0x0B02, inl := le 2 4095 }, Case.ready (by decide +kernel), by decide +kernel⟩

theorem wit_storeSlotErase_busy : ∃ k : Case, k.Ready 0x0B02 ∧ (k.st.slot (u16 k.inl 0)).state ≠ 0 ∧ k.st.slotInUse (u16 k.inl 0) = true :=
  ⟨{ op := 0x0B02, inl := le 2 7, on := { store0 { slots := [(7, { state := 2 })] } with stp := { mesh := some [], meshSlot := 7 } } }, Case.ready (by decide +kernel), by decide +kernel⟩

theorem wit_storeSlotList : ∃ k : Case, k.Ready 0x0B03 ∧ k.st.store.slots.map Prod.fst ≠ [] :=
  ⟨{ op := 0x0B03, dataLen := 48, on := store0 { slots := [(7, { state := 2 })] } }, Case.ready (by decide +kernel), by decide +kernel⟩

theorem wit_storeObjPut_zero : ∃ k : Case, k.Ready 0x0B04 ∧ u32 k.blk 0x20 = 0 :=
  ⟨{ op := 0x0B04, blk := putBlock 0 }, Case.ready (by decide +kernel), by decide +kernel⟩

theorem wit_storeObjPut : ∃ k : Case, k.Ready 0x0B04 ∧ u32 k.blk 0x20 ≠ 0 ∧ allZero k.blk 0x24 28 = true ∧ deviceName (slice k.blk 0 32) = false ∧
    (k.st.store.objects.filter fun o => o.1 != slice k.blk 0 32).length < 65536 ∧
    sumNat ((k.st.store.objects.filter fun o => o.1 != slice k.blk 0 32).map fun o => o.2.length) + u32 k.blk 0x20 ≤ 32 * 2 ^ 30 ∧ k.st.store.freeStripes ≠ 0 :=
  ⟨{ op := 0x0B04, blk := putBlock 9, on := store0 { objects := [(objName, [1])] } }, Case.ready (by decide +kernel), by decide +kernel⟩

theorem wit_storeObjGet_absent : ∃ k : Case, k.Ready 0x0B05 ∧ k.st.objectOf k.inl = none :=
  ⟨{ op := 0x0B05, inl := objName, dataLen := 1 }, Case.ready (by decide +kernel), by decide +kernel⟩

theorem wit_storeObjGet_short : ∃ k : Case, k.Ready 0x0B05 ∧ k.st.objectOf k.inl = some [1, 2] ∧ k.cmd.entry.dataLen < 2 :=
  ⟨{ op := 0x0B05, inl := objName, dataLen := 1, on := store0 { objects := [(objName, [1, 2])] } }, Case.ready (by decide +kernel), by decide +kernel⟩

theorem wit_storeObjGet : ∃ k : Case, k.Ready 0x0B05 ∧ k.st.objectOf k.inl = some [1, 2] ∧ 2 ≤ k.cmd.entry.dataLen ∧ k.st.mediaBad 4096 = false :=
  ⟨{ op := 0x0B05, inl := objName, dataLen := 2, on := store0 { objects := [(objName, [1, 2])] } }, Case.ready (by decide +kernel), by decide +kernel⟩

theorem wit_storeObjDelete_absent : ∃ k : Case, k.Ready 0x0B06 ∧ k.st.store.object k.inl = none :=
  ⟨{ op := 0x0B06, inl := objName }, Case.ready (by decide +kernel), by decide +kernel⟩

theorem wit_storeObjDelete : ∃ k : Case, k.Ready 0x0B06 ∧ deviceName k.inl = false ∧ (k.st.store.object k.inl).isSome = true :=
  ⟨{ op := 0x0B06, inl := objName, on := store0 { objects := [(objName, [1, 2])] } }, Case.ready (by decide +kernel), by decide +kernel⟩

theorem wit_storeDefaultsSet : ∃ k : Case, k.Ready 0x0B07 ∧ u64 k.inl 0 < 128 ∧ u64 k.inl 0 ≠ 0 ∧ k.st.store.freeStripes ≠ 0 :=
  ⟨{ op := 0x0B07, inl := le 8 127 }, Case.ready (by decide +kernel), by decide +kernel⟩

theorem wit_storeDefaultsSet_bad : ∃ k : Case, k.Ready 0x0B07 ∧ 128 ≤ u64 k.inl 0 :=
  ⟨{ op := 0x0B07, inl := le 8 128 }, Case.ready (by decide +kernel), by decide +kernel⟩

theorem wit_storeStats : ∃ k : Case, k.Ready 0x0B08 :=
  ⟨{ op := 0x0B08, dataLen := 64 }, Case.ready (by decide +kernel)⟩

/-! ### Witnesses: security and log commands (SecurityCommands)

Whether a signature holds is an open constant: the statements' clauses for a good and for a bad signature between them take
every case of the hypotheses met here. -/

/-- Lantern in a life-cycle state, with root key 1. -/
def life0 (l : Life) : State := { host0 with lan := { host0.lan with life := l, root := [1], seq := 6 } }
/-- A key record of SEQ 7 for any device. -/
def keyBlock (ty slot kinds : Byte) (parts : Nat) : List Byte :=
  le 4 0x59454B4F ++ [ty, slot, kinds, 0] ++ le 2 parts ++ zeros 2 ++ le 4 7 ++ zeros 3184
def revokeBlock (slot : Byte) : List Byte := le 4 0x5645524F ++ [slot, 0, 0, 0] ++ le 4 7 ++ zeros 1332
/-- An authorisation record for this device at LC_COUNT 0. -/
def authHead (ty life : Byte) (scope : Nat) : List Byte := le 4 0x5541434C ++ [ty, life] ++ le 2 scope ++ zeros 8
def authBlock (ty life : Byte) (scope : Nat) : List Byte := authHead ty life scope ++ (serial ++ zeros 3168)

theorem wit_secAttest : ∃ k : Case, k.Ready 0x0C01 ∧ (k.cmd.entry.partition ≤ 15 ∨ k.cmd.entry.partition = 0xFF) ∧ k.st.lan.life.isOwned = true :=
  ⟨{ op := 0x0C01, inl := zeros 32, dataLen := 4096, on := life0 .owned }, Case.ready (by decide +kernel), by decide +kernel⟩

theorem wit_secAttest_lifecycle : ∃ k : Case, k.Ready 0x0C01 ∧ (k.cmd.entry.partition ≤ 15 ∨ k.cmd.entry.partition = 0xFF) ∧ k.st.lan.life.isOwned = false :=
  ⟨{ op := 0x0C01, inl := zeros 32, dataLen := 4096, on := life0 .provisioned }, Case.ready (by decide +kernel), by decide +kernel⟩

theorem serial_ok {b : List Byte} (h : allZero b 0x10 16 = true) : serialOk b = true := by rw [serialOk, h, Bool.or_true]
theorem key_signing : keyRecordBad (keyBlock 0 31 15 0xFFFF) = false := by rw [keyRecordBad, serial_ok (by decide +kernel)]; decide +kernel
theorem key_root : keyRecordBad (keyBlock 1 0 0 0) = false := by rw [keyRecordBad, serial_ok (by decide +kernel)]; decide +kernel
theorem key_policy : keyRecordBad (keyBlock 2 0 0 0) = false := by rw [keyRecordBad, serial_ok (by decide +kernel)]; decide +kernel

theorem wit_secKeyEnrolSigning : ∃ k : Case, k.Ready 0x0C03 ∧ u8 k.blk 4 = 0 ∧ keyRecordBad k.blk = false ∧ k.st.lan.life.isOwned = true ∧ k.st.lan.seq < u32 k.blk 0x0C :=
  ⟨{ op := 0x0C03, blk := keyBlock 0 31 15 0xFFFF, on := life0 .owned }, Case.ready (by decide +kernel), by decide +kernel, key_signing, by decide +kernel, by decide +kernel⟩

theorem wit_secKeyEnrolRoot : ∃ k : Case, k.Ready 0x0C03 ∧ u8 k.blk 4 = 1 ∧ keyRecordBad k.blk = false ∧ k.st.lan.life.isOwned = true ∧ k.st.lan.seq < u32 k.blk 0x0C :=
  ⟨{ op := 0x0C03, blk := keyBlock 1 0 0 0, on := life0 .owned }, Case.ready (by decide +kernel), by decide +kernel, key_root, by decide +kernel, by decide +kernel⟩

theorem wit_secKeyEnrolPolicy : ∃ k : Case, k.Ready 0x0C03 ∧ u8 k.blk 4 = 2 ∧ keyRecordBad k.blk = false ∧ k.st.lan.life.isOwned = true ∧ k.st.lan.seq < u32 k.blk 0x0C :=
  ⟨{ op := 0x0C03, blk := keyBlock 2 0 0 0, on := life0 .owned }, Case.ready (by decide +kernel), by decide +kernel, key_policy, by decide +kernel, by decide +kernel⟩

theorem revoke_sound : (let b := revokeBlock 31; (u32 b 0 != 0x5645524F || decide (31 < u8 b 4) || !allZero b 5 3 || !allZero b 0x0C 4 || !serialOk b || !allZero b 0x20 32) = false) := by
  show (u32 (revokeBlock 31) 0 != 0x5645524F || decide (31 < u8 (revokeBlock 31) 4) || !allZero (revokeBlock 31) 5 3 || !allZero (revokeBlock 31) 0x0C 4 || !serialOk (revokeBlock 31) || !allZero (revokeBlock 31) 0x20 32) = false
  rw [serial_ok (by decide +kernel)]
  decide +kernel

theorem wit_secKeyRevoke : ∃ k : Case, k.Ready 0x0C04 ∧ (let b := k.blk; (u32 b 0 != 0x5645524F || decide (31 < u8 b 4) || !allZero b 5 3 || !allZero b 0x0C 4 || !serialOk b || !allZero b 0x20 32) = false) ∧ k.st.lan.life.isOwned = true ∧
    k.st.lan.seq < u32 k.blk 8 ∧ (Map.get ({} : KeySlot) k.st.lan.keys (u8 k.blk 4)).used = true :=
  ⟨{ op := 0x0C04, blk := revokeBlock 31, on := { life0 .service with lan := { (life0 .service).lan with keys := [(31, { used := true })] } } }, Case.ready (by decide +kernel), revoke_sound, by decide +kernel, by decide +kernel, by decide +kernel⟩

theorem wit_secKeyRevoke_unknown : ∃ k : Case, k.Ready 0x0C04 ∧ (let b := k.blk; (u32 b 0 != 0x5645524F || decide (31 < u8 b 4) || !allZero b 5 3 || !allZero b 0x0C 4 || !serialOk b || !allZero b 0x20 32) = false) ∧ k.st.lan.life.isOwned = true ∧
    k.st.lan.seq < u32 k.blk 8 ∧ (Map.get ({} : KeySlot) k.st.lan.keys (u8 k.blk 4)).used = false :=
  ⟨{ op := 0x0C04, blk := revokeBlock 31, on := life0 .service }, Case.ready (by decide +kernel), revoke_sound, by decide +kernel, by decide +kernel, by decide +kernel⟩

theorem wit_secRotate : ∃ k : Case, k.Ready 0x0C06 ∧ rotateOk (u8 k.inl 0) (u8 k.inl 1) = true ∧ k.st.lan.life.isOwned = true ∧ u8 k.inl 0 ≠ 2 ∧ u8 k.inl 0 ≠ 5 ∧ (∀ w ∈ k.st.lan.walks, w.cls ≠ u8 k.inl 0 ∨ w.part ≠ u8 k.inl 1) :=
  ⟨{ op := 0x0C06, inl := [3, 0xFF], on := life0 .owned }, Case.ready (by decide +kernel), by decide +kernel⟩

theorem wit_secRotate_store (cls : Byte) (h : cls = 4 ∨ cls = 5) : ∃ k : Case, k.Ready 0x0C06 ∧ u8 k.inl 0 = cls.toNat ∧ rotateOk (u8 k.inl 0) (u8 k.inl 1) = true ∧ k.st.lan.life.isOwned = true ∧
    (∀ w ∈ k.st.lan.walks, w.cls ≠ u8 k.inl 0 ∨ w.part ≠ u8 k.inl 1) := by
  rcases h with rfl | rfl
  · exact ⟨{ op := 0x0C06, inl := [4, 0xFF], on := life0 .owned }, Case.ready (by decide +kernel), by decide +kernel⟩
  · exact ⟨{ op := 0x0C06, inl := [5, 0xFF], on := life0 .owned }, Case.ready (by decide +kernel), by decide +kernel⟩

theorem wit_secRotate_busy : ∃ k : Case, k.Ready 0x0C06 ∧ rotateOk (u8 k.inl 0) (u8 k.inl 1) = true ∧ k.st.lan.life.isOwned = true ∧ (∃ w ∈ k.st.lan.walks, w.cls = u8 k.inl 0 ∧ w.part = u8 k.inl 1) :=
  ⟨{ op := 0x0C06, inl := [2, 15], on := { life0 .owned with lan := { (life0 .owned).lan with walks := [⟨2, 15, 1⟩] } } }, Case.ready (by decide +kernel), by decide +kernel⟩

theorem wit_logRead_empty : ∃ k : Case, k.Ready 0x0D01 ∧ ((k.st.lan.log.ring.filter fun e => decide (u64 k.inl 0 ≤ e.number)).take (min (u32 k.inl 8) (k.cmd.entry.dataLen / 128))) = [] :=
  ⟨{ op := 0x0D01, inl := le 8 1 ++ le 4 1, dataLen := 128 }, Case.ready (by decide +kernel), by decide +kernel⟩

/-- One record in the ring, of number 1. -/
def ring0 : State := { host0 with lan := { host0.lan with log := { host0.lan.log with ring := [⟨1, 0, { stamp := 0, event := 0x0D02, inst := 0, part := 0xFF, aux := 0, time := 0, data := [] }, zeros 16⟩], next := 2 } } }

theorem wit_logRead : ∃ k : Case, k.Ready 0x0D01 ∧ ((k.st.lan.log.ring.filter fun e => decide (u64 k.inl 0 ≤ e.number)).take (min (u32 k.inl 8) (k.cmd.entry.dataLen / 128))) ≠ [] :=
  ⟨{ op := 0x0D01, inl := le 8 1 ++ le 4 1, dataLen := 128, on := ring0 }, Case.ready (by decide +kernel), by decide +kernel⟩

theorem wit_logStats : ∃ k : Case, k.Ready 0x0D02 :=
  ⟨{ op := 0x0D02, dataLen := 256 }, Case.ready (by decide +kernel)⟩

theorem auth_serial (ty life : Byte) (scope : Nat) : slice (authBlock ty life scope) 0x10 16 = serial := slice_mid rfl rfl
theorem auth_sound {l : Lantern} {ty life : Byte} {scope : Nat} {root : Bool}
    (h : (u32 (authBlock ty life scope) 0 != 0x5541434C || decide (1 < u8 (authBlock ty life scope) 4) || decide (4 < u8 (authBlock ty life scope) 5) ||
      u32 (authBlock ty life scope) 8 != l.lcCount || u32 (authBlock ty life scope) 0x0C != 0 || false ||
      !allZero (authBlock ty life scope) 0x20 32 || (!root && !allZero (authBlock ty life scope) 0x40 1793) || !allZero (authBlock ty life scope) 0x741 63 ||
      (if u8 (authBlock ty life scope) 4 = 0 then u16 (authBlock ty life scope) 6 != 0 else
        decide (3 < u16 (authBlock ty life scope) 6) || u8 (authBlock ty life scope) 5 != 3)) = false) :
    authBad l (authBlock ty life scope) root = false := by
  rw [authBad, auth_serial, bne_self_eq_false]
  exact h

theorem wit_secLifecycle : ∃ k : Case, k.Ready 0x0C05 ∧ k.st.lan.pending = none ∧ u8 k.blk 4 = 0 ∧ authBad k.st.lan k.blk (k.st.lan.life == .provisioned && lifeOf (u8 k.blk 5) == .owned) = false ∧
    k.st.lan.transitionKey (lifeOf (u8 k.blk 5)) k.blk = (some [1]) :=
  ⟨{ op := 0x0C05, blk := authBlock 0 3 0, on := life0 .owned }, Case.ready (by decide +kernel), by decide +kernel, by decide +kernel, auth_sound (by decide +kernel), by decide +kernel⟩

theorem wit_secLifecycle_root : ∃ k : Case, k.Ready 0x0C05 ∧ k.st.lan.pending = none ∧ u8 k.blk 4 = 0 ∧ authBad k.st.lan k.blk (k.st.lan.life == .provisioned && lifeOf (u8 k.blk 5) == .owned) = false ∧
    k.st.lan.transitionKey (lifeOf (u8 k.blk 5)) k.blk = (some (zeros 1793)) :=
  ⟨{ op := 0x0C05, blk := authBlock 0 2 0, on := life0 .provisioned }, Case.ready (by decide +kernel), by decide +kernel, by decide +kernel, auth_sound (by decide +kernel), by decide +kernel⟩

theorem wit_secLifecycle_none : ∃ k : Case, k.Ready 0x0C05 ∧ k.st.lan.pending = none ∧ u8 k.blk 4 = 0 ∧ authBad k.st.lan k.blk (k.st.lan.life == .provisioned && lifeOf (u8 k.blk 5) == .owned) = false ∧
    k.st.lan.transitionKey (lifeOf (u8 k.blk 5)) k.blk = (some [1]) :=
  ⟨{ op := 0x0C05, blk := authBlock 0 1 0, on := life0 .service }, Case.ready (by decide +kernel), by decide +kernel, by decide +kernel, auth_sound (by decide +kernel), by decide +kernel⟩

theorem wit_secLifecycle_blank : ∃ k : Case, k.Ready 0x0C05 ∧ k.st.lan.pending = none ∧ u8 k.blk 4 = 0 ∧ authBad k.st.lan k.blk (k.st.lan.life == .provisioned && lifeOf (u8 k.blk 5) == .owned) = false ∧
    k.st.lan.transitionKey (lifeOf (u8 k.blk 5)) k.blk = none :=
  ⟨{ op := 0x0C05, blk := authBlock 0 0 0, on := life0 .owned }, Case.ready (by decide +kernel), by decide +kernel, by decide +kernel, auth_sound (by decide +kernel), by decide +kernel⟩

theorem wit_secDebugUnlock : ∃ k : Case, k.Ready 0x0C05 ∧ k.st.lan.pending = none ∧ u8 k.blk 4 = 1 ∧ authBad k.st.lan k.blk false = false ∧ k.st.lan.life = .service :=
  ⟨{ op := 0x0C05, blk := authBlock 1 3 3, on := life0 .service }, Case.ready (by decide +kernel), by decide +kernel, by decide +kernel, auth_sound (by decide +kernel), by decide +kernel⟩

theorem wit_secDebugUnlock_lifecycle : ∃ k : Case, k.Ready 0x0C05 ∧ k.st.lan.pending = none ∧ u8 k.blk 4 = 1 ∧ authBad k.st.lan k.blk false = false ∧ k.st.lan.life ≠ .service :=
  ⟨{ op := 0x0C05, blk := authBlock 1 3 3, on := life0 .owned }, Case.ready (by decide +kernel), by decide +kernel, by decide +kernel, auth_sound (by decide +kernel), by decide +kernel⟩

/-! ### Witnesses: the step, reset, memory, DdrUpkeep -/

theorem wit_step : ∃ (c : Instr) (rest : List Instr) (s : State), s.pending = c :: rest :=
  ⟨.por, [.moduleStart], { host0 with pending := [.por, .moduleStart] }, rfl⟩

theorem wit_idle : ∃ s : State, s.pending = [] ∧ s.module.state = .running := ⟨host0, rfl, rfl⟩

theorem wit_wellFormed : ∃ c : Instr, c.wf = true := ⟨.por, rfl⟩

theorem wit_memWf : ∃ s t : State, s.memWf = true ∧ step s = .next t := ⟨State.reset, State.reset.tick, by decide +kernel, rfl⟩

theorem wit_ddr5PatrolScrub : ∃ s : State, s.ddrFenced 5 = false := ⟨host0, by decide +kernel⟩

theorem wit_ddr5TempRead : (3 < 4) ∧ (1050 : Int) ≤ 1050 := by decide

/-! ### Witnesses: HostRings, CommandCourse -/

/-- Q01 as given, besides Q00. -/
def queue1 (x : Queue) : State := host0.setQueue 1 x
def noop0 : Entry := ⟨0x0101, 9, 0, 0xFF, 0, 0, 0, 64, 0x2000, []⟩

theorem wit_sqTail : ∃ s : State, (s.queue 1).live = true ∧ (s.queue 1).faulted = false ∧ 15 < (s.queue 1).sqSize ∧ (s.queue 1).sqSize ≤ 16 :=
  ⟨queue1 { live := true, sqSize := 16, cqSize := 16 }, by decide +kernel⟩

theorem wit_cqHead : ∃ s : State, (s.queue 1).live = true ∧ 15 < (s.queue 1).cqSize ∧ (s.queue 1).cqHead < (s.queue 1).cqSize ∧ 15 ≠ (s.queue 1).cqHead :=
  ⟨queue1 { live := true, sqSize := 16, cqSize := 16, unconsumed := 15 }, by decide +kernel⟩

theorem wit_noticeHead : ∃ s : State, s.host.bar.adminUp = true ∧ 15 < s.host.bar.noticeSize ∧ s.host.notices.head < s.host.bar.noticeSize ∧
    15 ≠ s.host.notices.head := ⟨host0, by decide +kernel⟩

/-- BAR0 as given. -/
def bar0 (b : Bar0) : State := { host0 with host := { host0.host with bar := b } }
theorem wit_adminEnableSet : ∃ s : State, s.host.bar.adminUp = false ∧ s.host.bar.ringsOk = true :=
  ⟨bar0 { cpReady := true, adminSize := 2 + 4096 * 65536, noticeSize := 2, adminSqBase := 4096 }, by decide +kernel⟩
theorem wit_adminEnableSet_fault : ∃ s : State, s.host.bar.adminUp = false ∧ s.host.bar.ringsOk = false :=
  ⟨bar0 { cpReady := true, adminSize := 1 + 4096 * 65536, noticeSize := 2 }, by decide +kernel⟩
theorem wit_adminEnableClear : ∃ s : State, s.host.bar.adminUp = true ∧ s.host.session = some 1 := ⟨host0, by decide +kernel⟩
theorem wit_registerWrite : ∃ s : State, s.host.bar.adminUp = false ∧ (2 ^ 64 - 1 : Nat) < 2 ^ 64 := ⟨bar0 {}, by decide +kernel⟩
theorem wit_registerWrite_locked : ∃ s : State, s.host.bar.adminUp = true := ⟨host0, by decide +kernel⟩
theorem wit_msixUnmask : ∃ s : State, Map.get false s.host.bar.pba 63 = true := ⟨bar0 { pba := [(63, true)] }, by decide +kernel⟩

theorem wit_commandFetch : ∃ s : State, s.mayFetch 0 = true ∧ (s.queue 0).stopped = false ∧ s.common 0 { noop0 with dataLen := 4096 } none = none :=
  ⟨host0.setQueue 0 { live := true, sqSize := 16, cqSize := 16, sqTail := 1 }, by decide +kernel⟩
theorem wit_commandFetch_stopped : ∃ s : State, s.mayFetch 1 = true ∧ (s.queue 1).stopped = true :=
  ⟨queue1 { live := true, sqSize := 16, cqSize := 16, sqTail := 1, stopped := true, cont := false }, by decide +kernel⟩
theorem wit_commandFetch_unknown : ∃ s : State, s.mayFetch 1 = true ∧ (s.queue 1).stopped = false ∧ cmdSpec 0x0EFF = none :=
  ⟨queue1 { live := true, sqSize := 16, cqSize := 16, sqTail := 1 }, by decide +kernel⟩

theorem wit_completionPost : ∃ (s : State) (c : Cmd), s.nextPost 1 = some c :=
  ⟨queue1 { live := true, sqSize := 16, cqSize := 16, cmds := [{ no := 0, entry := noop0, phase := .done }] }, { no := 0, entry := noop0, phase := .done }, by decide +kernel⟩

theorem wit_commandFetch_refused : ∃ (s : State) (code : Nat), s.mayFetch 1 = true ∧ (s.queue 1).stopped = false ∧ s.common 1 { noop0 with opcode := 0x0102, argLen := 0 } none = some code ∧
    code ≠ rcUnknownCommand ∧ (∀ d ∈ (s.queue 1).cmds, d.held = false → d.phase = .done) :=
  ⟨queue1 { live := true, sqSize := 16, cqSize := 16, sqTail := 1, cmds := [{ no := 0, entry := noop0, phase := .done }], fetched := 1 }, rcAdminOnly, by decide +kernel⟩
theorem wit_commandFetch_refused_behind : ∃ (s : State) (code : Nat), s.mayFetch 1 = true ∧ (s.queue 1).stopped = false ∧ s.common 1 { noop0 with opcode := 0x0102, argLen := 0 } none = some code ∧
    code ≠ rcUnknownCommand ∧ (∃ d ∈ (s.queue 1).cmds, d.held = false ∧ d.phase ≠ .done) :=
  ⟨queue1 { live := true, sqSize := 16, cqSize := 16, sqTail := 1, cmds := [{ no := 0, entry := noop0 }], fetched := 1 }, rcAdminOnly, by decide +kernel⟩

theorem wit_hostReadReturn_more (what : Nat) (h : what < 3) : ∃ (s : State) (r : HostRead) (c : Cmd), s.cmd r.q r.cmd = some c ∧ s.host.bar.adminUp = true ∧
    c.phase = .waiting ∧ r.what = what ∧ r.what < 3 ∧ r.poisoned = false :=
  ⟨queue1 { live := true, sqSize := 16, cqSize := 16, cmds := [{ no := 4, entry := noop0 }] }, ⟨1, 4, what, zeros 64, false⟩, _, rfl, rfl, rfl, rfl, h, rfl⟩
theorem wit_hostReadReturn (poisoned : Bool) : ∃ (s : State) (r : HostRead) (c : Cmd), s.cmd r.q r.cmd = some c ∧ s.host.bar.adminUp = true ∧
    c.phase = .waiting ∧ r.what = 0 ∧ r.poisoned = poisoned :=
  ⟨queue1 { live := true, sqSize := 16, cqSize := 16, cmds := [{ no := 4, entry := noop0 }] }, ⟨1, 4, 0, zeros 64, poisoned⟩, _, rfl, rfl, rfl, rfl, rfl⟩

theorem wit_turn_none : ∃ s : State, s.turn 0 = none := ⟨host0, by decide +kernel⟩
theorem wit_not_ready : ∃ (s : State) (c : Cmd), s.turn 0 = some c ∧ c.entry.opcode = 0x0605 ∧ c.ready = false :=
  ⟨host0.setQueue 0 { host0.queue 0 with cmds := [{ no := 0, entry := { noop0 with opcode := 0x0605, argLen := 64 } }] }, { no := 0, entry := { noop0 with opcode := 0x0605, argLen := 64 } }, by decide +kernel⟩
theorem wit_common : ∃ k : Case, k.st.turn 0 = some k.cmd ∧ k.cmd.entry.opcode = 0x0605 ∧ k.cmd.ready = true ∧
    k.st.common 0 k.cmd.entry k.cmd.block = some rcEntryMalformed := ⟨{ op := 0x0605, blk := zeros 63 }, by decide +kernel⟩

theorem wit_turn_fence : ∃ (s : State) (c : Cmd), s.turn 0 = some c ∧ c.fence = some (1, 1) ∧ (∃ x ∈ (s.queue 1).cmds, x.no < 1) :=
  ⟨{ host0 with host := { host0.host with queues :=
      [(0, { host0.queue 0 with cmds := [{ no := 0, entry := noop0, fence := some (1, 1) }] }),
       (1, { live := true, sqSize := 16, cqSize := 16, fetched := 1, cmds := [{ no := 0, entry := noop0, phase := .done }] })] } },
    { no := 0, entry := noop0, fence := some (1, 1) }, by decide +kernel⟩
theorem wit_turn_stop : ∃ (s : State) (c : Cmd), s.turn 0 = some c ∧ (s.queue 0).cont = false ∧ (s.queue 0).cmds.length = 2 :=
  ⟨host0.setQueue 0 { host0.queue 0 with
      cont := false, cmds := [{ no := 0, entry := noop0, phase := .done, status := 1 }, { no := 1, entry := noop0 }] }, { no := 1, entry := noop0 }, by decide +kernel⟩
theorem wit_common_session : ∃ (s : State) (k : CmdSpec), cmdSpec 0x0605 = some k ∧ s.host.session = none ∧ 0x0103 < k.op :=
  ⟨State.reset, _, rfl, rfl, by decide⟩
theorem wit_common_admin : ∃ k : CmdSpec, cmdSpec 0x0102 = some k ∧ k.col = .admin := ⟨_, rfl, rfl⟩
theorem wit_common_bound : ∃ (s : State) (k : CmdSpec), cmdSpec 0x0605 = some k ∧ k.col = .bound ∧ s.bound 1 0 = false :=
  ⟨queue1 {}, _, rfl, rfl, by decide +kernel⟩
theorem wit_common_entry : ∃ (s : State) (k : CmdSpec), cmdSpec 0x0605 = some k ∧ s.host.session.isSome = true ∧ entryBad k { noop0 with opcode := 0x0605, argLen := 63 } none = true :=
  ⟨host0, _, rfl, rfl, by decide +kernel⟩
theorem wit_refuse_detached : ∃ s : State, s.host.session = none := ⟨State.reset, rfl⟩
/-! ### Witnesses: LanternEvents, NandEvents, ErrorContainment, ResetEvents -/

/-- Lantern as given. -/
def lan0 (f : Lantern → Lantern) : State := { host0 with lan := f host0.lan }
theorem wit_updateCommit : ∃ (s : State) (u : Update), s.lan.update = some u ∧ u.target = 2 :=
  ⟨lan0 fun l => { l with update := some ⟨5, 2, 3, zeros 64, 0, 0⟩ }, ⟨5, 2, 3, zeros 64, 0, 0⟩, rfl, rfl⟩
theorem wit_microcodeSwitch (n : Nat) (h : n = 0 ∨ n = 1 ∨ n = 17) : ∃ s : State, n ∈ s.lan.microcode ∧ s.unitFree n = true ∧ s.lan.update = none :=
  ⟨lan0 fun l => { l with microcode := [0, 1, 17] }, by rcases h with rfl | rfl | rfl <;> decide +kernel⟩
theorem wit_rotationWalkEnd : ∃ s : State, ∃ w ∈ s.lan.walks, w.cls = 3 ∧ w.part = 255 :=
  ⟨lan0 fun l => { l with walks := [⟨3, 255, 1⟩] }, by decide +kernel⟩
theorem wit_logRecordWrite (st : ModState) (h : st = .running ∨ st = .starting) :
    ∃ (s : State) (r : LogRec) (rest : List LogRec), s.lan.log.queue = r :: rest ∧ (s.module.state = .running ∨ s.module.state = .starting) ∧ s.lan.log.ring.length < 2 ^ 25 :=
  let s := host0.log 0 0x0D02 0xFF []
  ⟨{ s with module := { s.module with state := st } }, _, _, rfl, h, by rcases h with rfl | rfl <;> decide +kernel⟩
theorem wit_lanternRestart : ∃ s : State, s.module.state ≠ .off ∧ s.module.state ≠ .held ∧ s.lan.romHold = false ∧ s.lan.failedTests < 2 := ⟨host0, by decide +kernel⟩
theorem wit_lanternRestart_third (st : ModState) (h : st = .running ∨ st = .m1) :
    ∃ s : State, s.module.state ≠ .off ∧ s.module.state ≠ .held ∧ s.lan.romHold = false ∧ 2 ≤ s.lan.failedTests ∧ s.module.state = st :=
  ⟨{ lan0 fun l => { l with failedTests := 2 } with module := { host0.module with state := st } }, by rcases h with rfl | rfl <;> decide +kernel⟩
theorem wit_jtag_blank : ∃ s : State, s.jtagOpen 0 = true ∧ s.jtagOpen 1 = true := ⟨lan0 fun l => { l with life := .blank }, by decide +kernel⟩
theorem wit_jtag_service : ∃ s : State, s.jtagOpen 0 = true ∧ s.jtagOpen 1 = false :=
  ⟨lan0 fun l => { l with life := .service, debugPort := { unlocked := 1 } }, by decide +kernel⟩
theorem wit_jtag_shut : ∃ s : State, s.jtagOpen 0 = false ∧ s.jtagOpen 1 = false := ⟨lan0 fun l => { l with life := .owned, debugPort := { unlocked := 3 } }, by decide +kernel⟩

/-- The store as given. -/
def nand0 (x : Store) : State := { host0 with store := x }
theorem wit_grownBadBlock : ∃ s : State, (s.store.die 15).fenced = false ∧ 0 < (s.store.die 15).reserve := ⟨nand0 {}, by decide +kernel⟩
theorem wit_grownBadBlock_none : ∃ s : State, (s.store.die 15).fenced = false ∧ (s.store.die 15).reserve = 0 :=
  ⟨nand0 { dies := [(15, { reserve := 0 })] }, by decide +kernel⟩
theorem wit_blockRefresh : ∃ s : State, (s.store.block 15 2815).refresh = true := ⟨nand0 { blocks := [(45055, { refresh := true })] }, by decide +kernel⟩
theorem wit_blockRefresh_unmarked : ∃ s : State, (s.store.block 15 2815).refresh = false ∧ Map.wf {} s.store.blocks = true := ⟨nand0 {}, by decide +kernel⟩

theorem wit_tileFence_spare : ∃ s : State, 67 ∉ s.module.fencedTiles ∧ s.engineOn 67 = none := ⟨host0, by decide +kernel⟩
theorem wit_tileFence : ∃ s : State, 66 ∉ s.module.fencedTiles ∧ s.engineOn 66 = some 63 ∧ s.ownerOf 63 = none := ⟨host0, by decide +kernel⟩
theorem wit_tileFence_owned : ∃ s : State, 0 ∉ s.module.fencedTiles ∧ s.module.state = .running ∧ s.engineOn 0 = some 0 ∧ s.ownerOf 0 = some (0, 0) :=
  ⟨ready0, by decide +kernel⟩
theorem wit_sequencerError_spare : ∃ s : State, (s.part 0).sequencer = some 15 ∧
    (({ s with module := { s.module with lostSequencers := insertSorted 15 s.module.lostSequencers } } : State).resetPartition 0).freeSequencers ≠ [] :=
  ⟨part0 { state := .enabled, sequencer := some 15 }, by decide +kernel⟩
theorem wit_sequencerError_none : ∃ s : State, (s.part 0).sequencer = some 15 ∧
    ((({ s with module := { s.module with lostSequencers := insertSorted 15 s.module.lostSequencers } } : State).resetPartition 0).modPart 0
      fun q => { q with sequencer := none }).freeSequencers = [] :=
  ⟨{ part0 { state := .enabled, sequencer := some 15 } with module := { host0.module with lostSequencers := List.range 15 } }, by decide +kernel⟩
theorem wit_sequencerError : ∃ s : State, (s.part 0).sequencer = some 15 := ⟨part0 { state := .enabled, sequencer := some 15 }, by decide +kernel⟩
theorem wit_cupolaMemoryError_ring : ∃ s : State, some (Map.get {} (s.sensor 15).ring 3).frame = (s.sensor 15).seqNo ∧ (s.sensor 15).inImage = true :=
  ⟨host0.modSensor 15 fun x => { x with seqNo := some 4, inImage := true, ring := [(3, { frame := 4 })] }, by decide +kernel⟩
theorem wit_cupolaMemoryError_group : ∃ s : State, (s.group 3).started = true := ⟨host0.modGroup 3 fun x => { x with started := true }, by decide +kernel⟩
theorem wit_steepleMemoryError : ∃ s : State, s.stp.mesh.isSome = true ∧ s.stp.running = none := ⟨{ host0 with stp := { mesh := some [] } }, rfl, rfl⟩
theorem wit_cpHeartbeatTimeout : ∃ s : State, s.host.bar.cpReady = true := ⟨host0, rfl⟩
theorem wit_a1Entry : ∃ s : State, (s.part 0).state = .enabled ∧
    (∀ e ∈ (s.part 0).ctxs, e.2.state ≠ .starting ∧ e.2.state ≠ .running ∧ e.2.state ≠ .stopping) :=
  ⟨part0 { state := .enabled, ctxs := [(0, { state := .loaded })] }, by decide +kernel⟩

/-- The module in a state, and Lantern's life as given. -/
def module0 (x : Module) (hold : Bool := false) : State := { host0 with module := x, lan := { host0.lan with romHold := hold } }
theorem wit_module (st : ModState) : ∃ s : State, s.module.state = st := ⟨module0 { state := st }, rfl⟩
theorem wit_held (hold : Bool) : ∃ s : State, s.module.state = .held ∧ s.lan.romHold = hold := ⟨module0 { state := .held } hold, rfl, rfl⟩
theorem wit_m2 (low hold : Bool) : ∃ s : State, s.module.state = .m2 ∧ s.module.mrst = low ∧ s.lan.romHold = hold :=
  ⟨module0 { state := .m2, mrst := low } hold, rfl, rfl, rfl⟩
theorem wit_m1 (held : Bool) : ∃ s : State, s.module.state = .m1 ∧ s.module.m1Held = held := ⟨module0 { state := .m1, m1Held := held }, rfl, rfl⟩
theorem wit_m1Trip_fourth : ∃ s : State, s.module.state = .running ∧ 3 ≤ s.recentExits.length :=
  ⟨module0 { state := .running, m1Exits := [0, 0, 0] }, by decide +kernel⟩
theorem wit_recentExits : ∃ s : State, s.module.state = .running ∧ ¬ 3 ≤ s.recentExits.length := ⟨module0 { state := .running }, by decide +kernel⟩
theorem wit_moduleStart (c : StartCause) : ∃ s : State, s.module.state = .starting ∧ s.module.cause = c ∧ s.readVault.isSome = true ∧ s.store.mediaBad = [] ∧
    (∀ k < 3, (Map.get ({} : Target) s.lan.targets k).floor ≤ (Map.get ({} : Target) s.lan.targets k).svn) :=
  ⟨{ module0 { state := .starting, cause := c } with lan := { host0.lan with targets := [(2, { svn := 4, floor := 4 })] } }, by cases c <;> decide +kernel⟩
theorem wit_moduleStart_vault : ∃ s : State, s.module.state = .starting ∧ s.readVault = none :=
  ⟨{ module0 { state := .starting, cause := .mrst } with store := { mediaBad := [4097, 4098] } }, rfl, rfl⟩
theorem wit_moduleStart_copies : ∃ s u : State, s.module.state = .starting ∧ s.readVault = some u ∧ u.preBoot.canStart = false :=
  ⟨{ module0 { state := .starting, cause := .m2 } with store := { mediaBad := [4103, 4104] } }, _, rfl, rfl, by decide +kernel⟩
theorem wit_mrst : ∃ s : State, s.module.mrst = true := ⟨module0 { mrst := true }, rfl⟩
/-! ### Ill-formed commands are refused -/

/-- A frame of a number and a payload. -/
def rx0 (seq : Nat) (payload : List Byte) : RxFrame := ⟨seq, 0, false, false, 0, 0, 0, true, true, 0, 0, 0, 0, 0, 0, 0, 0, payload, true, false, true⟩

/-- A slot command outside its partitions or lanes, or with another row's opcode. -/
theorem test_wf_slot0 :
    ([.sNop ⟨16, 0, 0⟩ 0, .sNop ⟨0, 254, 0⟩ 0, .sNop ⟨0, 0, 0⟩ 18158513697557839872, .sAlu ⟨16, 0, 0⟩ 288230376151711744,
     .sAlu ⟨0, 254, 0⟩ 288230376151711744, .sAlu ⟨0, 0, 0⟩ 18158513697557839872, .sShift ⟨16, 0, 0⟩ 1729382256910270464,
     .sShift ⟨0, 254, 0⟩ 1729382256910270464, .sShift ⟨0, 0, 0⟩ 18158513697557839872, .sMul ⟨16, 0, 0⟩ 2594073385365405696,
     .sMul ⟨0, 254, 0⟩ 2594073385365405696, .sMul ⟨0, 0, 0⟩ 18158513697557839872, .sCompare ⟨16, 0, 0⟩ 2882303761517117440,
     .sCompare ⟨0, 254, 0⟩ 2882303761517117440, .sCompare ⟨0, 0, 0⟩ 18158513697557839872, .movi ⟨16, 0, 0⟩ 3746994889972252672,
     .movi ⟨0, 254, 0⟩ 3746994889972252672, .movi ⟨0, 0, 0⟩ 18158513697557839872, .movhi ⟨16, 0, 0⟩ 4035225266123964416,
     .movhi ⟨0, 254, 0⟩ 4035225266123964416, .movhi ⟨0, 0, 0⟩ 18158513697557839872, .setstr ⟨16, 0, 0⟩ 4323455642275676160,
     .setstr ⟨0, 254, 0⟩ 4323455642275676160, .setstr ⟨0, 0, 0⟩ 18158513697557839872, .sld ⟨16, 0, 0⟩ 4611686018427387904,
     .sld ⟨0, 254, 0⟩ 4611686018427387904, .sld ⟨0, 0, 0⟩ 18158513697557839872, .sst ⟨16, 0, 0⟩ 4899916394579099648,
     .sst ⟨0, 254, 0⟩ 4899916394579099648, .sst ⟨0, 0, 0⟩ 18158513697557839872, .br ⟨16, 0, 0⟩ 5188146770730811392,
     .br ⟨0, 254, 0⟩ 5188146770730811392, .br ⟨0, 0, 0⟩ 18158513697557839872, .brzBrnz ⟨16, 0, 0⟩ 5476377146882523136,
     .brzBrnz ⟨0, 254, 0⟩ 5476377146882523136, .brzBrnz ⟨0, 0, 0⟩ 18158513697557839872, .loopArm ⟨16, 0, 0⟩ 6052837899185946624,
     .loopArm ⟨0, 254, 0⟩ 6052837899185946624, .loopArm ⟨0, 0, 0⟩ 18158513697557839872, .rdst ⟨16, 0, 0⟩ 6341068275337658368,
     .rdst ⟨0, 254, 0⟩ 6341068275337658368, .rdst ⟨0, 0, 0⟩ 18158513697557839872, .clrst ⟨16, 0, 0⟩ 6629298651489370112,
     .clrst ⟨0, 254, 0⟩ 6629298651489370112, .clrst ⟨0, 0, 0⟩ 18158513697557839872] : List Instr).all (fun i => !i.wf) = true := by decide +kernel

/-- A slot command outside its partitions or lanes, or with another row's opcode. -/
theorem test_wf_slot1 :
    ([.ragged ⟨16, 0, 0⟩ 6917529027641081856, .ragged ⟨0, 254, 0⟩ 6917529027641081856, .ragged ⟨0, 0, 0⟩ 18158513697557839872,
     .laneEnd ⟨16, 0, 0⟩ 7205759403792793600, .laneEnd ⟨0, 254, 0⟩ 7205759403792793600, .laneEnd ⟨0, 0, 0⟩ 18158513697557839872,
     .ldt ⟨16, 0, 0⟩ false 0, .ldt ⟨0, 254, 0⟩ false 0, .ldt ⟨0, 0, 0⟩ false 17293822569102704640, .ldl ⟨16, 0, 0⟩ false 1152921504606846976,
     .ldl ⟨0, 254, 0⟩ false 1152921504606846976, .ldl ⟨0, 0, 0⟩ false 17293822569102704640, .ldv ⟨16, 0, 0⟩ false 2305843009213693952,
     .ldv ⟨0, 254, 0⟩ false 2305843009213693952, .ldv ⟨0, 0, 0⟩ false 17293822569102704640, .mvt ⟨16, 0, 0⟩ false 3458764513820540928,
     .mvt ⟨0, 254, 0⟩ false 3458764513820540928, .mvt ⟨0, 0, 0⟩ false 17293822569102704640, .matmul ⟨16, 0, 0⟩ 0, .matmul ⟨0, 254, 0⟩ 0,
     .matmul ⟨0, 0, 0⟩ 74276402357122816493947453440, .winoOut ⟨16, 0, 0⟩ 4951760157141521099596496896,
     .winoOut ⟨0, 254, 0⟩ 4951760157141521099596496896, .winoOut ⟨0, 0, 0⟩ 74276402357122816493947453440, .vNop ⟨16, 0, 0⟩ 0, .vNop ⟨0, 254, 0⟩ 0,
     .vNop ⟨0, 0, 0⟩ 77990222474978957318644826112, .vFma ⟨16, 0, 0⟩ 1237940039285380274899124224, .vFma ⟨0, 254, 0⟩ 1237940039285380274899124224,
     .vFma ⟨0, 0, 0⟩ 77990222474978957318644826112, .vAdd ⟨16, 0, 0⟩ 2475880078570760549798248448, .vAdd ⟨0, 254, 0⟩ 2475880078570760549798248448,
     .vAdd ⟨0, 0, 0⟩ 77990222474978957318644826112, .vSub ⟨16, 0, 0⟩ 3713820117856140824697372672, .vSub ⟨0, 254, 0⟩ 3713820117856140824697372672,
     .vSub ⟨0, 0, 0⟩ 77990222474978957318644826112, .vMul ⟨16, 0, 0⟩ 4951760157141521099596496896, .vMul ⟨0, 254, 0⟩ 4951760157141521099596496896,
     .vMul ⟨0, 0, 0⟩ 77990222474978957318644826112, .vMax ⟨16, 0, 0⟩ 6189700196426901374495621120, .vMax ⟨0, 254, 0⟩ 6189700196426901374495621120,
     .vMax ⟨0, 0, 0⟩ 77990222474978957318644826112, .vMin ⟨16, 0, 0⟩ 7427640235712281649394745344, .vMin ⟨0, 254, 0⟩ 7427640235712281649394745344,
     .vMin ⟨0, 0, 0⟩ 77990222474978957318644826112] : List Instr).all (fun i => !i.wf) = true := by decide +kernel

/-- A slot command outside its partitions or lanes, or with another row's opcode. -/
theorem test_wf_slot2 :
    ([.cmplt ⟨16, 0, 0⟩ 8665580274997661924293869568, .cmplt ⟨0, 254, 0⟩ 8665580274997661924293869568, .cmplt ⟨0, 0, 0⟩ 77990222474978957318644826112,
     .cmpeq ⟨16, 0, 0⟩ 9903520314283042199192993792, .cmpeq ⟨0, 254, 0⟩ 9903520314283042199192993792, .cmpeq ⟨0, 0, 0⟩ 77990222474978957318644826112,
     .sel ⟨16, 0, 0⟩ 11141460353568422474092118016, .sel ⟨0, 254, 0⟩ 11141460353568422474092118016, .sel ⟨0, 0, 0⟩ 77990222474978957318644826112,
     .vLogic ⟨16, 0, 0⟩ 12379400392853802748991242240, .vLogic ⟨0, 254, 0⟩ 12379400392853802748991242240,
     .vLogic ⟨0, 0, 0⟩ 77990222474978957318644826112, .vShl ⟨16, 0, 0⟩ 14855280471424563298789490688,
     .vShl ⟨0, 254, 0⟩ 14855280471424563298789490688, .vShl ⟨0, 0, 0⟩ 77990222474978957318644826112, .vShr ⟨16, 0, 0⟩ 16093220510709943573688614912,
     .vShr ⟨0, 254, 0⟩ 16093220510709943573688614912, .vShr ⟨0, 0, 0⟩ 77990222474978957318644826112, .exp2 ⟨16, 0, 0⟩ 17331160549995323848587739136,
     .exp2 ⟨0, 254, 0⟩ 17331160549995323848587739136, .exp2 ⟨0, 0, 0⟩ 77990222474978957318644826112, .log2 ⟨16, 0, 0⟩ 18569100589280704123486863360,
     .log2 ⟨0, 254, 0⟩ 18569100589280704123486863360, .log2 ⟨0, 0, 0⟩ 77990222474978957318644826112, .rcp ⟨16, 0, 0⟩ 19807040628566084398385987584,
     .rcp ⟨0, 254, 0⟩ 19807040628566084398385987584, .rcp ⟨0, 0, 0⟩ 77990222474978957318644826112, .rsq ⟨16, 0, 0⟩ 21044980667851464673285111808,
     .rsq ⟨0, 254, 0⟩ 21044980667851464673285111808, .rsq ⟨0, 0, 0⟩ 77990222474978957318644826112, .cvt ⟨16, 0, 0⟩ 22282920707136844948184236032,
     .cvt ⟨0, 254, 0⟩ 22282920707136844948184236032, .cvt ⟨0, 0, 0⟩ 77990222474978957318644826112, .qblk ⟨16, 0, 0⟩ 23520860746422225223083360256,
     .qblk ⟨0, 254, 0⟩ 23520860746422225223083360256, .qblk ⟨0, 0, 0⟩ 77990222474978957318644826112, .rsum ⟨16, 0, 0⟩ 24758800785707605497982484480,
     .rsum ⟨0, 254, 0⟩ 24758800785707605497982484480, .rsum ⟨0, 0, 0⟩ 77990222474978957318644826112, .rmax ⟨16, 0, 0⟩ 25996740824992985772881608704,
     .rmax ⟨0, 254, 0⟩ 25996740824992985772881608704, .rmax ⟨0, 0, 0⟩ 77990222474978957318644826112, .vMov ⟨16, 0, 0⟩ 27234680864278366047780732928,
     .vMov ⟨0, 254, 0⟩ 27234680864278366047780732928, .vMov ⟨0, 0, 0⟩ 77990222474978957318644826112] : List Instr).all (fun i => !i.wf) = true := by decide +kernel

/-- A slot command outside its partitions or lanes, or with another row's opcode. -/
theorem test_wf_slot3 :
    ([.vst ⟨16, 0, 0⟩ 28472620903563746322679857152, .vst ⟨0, 254, 0⟩ 28472620903563746322679857152, .vst ⟨0, 0, 0⟩ 77990222474978957318644826112,
     .put ⟨16, 0, 0⟩ 0, .put ⟨0, 254, 0⟩ 0, .put ⟨0, 0, 0⟩ 17293822569102704640, .signal ⟨16, 0, 0⟩ 1152921504606846976,
     .signal ⟨0, 254, 0⟩ 1152921504606846976, .signal ⟨0, 0, 0⟩ 17293822569102704640, .halo ⟨16, 0, 0⟩ 2305843009213693952,
     .halo ⟨0, 254, 0⟩ 2305843009213693952, .halo ⟨0, 0, 0⟩ 17293822569102704640, .tinc ⟨16, 0, 0⟩ 3458764513820540928,
     .tinc ⟨0, 254, 0⟩ 3458764513820540928, .tinc ⟨0, 0, 0⟩ 17293822569102704640, .tset ⟨16, 0, 0⟩ 4611686018427387904,
     .tset ⟨0, 254, 0⟩ 4611686018427387904, .tset ⟨0, 0, 0⟩ 17293822569102704640, .xfence ⟨16, 0, 0⟩ 5764607523034234880,
     .xfence ⟨0, 254, 0⟩ 5764607523034234880, .xfence ⟨0, 0, 0⟩ 17293822569102704640, .wb ⟨16, 0, 0⟩ 0, .wb ⟨0, 254, 0⟩ 0,
     .wb ⟨0, 0, 0⟩ 17293822569102704640, .wbw ⟨16, 0, 0⟩ 1152921504606846976, .wbw ⟨0, 254, 0⟩ 1152921504606846976,
     .wbw ⟨0, 0, 0⟩ 17293822569102704640, .dmaDdr5ToScratchpad ⟨16, 255, 0⟩ false 0, .dmaDdr5ToScratchpad ⟨0, 254, 0⟩ false 0,
     .dmaDdr5ToScratchpad ⟨0, 255, 0⟩ false 17293822569102704640, .dmaScratchpadToDdr5 ⟨16, 255, 0⟩ false 1152921504606846976,
     .dmaScratchpadToDdr5 ⟨0, 254, 0⟩ false 1152921504606846976, .dmaScratchpadToDdr5 ⟨0, 255, 0⟩ false 17293822569102704640,
     .dmaNandToScratchpad ⟨16, 255, 0⟩ false 2305843009213693952, .dmaNandToScratchpad ⟨0, 254, 0⟩ false 2305843009213693952,
     .dmaNandToScratchpad ⟨0, 255, 0⟩ false 17293822569102704640, .dmaHostToScratchpad ⟨16, 255, 0⟩ false 3458764513820540928,
     .dmaHostToScratchpad ⟨0, 254, 0⟩ false 3458764513820540928, .dmaHostToScratchpad ⟨0, 255, 0⟩ false 17293822569102704640,
     .dmaScratchpadToHost ⟨16, 255, 0⟩ false 4611686018427387904, .dmaScratchpadToHost ⟨0, 254, 0⟩ false 4611686018427387904,
     .dmaScratchpadToHost ⟨0, 255, 0⟩ false 17293822569102704640, .huveipDma ⟨16, 255, 0⟩ false 5764607523034234880,
     .huveipDma ⟨0, 254, 0⟩ false 5764607523034234880, .huveipDma ⟨0, 255, 0⟩ false 17293822569102704640] : List Instr).all (fun i => !i.wf) = true := by decide +kernel

/-- A slot command outside its partitions or lanes, or with another row's opcode. -/
theorem test_wf_slot4 :
    ([.floamPost ⟨16, 255, 0⟩ 0, .floamPost ⟨0, 254, 0⟩ 0, .floamPost ⟨0, 255, 0⟩ 17293822569102704640, .stemCommandPost ⟨16, 255, 0⟩ 0,
     .stemCommandPost ⟨0, 254, 0⟩ 0, .stemCommandPost ⟨0, 255, 0⟩ 17293822569102704640, .unitRecordPost ⟨16, 255, 0⟩ 0,
     .unitRecordPost ⟨0, 254, 0⟩ 0, .unitRecordPost ⟨0, 255, 0⟩ 17293822569102704640] : List Instr).all (fun i => !i.wf) = true := by decide +kernel

/-- An event with one operand just outside its range. -/
theorem test_wf_event0 :
    ([.waitSatisfied ⟨16, 0, 0⟩, .waitSatisfied ⟨0, 64, 0⟩, .laneFetchReturn 16 0, .laneFetchReturn 0 64, .accumulatorWrite 16 0,
     .accumulatorWrite 0 64, .vectorResultReady 16 0, .vectorResultReady 0 64, .jobStart 16 0, .jobStart 0 8, .swapOutComplete 16 0,
     .swapOutComplete 0 4096, .swapInComplete 16 0 .match (zeros 8192), .swapInComplete 0 0 .match (zeros 8191), .jobComplete 16 0, .jobComplete 0 8,
     .preemptRequest 16, .quantumExpiry 16, .waitSwitchExpiry 16, .yieldStop 16 0, .yieldStop 0 64, .contextSave 16, .preemptTimeout 16,
     .jobTimeout 16 0, .jobTimeout 0 8, .rebind 16, .gatherEntryIssue 68 0, .gatherEntryIssue 0 (8192 * 544), .arbiterGrant 8 0 [] false,
     .starvationPromotion 8 0 0, .sidebandMask 8 0 0 false, .patrolScrub 544 0 0 .clean, .patrolScrub 0 8192 0 .clean, .patrolScrub 0 0 8 .clean,
     .bankRetirement 544, .hotWindowEnd 544 0 0, .retentionWake 544, .retentionReturn 544, .huveipWriteFrame 4 (rx0 0 []),
     .huveipWriteFrame 0 (rx0 4096 []), .huveipWriteFrame 0 (rx0 0 (zeros 63)), .huveipWriteFrame 0 (rx0 0 (zeros 320)),
     .huveipSignalFrame 4 (rx0 0 []), .huveipSignalFrame 0 (rx0 4096 []), .huveipSignalFrame 0 (rx0 0 (zeros 63))] : List Instr).all (fun i => !i.wf) = true := by decide +kernel

/-- An event with one operand just outside its range. -/
theorem test_wf_event1 :
    ([.huveipSignalFrame 0 (rx0 0 (zeros 320)), .completionFrame 4 (rx0 0 []), .completionFrame 0 (rx0 4096 []),
     .completionFrame 0 (rx0 0 (zeros 63)), .completionFrame 0 (rx0 0 (zeros 320)), .paceNoticeReceive 4 (rx0 0 []),
     .paceNoticeReceive 0 (rx0 4096 []), .paceNoticeReceive 0 (rx0 0 (zeros 63)), .paceNoticeReceive 0 (rx0 0 (zeros 320)),
     .linkCredits 4 (rx0 0 []), .linkCredits 0 (rx0 4096 []), .linkCredits 0 (rx0 0 (zeros 63)), .linkCredits 0 (rx0 0 (zeros 320)),
     .linkBringup 4 0 1 0, .linkBringup 0 (2 ^ 16) 1 0, .linkBringup 0 0 0 0, .linkBringup 0 0 9 0, .linkHello 4 0 (zeros 32) [],
     .linkHello 0 (2 ^ 16) (zeros 32) [], .linkHello 0 0 (zeros 31) [], .linkEncap 4 [], .linkReport 4 ⟨true, true, true, 0, 0, false, []⟩,
     .linkReport 0 ⟨true, true, true, 0, 5, false, []⟩, .linkFinish 4 false, .linkRekey 4 0 ⟨0, zeros 1568⟩, .linkRekey 0 0 ⟨0, zeros 1567⟩, .linkAbort 4 0, .replayTimeout 4,
     .creditReturnTimer 4, .laneLockLoss 4 0, .laneLockLoss 0 8, .fecRateCheck 4 0 0 0, .fecRateCheck 0 8 0 0, .portRetrain 4 false, .rekeyStart 4,
     .rekeyTimeout 4, .bringupRetry 4, .paceHoldExpiry (2 ^ 16), .refreshDue 8, .ddr5TempRead 4 0, .ddr5PatrolScrub (2 ^ 31) .clean,
     .ddr5PageRetirement (2 ^ 25), .subchannelRetrain 8 0, .modelStageCopyDone 16 0, .csiFrameStart 8 0 0, .csiFrameStart 0 16 0] : List Instr).all (fun i => !i.wf) = true := by decide +kernel

/-- An event with one operand just outside its range. -/
theorem test_wf_event2 :
    ([.csiFrameStart 0 0 (2 ^ 16), .csiFrameEnd 8 0, .csiFrameEnd 0 16, .csiLongPacket 8 0 0 0 false [], .csiLongPacket 0 16 0 0 false [],
     .csiLongPacket 0 0 64 0 false [], .csiLongPacket 0 0 0 3 false [], .csiLongPacket 0 0 0 0 false [65536], .ethFrameReceive 7 ⟨[], true, 0⟩,
     .ethFrameReceive 12 ⟨[], true, 0⟩, .ethFrameReceive 8 ⟨zeros 1523, true, 0⟩, .lidarPacketParse 7, .lidarPacketParse 12, .triggerPulse 8,
     .stbEdge 16 false 0 [], .strobeMissed 16, .anchorCountUpdate 4 0, .frameInstant 4 0, .frameDeadline 4, .frameAssembly 4, .frameHeaderWrite 4,
     .releaseSignal 4 0, .timeBreak 4, .portLockRegain 12, .boxSetTake 4, .canFrameReceive 4 ⟨0, false, false, []⟩ 0,
     .canFrameReceive 0 ⟨2 ^ 11, false, false, []⟩ 0, .canFrameReceive 0 ⟨2 ^ 29, true, true, []⟩ 0, .canFrameReceive 0 ⟨0, false, false, zeros 9⟩ 0,
     .canFrameReceive 0 ⟨0, false, true, zeros 65⟩ 0, .drdyEdge 4 false 0, .dividerExpiry 16 0, .spiReadDone 16 [] 0, .cNop 16, .cAdd 16, .cSub 16,
     .cMul 16, .mac 16, .mulz 16, .cSar 16, .cShl 16, .cMin 16, .cMax 16, .cAnd 16, .ldi 16] : List Instr).all (fun i => !i.wf) = true := by decide +kernel

/-- An event with one operand just outside its range. -/
theorem test_wf_event3 :
    ([.ldsmp 16, .lds 16, .loopOut 16, .skn 16, .skz 16, .runCommit 16 0, .runDeadline 16 0, .shadowSwitch 16 0, .canTransmitDone 4,
     .canBusOffRecovery 4, .spiTransactionDone 2, .pwmPeriodBoundary 8, .loopFence 16, .sqTail 64 0, .sqTail 0 (2 ^ 32), .cqHead 64 0,
     .cqHead 0 (2 ^ 32), .noticeHead (2 ^ 32), .registerWrite (2 ^ 16) ⟨true, 0⟩, .registerWrite 0 ⟨true, 2 ^ 64⟩, .registerWrite 0 ⟨false, 2 ^ 32⟩, .msixUnmask 64,
     .commandFetch 64 ⟨0, 0, 0, 0, 0, 0, 0, 0, 0, []⟩, .commandFetch 0 ⟨65536, 0, 0, 0, 0, 0, 0, 0, 0, []⟩,
     .commandFetch 0 ⟨0, 0, 0, 0, 0, 0, 0, 0, 0, zeros 33⟩, .microcodeSwitch 18, .rotationWalkEnd 7 0, .rotationWalkEnd 0 17, .railReport 12 0 0,
     .stepChange 4, .droopTrip 4 0, .droopTrip 0 4, .droopRelease 4, .estimateInterval (List.replicate 17 0) 0, .thermalRead [0, 0, 0, 0, 0],
     .coolantRead 0 0 (2 ^ 16), .nandRead 0 8, .grownBadBlock 16 0, .grownBadBlock 0 2816, .dieFence 16, .staticWearMove 16, .canaryScan [⟨16, 0⟩],
     .canaryScan [⟨0, 2816⟩], .blockRefresh 16 0, .blockRefresh 0 2816, .blockRelocation 16 0] : List Instr).all (fun i => !i.wf) = true := by decide +kernel

/-- An event with one operand just outside its range. -/
theorem test_wf_event4 :
    ([.blockRelocation 0 2816, .tileFence 68 0 [], .sequencerError 16, .cupolaMemoryError .config 0 (2 ^ 16), .a1Entry 16, .sensorPortLockLoss 12,
     .huveipTrainingDone 4 1, .huveipTrainingDone 0 0, .huveipTrainingDone 0 9, .hostReadReturn ⟨64, 0, 0, [], false⟩,
     .hostReadReturn ⟨0, 0, 4, [], false⟩] : List Instr).all (fun i => !i.wf) = true := by decide +kernel

/-- A host command of a queue beyond the last. -/
theorem test_wf_host0 :
    ([.completionPost 64, .deviceIdentify 64, .sessionOpen 64, .sessionResume 64, .queueCreate 64, .queueDestroy 64, .queueRestart 64, .queueFence 64,
     .deviceArbiterConfigure 64, .partitionConfigure 64, .partitionEnable 64, .partitionDisable 64, .partitionReset 64, .partitionPolicySet 64,
     .partitionDst 64, .programLoad 64, .programUnload 64, .modelStageDdr5 64, .modelStageNandDirect 64, .modelUnstage 64, .modelEvict 64,
     .modelList 64, .jobSubmit 64, .jobPreempt 64, .jobAbort 64, .regionDefine 64, .regionRelease 64, .regionReseed 64, .memFill 64, .memCopy 64,
     .memBankStats 64, .memDdr5Stats 64, .memCacheStats 64, .memHostRegister 64, .windowOpen 64, .windowClose 64, .fabricSetId 64, .fabricRoute 64,
     .fabricRetrain 64, .fabricPortStats 64, .kvPoolConfigure 64, .kvSeqOpen 64, .kvSeqExtend 64, .kvSeqFork 64, .kvSeqTruncate 64] : List Instr).all (fun i => !i.wf) = true := by decide +kernel

/-- A host command of a queue beyond the last. -/
theorem test_wf_host1 :
    ([.kvSeqClose 64, .kvSeqSwapOut 64, .kvDomainCreate 64, .kvDomainDestroy 64, .kvStats 64, .sensorConfigure 64, .sensorRelease 64,
     .sensorCalibrate 64, .sensorParseTable 64, .sensorTrigger 64, .sensorEthSend 64, .sensorStats 64, .groupConfigure 64, .groupStart 64,
     .groupStop 64, .worldConfigure 64, .worldEdit 64, .worldPublish 64, .worldLoad 64, .worldUnload 64, .planMachine 64, .planLattice 64,
     .planQueryWindow 64, .planStats 64, .loopConfigure 64, .loopProgram 64, .loopCoeffs 64, .loopStart 64, .loopStop 64, .loopClear 64,
     .loopWindowOpen 64, .loopWindowClose 64, .loopSafeRelease 64, .loopStats 64, .loopPortConfigureCan 64, .loopPortConfigureSpi 64,
     .loopPortConfigurePwm 64, .loopPortRelease 64, .powerCapSet 64, .powerBudgetSet 64, .powerPaceFollow 64, .powerRead 64, .storeSlotWrite 64,
     .slotSeal 64, .storeSlotErase 64] : List Instr).all (fun i => !i.wf) = true := by decide +kernel

/-- A host command of a queue beyond the last. -/
theorem test_wf_host2 :
    ([.storeSlotList 64, .storeObjPut 64, .storeObjGet 64, .storeObjDelete 64, .storeDefaultsSet 64, .storeStats 64, .secAttest 64, .secUpdate 64,
     .secKeyEnrolSigning 64, .secKeyEnrolRoot 64, .secKeyEnrolPolicy 64, .secKeyRevoke 64, .secLifecycle 64, .secDebugUnlock 64, .secRotate 64,
     .logRead 64, .logStats 64] : List Instr).all (fun i => !i.wf) = true := by decide +kernel

/-- The same commands in range. -/
theorem test_wf_sound0 :
    ([.sNop ⟨0, 0, 0⟩ 0, .sAlu ⟨0, 0, 0⟩ 288230376151711744, .sShift ⟨0, 0, 0⟩ 1729382256910270464, .sMul ⟨0, 0, 0⟩ 2594073385365405696,
     .sCompare ⟨0, 0, 0⟩ 2882303761517117440, .movi ⟨0, 0, 0⟩ 3746994889972252672, .movhi ⟨0, 0, 0⟩ 4035225266123964416,
     .setstr ⟨0, 0, 0⟩ 4323455642275676160, .sld ⟨0, 0, 0⟩ 4611686018427387904, .sst ⟨0, 0, 0⟩ 4899916394579099648,
     .br ⟨0, 0, 0⟩ 5188146770730811392, .brzBrnz ⟨0, 0, 0⟩ 5476377146882523136, .loopArm ⟨0, 0, 0⟩ 6052837899185946624,
     .rdst ⟨0, 0, 0⟩ 6341068275337658368, .clrst ⟨0, 0, 0⟩ 6629298651489370112, .ragged ⟨0, 0, 0⟩ 6917529027641081856,
     .laneEnd ⟨0, 0, 0⟩ 7205759403792793600, .ldt ⟨0, 0, 0⟩ false 0, .ldl ⟨0, 0, 0⟩ false 1152921504606846976,
     .ldv ⟨0, 0, 0⟩ false 2305843009213693952, .mvt ⟨0, 0, 0⟩ false 3458764513820540928, .matmul ⟨0, 0, 0⟩ 0,
     .winoOut ⟨0, 0, 0⟩ 4951760157141521099596496896, .vNop ⟨0, 0, 0⟩ 0, .vFma ⟨0, 0, 0⟩ 1237940039285380274899124224,
     .vAdd ⟨0, 0, 0⟩ 2475880078570760549798248448, .vSub ⟨0, 0, 0⟩ 3713820117856140824697372672, .vMul ⟨0, 0, 0⟩ 4951760157141521099596496896,
     .vMax ⟨0, 0, 0⟩ 6189700196426901374495621120, .vMin ⟨0, 0, 0⟩ 7427640235712281649394745344, .cmplt ⟨0, 0, 0⟩ 8665580274997661924293869568,
     .cmpeq ⟨0, 0, 0⟩ 9903520314283042199192993792, .sel ⟨0, 0, 0⟩ 11141460353568422474092118016, .vLogic ⟨0, 0, 0⟩ 12379400392853802748991242240,
     .vShl ⟨0, 0, 0⟩ 14855280471424563298789490688, .vShr ⟨0, 0, 0⟩ 16093220510709943573688614912, .exp2 ⟨0, 0, 0⟩ 17331160549995323848587739136,
     .log2 ⟨0, 0, 0⟩ 18569100589280704123486863360, .rcp ⟨0, 0, 0⟩ 19807040628566084398385987584, .rsq ⟨0, 0, 0⟩ 21044980667851464673285111808,
     .cvt ⟨0, 0, 0⟩ 22282920707136844948184236032, .qblk ⟨0, 0, 0⟩ 23520860746422225223083360256, .rsum ⟨0, 0, 0⟩ 24758800785707605497982484480,
     .rmax ⟨0, 0, 0⟩ 25996740824992985772881608704, .vMov ⟨0, 0, 0⟩ 27234680864278366047780732928] : List Instr).all (fun i => i.wf) = true := by decide +kernel

/-- The same commands in range. -/
theorem test_wf_sound1 :
    ([.vst ⟨0, 0, 0⟩ 28472620903563746322679857152, .put ⟨0, 0, 0⟩ 0, .signal ⟨0, 0, 0⟩ 1152921504606846976, .halo ⟨0, 0, 0⟩ 2305843009213693952,
     .tinc ⟨0, 0, 0⟩ 3458764513820540928, .tset ⟨0, 0, 0⟩ 4611686018427387904, .xfence ⟨0, 0, 0⟩ 5764607523034234880, .wb ⟨0, 0, 0⟩ 0,
     .wbw ⟨0, 0, 0⟩ 1152921504606846976, .dmaDdr5ToScratchpad ⟨0, 255, 0⟩ false 0, .dmaScratchpadToDdr5 ⟨0, 255, 0⟩ false 1152921504606846976,
     .dmaNandToScratchpad ⟨0, 255, 0⟩ false 2305843009213693952, .dmaHostToScratchpad ⟨0, 255, 0⟩ false 3458764513820540928,
     .dmaScratchpadToHost ⟨0, 255, 0⟩ false 4611686018427387904, .huveipDma ⟨0, 255, 0⟩ false 5764607523034234880, .floamPost ⟨0, 255, 0⟩ 0,
     .stemCommandPost ⟨0, 255, 0⟩ 0, .unitRecordPost ⟨0, 255, 0⟩ 0, .waitSatisfied ⟨0, 0, 0⟩, .laneFetchReturn 0 0, .accumulatorWrite 0 0,
     .vectorResultReady 0 0, .jobStart 0 0, .swapOutComplete 0 0, .swapInComplete 0 0 .match (zeros 8192), .jobComplete 0 0, .preemptRequest 0,
     .quantumExpiry 0, .waitSwitchExpiry 0, .yieldStop 0 0, .contextSave 0, .preemptTimeout 0, .jobTimeout 0 0, .rebind 0, .gatherEntryIssue 0 0,
     .arbiterGrant 0 0 [] false, .starvationPromotion 0 0 0, .sidebandMask 0 0 0 false, .patrolScrub 0 0 0 .clean, .bankRetirement 0,
     .hotWindowEnd 0 0 0, .retentionWake 0, .retentionReturn 0, .huveipWriteFrame 0 (rx0 0 []), .huveipSignalFrame 0 (rx0 0 [])] : List Instr).all (fun i => i.wf) = true := by decide +kernel

/-- The same commands in range. -/
theorem test_wf_sound2 :
    ([.completionFrame 0 (rx0 0 []), .paceNoticeReceive 0 (rx0 0 []), .linkCredits 0 (rx0 0 []), .linkBringup 0 0 1 0, .linkHello 0 0 (zeros 32) [],
     .linkEncap 0 [], .linkReport 0 ⟨true, true, true, 0, 0, false, []⟩, .linkFinish 0 false, .linkRekey 0 0 ⟨0, zeros 1568⟩, .linkAbort 0 0, .replayTimeout 0,
     .creditReturnTimer 0, .laneLockLoss 0 0, .fecRateCheck 0 0 0 0, .portRetrain 0 false, .rekeyStart 0, .rekeyTimeout 0, .bringupRetry 0,
     .paceHoldExpiry 0, .refreshDue 0, .ddr5TempRead 0 0, .ddr5PatrolScrub 0 .clean, .ddr5PageRetirement 0, .subchannelRetrain 0 0,
     .modelStageCopyDone 0 0, .csiFrameStart 0 0 0, .csiFrameEnd 0 0, .csiLongPacket 0 0 0 0 false [], .ethFrameReceive 8 ⟨[], true, 0⟩,
     .lidarPacketParse 8, .triggerPulse 0, .stbEdge 0 false 0 [], .strobeMissed 0, .anchorCountUpdate 0 0, .frameInstant 0 0, .frameDeadline 0,
     .frameAssembly 0, .frameHeaderWrite 0, .releaseSignal 0 0, .timeBreak 0, .portLockRegain 0, .boxSetTake 0,
     .canFrameReceive 0 ⟨0, false, false, []⟩ 0, .drdyEdge 0 false 0, .dividerExpiry 0 0] : List Instr).all (fun i => i.wf) = true := by decide +kernel

/-- The same commands in range. -/
theorem test_wf_sound3 :
    ([.spiReadDone 0 [] 0, .cNop 0, .cAdd 0, .cSub 0, .cMul 0, .mac 0, .mulz 0, .cSar 0, .cShl 0, .cMin 0, .cMax 0, .cAnd 0, .ldi 0, .ldsmp 0, .lds 0,
     .loopOut 0, .skn 0, .skz 0, .runCommit 0 0, .runDeadline 0 0, .shadowSwitch 0 0, .canTransmitDone 0, .canBusOffRecovery 0,
     .spiTransactionDone 0, .pwmPeriodBoundary 0, .loopFence 0, .sqTail 0 0, .cqHead 0 0, .noticeHead 0, .registerWrite 0 ⟨true, 2 ^ 32⟩, .msixUnmask 0,
     .commandFetch 0 ⟨0, 0, 0, 0, 0, 0, 0, 0, 0, []⟩, .completionPost 0, .deviceIdentify 0, .sessionOpen 0, .sessionResume 0, .queueCreate 0,
     .queueDestroy 0, .queueRestart 0, .queueFence 0, .deviceArbiterConfigure 0, .partitionConfigure 0, .partitionEnable 0, .partitionDisable 0,
     .partitionReset 0] : List Instr).all (fun i => i.wf) = true := by decide +kernel

/-- The same commands in range. -/
theorem test_wf_sound4 :
    ([.partitionPolicySet 0, .partitionDst 0, .programLoad 0, .programUnload 0, .modelStageDdr5 0, .modelStageNandDirect 0, .modelUnstage 0,
     .modelEvict 0, .modelList 0, .jobSubmit 0, .jobPreempt 0, .jobAbort 0, .regionDefine 0, .regionRelease 0, .regionReseed 0, .memFill 0,
     .memCopy 0, .memBankStats 0, .memDdr5Stats 0, .memCacheStats 0, .memHostRegister 0, .windowOpen 0, .windowClose 0, .fabricSetId 0,
     .fabricRoute 0, .fabricRetrain 0, .fabricPortStats 0, .kvPoolConfigure 0, .kvSeqOpen 0, .kvSeqExtend 0, .kvSeqFork 0, .kvSeqTruncate 0,
     .kvSeqClose 0, .kvSeqSwapOut 0, .kvDomainCreate 0, .kvDomainDestroy 0, .kvStats 0, .sensorConfigure 0, .sensorRelease 0, .sensorCalibrate 0,
     .sensorParseTable 0, .sensorTrigger 0, .sensorEthSend 0, .sensorStats 0, .groupConfigure 0] : List Instr).all (fun i => i.wf) = true := by decide +kernel

/-- The same commands in range. -/
theorem test_wf_sound5 :
    ([.groupStart 0, .groupStop 0, .worldConfigure 0, .worldEdit 0, .worldPublish 0, .worldLoad 0, .worldUnload 0, .planMachine 0, .planLattice 0,
     .planQueryWindow 0, .planStats 0, .loopConfigure 0, .loopProgram 0, .loopCoeffs 0, .loopStart 0, .loopStop 0, .loopClear 0, .loopWindowOpen 0,
     .loopWindowClose 0, .loopSafeRelease 0, .loopStats 0, .loopPortConfigureCan 0, .loopPortConfigureSpi 0, .loopPortConfigurePwm 0,
     .loopPortRelease 0, .powerCapSet 0, .powerBudgetSet 0, .powerPaceFollow 0, .powerRead 0, .storeSlotWrite 0, .slotSeal 0, .storeSlotErase 0,
     .storeSlotList 0, .storeObjPut 0, .storeObjGet 0, .storeObjDelete 0, .storeDefaultsSet 0, .storeStats 0, .secAttest 0, .secUpdate 0,
     .microcodeSwitch 0, .secKeyEnrolSigning 0, .secKeyEnrolRoot 0, .secKeyEnrolPolicy 0, .secKeyRevoke 0] : List Instr).all (fun i => i.wf) = true := by decide +kernel

/-- The same commands in range. -/
theorem test_wf_sound6 :
    ([.secLifecycle 0, .secDebugUnlock 0, .secRotate 0, .rotationWalkEnd 0 0, .logRead 0, .logStats 0, .railReport 0 0 0, .stepChange 0,
     .droopTrip 0 0, .droopRelease 0, .estimateInterval [] 0, .thermalRead [0, 0, 0, 0, 0, 0], .coolantRead 0 0 0, .nandRead 0 0, .grownBadBlock 0 0,
     .dieFence 0, .staticWearMove 0, .canaryScan [], .blockRefresh 0 0, .blockRelocation 0 0, .tileFence 0 0 [], .sequencerError 0,
     .cupolaMemoryError .config 0 0, .a1Entry 0, .sensorPortLockLoss 0, .huveipTrainingDone 0 1, .hostReadReturn ⟨0, 0, 0, [], false⟩] : List Instr).all (fun i => i.wf) = true := by decide +kernel

/-! ### Single steps, with results that the spec's text and examples give -/

/-- The state after a command, itself where there is none. -/
def after (c : Instr) (s : State) : State := match exec c s with
  | .next t => t
  | _ => s

/-- How the command of Q00 ended: status, reason, result. -/
def ended (s : State) : Option (Nat × Nat × Nat) := ((s.queue 0).cmds.find? (·.no == 0)).map fun c => (c.status, c.reason, c.result)

/-- No word spells a command: the table gives no row any bits. -/
theorem test_decodeTableWord : decodeTableWord 0 0 = none ∧ decodeTableWord 96 7 = none ∧ host0.withFetchWord 64 1 = host0 := ⟨rfl, rfl, rfl⟩

/-- R17, log entry 3: a step with nothing waiting is 1 µs of the CP's counter. -/
theorem test_idle : host0.tick.clk.cp = 1 := by decide +kernel

/-- The lane with register D14 (30) as given. -/
def reg30 (v : DWord) : State := tile0 .running { arch := { x := [(30, v)] }, iss := { fetched := true }, run := .running }

/-- D15 of the lane. -/
def d15 (s : State) : DWord := Map.get 0 (s.lane 0 0).arch.x 31

/-- R74, ADD wraps: all ones plus 1 is 0. -/
theorem test_sAlu_wraps : d15 (after (.sAlu (only 0 0) 0x07FE040000000001) (reg30 0xFFFFFFFFFFFFFFFF)) = 0 := by decide +kernel
/-- R74, SUB of an immediate that is sign-extended: 5 - (-1) is 6. -/
theorem test_sAlu_sub : d15 (after (.sAlu (only 0 0) 0x0BFE0400FFFFFFFF) (reg30 5)) = 6 := by decide +kernel
/-- R74, SAR keeps the sign. -/
theorem test_sShift_sar : d15 (after (.sShift (only 0 0) 0x23FE04000000003F) (reg30 0x8000000000000000)) = 0xFFFFFFFFFFFFFFFF := by decide +kernel
/-- R74, a shift takes source 2 [5:0]: by 64 it moves nothing. -/
theorem test_sShift_shl64 : d15 (after (.sShift (only 0 0) 0x1BFE040000000040) (reg30 3)) = 3 := by decide +kernel
/-- R74, the low 64 bits of the product. -/
theorem test_sMul : d15 (after (.sMul (only 0 0) 0x27FE040000000003) (reg30 0x8000000000000001)) = 0x8000000000000003 := by decide +kernel
/-- R74, SLT compares as signed, SLTU as unsigned: -1 and 0. -/
theorem test_sCompare_slt : d15 (after (.sCompare (only 0 0) 0x2BFE040000000000) (reg30 0xFFFFFFFFFFFFFFFF)) = 1 := by decide +kernel
theorem test_sCompare_sltu : d15 (after (.sCompare (only 0 0) 0x2FFE040000000000) (reg30 0xFFFFFFFFFFFFFFFF)) = 0 := by decide +kernel
/-- R74, MOVI sign-extends; MOVHI keeps the low half. -/
theorem test_movi : d15 (after (.movi (only 0 0) 0x37E00000FFFFFFFF) (reg30 0)) = 0xFFFFFFFFFFFFFFFF := by decide +kernel
theorem test_movhi : d15 (after (.movhi (only 0 0) 0x3BE0000012345678) (tile0 .running { arch := { x := [(31, 0xFFFFFFFFFFFFFFFF)] }, iss := { fetched := true }, run := .running })) = 0x12345678FFFFFFFF := by decide +kernel
/-- A word of another row's opcode is no S_NOP (log entry 157). -/
theorem test_malformed : exec (.sNop (only 0 0) 0x07FE040000000001) ready0 = .refused (.malformedCommand "S_NOP") := rfl

/-- R58: an INT32 sum wraps with INT_WRAP, or saturates with SAT. -/
theorem test_vAdd_wraps : vAdd 3 false 0 0x7FFFFFFF 1 = (0x80000000, 1) := by decide +kernel
theorem test_vAdd_saturates : vAdd 3 true 0 0x7FFFFFFF 1 = (0x7FFFFFFF, 8) := by decide +kernel
/-- R58: FP32 1.5 times 2 plus 0.25 is 3.25. -/
theorem test_vFma : vFma 0 false 0 0x3FC00000 0x40000000 0x3E800000 = (0x40500000, 0) := by decide +kernel
/-- R53 step 4: 127.5 in INT8 and 7.75 in E2M3 saturate with SAT; the E2M3 maximum 7.5 stands as E4M3 0x4F (R40). -/
theorem test_convert_int8 : convert .nearestEven 0 0 (.fin false 255 (-1)) = (127, 8) := by decide +kernel
theorem test_convert_e2m3 : convert .nearestEven 8 0 (.fin false 31 (-2)) = (0x4F, 8) := by decide +kernel
/-- R53 step 5: a NaN in the block gives the scale 0xFF, zero elements and SCALE_NAN. -/
theorem test_quantBlock_nan : quantBlock 0 0 [.nan, .fin false 1 0] = (0xFF, [0, 0], 16) := by decide +kernel

/-- R22: T00 lies over B000 to B007, and T33 over B264 to B271. -/
theorem test_nearBanks : ((List.range 8).all fun k => distance 0 k == 0 && distance 33 (264 + k) == 0) = true ∧ distance 33 263 = 1 := by decide +kernel
/-- The example of chapter 17: E19 is carried by T20, and the spare of CD1 is T33. -/
theorem test_tileOf : host0.tileOf 19 = 20 ∧ host0.engineOn 33 = none := by decide +kernel

/-- The example of chapter 10: the fit through (1,100,000; 7,056,250,480) of slope 562.5048 maps 1,133,400 to 7,075,038,140. -/
theorem test_fitMap : (⟨1, 1100000, 7056250480, 5625048, 10000⟩ : Fit).map 1133400 = 7075038140 := by decide +kernel

/-- The hitch law of chapter 12: C5 = 536,871 with shift 14, Z1 as given. -/
def hitch (w : Nat) (z1 z2 : Int) : State :=
  let s := (loopRun true).modLoop 15 fun x => { x with
    run := some { trigger := 0, z := [(1, BitVec.ofInt 32 z1), (2, BitVec.ofInt 32 z2)] }, coeff := [(5, 536871)], shift := [(5, 14)] }
  { s with cmp := { s.cmp with prog := [(4095, BitVec.ofNat 64 w)] } }
/-- Z1 of the run's copy. -/
def z1Of (s : State) : Option Int := (s.loop 15).run.map fun r => (Map.get 0 r.z 1).toInt
/-- The largest increment is 134,184, and the most negative -134,185. -/
theorem test_cMul_up : z1Of (after (.cMul 15) (hitch (cWord 3 0) 4095 0)) = some 134184 := by decide +kernel
theorem test_cMul_down : z1Of (after (.cMul 15) (hitch (cWord 3 0) (-4095) 0)) = some (-134185) := by decide +kernel
/-- R295: an integrator passes from 2,147,483,647 to -2,147,483,648. -/
theorem test_cAdd_wraps : z1Of (after (.cAdd 15) (hitch (cWord 1 0) 2147483647 1)) = some (-2147483648) := by decide +kernel
theorem test_cMin : z1Of (after (.cMin 15) (hitch (cWord 8 0) (-3) 2)) = some (-3) := by decide +kernel
/-- The example of chapter 12: 3,000 in a 12-bit field reads as -1,096. -/
theorem test_placeSpi : placeSpi 12 0 (2 + 11 * 256) 3000 = 3000 ∧ (BitVec.ofNat 12 3000).toInt = -1096 := by decide +kernel

/-- Chapter 0: a window.open with length 0 is refused with RC_ZERO_SIZE. -/
theorem test_windowOpen_zero :
    ended (after (.windowOpen 0) ({ op := 0x060A, blk := openBlock.take 16 ++ zeros 8 ++ openBlock.drop 24, on := region0 .enabled } : Case).st) =
      some (stRefused, rcZeroSize, 0) := by decide +kernel
/-- Chapter 9: word 0x006A_003C sets the threshold G of a bank arbiter to 16. -/
theorem test_deviceArbiterConfigure :
    ((after (.deviceArbiterConfigure 0) ({ op := 0x0108, inl := [0, 0] ++ le 2 543 ++ le 4 0x006A003C } : Case).st).arb 0 543).threshold 0 = 16 := by
  decide +kernel
/-- R330: an unknown opcode is refused at its fetch. -/
theorem test_commandFetch_unknown :
    ended (after (.commandFetch 0 { noop0 with opcode := 0x0EFF }) (host0.setQueue 0 { live := true, sqSize := 16, cqSize := 16, sqTail := 1 })) =
      some (stRefused, rcUnknownCommand, 0) := by decide +kernel
/-- R318: a tail at the ring size faults the queue. -/
theorem test_sqTail_faults : ((after (.sqTail 0 16) host0).queue 0).faulted = true := by decide +kernel

end Sys2Proof.Tests
end

section
/-! PROOF. What a command can answer: a next state, or, for a slot word that spells another row, a refusal. -/

namespace Sys2Proof.Machine

/-! ### The opcode fields of the slots, as the commands and as `Instr.wf` read them -/

theorem opS_eq (w : DWord) (ops : List Nat) : opS w ops = ops.contains (sOp w) := by
  simp [opS, sOp, bits]

theorem opS_singleton (w : DWord) (op : Nat) : opS w [op] = (sOp w == op) := by
  rw [Bool.eq_iff_iff]
  simp [opS_eq]

theorem op64_eq (w : DWord) (op : Nat) : op64 w op = (bits w.toNat 63 60 == op) := by
  simp [op64, bits]

/-- The posts of 96 bits carry their opcode in the low half. -/
theorem op64_low_eq (w : BitVec 96) (op : Nat) : op64 (w.extractLsb' 0 64) op = (bits w.toNat 63 60 == op) := by
  simp [op64, bits]

theorem opM_eq (w : BitVec 96) (op : Nat) : opM w op = (bits w.toNat 95 92 == op) := by
  simp [opM, bits]

theorem opV_eq (w : BitVec 96) (op : Nat) : opV w op = ((vDecode w).op == op) := by
  simp [opV, vDecode, bits]

/-- An engine lane is not the shared lane (R63). -/
theorem Issue.lane_of_engine {i : Issue} (h : i.engine = true) : i.lane ≠ 255 := by
  simp only [Issue.engine, Bool.and_eq_true, decide_eq_true_eq] at h
  omega

/-! ### What a command can answer -/

/-- A next state whatever the operands, and a refusal only where they are out of range (`wf = false`). -/
inductive Complete (wf : Bool) : Res → Prop
  | next (t : State) : Complete wf (.next t)
  | malformed (h : wf = false) (mn : String) : Complete wf (.refused (.malformedCommand mn))

section
variable {i : Issue} {inRange f ok : Bool} {mn : String} {s : State}

theorem slotRes_complete {wf : Bool} (h : wf = true → ok = true) : Complete wf (slotRes ok mn s) := by
  cases ok with
  | true => exact .next s
  | false => exact .malformed (by simpa using h) mn

/-- A slot word of any lane: its opcode alone is checked. -/
theorem anySlot_complete (e : f = ok) : Complete (inRange && f) (slotRes ok mn s) :=
  slotRes_complete fun h => e ▸ (Bool.and_eq_true_iff.mp h).2

theorem engineSlot_complete (e : f = ok) : Complete (i.engine && f) (slotRes (ok && i.lane != 255) mn s) := by
  refine slotRes_complete fun h => ?_
  obtain ⟨hi, hf⟩ := Bool.and_eq_true_iff.mp h
  simp [← e, hf, Issue.lane_of_engine hi]

theorem sharedSlot_complete (e : f = ok) : Complete (i.shared && f) (slotRes (ok && i.lane == 255) mn s) := by
  refine slotRes_complete fun h => ?_
  simp only [Issue.shared, Bool.and_eq_true] at h
  simp [← e, h]
end

/-- An instruction of a control loop answers a next state whatever run and program the loop holds. -/
theorem instr_complete (wf : Bool) (op l : Nat) (s : State) (f : Run → DWord → Run) : Complete wf (instr op l s f) := by
  fun_cases instr op l s f <;> exact .next _

/-- The slot words check what they spell; every other command answers a next state on each branch of its meaning, most of them
with no branch at all. -/
theorem exec_complete (c : Instr) (s : State) : Complete c.wf (exec c s) := by
  cases c with dsimp only [exec]
  -- slot words: the check of the word is what `Instr.wf` asks of it
  | sNop | sMul | movi | movhi | setstr | sld | sst | br | loopArm | rdst | clrst | ragged | laneEnd =>
    exact anySlot_complete (opS_singleton ..)
  | sAlu | sShift | sCompare | brzBrnz => exact anySlot_complete (by grind [opS_eq])
  | ldt | ldl | ldv | mvt | wb | wbw => exact engineSlot_complete (op64_eq ..)
  | matmul | winoOut => exact engineSlot_complete (opM_eq ..)
  | vNop | vFma | vAdd | vSub | vMul | vMax | vMin | cmplt | cmpeq | sel | vLogic | vShl | vShr | exp2 | log2 | rcp
  | rsq | cvt | qblk | rsum | rmax | vMov | vst =>
    exact engineSlot_complete (opV_eq ..)
  | put | signal | halo | tinc | tset | xfence => exact anySlot_complete (op64_eq ..)
  | dmaDdr5ToScratchpad | dmaScratchpadToDdr5 | dmaNandToScratchpad | dmaHostToScratchpad | dmaScratchpadToHost
  | huveipDma | unitRecordPost =>
    exact sharedSlot_complete (op64_eq ..)
  | floamPost | stemCommandPost => exact sharedSlot_complete (op64_low_eq ..)
  -- the instructions of a control loop
  | cNop | cAdd | cSub | cMul | mac | mulz | cSar | cShl | cMin | cMax | cAnd | ldi | ldsmp | lds | loopOut | skn
  | skz => exact instr_complete ..
  -- meanings with branches
  | waitSatisfied => fun_cases execWaitSatisfied <;> exact .next _
  | scratchpadReadReturn => fun_cases execScratchpadReadReturn <;> exact .next _
  | scratchpadWriteComplete => fun_cases execScratchpadWriteComplete <;> exact .next _
  | incrementApply => fun_cases execIncrementApply <;> exact .next _
  | writeCompletion => fun_cases execWriteCompletion <;> exact .next _
  | writeTrackerTimeout => fun_cases execWriteTrackerTimeout <;> exact .next _
  | remoteWriteAbandon => fun_cases execRemoteWriteAbandon <;> exact .next _
  | windowWriteArrival => fun_cases execWindowWriteArrival <;> exact .next _
  | jobStart => fun_cases execJobStart <;> exact .next _
  | swapOutComplete => fun_cases execSwapOutComplete <;> exact .next _
  | swapInComplete => fun_cases execSwapInComplete <;> exact .next _
  | jobComplete => fun_cases execJobComplete <;> exact .next _
  | preemptRequest => fun_cases execPreemptRequest <;> exact .next _
  | quantumExpiry => fun_cases execQuantumExpiry <;> exact .next _
  | waitSwitchExpiry => fun_cases execWaitSwitchExpiry <;> exact .next _
  | yieldStop => fun_cases execYieldStop <;> exact .next _
  | contextSave => fun_cases execContextSave <;> exact .next _
  | preemptTimeout => fun_cases execPreemptTimeout <;> exact .next _
  | jobTimeout => fun_cases execJobTimeout <;> exact .next _
  | gatherEntryIssue => fun_cases execGatherEntryIssue <;> exact .next _
  | arbiterGrant => fun_cases execArbiterGrant <;> exact .next _
  | starvationPromotion => fun_cases execStarvationPromotion <;> exact .next _
  | sidebandMask => fun_cases execSidebandMask <;> exact .next _
  | patrolScrub => fun_cases execPatrolScrub <;> exact .next _
  | bankRetirement => fun_cases execBankRetirement <;> exact .next _
  | hotWindowEnd => fun_cases execHotWindowEnd <;> exact .next _
  | completionFrame => fun_cases execCompletionFrame <;> exact .next _
  | paceNoticeReceive => fun_cases execPaceNoticeReceive <;> exact .next _
  | linkCredits => fun_cases execLinkCredits <;> exact .next _
  | linkBringup => fun_cases execLinkBringup <;> exact .next _
  | linkHello => fun_cases execLinkHello <;> exact .next _
  | linkEncap => fun_cases execLinkEncap <;> exact .next _
  | linkReport => fun_cases execLinkReport <;> exact .next _
  | linkFinish => fun_cases execLinkFinish <;> exact .next _
  | linkRekey => fun_cases execLinkRekey <;> exact .next _
  | linkAbort => fun_cases execLinkAbort <;> exact .next _
  | fecRateCheck => fun_cases execFecRateCheck <;> exact .next _
  | portRetrain => fun_cases execPortRetrain <;> exact .next _
  | bringupRetry => fun_cases execBringupRetry <;> exact .next _
  | refreshDue => fun_cases execRefreshDue <;> exact .next _
  | ddr5TempRead => fun_cases execDdr5TempRead <;> exact .next _
  | ddr5PageRetirement => fun_cases execDdr5PageRetirement <;> exact .next _
  | subchannelRetrain => fun_cases execSubchannelRetrain <;> exact .next _
  | ddr5WriteAck => fun_cases execDdr5WriteAck <;> exact .next _
  | ddr5ReadReturn => fun_cases execDdr5ReadReturn <;> exact .next _
  | dmaPostComplete => fun_cases execDmaPostComplete <;> exact .next _
  | floamBlockExpand => fun_cases execFloamBlockExpand <;> exact .next _
  | floamEntryComplete => fun_cases execFloamEntryComplete <;> exact .next _
  | modelStageCopyDone => fun_cases execModelStageCopyDone <;> exact .next _
  | stemLineStart => fun_cases execStemLineStart <;> exact .next _
  | csiFrameStart => fun_cases execCsiFrameStart <;> exact .next _
  | csiFrameEnd => fun_cases execCsiFrameEnd <;> exact .next _
  | csiLongPacket => fun_cases execCsiLongPacket <;> exact .next _
  | ethFrameReceive => fun_cases execEthFrameReceive <;> exact .next _
  | lidarPacketParse => fun_cases execLidarPacketParse <;> exact .next _
  | triggerPulse => fun_cases execTriggerPulse <;> exact .next _
  | strobeMissed => fun_cases execStrobeMissed <;> exact .next _
  | frameInstant => fun_cases execFrameInstant <;> exact .next _
  | frameDeadline => fun_cases execFrameDeadline <;> exact .next _
  | frameAssembly => fun_cases execFrameAssembly <;> exact .next _
  | frameHeaderWrite => fun_cases execFrameHeaderWrite <;> exact .next _
  | releaseSignal => fun_cases execReleaseSignal <;> exact .next _
  | timeBreak => fun_cases execTimeBreak <;> exact .next _
  | portLockRegain => fun_cases execPortLockRegain <;> exact .next _
  | boxSetTake => fun_cases execBoxSetTake <;> exact .next _
  | publication => fun_cases execPublication <;> exact .next _
  | queryPost => fun_cases execQueryPost <;> exact .next _
  | queryStart => fun_cases execQueryStart <;> exact .next _
  | queryExpansion => fun_cases execQueryExpansion <;> exact .next _
  | queryBudgetExpiry => fun_cases execQueryBudgetExpiry <;> exact .next _
  | queryResultWrite => fun_cases execQueryResultWrite <;> exact .next _
  | canFrameReceive => fun_cases execCanFrameReceive <;> exact .next _
  | spiReadDone => fun_cases execSpiReadDone <;> exact .next _
  | runCommit => fun_cases execRunCommit <;> exact .next _
  | runDeadline => fun_cases execRunDeadline <;> exact .next _
  | shadowSwitch => fun_cases execShadowSwitch <;> exact .next _
  | canTransmitDone => fun_cases execCanTransmitDone <;> exact .next _
  | canBusOffRecovery => fun_cases execCanBusOffRecovery <;> exact .next _
  | spiTransactionDone => fun_cases execSpiTransactionDone <;> exact .next _
  | pwmPeriodBoundary => fun_cases execPwmPeriodBoundary <;> exact .next _
  | loopFence => fun_cases execLoopFence <;> exact .next _
  | sqTail => fun_cases execSqTail <;> exact .next _
  | cqHead => fun_cases execCqHead <;> exact .next _
  | noticeHead => fun_cases execNoticeHead <;> exact .next _
  | adminEnableSet => fun_cases execAdminEnableSet <;> exact .next _
  | adminEnableClear => fun_cases execAdminEnableClear <;> exact .next _
  | registerWrite => fun_cases execRegisterWrite <;> exact .next _
  | msixUnmask => fun_cases execMsixUnmask <;> exact .next _
  | commandFetch => fun_cases execCommandFetch <;> exact .next _
  | completionPost => fun_cases execCompletionPost <;> exact .next _
  | updateCommit => fun_cases execUpdateCommit <;> exact .next _
  | microcodeSwitch => fun_cases execMicrocodeSwitch <;> exact .next _
  | rotationWalkEnd => fun_cases execRotationWalkEnd <;> exact .next _
  | logRecordWrite => fun_cases execLogRecordWrite <;> exact .next _
  | samplePreload => fun_cases execSamplePreload <;> exact .next _
  | extest => fun_cases execExtest <;> exact .next _
  | internalScan => fun_cases execInternalScan <;> exact .next _
  | railReport => fun_cases execRailReport <;> exact .next _
  | stepChange => fun_cases execStepChange <;> exact .next _
  | droopTrip => fun_cases execDroopTrip <;> exact .next _
  | m1Trip => fun_cases execM1Trip <;> exact .next _
  | flowLoss => fun_cases execFlowLoss <;> exact .next _
  | nandRead => fun_cases execNandRead <;> exact .next _
  | grownBadBlock => fun_cases execGrownBadBlock <;> exact .next _
  | dieFence => fun_cases execDieFence <;> exact .next _
  | staticWearMove => fun_cases execStaticWearMove <;> exact .next _
  | blockRefresh => fun_cases execBlockRefresh <;> exact .next _
  | blockRelocation => fun_cases execBlockRelocation <;> exact .next _
  | tileFence => fun_cases execTileFence <;> exact .next _
  | sequencerError => fun_cases execSequencerError <;> exact .next _
  | cupolaMemoryError => fun_cases execCupolaMemoryError <;> exact .next _
  | steepleMemoryError => fun_cases execSteepleMemoryError <;> exact .next _
  | cpRestart => fun_cases execCpRestart <;> exact .next _
  | auxLoss => fun_cases execAuxLoss <;> exact .next _
  | mainLoss => fun_cases execMainLoss <;> exact .next _
  | mainReturn => fun_cases execMainReturn <;> exact .next _
  | m1Exit => fun_cases execM1Exit <;> exact .next _
  | mrstNAssert => fun_cases execMrstNAssert <;> exact .next _
  | moduleStart => fun_cases execModuleStart <;> exact .next _
  | sensorPortLockLoss => fun_cases execSensorPortLockLoss <;> exact .next _
  | huveipTrainingDone => fun_cases execHuveipTrainingDone <;> exact .next _
  | buildingCopyDone => fun_cases execBuildingCopyDone <;> exact .next _
  | hostReadReturn => fun_cases execHostReadReturn <;> exact .next _
  -- every other meaning answers outright
  | _ => exact .next _

/-- Settles O3: what `exec_complete` leaves to a command in range is a next state, and to any other the refusal of its word. -/
theorem wellFormedCommandsComplete : Obligations.WellFormedCommandsComplete := by
  refine ⟨fun c s hc => ?_, fun c s f h => ?_, fun c s m h => ?_⟩
  · generalize exec c s = r, exec_complete c s = a
    cases a with
    | next t => exact ⟨t, rfl⟩
    | malformed h mn => simp [h] at hc
  · exact nomatch h ▸ exec_complete c s
  · exact nomatch h ▸ exec_complete c s

end Sys2Proof.Machine
end

section
/-! PROOF. The course of a host command: whose turn it is, what refuses it, what a refusal leaves. -/

namespace Sys2Proof.Machine

variable {s : State} {q op : Nat} {c : Cmd}

/-! ### A command's turn (R326 to R328) -/

/-- The commands of queue `q` that are not held, in the order of their fetch. -/
def State.unheld (s : State) (q : Nat) : List Cmd := (s.queue q).cmds.filter fun d => !d.held

/-- A turn is that of the first waiting command, in a live queue, behind nothing that must complete first. -/
theorem State.of_turn_eq_some (h : s.turn q = some c) :
    (s.unheld q).find? (·.phase == .waiting) = some c ∧ (s.queue q).live = true ∧
      (s.queue q).free ((s.unheld q).takeWhile fun d => d.phase != .waiting) = true ∧ s.fenceOpen c = true := by
  simp only [State.turn] at h
  split at h
  · simp at h
  next d hd =>
    split at h
    next hrun =>
      simp only [Bool.and_eq_true] at hrun
      obtain ⟨⟨⟨hlive, -⟩, hfree⟩, hfence⟩ := hrun
      obtain rfl : d = c := by simpa using h
      exact ⟨hd, hlive, hfree, hfence⟩
    next => simp at h

theorem State.mem_of_turn (h : s.turn q = some c) : c ∈ (s.queue q).cmds ∧ c.phase = .waiting := by
  obtain ⟨hfind, -, -, -⟩ := State.of_turn_eq_some h
  exact ⟨(List.mem_filter.mp (List.mem_of_find?_eq_some hfind)).1, by simpa using List.find?_some hfind⟩

/-- An open fence leaves no earlier command of the target queue unfinished (R328). -/
theorem State.done_of_fenceOpen {t n : Nat} (h : s.fenceOpen c = true) (hf : c.fence = some (t, n)) {x : Cmd}
    (hx : x ∈ (s.queue t).cmds) (hn : x.no < n) : x.phase = .done := by
  simp only [State.fenceOpen, hf, List.all_eq_true, Bool.or_eq_true, beq_iff_eq, decide_eq_true_eq] at h
  exact (h x hx).resolve_right (by omega)

/-- Under the stop policy nothing runs behind a command that is not complete, or ended with a status above 1 (R326). -/
theorem Queue.done_of_free_of_stop {x : Queue} {before : List Cmd} (h : x.free before = true) (hp : x.cont = false) {d : Cmd}
    (hd : d ∈ before) : d.phase = .done ∧ d.status ≤ 1 := by
  simp only [Queue.free, hp, Bool.false_eq_true, if_false, Bool.and_eq_true, List.all_eq_true] at h
  simpa using h.2 d hd

/-! ### What a turn does (R12, R319, R473) -/

theorem State.serve_no_turn {mine : Cmd → Bool} {f : State → Cmd → Done} (h : s.turn q = none) : s.serve q op mine f = s := by
  simp [State.serve, h]

/-- A command whose argument block is still to come changes nothing. -/
theorem State.serve_not_ready {mine : Cmd → Bool} {f : State → Cmd → Done} (h : s.turn q = some c) (hr : c.ready = false) :
    s.serve q op mine f = s := by
  simp [State.serve, h, hr]

theorem State.serve_refused {mine : Cmd → Bool} {f : State → Cmd → Done} {code : Nat} (h : s.turn q = some c)
    (ho : c.entry.opcode = op) (hr : c.ready = true) (hm : mine c = true) (hc : s.common q c.entry c.block = some code) :
    s.serve q op mine f = s.refuse q c.no code := by
  simp [State.serve, h, ho, hr, hm, hc]

/-- Command `i` is the turn of queue `q` for every entry of opcode `op`. -/
def Serves (q op : Nat) (i : Instr) : Prop :=
  ∃ f : State → Cmd → Done, ∀ s, exec i s = .next (s.serve q op always f)

/-- What every turn has in common: nothing changes before its time, and a common check that fails refuses. -/
def TurnCourse (q op : Nat) (i : Instr) (s : State) : Prop :=
  (s.turn q = none → exec i s = .next s) ∧
  (∀ c, s.turn q = some c → c.entry.opcode = op →
    (c.ready = false → exec i s = .next s) ∧
    (∀ code, c.ready = true → s.common q c.entry c.block = some code → exec i s = .next (s.refuse q c.no code)))

theorem Serves.turnCourse {i : Instr} (h : Serves q op i) (s : State) : TurnCourse q op i s := by
  obtain ⟨f, hf⟩ := h
  refine ⟨fun ht => ?_, fun c ht ho => ⟨fun hr => ?_, fun code hr hc => ?_⟩⟩
  · rw [hf, State.serve_no_turn ht]
  · rw [hf, State.serve_not_ready ht hr]
  · rw [hf, State.serve_refused ht ho hr rfl hc]

theorem turnCourse_of_mem {l : List (Nat × Instr)} (h : ∀ p ∈ l, Serves q p.1 p.2) {i : Instr} (hi : (op, i) ∈ l) (s : State) :
    TurnCourse q op i s :=
  (h _ hi).turnCourse s

/-! ### The common checks, in their order (R473) -/

section
variable {e : Entry} {b : Option (List Byte)} {k : CmdSpec} (hk : cmdSpec e.opcode = some k)
include hk

theorem State.common_no_session (hs : s.host.session = none) (ho : 0x0103 < k.op) : s.common 0 e b = some rcNoSession := by
  have : ¬ k.op ≤ 0x0103 := by omega
  simp [State.common, hk, firstFail, hs, this]

theorem State.common_admin_only (hq : q ≠ 0) (hc : k.col = .admin) : s.common q e b = some rcAdminOnly := by
  simp [State.common, hk, firstFail, hq, hc]

theorem State.common_not_bound (hq : q ≠ 0) (hc : k.col = .bound) (hb : s.bound q e.partition = false) :
    s.common q e b = some rcNotBound := by
  simp [State.common, hk, firstFail, State.notBound, hq, hc, hb]

theorem State.common_malformed (hs : s.host.session.isSome = true) (he : entryBad k e b = true) :
    s.common 0 e b = some rcEntryMalformed := by
  simp [State.common, hk, firstFail, State.notBound, Option.ne_none_iff_isSome.mpr hs, he]
end

/-- A refusal changes the command's record and, held while no session is attached, the reserved area's, and no more (R320, R324). -/
theorem State.refuse_record (s : State) (q n code : Nat) :
    let t := s.setQueue q { s.queue q with cmds := (s.queue q).cmds.map fun c =>
      if c.no = n then { c with phase := .done, status := stRefused, reason := code, result := 0, aux := 0, time := s.now } else c }
    s.refuse q n code = if s.host.session = none then t.recWrite (.held q n) else t := by
  simp [State.refuse, State.finish, State.holdRecord, State.modCmd, Queue.modCmd, State.setQueue]

/-- Settles O45: the turn of each command listed is `State.serve`, and what it waits for and what refuses it are the lemmas above. -/
theorem commandCourse : Obligations.CommandCourse := by
  refine ⟨fun s q op i hi => turnCourse_of_mem ?served hi s, State.refuse_record, fun s q c ht => ?_, fun s q e b k hk => ?_⟩
  case served =>
    simp only [List.forall_mem_cons, List.not_mem_nil, false_imp_iff, implies_true, and_true]
    and_intros
    all_goals exact ⟨_, fun _ => rfl⟩
  · obtain ⟨-, hlive, hfree, hfence⟩ := State.of_turn_eq_some ht
    obtain ⟨hmem, hwait⟩ := State.mem_of_turn ht
    exact ⟨hmem, hwait, hlive, fun t n hf x hx hn => State.done_of_fenceOpen hfence hf hx hn,
      fun hp x hx => Queue.done_of_free_of_stop hfree hp hx⟩
  · exact ⟨fun hq hs ho => hq ▸ State.common_no_session hk hs ho, fun hq hc => State.common_admin_only hk hq hc,
      fun hq hc hb => State.common_not_bound hk hq hc hb, fun hs hq he => hq ▸ State.common_malformed hk hs he⟩

end Sys2Proof.Machine
end

section
/-! PROOF. What passes while no command waits. -/

namespace Sys2Proof.Machine

theorem State.clocked_iff (s : State) : s.clocked = true ↔ s.module.state = .running ∨ s.module.state = .starting := by
  simp [State.clocked]

/-- An open number of cycles, drawn from the free values at `k` (R28). -/
def openCycles (k : Nat) : DWord := BitVec.ofNat 64 (Config.freeNat k)

/-- The idle step draws three free values and moves the counters that have power (R17, R247, R294, R381). -/
theorem State.tick_eq (s : State) : s.tick = { s with
    clk.free := s.clk.free + 3
    clk.cp := if s.clocked then s.clk.cp + 1 else s.clk.cp
    cup.cycles := if s.clocked then s.cup.cycles + openCycles s.clk.free else s.cup.cycles
    cmp.cycles := if s.clocked then s.cmp.cycles + openCycles (s.clk.free + 1) else s.cmp.cycles
    lan.monotonic := if s.module.state = .off then s.lan.monotonic else s.lan.monotonic + openCycles (s.clk.free + 2) } := by
  unfold State.tick State.take openCycles
  by_cases hc : s.clocked = true <;> by_cases ho : s.module.state = .off <;> simp [hc, ho]

/-- Settles O2: the idle step is `State.tick`, and its three open numbers are the free values it draws. -/
theorem idleStepAdvancesClocks : Obligations.IdleStepAdvancesClocks := by
  intro s hs
  refine ⟨s.tick, openCycles s.clk.free, openCycles (s.clk.free + 1), openCycles (s.clk.free + 2), by simp [step, hs], ?_⟩
  simp [State.tick_eq, State.clocked_iff]

end Sys2Proof.Machine
end

section
/-! PROOF. The state right after reset: its banks are those of shipment, a key no table lists reads as the default. -/

namespace Sys2Proof

/-- A table that gives one value to every key of a list reads that value there and the default elsewhere. -/
theorem Map.get_map_const {α : Type} (d v : α) (l : List Nat) (k : Nat) :
    Map.get d (l.map fun j => (j, v)) k = if k ∈ l then v else d := by
  induction l with
  | nil => rfl
  | cons j l ih =>
    by_cases hk : k = j
    · simp [Map.get, hk]
    · simp [Map.get, hk, ih]

namespace Machine

theorem mem_spareBanks_iff {b : Nat} : b ∈ spareBanks ↔
    (128 ≤ b ∧ b < 136) ∨ (264 ≤ b ∧ b < 272) ∨ (400 ≤ b ∧ b < 408) ∨ (536 ≤ b ∧ b < 544) := by
  have block : ∀ lo, (∃ i < 8, lo + i = b) ↔ lo ≤ b ∧ b < lo + 8 := fun lo =>
    ⟨fun ⟨i, hi, e⟩ => by omega, fun h => ⟨b - lo, by omega, by omega⟩⟩
  simp [spareBanks, block]

theorem State.bank_reset_state (b : Nat) :
    (State.reset.bank b).state = if b ∈ spareBanks then .spare else .inService := by
  unfold State.bank State.reset shippedBanks
  rw [Map.get_map_const]
  split <;> rfl

theorem State.bank_reset_state_eq_spare_iff (b : Nat) : (State.reset.bank b).state = .spare ↔ b ∈ spareBanks := by
  simp [State.bank_reset_state]

theorem State.bank_reset_spare_or_inService (b : Nat) :
    (State.reset.bank b).state = .spare ∨ (State.reset.bank b).state = .inService := by
  rw [State.bank_reset_state]
  split
  · exact .inl rfl
  · exact .inr rfl

/-- An engine the map does not list lies on the tile of shipment (R223). -/
theorem State.tileOf_of_unlisted {s : State} {e : Nat} (h : Map.get 0 s.engineMap e = 0) :
    s.tileOf e = 17 * (e / 16) + e % 16 := by
  simp [State.tileOf, h]

/-- A partition the table does not list is FREE (R222). -/
theorem State.part_state_of_parts_nil {s : State} (h : s.parts = []) (p : Nat) : (s.part p).state = .free := by
  simp [State.part, h]

/-- Settles O4: the banks read as shipped by `State.bank_reset_state`, and the tables of engines and partitions list nothing. -/
theorem resetState : Obligations.ResetState :=
  ⟨rfl, rfl, fun _ _ => State.tileOf_of_unlisted rfl,
   fun b _ => (State.bank_reset_state_eq_spare_iff b).trans mem_spareBanks_iff,
   fun b _ => State.bank_reset_spare_or_inService b, State.part_state_of_parts_nil rfl, rfl, rfl, rfl, rfl, rfl⟩

end Machine
end Sys2Proof
end

section
/-! PROOF. Runs of a table read back: what `Map.write` puts at successive keys, and what it leaves. -/

namespace Sys2Proof

variable {α : Type} [DecidableEq α]

/-- A write of values of their own is read back from any table, canonical or not. -/
theorem Map.get_write (m : Map (Option α)) (k j : Nat) (l : List α) :
    Map.get none (Map.write m k l) j = if k ≤ j ∧ j < k + l.length then l[j - k]? else Map.get none m j := by
  unfold Map.write
  induction l generalizing m k with
  | nil =>
    have hn : ¬(k ≤ j ∧ j < k + ([] : List α).length) := fun ⟨hk, hj⟩ => Nat.not_lt.mpr hk hj
    rw [if_neg hn]
    rfl
  | cons v l ih =>
    simp only [List.map_cons, Map.setList, ih, List.length_cons]
    obtain hj | rfl | hj := Nat.lt_trichotomy j k
    · rw [if_neg (by omega), if_neg (by omega), Map.get_set_ne _ _ (by omega)]
    · rw [if_neg (by omega), if_pos (by omega), Map.get_set_of_ne _ _ (by simp)]
      simp
    · rw [Map.get_set_ne _ _ (by omega), show j - k = j - (k + 1) + 1 by omega, List.getElem?_cons_succ]
      simp only [show k + 1 ≤ j ∧ j < k + 1 + l.length ↔ k ≤ j ∧ j < k + (l.length + 1) by omega]

theorem Map.read_write_self (d : Nat → α) (m : Map (Option α)) (k : Nat) (l : List α) :
    Map.read d (Map.write m k l) k l.length = l := by
  refine List.ext_getElem (by simp [Map.read]) fun i hi hl => ?_
  simp [Map.read, Map.get_write, hl]

theorem Map.read_write_of_disjoint (d : Nat → α) (m : Map (Option α)) (l : List α) {k j n : Nat}
    (h : j + n ≤ k ∨ k + l.length ≤ j) : Map.read d (Map.write m k l) j n = Map.read d m j n := by
  refine List.map_congr_left fun i hi => ?_
  have hi : i < n := List.mem_range.mp hi
  rw [Map.get_write, if_neg (by omega)]

/-- Of records of `n` cells each, numbered from 0, a record written whole reads as written, and the others as before. -/
theorem Map.read_write_record (d : Nat → α) (m : Map (Option α)) {n : Nat} (k : Nat) {l : List α} (h : l.length = n) :
    Map.read d (Map.write m (n * k) l) (n * k) n = l ∧
    ∀ j, j ≠ k → Map.read d (Map.write m (n * k) l) (n * j) n = Map.read d m (n * j) n := by
  subst h
  refine ⟨Map.read_write_self d m _ l, fun j hj => Map.read_write_of_disjoint d m l ?_⟩
  obtain hj | hj := Nat.lt_or_gt_of_ne hj
  · exact .inl (by simpa [Nat.mul_succ] using Nat.mul_le_mul_left l.length (Nat.succ_le_of_lt hj))
  · exact .inr (by simpa [Nat.mul_succ] using Nat.mul_le_mul_left l.length (Nat.succ_le_of_lt hj))

namespace Machine

theorem Tile.readSlot_writeSlot (t : Tile) (k : Nat) (b : List Byte) (bad : Bool) (h : b.length = 272) :
    (t.writeSlot k 0 b bad).readSlot k = b ∧ ∀ j, j ≠ k → (t.writeSlot k 0 b bad).readSlot j = t.readSlot j :=
  Map.read_write_record (fillByte t.fill 0) t.slots k h

theorem Tile.readAcc_writeAcc (t : Tile) (r : AccRow) (h : r.words.length = 16) :
    (t.writeAcc r).readAcc r.row = r.words ∧ ∀ k, k ≠ r.row → (t.writeAcc r).readAcc k = t.readAcc k :=
  Map.read_write_record (fillWord t.fill (2 ^ 21)) t.acc r.row h

theorem LaneArch.readV_writeV (a : LaneArch) (d : Nat) (ws : List Word) (bad : Bool) (h : ws.length = 64) :
    (a.writeV d ws bad).readV d = ws ∧ ∀ k, k ≠ d → (a.writeV d ws bad).readV k = a.readV k :=
  Map.read_write_record (fillWord a.fill 0) a.v d h

end Machine
end Sys2Proof
end

section
/-! PROOF. A slot word that spells its row, on a slot that acts or is held. -/

namespace Sys2Proof.Machine

/-! ### Which lane words have a slot to act -/

/-- A slot whose gate is open stands in the mask of its lane word. -/
theorem State.gate_mask_ne_zero {s t : State} {i : Issue} {slot : Nat} {e : Bool} (h : s.gate i slot e = .go t) : i.mask ≠ 0 := by
  intro hm
  simp [State.gate, Issue.next, hm] at h

/-! ### The lane stays fetched -/

/-- An update of a partition's record that keeps its lanes keeps a lane that is listed. -/
theorem State.lane_modPart {s : State} {p l : Nat} {f : Part → Part} (hf : (f (s.part p)).lanes = (s.part p).lanes)
    (h : s.lane p l ≠ {}) : (s.modPart p f).lane p l = s.lane p l := by
  have hp : f (s.part p) ≠ {} := by
    intro e
    refine h ?_
    rw [State.lane, ← hf, e]
    rfl
  have hq : (s.modPart p f).part p = f (s.part p) := Map.get_set_of_ne s.parts p hp
  rw [State.lane, hq, hf]
  rfl

theorem State.markPoison_fetched {s : State} {p l : Nat} (h : (s.lane p l).iss.fetched = true) :
    ((s.markPoison p).lane p l).iss.fetched = true := by
  unfold State.markPoison
  split
  · rw [State.modCtx, State.setCtx, State.lane_modPart rfl (Lane.ne_of_fetched h)]
    exact h
  · exact h

theorem State.setAsw_fetched {s : State} {p l : Nat} (flags : Nat) (h : (s.lane p l).iss.fetched = true) :
    ((s.setAsw p l flags).lane p l).iss.fetched = true := by
  have hl := State.fetched_modLane s p l
    (fun x => { x with arch := { x.arch with asw := x.arch.asw ||| BitVec.ofNat 32 flags } }) h
  unfold State.setAsw
  dsimp only
  split
  · exact State.markPoison_fetched hl
  · exact hl

/-! ### What a slot word comes to -/

theorem slotRes_of_ok {ok : Bool} {mn : String} {s : State} (h : ok = true) : slotRes ok mn s = .next s := by
  simp [slotRes, h]

section
variable {s t : State} {i : Issue} {slot : Nat} {rs : List Nat} {busy : State → Bool} {f : State → State} {e ok : Bool} {mn : String}

/-- A slot that is not held acts; its issue goes on unless the action has ended the job. -/
theorem State.onSlot_acts (h : s.gate i slot e = .go t) (hr : t.xHeld i rs = false) (hb : busy t = false) :
    s.onSlot i slot rs busy f e = if ((f t).lane i.part i.lane).iss.fetched then (f t).slotDone i slot else f t := by
  unfold State.onSlot
  rw [h]
  simp [hr, hb]

theorem slotRes_acts (hok : ok = true) (h : s.gate i slot e = .go t) (hr : t.xHeld i rs = false) (hb : busy t = false) :
    slotRes ok mn (s.onSlot i slot rs busy f e) =
      .next (if ((f t).lane i.part i.lane).iss.fetched then (f t).slotDone i slot else f t) := by
  rw [slotRes_of_ok hok, State.onSlot_acts h hr hb]

/-- A slot that is not held, and whose action keeps the lane fetched, is done. -/
theorem slotRes_done (hok : ok = true) (h : s.gate i slot e = .go t) (hr : t.xHeld i rs = false) (hb : busy t = false)
    (hf : ((f t).lane i.part i.lane).iss.fetched = true) :
    slotRes ok mn (s.onSlot i slot rs busy f e) = .next ((f t).slotDone i slot) := by
  rw [slotRes_of_ok hok, State.onSlot_go h hr hb hf]

/-- A slot whose register is still awaited costs the lane a cycle of its interlock counter (R67). -/
theorem slotRes_held (hok : ok = true) (h : s.gate i slot e = .go t) (hr : t.xHeld i rs = true) :
    slotRes ok mn (s.onSlot i slot rs busy f e) = .next (t.countInterlock i.part i.lane) := by
  rw [slotRes_of_ok hok, State.onSlot_held h (by simp [hr])]
end

end Sys2Proof.Machine
end

section
/-! PROOF. The moves of the S slot and its reads and clears of the status words (R60, R70, R74, R76). -/

namespace Sys2Proof.Machine

/-- An empty lane word does nothing but end its issue (R69). -/
theorem State.emptyStep_go {s t : State} {i : Issue} (hon : s.laneOn i.part i.lane = true)
    (hf : (s.lane i.part i.lane).iss.fetched = true) (h : s.boundary i false = .go t) : s.emptyStep i = t.endIssue i := by
  simp [State.emptyStep, hon, hf, h]

section
variable {s t : State} {i : Issue} {w : DWord}

theorem exec_sNop_empty (hw : sOp w = 0) (hm : i.mask = 0) : exec (.sNop i w) s = .next (s.emptyStep i) := by
  show slotRes _ _ _ = _
  rw [slotRes_of_ok (by simp [hw])]
  simp [Issue.isEmpty, hm]

theorem exec_sNop_slot (hw : sOp w = 0) (hm : i.mask ≠ 0) : exec (.sNop i w) s = .next (s.onSlot i 0 [] free id) := by
  show slotRes _ _ _ = _
  rw [slotRes_of_ok (by simp [hw])]
  simp [Issue.isEmpty, hm]

/-! ### RDST (R74, R76, R77, R414) -/

/-- Items from 0x100 on are the lane's token counters (R76). -/
theorem State.rdItem_counter {item : Nat} (h : 0x100 ≤ item) :
    t.rdItem i item = (t.counter i.part i.lane (t.tokBase i.part i.lane + item % 256)).zeroExtend 64 := by
  have hne : ∀ n < 0x100, item ≠ n := fun n hn => by omega
  simp [State.rdItem, hne, h]

section
variable (hg : s.gate i 0 = .go t)
include hg

theorem exec_rdst_read {item : Nat} (he : bits (sImm w) 8 0 = item) (hw : sOp w = 22) (hx : t.xHeld i [sRd w] = false)
    (hb : 0x100 ≤ item → t.badCounter i.part i.lane (item % 256) = false) :
    exec (.rdst i w) s = .next ((t.setX i (sRd w) (t.rdItem i item)).slotDone i 0) := by
  have hb : (decide (0x100 ≤ item) && t.badCounter i.part i.lane (item % 256)) = false := by simpa using hb
  refine (slotRes_acts (by simp [hw]) hg hx rfl).trans ?_
  simp [he, hb, State.setX_fetched _ _ (State.gate_fetched hg)]

/-- The read of a poisoned token counter ends the job (R414). -/
theorem exec_rdst_poison {item : Nat} (he : bits (sImm w) 8 0 = item) (hw : sOp w = 22) (hx : t.xHeld i [sRd w] = false)
    (hi : 0x100 ≤ item) (hb : t.badCounter i.part i.lane (item % 256) = true) :
    exec (.rdst i w) s = .next (if ((t.endResident i.part stPoisonConsumed).lane i.part i.lane).iss.fetched then
      (t.endResident i.part stPoisonConsumed).slotDone i 0 else t.endResident i.part stPoisonConsumed) := by
  refine (slotRes_acts (by simp [hw]) hg hx rfl).trans ?_
  simp [he, hi, hb]

end
end

/-- Settles O9: each instruction is one write to a slot that acts (`slotRes_done`), and a register still awaited is
`slotRes_held`. -/
theorem scalarMovesAndStatus : Obligations.ScalarMovesAndStatus := by
  refine ⟨fun i w s t hm hon hf hb hw => ?empty, fun i w s t hg => ?slots⟩
  case empty => rw [exec_sNop_empty hw hm, State.emptyStep_go hon hf hb]
  case slots =>
    have hf := State.gate_fetched hg
    intro a item imm v done
    refine ⟨fun hw => ?nop, fun hw hx => ?movi, fun hw hx => ?movhi, fun hw hx => ?setstr, fun hw hx => ?rdst, fun hw hx => ?clrst,
      fun hx => ?heldRd, fun hx => ?heldSrc⟩
    case nop =>
      rw [exec_sNop_slot hw (State.gate_mask_ne_zero hg), State.onSlot_go hg rfl rfl hf]
      rfl
    case movi => exact slotRes_done (by simp [hw]) hg hx rfl (State.setX_fetched _ _ hf)
    case movhi => exact slotRes_done (by simp [hw]) hg hx rfl (State.setX_fetched _ _ hf)
    case setstr => exact slotRes_done (by simp [hw]) hg hx rfl (State.fetched_modLane _ _ _ _ hf)
    case rdst =>
      have low : ∀ n < 0x100, item = n → exec (.rdst i w) s = done (t.setX i (sRd w) (t.rdItem i n)) :=
        fun n hn hi => exec_rdst_read hg hi hw hx fun h => by omega
      refine ⟨low 0 (by decide), low 1 (by decide), low 2 (by decide), low 3 (by decide), low 4 (by decide), low 5 (by decide),
        low 6 (by decide), fun hi hc => ?_, fun hi hc => exec_rdst_poison hg rfl hw hx hi hc⟩
      rw [exec_rdst_read hg rfl hw hx fun _ => hc, State.rdItem_counter hi]
    case clrst =>
      have clears : exec (.clrst i w) s = _ := slotRes_done (by simp [hw]) hg hx rfl (State.fetched_modLane _ _ _ _ hf)
      exact ⟨fun hr => clears.trans (by simp [hr, done, v]), fun hr => clears.trans (by simp [hr, done, v])⟩
    case heldRd =>
      exact ⟨fun hw => slotRes_held (by simp [hw]) hg hx, fun hw => slotRes_held (by simp [hw]) hg hx,
        fun hw => slotRes_held (by simp [hw]) hg hx⟩
    case heldSrc => exact ⟨fun hw => slotRes_held (by simp [hw]) hg hx, fun hw => slotRes_held (by simp [hw]) hg hx⟩

end Sys2Proof.Machine
end

section
/-! PROOF. The L slots of an engine lane: loads, moves of operand slots, and the return of reads (R46, R64, R74, R96). -/

namespace Sys2Proof.Machine

/-! ### Loads (R46, R74) -/

section
variable {s t : State} {i : Issue} {second : Bool} {k : RKind} {w : DWord}

/-- The partition address a load reads from. -/
def State.loadAddr (t : State) (i : Issue) (w : DWord) : Nat := (t.lx i (lAreg w) + lOff w).toNat

/-- Whether a load is aligned and its units lie in a region (R74, R89). -/
def State.loadPlaced (t : State) (i : Issue) (k : RKind) (w : DWord) : Prop :=
  t.loadAddr i w % k.align = 0 ∧ (t.part i.part).inRegion (t.loadAddr i w) (k.unit * lCount w) = true

/-- The read that a load sends out. -/
def State.loadRead (t : State) (i : Issue) (k : RKind) (w : DWord) : Read :=
  { id := t.clk.nextId, kind := k, part := i.part, lane := i.lane, addr := BitVec.ofNat 64 (t.loadAddr i w), dst := lDst w,
    count := lCount w }

/-- The state with the read of a load sent out. -/
def State.sendLoad (t : State) (i : Issue) (k : RKind) (w : DWord) : State := t.newId.2.addRead (t.loadRead i k w)

theorem State.loadPlaced_iff : t.loadPlaced i k w ↔
    ¬ (t.loadAddr i w % k.align != 0 || !(t.part i.part).inRegion (t.loadAddr i w) (k.unit * lCount w)) = true := by
  simp [State.loadPlaced]

theorem State.issueRead_misplaced (h : ¬ t.loadPlaced i k w) : t.issueRead i k w = t.addrFault i.part i.lane :=
  if_pos (Decidable.not_not.mp (mt State.loadPlaced_iff.mpr h))

theorem State.issueRead_ldt (h : t.loadPlaced i .ldt w) : t.issueRead i .ldt w =
    (t.sendLoad i .ldt w).modTileAt i.part i.lane fun y => y.startSlots (run (lDst w) (lCount w)) :=
  if_neg (State.loadPlaced_iff.mp h)

theorem State.issueRead_ldl (h : t.loadPlaced i .ldl w) : t.issueRead i .ldl w = t.sendLoad i .ldl w :=
  if_neg (State.loadPlaced_iff.mp h)

/-- An LDV takes the place of an earlier one of the step to the same register, and its data return after the step (R64). -/
theorem State.issueRead_ldv (h : t.loadPlaced i .ldv w) : t.issueRead i .ldv w =
    ((t.newId.2.supersede i.part i.lane (run (lDst w) (lCount w))).addRead (t.loadRead i .ldv w)).modLane i.part i.lane fun x =>
      { x with iss.rNew := t.clk.nextId :: x.iss.rNew } :=
  if_neg (State.loadPlaced_iff.mp h)

/-- The three loads are one slot operation over the kind of their destination. -/
theorem exec_load {c : Instr} (hl : i.lane ≠ 255)
    (hc : (k, lOp w, c) ∈ [(RKind.ldt, 0, Instr.ldt i second w), (.ldl, 1, .ldl i second w), (.ldv, 2, .ldv i second w)]) :
    exec c s = .next (s.loadSlot i second k w) := by
  simp only [List.mem_cons, List.not_mem_nil, or_false, Prod.mk.injEq] at hc
  obtain ⟨rfl, hw, rfl⟩ | ⟨rfl, hw, rfl⟩ | ⟨rfl, hw, rfl⟩ := hc <;> exact slotRes_of_ok (by simp [hw, hl])

theorem State.loadSlot_acts (hg : s.gate i (lSlot second) = .go t) (hx : t.xHeld i [lAreg w] = false)
    (hd : t.destBusy i k w = false) : s.loadSlot i second k w =
      if ((t.issueRead i k w).lane i.part i.lane).iss.fetched then (t.issueRead i k w).slotDone i (lSlot second)
      else t.issueRead i k w :=
  State.onSlot_acts hg hx hd

end

/-! ### MVT and the return of reads (R46, R60, R74, R97) -/

theorem State.moveSlots_fetched {t : State} {i : Issue} (w : DWord) (h : (t.lane i.part i.lane).iss.fetched = true) :
    ((t.moveSlots i w).lane i.part i.lane).iss.fetched = true := by
  unfold State.moveSlots
  dsimp only
  split
  · exact State.setAsw_fetched 32 h
  · exact h

section
variable {s : State} {id : Nat} {r : Read} (hr : s.fab.reads.find? (·.id == id) = some r)
include hr

/-- A read of the present step, or one behind a write of its lane to its lines, does not return yet (R64, R97). -/
theorem exec_scratchpadReadReturn_waits (h : (s.lane r.part r.lane).iss.rNew.contains id = true ∨ s.readTurn r = false) :
    exec (.scratchpadReadReturn id) s = .next s := by
  show execScratchpadReadReturn id s = _
  have hw : ((s.lane r.part r.lane).iss.rNew.contains id || !s.readTurn r) = true := by
    rw [Bool.or_eq_true, Bool.not_eq_true']
    exact h
  simp only [execScratchpadReadReturn, hr, hw, if_true]

/-- A read whose turn has come brings its units, behind the gather entries of its lines, and reports poison. -/
theorem exec_scratchpadReadReturn_lands (hn : (s.lane r.part r.lane).iss.rNew.contains id = false) (ht : s.readTurn r = true) :
    let u := s.flushRun r.part r.addr.toNat (r.kind.unit * r.count)
    let v := (List.range r.count).foldl (fun t k => t.landUnit r k) { u with fab.reads := u.fab.reads.filter (·.id != id) }
    exec (.scratchpadReadReturn id) s =
      .next (if u.anyPoison r.part r.addr.toNat (r.kind.unit * r.count) then v.setAsw r.part r.lane 32 else v) := by
  intro u v
  show execScratchpadReadReturn id s = _
  have hw : ((s.lane r.part r.lane).iss.rNew.contains id || !s.readTurn r) = false := by rw [hn, ht]; rfl
  simp only [execScratchpadReadReturn, hr, hw, Bool.false_eq_true, if_false]
  rfl

end

theorem exec_scratchpadReadReturn_none {s : State} {id : Nat} (hr : s.fab.reads.find? (·.id == id) = none) :
    exec (.scratchpadReadReturn id) s = .next s := by
  show execScratchpadReadReturn id s = _
  simp only [execScratchpadReadReturn, hr]

/-- Settles O13: a load is `State.issueRead` on a slot that acts, one equation per kind; the copies
of MVT keep the lane fetched; a returned read is one of the three cases above; a slot's bytes lie at cells of their own. -/
theorem tileLoads : Obligations.TileLoads := by
  refine ⟨fun i second w s t k c hl hc => ?loads, fun i second w s t hl hw => ?mvt,
    fun s id r hr => ⟨exec_scratchpadReadReturn_lands hr, exec_scratchpadReadReturn_waits hr⟩,
    fun s id hr => exec_scratchpadReadReturn_none hr, fun t k b bad h => t.readSlot_writeSlot k b bad h⟩
  case loads =>
    intro slot hg hx hd addr good id r units u x v
    have hf := State.gate_fetched hg
    rw [exec_load hl hc, State.loadSlot_acts hg hx hd]
    refine ⟨fun h hk => ?ldt, fun h hk => ?ldl, fun h hk => ?ldv, fun h => ?misplaced⟩
    case ldt =>
      subst hk
      rw [State.issueRead_ldt h]
      exact congrArg _ (if_pos hf)
    case ldl =>
      subst hk
      rw [State.issueRead_ldl h]
      exact congrArg _ (if_pos hf)
    case ldv =>
      subst hk
      rw [State.issueRead_ldv h]
      exact congrArg _ (if_pos (State.fetched_modLane _ _ _ _ hf))
    case misplaced =>
      rw [State.issueRead_misplaced h]
      rfl
  case mvt =>
    intro slot src hg hm hr u
    exact slotRes_done (by simp [hw, hl]) hg rfl (Bool.or_eq_false_iff.mpr ⟨hm, hr⟩)
      (State.moveSlots_fetched w (State.gate_fetched hg))

end Sys2Proof.Machine
end

section
/-! PROOF. Matrix operations: the issue of accumulator rows, their INT32 words, and their write (R44 to R46, R51, R56). -/

namespace Sys2Proof.Machine

/-! ### The issue (R46, R60) -/

/-- The flags enter the ASW of a lane that stays fetched, so the issue of a matrix operation goes on. -/
theorem State.issueMatrix_fetched {t : State} {i : Issue} (reads : List Nat × List Nat) (f : Tile → Nat → MRes) (n : Nat)
    (h : (t.lane i.part i.lane).iss.fetched = true) : ((t.issueMatrix i reads f n).lane i.part i.lane).iss.fetched = true :=
  State.setAsw_fetched _ h

/-! ### The rows of a direct operation in INT32 (R44, R51) -/

/-- Row `k` that an operation assembles, with its words column by column. -/
theorem buildRows_getElem? {fp : Bool} {rows : List Nat} {cell : Nat → Nat → Word × Nat} {poison : Bool} {k x : Nat}
    (h : rows[k]? = some x) : ∃ row, (buildRows fp rows cell poison).rows[k]? = some row ∧ row.row = x ∧ row.int32 = !fp ∧
      ∀ n < 16, row.words[n]? = some (cell x n).1 := by
  refine ⟨⟨x, (List.range 16).map fun n => (cell x n).1, !fp, poison⟩, ?_, rfl, rfl, fun n hn => ?_⟩
  · simp [buildRows, h, Function.comp_def]
  · simp [hn]

theorem run_getElem? {a n k : Nat} (h : k < n) : (run a n)[k]? = some (a + k) := by
  simp [run, h]

/-- Rows lie group after group: `j · rows + r` is row `r` of group `j`, of `ng` groups of `rows` rows. -/
theorem row_in_group {ng rows j r : Nat} (hj : j < ng) (hr : r < rows) :
    j * rows + r < ng * rows ∧ (j * rows + r) / rows = j ∧ (j * rows + r) % rows = r := by
  have h : 0 < rows := Nat.zero_lt_of_lt hr
  refine ⟨?_, ?_, ?_⟩
  · calc j * rows + r < (j + 1) * rows := by rw [Nat.succ_mul]; omega
      _ ≤ ng * rows := Nat.mul_le_mul_right rows hj
  · rw [Nat.mul_comm, Nat.mul_add_div h, Nat.div_eq_of_lt hr, Nat.add_zero]
  · rw [Nat.mul_comm, Nat.mul_add_mod, Nat.mod_eq_of_lt hr]

/-- The word of INT32 accumulation: the old word, or 0 at a start, plus the sum over the K-groups, modulo 2^32 (R51). -/
theorem Tile.direct_int32 (x : Tile) {o : MOp} (seed : Nat) {j r n : Nat} (ho : o.fp = false) (hj : j < o.ng) (hr : r < o.rows)
    (hn : n < 16) : ∃ row, (x.direct o seed).rows[j * o.rows + r]? = some row ∧ row.row = o.accBase + j * o.rows + r ∧
      row.int32 = true ∧ row.words[n]? = some (BitVec.ofInt 32 ((if o.start then 0 else (nth 0 (x.accNow row.row).1 n).toInt) +
        ((List.range o.kg).map fun g => intSum (rowElems o.afmt (o.afmt == 4) (x.actRow o (o.abase + g * o.astride) r).1)
          (rowElems o.wfmt o.w4 (x.wRow o (g * o.ng + j) n).1)).foldl (· + ·) 0)) := by
  obtain ⟨hlt, hdiv, hmod⟩ := row_in_group hj hr
  obtain ⟨row, hrow, hno, hint, hwords⟩ := buildRows_getElem? (run_getElem? hlt)
  refine ⟨row, hrow, by rw [hno, Nat.add_assoc], by rw [hint, ho]; rfl, (hwords n hn).trans ?_⟩
  simp [hno, hdiv, hmod, ho, addInt, Nat.add_assoc]

/-- Settles O14: each operation is one `State.issueMatrix` on a slot that acts; `Tile.direct_int32` gives the words, and a row's
words lie at cells of their own. -/
theorem matrixOperations : Obligations.MatrixOperations := by
  refine ⟨fun i w s t hl hg => ?issue, fun x o seed j r n => x.direct_int32 seed, fun s p l => rfl,
    fun x r h => x.readAcc_writeAcc r h⟩
  case issue =>
    intro o tile seed done
    have issued := fun reads f n => State.issueMatrix_fetched (i := i) reads f n (State.gate_fetched hg)
    refine ⟨fun hw hm => ?matmul, fun hw hm => slotRes_done (by simp [hw, hl]) hg rfl hm (issued _ _ _)⟩
    case matmul =>
      have acts : exec (.matmul i w) s = _ := slotRes_done (by simp [hw, hl]) hg rfl hm (by
        split
        · exact issued _ _ _
        · split <;> exact issued _ _ _)
      rw [acts]
      refine ⟨fun ho => ?_, fun ho => ?_, fun ho => ?_⟩
      · rw [if_pos ho]
        rfl
      · rw [if_neg fun h => Nat.one_ne_zero (ho.symm.trans h), if_pos ho]
        rfl
      · rw [if_neg (Nat.ne_of_gt (Nat.lt_of_succ_lt ho)), if_neg (Nat.ne_of_gt ho)]
        rfl

end Sys2Proof.Machine
end

section
/-! PROOF. The V slot over one, two or three sources: one word and its flags for each of the 64 lanes (R37, R46, R58, R60). -/

namespace Sys2Proof.Machine

theorem State.vToReg_fetched {t : State} {i : Issue} (o : VOp) (words : List Word) (flags : Nat) (poison : Bool)
    (h : (t.lane i.part i.lane).iss.fetched = true) : ((t.vToReg i o words flags poison).lane i.part i.lane).iss.fetched = true :=
  State.setAsw_fetched _ (State.fetched_modLane (t.supersede i.part i.lane [o.vd]) _ _ _ h)

theorem vRes_of_ok {op : Nat} {mn : String} {i : Issue} {o : VOp} {s : State} (ho : o.op = op) (hl : i.lane ≠ 255) :
    vRes op mn i o s = .next s :=
  slotRes_of_ok (by simp [ho, hl])

/-- The result of an operation over `n` sources, lane by lane: `f` of the lane's number and of the lane's sources. -/
def State.vLanes (t : State) (i : Issue) (o : VOp) (n : Nat) (f : Nat → Word → Word → Word → Word × Nat) : List (Word × Nat) :=
  (List.range 64).map fun k =>
    f k (nth 0 (t.vSources i o n false).a k) (nth 0 (t.vSources i o n false).b k) (nth 0 (t.vSources i o n false).c k)

/-- The state with such a result on its way to VD, and 128 free values passed. -/
def State.vMapped (t : State) (i : Issue) (o : VOp) (n : Nat) (f : Nat → Word → Word → Word → Word × Nat) : State :=
  ({ t with clk.free := t.clk.free + 128 } : State).vToReg i o ((t.vLanes i o n f).map Prod.fst)
    ((t.vLanes i o n f).foldl (fun a x => a ||| x.2) 0) (t.vSources i o n false).poison

theorem State.vMapped_fetched {t : State} {i : Issue} (o : VOp) (n : Nat) (f : Nat → Word → Word → Word → Word × Nat)
    (h : (t.lane i.part i.lane).iss.fetched = true) : ((t.vMapped i o n f).lane i.part i.lane).iss.fetched = true :=
  State.vToReg_fetched (t := { t with clk.free := t.clk.free + 128 }) o _ _ _ h

section
variable {s t : State} {i : Issue} {o : VOp} {op n : Nat} {mn : String} {f : Nat → Word → Word → Word → Word × Nat}
  (hl : i.lane ≠ 255) (hg : s.gate i 4 = .go t) (ho : o.op = op)
include hl hg ho

/-- A V slot that is not held, and whose action keeps the lane fetched, is done. -/
theorem vRes_done {busy : State → Bool} {act : State → State} (hb : busy t = false)
    (hf : (t.lane i.part i.lane).iss.fetched = true → ((act t).lane i.part i.lane).iss.fetched = true) :
    vRes op mn i o (s.onSlot i 4 [] busy act) = .next ((act t).slotDone i 4) := by
  rw [vRes_of_ok ho hl, State.onSlot_go hg rfl hb (hf (State.gate_fetched hg))]

/-- An operation in lanes acts once no register or memory it reads or writes has a write in flight (R46). -/
theorem vRes_vMap (hh : t.vHeld i o n false = false) :
    vRes op mn i o (s.vMap i o n f) = .next ((t.vMapped i o n fun k => f (t.clk.free + k)).slotDone i 4) :=
  vRes_done (act := fun t => t.vMapped i o n fun k => f (t.clk.free + k)) hl hg ho hh (State.vMapped_fetched _ _ _)

end

/-- Settles O15: every operation but V_NOP is `State.vMap` of its function of a lane, on a slot that acts. -/
theorem vectorArithmetic : Obligations.VectorArithmetic := by
  intro i w s t hl hg o ok seed done fp elem
  refine ⟨fun ho => vRes_done (act := id) hl hg ho rfl id, vRes_vMap hl hg, vRes_vMap hl hg, vRes_vMap hl hg,
    vRes_vMap hl hg, vRes_vMap hl hg, vRes_vMap hl hg, vRes_vMap hl hg, vRes_vMap hl hg, vRes_vMap hl hg, fun ho hh => ?logic,
    vRes_vMap hl hg, vRes_vMap hl hg, vRes_vMap hl hg⟩
  case logic =>
    have acts : exec (.vLogic i w) s =
        .next ((t.vMapped i o 2 fun k a b _ => (vLogic (o.imm.toNat % 4) (seed + k) a b, 0)).slotDone i 4) :=
      vRes_vMap hl hg ho hh
    rw [acts]
    refine ⟨fun hi => ?_, fun hi => ?_, fun hi => ?_⟩
    all_goals
      rw [hi]
      rfl

end Sys2Proof.Machine
end

section
/-! PROOF. The functions, reductions and stores of the V slot, and the return of vector results (R46, R53, R58, R59). -/

namespace Sys2Proof.Machine

/-! ### Results to memory, and across the lanes -/

theorem State.vToMem_fetched {t : State} {i : Issue} (o : VOp) (pieces : List (Nat × List Byte)) (flags : Nat) (poison : Bool)
    (h : (t.lane i.part i.lane).iss.fetched = true) : ((t.vToMem i o pieces flags poison).lane i.part i.lane).iss.fetched = true := by
  refine State.setAsw_fetched _ (State.fetched_modLane _ _ _ _ ?_)
  dsimp only
  split <;> exact h

/-- The state with a cross-lane result on its way to lane 0 of VD, the other lanes left open (log entry 27). -/
def State.vReduced (t : State) (i : Issue) (o : VOp) (r : Nat × Nat) : State :=
  ({ t with clk.free := t.clk.free + 128 } : State).vToReg i o (vLane o.ty t.clk.free r.1 ::
    (List.range 63).map fun k => (BitVec.ofNat 32 (Config.freeWord (t.clk.free + 1 + k)).toNat : Word)) r.2
    (t.vSources i o 1 false).poison

theorem State.vReduced_fetched {t : State} {i : Issue} (o : VOp) (r : Nat × Nat) (h : (t.lane i.part i.lane).iss.fetched = true) :
    ((t.vReduced i o r).lane i.part i.lane).iss.fetched = true :=
  State.vToReg_fetched (t := { t with clk.free := t.clk.free + 128 }) o _ _ _ h

/-- A reduction that acts sends out what its function makes of the 64 lanes. -/
theorem vRes_vReduce {s t : State} {i : Issue} {w : BitVec 96} {op : Nat} {mn : String} {f : VOp → Nat → List Word → Nat × Nat}
    (hl : i.lane ≠ 255) (hg : s.gate i 4 = .go t) (ho : (vDecode w).op = op) (hh : t.vHeld i (vDecode w) 1 false = false) :
    vRes op mn i (vDecode w) (s.vReduce i w f) = .next ((t.vReduced i (vDecode w)
      (f (vDecode w) (t.clk.free + 64) (t.vSources i (vDecode w) 1 false).a)).slotDone i 4) :=
  vRes_done (act := fun t => t.vReduced i (vDecode w) (f (vDecode w) (t.clk.free + 64) (t.vSources i (vDecode w) 1 false).a))
    hl hg ho hh (State.vReduced_fetched _ _)

/-- What a QBLK that acts sends out: the quantised rows with their scale bytes, to the operand slot named; where none is
named, nothing is written (log entry 26). -/
def State.sendBlocks (t : State) (i : Issue) (o : VOp) : State :=
  let v := t.vSources i o 1 true
  let q := qblkPieces o t.clk.free v.a
  let t1 : State := { t with clk.free := t.clk.free + 128 }
  if o.memSel && o.kind == 1 then t1.vToMem i o q.1 q.2 v.poison else t1.setAsw i.part i.lane q.2

theorem State.sendBlocks_fetched {t : State} {i : Issue} (o : VOp) (h : (t.lane i.part i.lane).iss.fetched = true) :
    ((t.sendBlocks i o).lane i.part i.lane).iss.fetched = true := by
  unfold State.sendBlocks
  dsimp only
  split
  · exact State.vToMem_fetched _ _ _ _ h
  · exact State.setAsw_fetched _ h

/-- What a VST that acts sends out: the register's 64 words, to the tile memory named. -/
def State.storeWords (t : State) (i : Issue) (o : VOp) : State :=
  let v := t.vSources i o 1 true
  if o.memSel then t.vToMem i o [(0, wordBytes v.a)] 0 v.poison else t

theorem State.storeWords_fetched {t : State} {i : Issue} (o : VOp) (h : (t.lane i.part i.lane).iss.fetched = true) :
    ((t.storeWords i o).lane i.part i.lane).iss.fetched = true := by
  unfold State.storeWords
  split
  · exact State.vToMem_fetched _ _ _ _ h
  · exact h

/-! ### CVT -/

/-- An element in the low `w` bits of a 32-bit lane is read back, whatever stands above it. -/
theorem lane_low_bits {w : Nat} (hw : w ≤ 32) (v a : Nat) :
    (BitVec.ofNat 32 (v % 2 ^ w ||| a / 2 ^ w * 2 ^ w)).toNat % 2 ^ w = v % 2 ^ w := by
  rw [BitVec.toNat_ofNat, Nat.mod_mod_of_dvd _ (Nat.pow_dvd_pow 2 hw), Nat.or_mod_two_pow, Nat.mul_mod_left, Nat.or_zero,
    Nat.mod_mod]

/-- A lane of CVT: the converted element in its low bits, what stands above a narrow one left open (log entry 25). -/
def cvtLane (o : VOp) (seed : Nat) (a : Word) : Word × Nat :=
  let r := convert o.rnd o.tgt (seed + 64) (vVal o.ty a)
  (BitVec.ofNat 32 (r.1 % 2 ^ tgtWidth o.tgt ||| (Config.freeWord seed).toNat % 2 ^ 32 / 2 ^ tgtWidth o.tgt * 2 ^ tgtWidth o.tgt),
    r.2)

theorem tgtWidth_le (tgt : Nat) : tgtWidth tgt ≤ 32 := by
  unfold tgtWidth
  split
  · decide
  · split
    · decide
    · split <;> decide

/-! ### The return of results -/

theorem exec_vectorResultReady_reg {s : State} {p l d : Nat} {ws : List Word} {bad : Bool} {rest : List VecRes}
    (h : (s.lane p l).iss.vPend = .reg d ws bad :: rest) :
    exec (.vectorResultReady p l) s = .next ((s.modLane p l fun x => { x with iss.vPend := rest }).modLane p l fun x =>
      { x with arch := x.arch.writeV d ws bad }) := by
  show execVectorResultReady p l s = _
  simp only [execVectorResultReady, h]

theorem exec_vectorResultReady_mem {s : State} {p l kind idx : Nat} {ps : List (Nat × List Byte)} {bad i32 : Bool}
    {rest : List VecRes} (h : (s.lane p l).iss.vPend = .mem kind idx ps bad i32 :: rest) :
    exec (.vectorResultReady p l) s = .next ((s.modLane p l fun x => { x with iss.vPend := rest }).modTileAt p l fun t =>
      t.vWrite kind idx ps bad i32) := by
  show execVectorResultReady p l s = _
  simp only [execVectorResultReady, h]

/-- Settles O16: the functions and CVT are `State.vMap`, the reductions `State.vReduce`, and the rest one operation to memory, on
a slot that acts; the special operands evaluate, and a register's words lie at cells of their own. -/
theorem vectorFunctions : Obligations.VectorFunctions := by
  refine ⟨fun i w s t hl hg => ?slots,
    fun s p l rest => ⟨fun d ws bad => exec_vectorResultReady_reg, fun kind idx ps bad i32 => exec_vectorResultReady_mem⟩,
    fun seed => ⟨rfl, rfl, rfl, rfl, rfl⟩, fun a d ws bad h => a.readV_writeV d ws bad h⟩
  intro o seed t1 v st done reduced
  refine ⟨fun hh => ?lanes, fun hh => ?stores⟩
  case lanes =>
    exact ⟨fun ho => vRes_vMap hl hg ho hh, fun ho => vRes_vMap hl hg ho hh, fun ho => vRes_vMap hl hg ho hh,
      fun ho => vRes_vMap hl hg ho hh,
      fun ho => ⟨fun k => cvtLane o (seed + k), vRes_vMap (f := fun k a _ _ => cvtLane o k a) hl hg ho hh,
        fun k a => ⟨lane_low_bits (tgtWidth_le _) _ _, rfl⟩⟩,
      fun ho => vRes_vReduce hl hg ho hh, fun ho => vRes_vReduce hl hg ho hh⟩
  case stores =>
    have blocks : o.op = 19 → exec (.qblk i w) s = .next ((t.sendBlocks i o).slotDone i 4) := fun ho =>
      vRes_done (act := fun t => t.sendBlocks i o) hl hg ho hh (State.sendBlocks_fetched o)
    have words : o.op = 23 → exec (.vst i w) s = .next ((t.storeWords i o).slotDone i 4) := fun ho =>
      vRes_done (act := fun t => t.storeWords i o) hl hg ho hh (State.storeWords_fetched o)
    refine ⟨fun ho hm hk => ?_, fun ho hm => ?_, fun ho hm => ?_, fun ho hm => ?_⟩
    · rw [blocks ho, State.sendBlocks, if_pos (by simp [hm, hk])]
    · rw [blocks ho, State.sendBlocks, if_neg (by simpa using hm)]
    · rw [words ho, State.storeWords, if_pos hm]
    · rw [words ho, State.storeWords, if_neg (by simp [hm])]

end Sys2Proof.Machine
end

section
/-! PROOF. When a slot acts, and what holds its lane (R64, R66, R67, R73, R80, R414). -/

namespace Sys2Proof.Machine

section
variable {s : State} {i : Issue} {slot : Nat} {e : Bool}

/-! ### The gate of a slot -/

theorem State.gate_idle (h : s.laneOn i.part i.lane = false ∨ i.next (s.lane i.part i.lane).iss.done slot = false) :
    s.gate i slot e = .idle := by
  unfold State.gate
  exact if_pos (by simpa using h)

section
variable (hon : s.laneOn i.part i.lane = true) (hn : i.next (s.lane i.part i.lane).iss.done slot = true)
include hon hn

theorem State.gate_unfetched (hf : (s.lane i.part i.lane).iss.fetched = false) :
    s.gate i slot e = .held (s.countFetch i.part i.lane) := by
  simp [State.gate, hon, hn, hf]

/-- A slot after the issue's first has no gate of its own. -/
theorem State.gate_later (hf : (s.lane i.part i.lane).iss.fetched = true) (hd : (s.lane i.part i.lane).iss.done ≠ 0) :
    s.gate i slot e = .go s := by
  simp [State.gate, hon, hn, hf, hd]

/-- The first slot of an issue stands at the step boundary. -/
theorem State.gate_first (hf : (s.lane i.part i.lane).iss.fetched = true) (hd : (s.lane i.part i.lane).iss.done = 0) :
    s.gate i slot e = s.boundary i e := by
  have hn0 : i.next 0 slot = true := hd ▸ hn
  simp [State.gate, hon, hn0, hf, hd]
end

/-! ### The step boundary -/

theorem State.boundary_stops (h : s.mustStop i e = true) : s.boundary i e = .idle := by
  simp [State.boundary, h]

theorem State.boundary_opens (h : s.mustStop i e = false) (hw : s.waits i = false) : s.boundary i e = s.openStep i := by
  simp [State.boundary, h, hw]

section
variable (h : s.mustStop i e = false) (hw : s.waits i = true)
include h hw

theorem State.boundary_poisoned (hb : s.waitBad i = true) :
    s.boundary i e = .held (s.endResident i.part stPoisonConsumed) := by
  simp [State.boundary, h, hw, hb]

theorem State.boundary_passes (hb : s.waitBad i = false) (hm : s.waitMet i = true) :
    s.boundary i e = (s.passWait i).openStep i := by
  simp [State.boundary, h, hw, hb, hm]

theorem State.boundary_holds (hb : s.waitBad i = false) (hm : s.waitMet i = false) :
    s.boundary i e = .held (s.holdWait i) := by
  simp [State.boundary, h, hw, hb, hm]
end

/-! ### A cycle held by a wait (R77, R227) -/

/-- It counts on the lane's wait counter and touches no token counter. -/
theorem State.holdWait_counts (hf : (s.lane i.part i.lane).iss.fetched = true) :
    ((s.holdWait i).lane i.part i.lane).arch.cnt.wait = (s.lane i.part i.lane).arch.cnt.wait + 1 ∧ (s.holdWait i).tok = s.tok := by
  have hc : (s.countWait i.part i.lane).lane i.part i.lane = { s.lane i.part i.lane with
      arch.cnt.wait := (s.lane i.part i.lane).arch.cnt.wait + 1 } :=
    State.lane_modLane s _ _ _ (Lane.ne_of_fetched hf)
  unfold State.holdWait
  dsimp only
  split
  · refine ⟨?_, rfl⟩
    rw [State.lane_modLane _ _ _ _ (Lane.ne_of_fetched (by rw [hc]; exact hf)), hc]
  · exact ⟨by rw [hc], rfl⟩
end

/-- Settles O7: the gate of a slot by its turn, its code and its place in the issue, and at the first slot the step boundary by
its wait. -/
theorem laneWordGate : Obligations.LaneWordGate := by
  intro s i slot isEnd l counts opens
  refine ⟨State.gate_idle, fun hon hn => ⟨State.gate_unfetched hon hn, State.gate_later hon hn, fun hf hd => ?first⟩⟩
  case first =>
    rw [State.gate_first hon hn hf hd]
    refine ⟨State.boundary_stops, State.boundary_opens, State.boundary_poisoned, fun hs hw hb => ⟨State.boundary_passes hs hw hb,
      fun hm => ⟨s.holdWait i, State.boundary_holds hs hw hb hm, ?_⟩⟩⟩
    exact State.holdWait_counts hf

end Sys2Proof.Machine
end

section
/-! PROOF. Two-source instructions of the S slot (R64, R67, R74). -/

namespace Sys2Proof.Machine

section
variable {s t : State} {i : Issue} {w : DWord} {ok : Bool} {mn : String} (hok : ok = true) (hg : s.gate i 0 = .go t)
include hok hg

/-- RD takes the result of the operands as they stood before the step. -/
theorem sBinary_done {op : Nat} (ho : sOp w = op) (hx : t.xHeld i (sRd w :: sRs1 w :: src2Regs w) = false) :
    slotRes ok mn (s.sBinary i w) =
      .next ((t.setX i (sRd w) (sResult op (t.lx i (sRs1 w)) (t.src2 i w))).slotDone i 0) := by
  subst ho
  exact slotRes_done hok hg hx rfl (State.setX_fetched _ _ (State.gate_fetched hg))

theorem sBinary_held (hx : t.xHeld i (sRd w :: sRs1 w :: src2Regs w) = true) :
    slotRes ok mn (s.sBinary i w) = .next (t.countInterlock i.part i.lane) :=
  slotRes_held hok hg hx
end

theorem sResult_signed (a b : DWord) : sResult 10 a b = if a.toInt < b.toInt then 1 else 0 := by
  simp [sResult, BitVec.slt]

theorem sResult_unsigned (a b : DWord) : sResult 11 a b = if a.toNat < b.toNat then 1 else 0 := by
  simp [sResult, BitVec.ult]

/-- Settles O8: each instruction is `State.sBinary` on a slot that acts or is held; the compares read `slt` and `ult` as orders. -/
theorem scalarArithmetic : Obligations.ScalarArithmetic := by
  intro i w s t hg a b held done wait
  refine ⟨fun hx => ?acts, fun hx => ?held⟩
  case acts =>
    have acts : ∀ op {ok mn}, sOp w = op → ok = true → slotRes ok mn (s.sBinary i w) = done (sResult op a b) :=
      fun op ok mn ho hok => sBinary_done hok hg ho hx
    refine ⟨fun ho => acts 1 ho ?_, fun ho => acts 2 ho ?_, fun ho => acts 3 ho ?_, fun ho => acts 4 ho ?_, fun ho => acts 5 ho ?_,
      fun ho => acts 6 ho ?_, fun ho => acts 7 ho ?_, fun ho => acts 8 ho ?_, fun ho => acts 9 ho ?_,
      fun ho => (acts 10 ho ?_).trans (by rw [sResult_signed]), fun ho => (acts 11 ho ?_).trans (by rw [sResult_unsigned]),
      fun ho => acts 12 ho ?_⟩
    all_goals simp [ho]
  case held =>
    refine ⟨fun ho => ?_, fun ho => ?_, fun ho => ?_, fun ho => ?_⟩
    all_goals exact sBinary_held (by simp [ho]) hg hx

end Sys2Proof.Machine
end

section
/-! PROOF. Where the lane goes: branches, loops, END, and the last slot of a lane word (R66, R69, R74, R79). -/

namespace Sys2Proof.Machine

/-! ### The updates of a running lane -/

/-- A lane that is released, stopped or ended is not the empty lane. -/
theorem Lane.ne_of_run {v : Lane} (h : v.run ≠ .idle) : v ≠ {} := by
  intro e
  rw [e] at h
  exact h rfl

theorem Lane.ne_of_running {v : Lane} (h : v.run = .running) : v ≠ {} :=
  Lane.ne_of_run (by simp [h])

/-- An update of a lane to anything but an idle, empty one changes the partition's lanes alone. -/
theorem State.part_setLane (s : State) (p l : Nat) {v : Lane} (h : v ≠ {}) :
    (s.setLane p l v).part p = { s.part p with lanes := Map.set {} (s.part p).lanes l v } :=
  Map.get_set_of_ne s.parts p fun e => Map.set_ne_nil _ l h (congrArg Part.lanes e)

theorem State.running_modLane {s : State} {p l : Nat} {f : Lane → Lane} (h : (f (s.lane p l)).run = .running) :
    ((s.modLane p l f).lane p l).run = .running := by
  rw [State.lane_modLane _ _ _ _ (Lane.ne_of_running h)]
  exact h

/-! ### Reading a lane's code -/

section
variable {s t : State} {p : Nat} (hr : (t.part p).regions = (s.part p).regions) (hs : t.sp = s.sp)
include hr hs

theorem State.readBytes_congr : ∀ (n addr : Nat), t.readBytes p addr n = s.readBytes p addr n
  | 0, _ => rfl
  | n + 1, addr => by
    have line : (t.part p).line addr = (s.part p).line addr := by simp only [Part.line, Part.region, hr]
    simp only [State.readBytes, State.readByte, State.readLine, line, hs, State.readBytes_congr n]

theorem State.wordAddr_congr : ∀ (n addr : Nat), t.wordAddr p n addr = s.wordAddr p n addr
  | 0, _ => rfl
  | n + 1, addr => by simp only [State.wordAddr, State.readBytes_congr hr hs, State.wordAddr_congr n]
end

/-- The lane that knows whether the queue holds its lane word. -/
def State.refetched (s : State) (p l : Nat) : Lane := { s.lane p l with iss.fetched := s.queued p l }

/-- Whether a lane word is in the queue does not depend on what its answer was before. -/
theorem State.queued_refetch {s : State} {p l : Nat} (h : (s.lane p l).run = .running) :
    (s.refetch p l).queued p l = s.queued p l := by
  have hne : s.refetched p l ≠ {} := Lane.ne_of_running h
  have hp : (s.refetch p l).part p = { s.part p with lanes := Map.set {} (s.part p).lanes l (s.refetched p l) } :=
    State.part_setLane s p l hne
  have hl : (s.refetch p l).lane p l = s.refetched p l := State.lane_setLane s p l hne
  have hr : ((s.refetch p l).part p).regions = (s.part p).regions := by rw [hp]
  have hs : (s.refetch p l).sp = s.sp := rfl
  have he : (s.refetch p l).onEngines p = s.onEngines p := by
    simp only [State.onEngines, State.ctx, hp]
    rfl
  have place : (s.refetch p l).lanePlace p l = s.lanePlace p l := by
    simp only [State.lanePlace, he, hl, State.wordAddr_congr hr hs, State.refetched]
  simp only [State.queued, place, State.readBytes_congr hr hs, hl, State.refetched]

/-! ### The end of a lane word -/

/-- An ending lane stops (R79). -/
theorem State.endIssue_ends {s : State} {i : Issue} (hi : i.rep ≤ (s.lane i.part i.lane).iss.iter)
    (he : (s.lane i.part i.lane).iss.ending = true) : ((s.endIssue i).lane i.part i.lane).run = .ended := by
  unfold State.endIssue
  simp only [if_neg (Nat.not_lt.mpr hi), he, if_true]
  rw [State.lane_modLane _ _ _ _ (Lane.ne_of_run (by simp))]

/-- Loops armed at a branch keep the lane running. -/
theorem State.armEntered_running {s : State} {p l : Nat} (a b : Nat) (h : (s.lane p l).run = .running) :
    ((s.armEntered p l a b).lane p l).run = .running := by
  unfold State.armEntered
  split
  · exact h
  · refine List.foldlRecOn (motive := fun t : State => (t.lane p l).run = .running) _ _ h fun t ht x _ => ?_
    exact State.running_modLane ht

/-- A branching lane goes to the marked lane word, and may issue there if its queue holds it (R66, R74). -/
theorem State.endIssue_branches {s : State} {i : Issue} {n : Nat} (hi : i.rep ≤ (s.lane i.part i.lane).iss.iter)
    (hr : (s.lane i.part i.lane).run = .running) (he : (s.lane i.part i.lane).iss.ending = false)
    (ht : (s.lane i.part i.lane).iss.target = some n) :
    ((s.endIssue i).lane i.part i.lane).arch.pc = n ∧
      ((s.endIssue i).lane i.part i.lane).iss.fetched = (s.endIssue i).queued i.part i.lane := by
  unfold State.endIssue
  simp only [if_neg (Nat.not_lt.mpr hi), he, ht, Bool.false_eq_true, if_false]
  generalize hu : State.armEntered _ i.part i.lane _ n = u
  have hu : (u.lane i.part i.lane).run = .running := by
    rw [← hu]
    refine State.armEntered_running _ _ (State.running_modLane (f := fun x => { x with iss.iter := 0 }) ?_)
    exact State.running_modLane hr
  have hpc : (u.setPc i.part i.lane n).lane i.part i.lane = _ := State.lane_modLane _ _ _ _ (Lane.ne_of_running hu)
  generalize hv : u.setPc i.part i.lane n = v at hpc ⊢
  have hrun : (v.lane i.part i.lane).run = .running := by rw [hpc]; exact hu
  rw [State.queued_refetch hrun, State.refetch, State.lane_modLane _ _ _ _ (Lane.ne_of_running hrun)]
  exact ⟨by rw [hpc], rfl⟩

/-- The last slot of the mask ends the issue. -/
theorem State.slotDone_last {s : State} {i : Issue} {slot : Nat}
    (h : i.mask &&& ((s.lane i.part i.lane).iss.done ||| 2 ^ slot) = i.mask) : s.slotDone i slot = s.endIssue i :=
  if_pos h

/-! ### The instructions -/

theorem State.branchTo_fetched {t : State} {i : Issue} (w : DWord) (h : (t.lane i.part i.lane).iss.fetched = true) :
    ((t.branchTo i w).lane i.part i.lane).iss.fetched = true :=
  State.fetched_modLane _ _ _ _ h

theorem exec_brzBrnz_done {s t : State} {i : Issue} {w : DWord} (hg : s.gate i 0 = .go t) (hx : t.xHeld i [sRs1 w] = false)
    (hw : sOp w = 19 ∨ sOp w = 20) : exec (.brzBrnz i w) s =
      .next ((if (t.lx i (sRs1 w) == 0) == (sOp w == 19) then t.branchTo i w else t).slotDone i 0) :=
  slotRes_done (by simp [hw]) hg hx rfl (by
    have hf := State.gate_fetched hg
    split
    · exact State.branchTo_fetched w hf
    · exact hf)

/-- Settles O10: a branch is `State.branchTo` and a LOOP `State.setLoop` on a slot that acts; the last slot's issue ends by
`State.endIssue_ends` or `State.endIssue_branches`. -/
theorem laneSequence : Obligations.LaneSequence := by
  refine ⟨fun i w s t hg => ?steers, fun i w s t hg hw => ?ends, fun i slot u => ?last⟩
  case steers =>
    intro pc target done taken
    have hf := State.gate_fetched hg
    refine ⟨fun hw => ?_, fun hx => ⟨fun hw => ?_, fun hw => ?_⟩, fun hw => ?_⟩
    · exact slotRes_done (by simp [hw]) hg rfl rfl (State.branchTo_fetched w hf)
    · rw [exec_brzBrnz_done hg hx (.inl hw)]
      by_cases h0 : t.lx i (sRs1 w) = 0
      · rw [if_pos h0, if_pos (by simp [h0, hw])]
        rfl
      · rw [if_neg h0, if_neg (by simpa [hw] using h0)]
    · rw [exec_brzBrnz_done hg hx (.inr hw)]
      by_cases h0 : t.lx i (sRs1 w) = 0
      · rw [if_pos h0, if_neg (by simp [h0, hw])]
      · rw [if_neg h0, if_pos (by simpa [hw] using h0)]
        rfl
    · exact slotRes_done (by simp [hw]) hg rfl rfl (State.fetched_modLane _ _ _ _ hf)
  case ends =>
    exact slotRes_done (by simp [hw]) hg rfl rfl (State.fetched_modLane _ _ _ _ (State.gate_fetched hg))
  case last =>
    intro l hd hi hf hr
    rw [State.slotDone_last hd]
    exact ⟨State.endIssue_ends hi, fun n => State.endIssue_branches hi hr⟩

end Sys2Proof.Machine
end

section
/-! PROOF. Scalar loads and stores, the gather buffer they join, and the issue of an entry (R64, R74, R89, R97, R99, R414). -/

namespace Sys2Proof

/-- A list of writes reads back, at each of its keys, the value of its place (R87). -/
theorem Map.get_setList {α : Type} [DecidableEq α] {d : α} (l : List α) : ∀ {m : Map α}, Map.wf d m = true → ∀ k j,
    Map.get d (Map.setList d m k l) j = if k ≤ j ∧ j < k + l.length then nth d l (j - k) else Map.get d m j := by
  induction l with
  | nil =>
    intro m _ k j
    rw [if_neg fun ⟨hk, hj⟩ => Nat.not_lt.mpr hk hj]
    rfl
  | cons v l ih =>
    intro m w k j
    simp only [Map.setList, ih (Map.wf_set w k v), List.length_cons]
    obtain hj | rfl | hj := Nat.lt_trichotomy j k
    · rw [if_neg (by omega), if_neg (by omega), Map.get_set_ne _ _ (by omega)]
    · rw [if_neg (by omega), if_pos (by omega), Map.get_set_self w, Nat.sub_self]
      rfl
    · rw [Map.get_set_ne _ _ (by omega), show j - k = j - (k + 1) + 1 by omega]
      simp only [show k + 1 ≤ j ∧ j < k + 1 + l.length ↔ k ≤ j ∧ j < k + (l.length + 1) by omega]
      rfl

namespace Machine

/-- A state that shares another's partitions shares its lanes. -/
theorem State.lane_of_parts {s t : State} (h : t.parts = s.parts) (p l : Nat) : t.lane p l = s.lane p l := by
  rw [State.lane, State.part, h]
  rfl

@[simp] theorem length_leBytes : ∀ (n v : Nat), (leBytes n v).length = n
  | 0, _ => rfl
  | n + 1, v => by rw [leBytes, List.length_cons, length_leBytes n]

/-- Byte `k` of a little-endian number. -/
theorem nth_leBytes : ∀ (n v : Nat) {k : Nat}, k < n → nth 0 (leBytes n v) k = BitVec.ofNat 8 (v / 256 ^ k)
  | n + 1, v, 0, _ => by rw [Nat.pow_zero, Nat.div_one]; rfl
  | n + 1, v, k + 1, h => by
    rw [Nat.pow_succ', ← Nat.div_div_eq_div_mul]
    exact nth_leBytes n (v / 256) (Nat.lt_of_succ_lt_succ h)

/-! ### The gather buffer (R99) -/

section
variable {s : State} {ln : Nat} {a : GAccess}

theorem State.gather_joins (h : ∃ e ∈ s.gathered (ln / 8192 / 8), e.line = ln) : s.gather ln a =
    s.setGathered (ln / 8192 / 8) ((s.gathered (ln / 8192 / 8)).map fun e =>
      if e.line = ln then { e with accs := e.accs ++ [a] } else e) := by
  have hany : (s.gathered (ln / 8192 / 8)).any (·.line == ln) = true := by simpa using h
  simp [State.gather, hany]

theorem State.gather_opens (h : ∀ e ∈ s.gathered (ln / 8192 / 8), e.line ≠ ln) (hn : (s.gathered (ln / 8192 / 8)).length < 16) :
    s.gather ln a = s.setGathered (ln / 8192 / 8) (s.gathered (ln / 8192 / 8) ++ [⟨ln, [a]⟩]) := by
  have hany : (s.gathered (ln / 8192 / 8)).any (·.line == ln) = false := by simpa using h
  simp [State.gather, hany, hn]

/-- With 16 other entries open, the oldest issues first. -/
theorem State.gather_full {e : GEntry} {rest : List GEntry} (he : s.gathered (ln / 8192 / 8) = e :: rest)
    (h : ∀ e ∈ s.gathered (ln / 8192 / 8), e.line ≠ ln) (hn : 16 ≤ (s.gathered (ln / 8192 / 8)).length) : s.gather ln a =
      (s.flush e.line).setGathered (ln / 8192 / 8) ((s.flush e.line).gathered (ln / 8192 / 8) ++ [⟨ln, [a]⟩]) := by
  have hany : (s.gathered (ln / 8192 / 8)).any (·.line == ln) = false := by simpa using h
  have hlt : ¬ (s.gathered (ln / 8192 / 8)).length < 16 := Nat.not_lt.mpr hn
  rw [he] at hany hlt
  simp only [State.gather, he, hany, hlt, Bool.false_eq_true, if_false]

/-- An access for which there is room does not issue another entry, so no lane changes. -/
theorem State.parts_gather (h : (∃ e ∈ s.gathered (ln / 8192 / 8), e.line = ln) ∨ (s.gathered (ln / 8192 / 8)).length < 16) :
    (s.gather ln a).parts = s.parts := by
  by_cases hj : ∃ e ∈ s.gathered (ln / 8192 / 8), e.line = ln
  · rw [State.gather_joins hj]
    rfl
  · rw [State.gather_opens (fun e he hl => hj ⟨e, he, hl⟩) (h.resolve_left hj)]
    rfl

theorem State.lane_gather (h : (∃ e ∈ s.gathered (ln / 8192 / 8), e.line = ln) ∨ (s.gathered (ln / 8192 / 8)).length < 16)
    (p l : Nat) : (s.gather ln a).lane p l = s.lane p l :=
  State.lane_of_parts (State.parts_gather h) p l

theorem State.flush_open {e : GEntry} (h : (s.gathered (ln / 8192 / 8)).find? (·.line == ln) = some e) : s.flush ln =
    e.accs.foldl (fun t a => t.access ln a)
      (s.setGathered (ln / 8192 / 8) ((s.gathered (ln / 8192 / 8)).filter (·.line != ln))) := by
  simp [State.flush, h]

/-! ### One access to its line (R97, R414) -/

theorem State.access_store (h : a.store = true) : s.access ln a = s.writeLine ln a.off (leBytes a.width a.data.toNat) false := by
  simp [State.access, h]

theorem State.access_poisoned (h : a.store = false) (hp : s.linePoison ln = true) :
    s.access ln a = s.endResident a.part stPoisonConsumed := by
  simp [State.access, h, hp]

/-- A store writes its bytes at its place in the line, and no other byte. -/
theorem State.get_mem_access_store (h : a.store = true) (hb : (s.bank (ln / 8192)).state ≠ .fenced)
    (hw : Map.wf 0 s.sp.mem = true) (k : Nat) : Map.get 0 (s.access ln a).sp.mem k =
      if 64 * ln + a.off ≤ k ∧ k < 64 * ln + a.off + a.width
      then BitVec.ofNat 8 (a.data.toNat / 256 ^ (k - (64 * ln + a.off))) else Map.get 0 s.sp.mem k := by
  have hmem : (s.access ln a).sp.mem = Map.setList 0 s.sp.mem (64 * ln + a.off) (leBytes a.width a.data.toNat) := by
    rw [State.access_store h, State.writeLine, if_neg (by simpa using hb)]
  rw [hmem, Map.get_setList _ hw, length_leBytes]
  refine ite_congr rfl (fun hk => nth_leBytes _ _ (by omega)) fun _ => rfl

/-- A load gives a register that awaits it the bytes, sign-extended where asked. -/
theorem State.access_load (h : a.store = false) (hp : s.linePoison ln = false)
    (hf : (s.lane a.part a.lane).iss.fetched = true) (hw : Map.wf 0 (s.lane a.part a.lane).arch.x = true)
    (hx : (s.lane a.part a.lane).iss.xBusy.contains a.rd = true ∨ (s.lane a.part a.lane).iss.xNew.contains a.rd = true) :
    Map.get 0 ((s.access ln a).lane a.part a.lane).arch.x a.rd =
      if a.signed then BitVec.ofInt 64 (sext 32 (leNat a.width ((s.readLine ln).drop a.off)))
      else BitVec.ofNat 64 (leNat a.width ((s.readLine ln).drop a.off)) := by
  simp only [State.access, h, hp, Bool.false_eq_true, if_false]
  rw [State.lane_modLane _ _ _ _ (Lane.ne_of_fetched (by split; exact hf; split; exact hf; exact hf))]
  split
  · exact Map.get_set_self hw _ _
  next hn =>
    rw [if_pos (hx.resolve_right hn)]
    exact Map.get_set_self hw _ _
end

/-! ### The narrow access of SLD and SST (R74, R89) -/

section
variable {s : State} {i : Issue} {addr : Nat} {a : GAccess}

theorem State.narrow_placed (h : addr % a.width = 0) (hr : (s.part i.part).inRegion addr a.width = true) :
    s.narrow i addr a = s.gather ((s.part i.part).line addr) { a with off := addr % 64 } := by
  simp [State.narrow, h, hr]

theorem State.narrow_misplaced (h : addr % a.width ≠ 0 ∨ (s.part i.part).inRegion addr a.width = false) :
    s.narrow i addr a = s.addrFault i.part i.lane :=
  if_pos (by simpa using h)
end

section
variable {s : State} {p l : Nat} {f : Lane → Lane}

/-- An update of a lane to anything but an idle, empty one leaves the partition's regions where they are. -/
theorem State.inRegion_modLane (h : f (s.lane p l) ≠ {}) (addr n : Nat) :
    ((s.modLane p l f).part p).inRegion addr n = (s.part p).inRegion addr n := by
  rw [State.modLane, State.part_setLane s p l h]
  rfl

theorem State.line_modLane (h : f (s.lane p l) ≠ {}) (addr : Nat) :
    ((s.modLane p l f).part p).line addr = (s.part p).line addr := by
  rw [State.modLane, State.part_setLane s p l h]
  rfl
end

/-- A slot that is not held, and whose narrow access `t` leaves to `u`, is held to what the access comes to. -/
theorem slotRes_narrow {s t : State} {i : Issue} {rs : List Nat} {busy : State → Bool} {f : State → State} {mn : String}
    {ok : Bool} {u : State} {addr : Nat} {a : GAccess} (hok : ok = true) (hg : s.gate i 0 = .go t) (hx : t.xHeld i rs = false)
    (hb : busy t = false) (hf : f t = u.narrow i addr a) (hu : (u.lane i.part i.lane).iss.fetched = true) :
    let ln := (u.part i.part).line addr
    let room := (∃ e ∈ u.gathered (ln / 8192 / 8), e.line = ln) ∨ (u.gathered (ln / 8192 / 8)).length < 16
    let joined := u.gather ln { a with off := addr % 64 }
    let after := fun (v : State) =>
      (Host.Outcome.next (if (v.lane i.part i.lane).iss.fetched then v.slotDone i 0 else v) : Res)
    let r := slotRes ok mn (s.onSlot i 0 rs busy f)
    (addr % a.width = 0 → (u.part i.part).inRegion addr a.width = true → room → r = .next (joined.slotDone i 0)) ∧
    (addr % a.width = 0 → (u.part i.part).inRegion addr a.width = true → r = after joined) ∧
    ((addr % a.width ≠ 0 ∨ (u.part i.part).inRegion addr a.width = false) → r = after (u.addrFault i.part i.lane)) := by
  intro ln room joined after r
  have acts : r = after (u.narrow i addr a) := by
    rw [← hf]
    exact slotRes_acts hok hg hx hb
  refine ⟨fun h hr hroom => ?_, fun h hr => ?_, fun h => ?_⟩
  · have hlive : (joined.lane i.part i.lane).iss.fetched = true := by
      rw [State.lane_gather hroom]
      exact hu
    rw [acts, State.narrow_placed h hr]
    exact congrArg _ (if_pos hlive)
  · rw [acts, State.narrow_placed h hr]
  · rw [acts, State.narrow_misplaced h]

/-- Settles O12: SLD and SST are `State.narrow` on a slot that acts; the buffer takes an access in one of three ways; an entry
issues as its accesses in order, each a store or a load of its line. -/
theorem scalarMemory : Obligations.ScalarMemory := by
  refine ⟨fun i w s t hg => ?slots, fun s ln a => ⟨State.gather_joins, State.gather_opens, fun e rest => State.gather_full⟩,
    fun g ln s e he hgrp => ?issue, fun s ln a => State.get_mem_access_store,
    fun s ln a h => ⟨State.access_poisoned h, State.access_load h⟩⟩
  case slots =>
    intro n la sa q load la' sa' room after wait
    have hf := State.gate_fetched hg
    have hload : (load.lane i.part i.lane).iss.fetched = true := State.fetched_modLane _ _ _ _ hf
    have hne : ∀ {x : Lane}, x.iss.fetched = true → x ≠ {} := Lane.ne_of_fetched
    refine ⟨fun hw => ⟨fun hx hl => ?_, fun h => ?_⟩, fun hw => ⟨fun hx hl => ?_, fun h => ?_⟩⟩
    · have acts := slotRes_narrow (mn := "SLD") (f := fun t => t.scalarLoad i w)
        (busy := fun t => t.lineHeld i (t.lx i (sRs1 w) + sImmX w).toNat (sWidth w)) (u := load) (addr := la)
        (a := ⟨i.part, i.lane, false, 0, n, sRs2 w == 1, sRd w, 0⟩) (beq_iff_eq.mpr hw) hg hx hl rfl hload
      have hreg : ∀ m, (load.part i.part).inRegion la m = q.inRegion la m := State.inRegion_modLane (hne hf) la
      have hline : (load.part i.part).line la = q.line la := State.line_modLane (hne hf) la
      simp only [hreg, hline] at acts ⊢
      exact acts
    · exact (slotRes_of_ok (beq_iff_eq.mpr hw)).trans (congrArg _ (State.onSlot_held hg (Bool.or_eq_true_iff.mpr h)))
    · exact slotRes_narrow (f := fun t => t.scalarStore i w)
        (busy := fun t => t.lineHeld i (t.lx i (sRd w) + sImmX w).toNat (sWidth w)) (u := t) (addr := sa)
        (a := ⟨i.part, i.lane, true, 0, n, false, 0, t.lx i (sRs1 w)⟩) (beq_iff_eq.mpr hw) hg hx hl rfl hf
    · exact (slotRes_of_ok (beq_iff_eq.mpr hw)).trans (congrArg _ (State.onSlot_held hg (Bool.or_eq_true_iff.mpr h)))
  case issue =>
    subst hgrp
    have hany : (s.gathered (ln / 8192 / 8)).any (·.line == ln) = true :=
      List.any_eq_true.mpr ⟨e, List.mem_of_find?_eq_some he, List.find?_some (p := fun x : GEntry => x.line == ln) he⟩
    show execGatherEntryIssue _ ln s = _
    rw [execGatherEntryIssue, if_pos (by simp [hany]), State.flush_open he]

end Machine
end Sys2Proof
end

section
/-! PROOF. The tracked writes of the X and W slots (R74, R75, R97, R99, R113, R122, R125, R190, R414). -/

namespace Sys2Proof.Machine

/-! ### What a slot comes to, by the state its action leads to -/

section
variable {s t v : State} {i : Issue} {slot : Nat} {rs : List Nat} {busy : State → Bool} {f : State → State} {ok : Bool} {mn : String}

theorem slotRes_leads (hok : ok = true) (h : s.gate i slot = .go t) (hr : t.xHeld i rs = false) (hb : busy t = false) (hv : f t = v) :
    slotRes ok mn (s.onSlot i slot rs busy f) =
      .next (if (v.lane i.part i.lane).iss.fetched then v.slotDone i slot else v) := by
  subst hv
  exact slotRes_acts hok h hr hb

theorem slotRes_leads_done (hok : ok = true) (h : s.gate i slot = .go t) (hr : t.xHeld i rs = false) (hb : busy t = false)
    (hv : f t = v) (hf : (v.lane i.part i.lane).iss.fetched = true) :
    slotRes ok mn (s.onSlot i slot rs busy f) = .next (v.slotDone i slot) := by
  rw [slotRes_leads hok h hr hb hv, if_pos hf]
end

theorem State.ifLive_live {s : State} {i : Issue} {f : State → State} (h : (s.lane i.part i.lane).iss.fetched = true) :
    s.ifLive i f = f s :=
  if_pos h

theorem State.sawPoison_fetched {t : State} {i : Issue} (poison : List Bool) (h : (t.lane i.part i.lane).iss.fetched = true) :
    ((t.sawPoison i poison).lane i.part i.lane).iss.fetched = true := by
  unfold State.sawPoison
  split
  · exact State.setAsw_fetched 32 h
  · exact h

/-! ### Issuing a write (R113, R125, R136) -/

theorem State.sendFrame_parts_sp (s : State) (h ty : Nat) (f : RxFrame) :
    (s.sendFrame h ty f).parts = s.parts ∧ (s.sendFrame h ty f).sp = s.sp := by
  unfold State.sendFrame
  dsimp only
  split
  · exact ⟨rfl, rfl⟩
  · exact ⟨rfl, rfl⟩

theorem State.sendRemote_parts_sp (s : State) (id : Nat) (w : Write) :
    (s.sendRemote id w).parts = s.parts ∧ (s.sendRemote id w).sp = s.sp := by
  unfold State.sendRemote
  split
  · exact ⟨rfl, rfl⟩
  · split
    · exact ⟨rfl, rfl⟩
    · split
      · split
        · exact ⟨rfl, rfl⟩
        · split
          · refine List.foldlRecOn (motive := fun t : State => t.parts = s.parts ∧ t.sp = s.sp) _ _ ⟨rfl, rfl⟩ fun t ht f _ => ?_
            obtain ⟨hp, hs⟩ := State.sendFrame_parts_sp t _ f.1 f.2
            exact ⟨hp.trans ht.1, hs.trans ht.2⟩
          · exact ⟨rfl, rfl⟩
      · exact ⟨rfl, rfl⟩

/-- Issuing a write changes no partition, so no lane, and nothing of the scratchpad. -/
theorem State.issueWrite_parts_sp (s : State) (w : Write) :
    (s.issueWrite w).2.parts = s.parts ∧ (s.issueWrite w).2.sp = s.sp := by
  unfold State.issueWrite
  dsimp only
  split
  · exact ⟨rfl, rfl⟩
  · split
    · exact ⟨rfl, rfl⟩
    · exact State.sendRemote_parts_sp _ _ _

theorem State.lane_issueWrite (s : State) (w : Write) (p l : Nat) : (s.issueWrite w).2.lane p l = s.lane p l :=
  State.lane_of_parts (State.issueWrite_parts_sp s w).1 p l

/-- A write through a handle of this device stands in the tracker, and only the next number changes. -/
theorem State.issueWrite_own {s : State} {w : Write} (hr : hReserved w.handle = 0) (ho : s.isOwn (hDevice w.handle) = true) :
    (s.issueWrite w).2 =
      { s with clk.nextId := s.clk.nextId + 1, fab.writes := s.fab.writes ++ [{ w with id := s.clk.nextId }] } := by
  simp [State.issueWrite, hr, ho]
  rfl

/-! ### Gather entries of a source's lines (R99) -/

theorem State.flush_closed {s : State} (h : ∀ g, s.gathered g = []) (ln : Nat) : s.flush ln = s := by
  simp [State.flush, h]

theorem State.flushRun_closed {s : State} (h : ∀ g, s.gathered g = []) (p a n : Nat) : s.flushRun p a n = s := by
  refine List.foldlRecOn (motive := fun t : State => t = s) _ _ rfl fun t ht k _ => ?_
  subst ht
  dsimp only
  split
  · exact State.flush_closed h _
  · rfl

theorem State.xFlush_of_tile {s : State} {w : DWord} (i : Issue) (h : xKind w ≠ 3) : s.xFlush i w = s :=
  if_neg h

/-! ### PUT, SIGNAL and HALO -/

section
variable {t : State} {i : Issue} {w : DWord} {data : List Byte} {poison : List Bool}

/-- The write of a PUT, from the state in which its source's gather entries have issued. -/
def State.putWrite (u : State) (i : Issue) (w : DWord) (data : List Byte) (poison : List Bool) : Write :=
  { id := 0, src := .lane i.part i.lane, op := .put, part := i.part, handle := u.lx i (xHreg w),
    off := (u.lx i (xOreg w)).toNat, data := data, poison := poison, tctr := xTctr w, tamt := xTamt w }

/-- The write of a HALO under its number. -/
def State.haloWrite (u : State) (i : Issue) (w : DWord) (data : List Byte) (poison : List Bool) : Write :=
  { id := (u.sawPoison i poison).clk.nextId, src := .lane i.part i.lane, op := .halo, part := i.part,
    dst := (u.lx i (xHreg w)).toNat, off := (u.lx i (xOreg w)).toNat, data := data, poison := poison,
    tctr := u.tokBase i.part (u.lx i (xHreg w)).toNat + xTctr w, tamt := xTamt w }

/-- Whether a HALO's lane is one of the image's and its units lie in the line buffer (R74). -/
def State.haloPlaced (u : State) (i : Issue) (w : DWord) : Prop :=
  (u.lx i (xHreg w)).toNat < ((u.onEngines i.part).image.map (·.needs.lanes)).getD 0 ∧
    (u.lx i (xOreg w)).toNat + xLen w ≤ 1024

section
variable (hu : ((t.xFlush i w).lane i.part i.lane).iss.fetched = true)
include hu

theorem State.issuePut_sent (hs : (t.xFlush i w).xSource i w = some (data, poison))
    (ho : ((t.xFlush i w).lx i (xOreg w)).toNat % 64 = 0) : t.issuePut i w =
      (((t.xFlush i w).sawPoison i poison).issueWrite ((t.xFlush i w).putWrite i w data poison)).2 := by
  rw [State.issuePut, State.ifLive_live hu]
  simp [hs, ho, State.putWrite]

theorem State.issuePut_misplaced (h : (t.xFlush i w).xSource i w = none ∨ ((t.xFlush i w).lx i (xOreg w)).toNat % 64 ≠ 0) :
    t.issuePut i w = (t.xFlush i w).addrFault i.part i.lane := by
  rw [State.issuePut, State.ifLive_live hu]
  dsimp only
  split
  · rfl
  next hs => exact if_pos (by simpa [hs] using h)

theorem State.issueHalo_sent (hs : (t.xFlush i w).xSource i w = some (data, poison)) (hp : (t.xFlush i w).haloPlaced i w) :
    t.issueHalo i w = ((t.xFlush i w).sawPoison i poison).newId.2.addWrite ((t.xFlush i w).haloWrite i w data poison) := by
  rw [State.issueHalo, State.ifLive_live hu]
  simp only [hs]
  refine if_neg ?_
  simpa [State.haloPlaced] using hp

theorem State.issueHalo_misplaced (h : (t.xFlush i w).xSource i w = none ∨ ¬ (t.xFlush i w).haloPlaced i w) :
    t.issueHalo i w = (t.xFlush i w).addrFault i.part i.lane := by
  rw [State.issueHalo, State.ifLive_live hu]
  dsimp only
  split
  · rfl
  next hs =>
    refine if_pos ?_
    have hn := h.resolve_left (by simp [hs])
    rw [State.haloPlaced, Classical.not_and_iff_not_or_not, Nat.not_lt, Nat.not_le] at hn
    rw [Bool.or_eq_true, decide_eq_true_eq, decide_eq_true_eq]
    exact hn
end
end

/-! ### WB, WBW and the record post -/

section
variable {t : State} {i : Issue} {o : WOpd}

theorem State.wData_fetched (o : WOpd) (h : (t.lane i.part i.lane).iss.fetched = true) :
    ((t.wData i o).2.2.lane i.part i.lane).iss.fetched = true := by
  unfold State.wData
  split
  · exact State.sawPoison_fetched _ h
  · exact State.sawPoison_fetched _ (State.setAsw_fetched (s := (t.take (16 * o.pixels)).2) _ h)

/-- The write of a WB under its number. -/
def State.wbWrite (t : State) (i : Issue) (o : WOpd) : Write :=
  { id := (t.wData i o).2.2.clk.nextId, src := .lane i.part i.lane, op := .wb, part := i.part, dst := (t.lx i o.dreg).toNat,
    data := (t.wData i o).1, poison := (t.wData i o).2.1, tctr := t.tokBase i.part i.lane + o.tctr, tamt := o.tamt }

/-- The write of a WBW. -/
def State.wbwWrite (t : State) (i : Issue) (o : WOpd) : Write :=
  { id := 0, src := .lane i.part i.lane, op := .wbw, part := i.part, handle := t.lx i (16 + o.dreg),
    off := (t.lx i (16 + o.oreg)).toNat, data := (t.wData i o).1, poison := (t.wData i o).2.1, tctr := o.tctr, tamt := o.tamt }

theorem State.issueWb_sent (ha : (t.lx i o.dreg).toNat % 64 = 0)
    (hr : (t.part i.part).inRegion (t.lx i o.dreg).toNat (t.wData i o).1.length = true) :
    t.issueWb i o = (t.wData i o).2.2.newId.2.addWrite (t.wbWrite i o) := by
  simp only [State.issueWb]
  exact if_neg (by simp [ha, hr])

theorem State.issueWb_misplaced (h : ¬ ((t.lx i o.dreg).toNat % 64 = 0 ∧
    (t.part i.part).inRegion (t.lx i o.dreg).toNat (t.wData i o).1.length = true)) :
    t.issueWb i o = t.addrFault i.part i.lane := by
  simp only [State.issueWb]
  refine if_pos ?_
  rw [Classical.not_and_iff_not_or_not, Bool.not_eq_true] at h
  rw [Bool.or_eq_true, bne_iff_ne, Bool.not_eq_true']
  exact h

theorem State.issueWbw_sent (h : (t.lx i (16 + o.oreg)).toNat % 64 = 0) :
    t.issueWbw i o = ((t.wData i o).2.2.issueWrite (t.wbwWrite i o)).2 :=
  if_neg (by simp [h])

theorem State.issueWbw_misplaced (h : (t.lx i (16 + o.oreg)).toNat % 64 ≠ 0) : t.issueWbw i o = t.addrFault i.part i.lane :=
  if_pos (by simpa using h)
end

section
variable {t : State} {i : Issue} {w : DWord}

/-- The address of the shared lane's record (R75). -/
def State.recordAddr (t : State) (i : Issue) (w : DWord) : Nat := (t.lx i (bits w.toNat 59 56)).toNat

/-- The units of that record. -/
def recordUnits (w : DWord) : Nat := bits w.toNat 35 28 + 1

/-- Whether the record's units are aligned and lie in a region. -/
def State.recordPlaced (u : State) (i : Issue) (a n : Nat) : Prop :=
  a % 64 = 0 ∧ (u.part i.part).inRegion a (64 * n) = true

/-- The post behind the write of a record, which holds the lane's own increment. -/
def State.recordPost (u : State) (i : Issue) (w : DWord) : Post :=
  { id := u.clk.nextId, queue := .record, part := i.part, tctr := u.tokBase i.part 255 + bits w.toNat 51 44,
    tamt := bits w.toNat 43 36, ctx := ((u.part i.part).running).getD 0 }

/-- The write of a record of `n` units at `a`. -/
def State.recordWrite (u : State) (i : Issue) (w : DWord) (a n : Nat) : Write :=
  { id := 0, src := .post i.part u.clk.nextId, op := .record, part := i.part, handle := u.lx i (16 + bits w.toNat 55 52),
    data := (u.readLines i.part a n).flatMap Prod.fst, poison := (u.readLines i.part a n).map Prod.snd, tctr := 0, tamt := 1 }

/-- The state with the post of a record in its queue. -/
def State.postRecord (u : State) (i : Issue) (w : DWord) : State :=
  { u with clk.nextId := u.clk.nextId + 1, fab.posts := u.fab.posts ++ [u.recordPost i w] }

section
variable {u : State} (he : u = t.flushRun i.part (t.recordAddr i w) (64 * recordUnits w))
  (hu : (u.lane i.part i.lane).iss.fetched = true)
include he hu

theorem State.issueRecord_sent (h : u.recordPlaced i (t.recordAddr i w) (recordUnits w)) : t.issueRecord i w =
    ((u.postRecord i w).issueWrite (u.recordWrite i w (t.recordAddr i w) (recordUnits w))).2 := by
  subst he
  obtain ⟨ha, hr⟩ := h
  rw [State.issueRecord]
  refine (State.ifLive_live hu).trans (if_neg ?_)
  rw [Bool.or_eq_true, not_or, bne_iff_ne, Bool.not_eq_true']
  exact ⟨fun hn => hn ha, fun hn => Bool.noConfusion (hn.symm.trans hr)⟩

theorem State.issueRecord_misplaced (h : ¬ u.recordPlaced i (t.recordAddr i w) (recordUnits w)) :
    t.issueRecord i w = u.addrFault i.part i.lane := by
  subst he
  rw [State.issueRecord]
  refine (State.ifLive_live hu).trans (if_pos ?_)
  rw [State.recordPlaced, Classical.not_and_iff_not_or_not, Bool.not_eq_true] at h
  rw [Bool.or_eq_true, bne_iff_ne, Bool.not_eq_true']
  exact h
end
end

/-- Settles O17: each instruction is one write on a slot that acts (`slotRes_leads_done`), or the address fault in its place; a
write of this device is `State.issueWrite_own`. -/
theorem laneWrites : Obligations.LaneWrites := by
  refine ⟨fun i w s t u => ?slots, fun v wr => State.issueWrite_own, fun i w s t slot hg =>
    ⟨State.gate_fetched hg, State.xFlush_of_tile i, fun a n h => State.flushRun_closed h _ a n⟩⟩
  intro bad done live o
  have sent : ∀ {v : State} (wr : Write), live v → live (v.issueWrite wr).2 := fun {v} wr h => by
    show ((v.issueWrite wr).2.lane i.part i.lane).iss.fetched = true
    rw [State.lane_issueWrite]
    exact h
  refine ⟨fun hg => ⟨fun hw hx hsrc hfull he hu => ?put, fun hw hx hfull => ?signal, fun hw hx hsrc he hu => ?halo⟩,
    fun hg => ⟨fun hw hl hx hh => ?wb, fun hw hl hx hh hfull => ?wbw, fun hw hl hx hh he hu => ?record⟩⟩
  case put =>
    subst he
    have hb : (t.xSourceHeld i w || t.trackerFull (t.lx i (xHreg w))) = false := Bool.or_eq_false_iff.mpr ⟨hsrc, hfull⟩
    exact ⟨fun data poison hs ho => slotRes_leads_done (beq_iff_eq.mpr hw) hg hx hb (State.issuePut_sent hu hs ho)
        (sent _ (State.sawPoison_fetched poison hu)),
      fun h => slotRes_leads (beq_iff_eq.mpr hw) hg hx hb (State.issuePut_misplaced hu h)⟩
  case signal =>
    have hf := State.gate_fetched hg
    exact ⟨fun h0 => slotRes_leads_done (beq_iff_eq.mpr hw) hg hx hfull (if_pos h0) hf,
      fun h0 => slotRes_leads_done (beq_iff_eq.mpr hw) hg hx hfull (if_neg h0) (sent _ hf)⟩
  case halo =>
    subst he
    exact ⟨fun data poison hs hp => slotRes_leads_done (beq_iff_eq.mpr hw) hg hx hsrc (State.issueHalo_sent hu hs hp)
        (State.sawPoison_fetched poison hu),
      fun h => slotRes_leads (beq_iff_eq.mpr hw) hg hx hsrc (State.issueHalo_misplaced hu h)⟩
  case wb =>
    have hok : (wOp w == 0 && i.lane != 255) = true := by simp [hw, hl]
    exact ⟨fun ⟨ha, hr⟩ => slotRes_leads_done hok hg hx hh (State.issueWb_sent ha hr) (State.wData_fetched o (State.gate_fetched hg)),
      fun h => slotRes_leads hok hg hx hh (State.issueWb_misplaced h)⟩
  case wbw =>
    have hok : (wOp w == 1 && i.lane != 255) = true := by simp [hw, hl]
    have hb : (t.wHeld i o || t.trackerFull (t.lx i (16 + o.dreg))) = false := Bool.or_eq_false_iff.mpr ⟨hh, hfull⟩
    exact ⟨fun h => slotRes_leads_done hok hg hx hb (State.issueWbw_sent h) (sent _ (State.wData_fetched o (State.gate_fetched hg))),
      fun h => slotRes_leads hok hg hx hb (State.issueWbw_misplaced h)⟩
  case record =>
    have hok : (wOp w == 0 && i.lane == 255) = true := by simp [hw, hl]
    exact ⟨fun h => slotRes_leads_done hok hg hx hh (State.issueRecord_sent he hu h) (sent _ hu),
      fun h => slotRes_leads hok hg hx hh (State.issueRecord_misplaced he hu h)⟩

end Sys2Proof.Machine
end

section
/-! PROOF. Token counters and the fence, the wait that is satisfied, and the return of code (R66, R73 to R77, R121, R125, R414). -/

namespace Sys2Proof.Machine

/-! ### A context's record -/

/-- An update of a context to anything but the empty one changes the partition's contexts alone. -/
theorem State.part_setCtx (s : State) (p c : Nat) {v : Ctx} (h : v ≠ {}) :
    (s.setCtx p c v).part p = { s.part p with ctxs := Map.set {} (s.part p).ctxs c v } :=
  Map.get_set_of_ne s.parts p fun e => Map.set_ne_nil _ c h (congrArg Part.ctxs e)

theorem Ctx.ne_of_image {x : Ctx} {im : Image} (h : x.image = some im) : x ≠ {} := by
  intro e
  rw [e] at h
  exact nomatch h

/-! ### An increment (R121) -/

/-- A counter lies in the run of a context that has an image (R72). -/
theorem Part.image_of_counterOwner {q : Part} {lane c k : Nat} (h : q.counterOwner lane c = some k) :
    ∃ im, (Map.get {} q.ctxs k).image = some im := by
  have hk := List.find?_some h
  dsimp only at hk
  split at hk
  · exact Bool.noConfusion hk
  next im him => exact ⟨im, him⟩

theorem State.increment_tok (s : State) (p l c n : Nat) :
    (s.increment p l c n).tok = Map.set 0 s.tok (s.tokKey p l c) (incWord (s.counter p l c) n) := by
  unfold State.increment
  dsimp only
  split
  · split <;> rfl
  · rfl

/-- An increment leaves every counter where it was: a saturation is noted in a job's record alone. -/
theorem State.increment_tokKey (s : State) (p l c n lane d : Nat) : (s.increment p l c n).tokKey p lane d = s.tokKey p lane d := by
  unfold State.increment
  dsimp only
  split
  · split
    next k hk =>
      obtain ⟨im, him⟩ := Part.image_of_counterOwner hk
      have hne : ∀ g : Job → Job, ({ s.ctx p k with job := (s.ctx p k).job.map g } : Ctx) ≠ {} := fun g => Ctx.ne_of_image him
      have hp := State.part_setCtx (s.setCounter p l c (incWord (s.counter p l c) n)) p k
        (hne fun j => { j with tokenSat := true })
      simp only [State.tokKey, State.engineOf, State.modCtx]
      rw [show (s.setCounter p l c (incWord (s.counter p l c) n)).ctx p k = s.ctx p k from rfl, hp]
      rfl
    · rfl
  · rfl

theorem State.counter_increment {s : State} (hw : Map.wf 0 s.tok = true) (p l c n : Nat) :
    (s.increment p l c n).counter p l c = incWord (s.counter p l c) n := by
  rw [State.counter, State.increment_tokKey, State.increment_tok]
  exact Map.get_set_self hw _ _

theorem State.get_tok_increment_ne (s : State) (p l c n : Nat) {k : Nat} (h : k ≠ s.tokKey p l c) :
    Map.get 0 (s.increment p l c n).tok k = Map.get 0 s.tok k := by
  rw [State.increment_tok]
  exact Map.get_set_ne _ _ h

theorem State.increment_fetched {s : State} {p lane : Nat} (l c n : Nat) (h : (s.lane p lane).iss.fetched = true) :
    ((s.increment p l c n).lane p lane).iss.fetched = true := by
  have keep : ∀ {t : State}, t.lane p lane = s.lane p lane → (t.lane p lane).iss.fetched = true := fun e => e ▸ h
  unfold State.increment
  dsimp only
  split
  · split
    · exact keep (State.lane_modPart (s := s.setCounter p l c _) rfl (Lane.ne_of_fetched h))
    · exact h
  · exact h

/-! ### The fence (R74, R75) -/

theorem exec_xfence_waits {s t : State} {i : Issue} {w : DWord} (hg : s.gate i 5 = .go t) (hw : xOp w = 5)
    (h : t.laneWrites i.part i.lane = true) : exec (.xfence i w) s = .next (t.countXfence i.part i.lane) := by
  refine (slotRes_of_ok (beq_iff_eq.mpr hw)).trans ?_
  simp [hg, h]

theorem exec_xfence_passes {s t : State} {i : Issue} {w : DWord} (hg : s.gate i 5 = .go t) (hw : xOp w = 5)
    (h : t.laneWrites i.part i.lane = false) : exec (.xfence i w) s = .next (t.slotDone i 5) := by
  refine (slotRes_of_ok (beq_iff_eq.mpr hw)).trans ?_
  simp [hg, h]

/-! ### WAIT_SATISFIED (R73, R80, R414) -/

/-- Whether a lane stands at a step boundary whose wait is evaluated, with no pre-emption to stop it there. -/
structure State.atWait (s : State) (i : Issue) : Prop where
  on : s.laneOn i.part i.lane = true
  fetched : (s.lane i.part i.lane).iss.fetched = true
  first : (s.lane i.part i.lane).iss.done = 0
  goesOn : s.mustStop i (s.atYield i.part i.lane) = false
  waits : s.waits i = true

theorem exec_waitSatisfied {s : State} {i : Issue} (h : s.atWait i) : exec (.waitSatisfied i) s =
    if s.waitBad i then .next (s.endResident i.part stPoisonConsumed)
    else if s.waitMet i then .next (s.passWait i) else .next s := by
  obtain ⟨hon, hf, hd, hs, hw⟩ := h
  show execWaitSatisfied i s = _
  unfold execWaitSatisfied
  exact if_neg (by simp [hon, hf, hd, hs, hw])

/-! ### LANE_FETCH_RETURN (R66, R99, R414) -/

theorem State.running_of_laneOn {s : State} {p l : Nat} (h : s.laneOn p l = true) : (s.lane p l).run = .running := by
  simp only [State.laneOn, Bool.and_eq_true, beq_iff_eq] at h
  exact h.2

/-- Where a fetch begins: where the queue ends, or at the lane word it does not hold. -/
def State.fetchFrom (s : State) (p l : Nat) : Nat :=
  if (s.lane p l).iss.qLo ≤ (s.fillTo p l).1 && (s.fillTo p l).1 ≤ (s.lane p l).iss.qHi then
    max (s.fillTo p l).1 (s.lane p l).iss.qHi
  else (s.fillTo p l).1

theorem State.fetchFrom_eq (s : State) (p l : Nat) : s.fetchFrom p l =
    if (s.lane p l).iss.qLo ≤ (s.fillTo p l).1 ∧ (s.fillTo p l).1 ≤ (s.lane p l).iss.qHi then
      max (s.fillTo p l).1 (s.lane p l).iss.qHi
    else (s.fillTo p l).1 := by
  simp [State.fetchFrom]

section
variable {s u : State} {p l : Nat} (hon : s.laneOn p l = true)
  (hu : u = s.flushRun p (s.fetchFrom p l) ((s.fillTo p l).2 - s.fetchFrom p l)) (hl : u.laneOn p l = true)
include hon hu hl

/-- What the return of a lane's code comes to on a lane that is still on behind the gather entries of the lines fetched. -/
theorem exec_laneFetchReturn : exec (.laneFetchReturn p l) s =
    .next (if u.anyPoison p (s.fetchFrom p l) ((s.fillTo p l).2 - s.fetchFrom p l) then u.endResident p stPoisonConsumed
      else (u.modLane p l fun y => { y with iss.qLo := (s.fillTo p l).1, iss.qHi := (s.fillTo p l).2 }).refetch p l) := by
  show execLaneFetchReturn p l s = _
  subst hu
  rw [execLaneFetchReturn, if_pos hon]
  exact congrArg _ (if_neg (by rw [Bool.not_eq_true', Bool.not_eq_false]; exact hl))

end

/-- The queue filled, and the lane issuing where the queue holds its lane word: no register, counter or line changes. -/
theorem State.filled_facts {u : State} {p l : Nat} (lo hi : Nat) (h : (u.lane p l).run = .running) :
    let t := (u.modLane p l fun y => { y with iss.qLo := lo, iss.qHi := hi }).refetch p l
    (t.lane p l).iss.qLo = lo ∧ (t.lane p l).iss.qHi = hi ∧ (t.lane p l).iss.fetched = t.queued p l ∧
      (t.lane p l).arch = (u.lane p l).arch ∧ t.tok = u.tok ∧ t.sp = u.sp := by
  intro t
  have hv : (u.modLane p l fun y => { y with iss.qLo := lo, iss.qHi := hi }).lane p l =
      { u.lane p l with iss.qLo := lo, iss.qHi := hi } := State.lane_modLane u p l _ (Lane.ne_of_running h)
  have hr : ((u.modLane p l fun y => { y with iss.qLo := lo, iss.qHi := hi }).lane p l).run = .running := by
    rw [hv]
    exact h
  have ht : t.lane p l = _ := State.lane_modLane _ p l _ (Lane.ne_of_running hr)
  rw [State.queued_refetch hr, ht, hv]
  exact ⟨rfl, rfl, rfl, rfl, rfl, rfl⟩

/-- Settles O18: TINC and TSET act on one counter, the fence on the lane's writes; a wait is `exec_waitSatisfied`, and the return
of code `exec_laneFetchReturn`. -/
theorem tokensAndFence : Obligations.TokensAndFence := by
  refine ⟨fun i w s t hg => ?slots,
    fun s p l c n hw => ⟨State.counter_increment hw p l c n, fun k => State.get_tok_increment_ne s p l c n⟩,
    fun s i => ?wait, fun s u p l hon => ?fetch⟩
  case slots =>
    have hf := State.gate_fetched hg
    intro c
    refine ⟨fun hw => slotRes_done (beq_iff_eq.mpr hw) hg rfl rfl (State.increment_fetched _ _ _ hf),
      fun hw hx => slotRes_done (beq_iff_eq.mpr hw) hg hx rfl hf, fun hw => ?_⟩
    intro out
    have hout : t.laneWrites i.part i.lane = out := rfl
    split
    next h => exact exec_xfence_waits hg hw (hout.trans h)
    next h => exact exec_xfence_passes hg hw (hout.trans (Bool.eq_false_iff.mpr h))
  case wait =>
    intro l e c n hon hf hd hs hw
    have acts := exec_waitSatisfied ⟨hon, hf, hd, hs, hw⟩
    refine ⟨fun hb => acts.trans (if_pos hb), fun hb hm => ?_, fun hb hm => ?_⟩
    · exact acts.trans ((if_neg (Bool.eq_false_iff.mp hb)).trans (if_pos (decide_eq_true hm)))
    · exact acts.trans ((if_neg (Bool.eq_false_iff.mp hb)).trans
        (if_neg fun h => Nat.not_le.mpr hm (of_decide_eq_true h)))
  case fetch =>
    intro q lo hi a hu hl
    have ha : s.fetchFrom p l = a := s.fetchFrom_eq p l
    rw [← ha] at hu ⊢
    have acts := exec_laneFetchReturn hon hu hl
    refine ⟨fun hb => acts.trans (congrArg _ (if_pos hb)),
      fun hb => ⟨_, acts.trans (congrArg _ (if_neg (Bool.eq_false_iff.mp hb))), ?_⟩⟩
    exact State.filled_facts lo hi (State.running_of_laneOn hl)

end Sys2Proof.Machine
end

section
/-! PROOF. The posts of the shared lane: a post joins its queue, and its chain's first descriptor is taken into work (R75, R99,
R160, R161, R163, R172, R193, R414). -/

namespace Sys2Proof.Machine

/-! ### A descriptor that is taken into work (R161) -/

/-- Descriptor `b`, the first of its chain, is the one in work. -/
def State.takeFirst (s : State) (x : Post) (b : List Byte) : State :=
  s.modPost x.id fun y =>
    { y with cur := b, desc := 0, moved := 0, tiles := 0, got := 0, bad := false, entryBad := false, write := none }

/-- A first descriptor that lies in a region, is unpoisoned, stands and is not empty is taken into work at once. -/
theorem State.loadDesc_first {size : Nat} {ok : State → Post → List Byte → Bool} {zero last : List Byte → Bool} {s : State}
    {x : Post} (fuel : Nat) (hd : x.desc = 0) (hg : ∀ g, s.gathered g = []) (hr : (s.part x.part).inRegion x.addr.toNat size = true)
    (hp : s.anyPoison x.part x.addr.toNat size = false) (hok : ok s x (s.readBytes x.part x.addr.toNat size) = true)
    (hz : zero (s.readBytes x.part x.addr.toNat size) = false) :
    State.loadDesc size ok zero last (fuel + 1) s x = s.takeFirst x (s.readBytes x.part x.addr.toNat size) := by
  simp [State.loadDesc, hd, hr, State.flushRun_closed hg, hp, hok, hz, State.takeFirst]

/-- A post found after an update of the posts is the update of one. -/
theorem State.post_modPost {s : State} {id : Nat} {f : Post → Post} {y : Post} (h : (s.modPost id f).post id = some y) :
    ∃ z, y = f z := by
  have hid : y.id = id := beq_iff_eq.mp (List.find?_some (p := fun x : Post => x.id == id) h)
  have hmem : y ∈ s.fab.posts.map fun x => if x.id = id then f x else x := List.mem_of_find?_eq_some h
  obtain ⟨z, -, hz⟩ := List.mem_map.mp hmem
  by_cases hzid : z.id = id
  · exact ⟨z, by rw [← hz, if_pos hzid]⟩
  · rw [if_neg hzid] at hz
    exact absurd (hz ▸ hid) hzid

/-! ### What a post can send at once (R164) -/

/-- With no gather entry open, the sending of a Huveip post changes no lane, and no line. -/
theorem State.sendDma_parts_sp {s : State} (hg : ∀ g, s.gathered g = []) (x : Post) :
    (s.sendDma x).parts = s.parts ∧ (s.sendDma x).sp = s.sp := by
  unfold State.sendDma
  dsimp only
  split
  · exact ⟨rfl, rfl⟩
  · rw [State.flushRun_closed hg]
    exact State.issueWrite_parts_sp _ _

theorem State.kickDma_parts {s : State} (hg : ∀ g, s.gathered g = []) : s.kickDma.parts = s.parts := by
  refine (List.foldlRecOn (motive := fun t : State => t.parts = s.parts ∧ t.sp = s.sp) _ _ ⟨rfl, rfl⟩
    fun t ⟨hp, hs⟩ x _ => ?_).1
  split
  · have closed : ∀ g, t.gathered g = [] := fun g => by
      rw [State.gathered, hs]
      exact hg g
    obtain ⟨hp', hs'⟩ := State.sendDma_parts_sp closed _
    exact ⟨hp'.trans hp, hs'.trans hs⟩
  · exact ⟨hp, hs⟩

/-! ### Floam's chain (R172, R174) -/

theorem State.cacheRead_fetched {s : State} {p l : Nat} (h : (s.lane p l).iss.fetched = true) :
    ((s.cacheRead p).lane p l).iss.fetched = true := by
  have same : ∀ {t : State} (r : CpRecord), (t.recWrite r).parts = t.parts := by
    intro t r
    unfold State.recWrite
    split <;> rfl
  unfold State.cacheRead
  split
  · rw [State.lane_of_parts (same _), State.lane_modPart rfl (Lane.ne_of_fetched h)]
    exact h
  · exact h

theorem State.posts_cacheRead (s : State) (p : Nat) : (s.cacheRead p).fab.posts = s.fab.posts := by
  unfold State.cacheRead State.recWrite
  split
  · split <;> rfl
  · rfl

/-- A first entry that asks for no cache is the one in work. -/
theorem State.loadFloam_first {s : State} {x : Post} (fuel : Nat) (hd : x.desc = 0) (hg : ∀ g, s.gathered g = [])
    (hr : (s.part x.part).inRegion x.addr.toNat 32 = true) (hp : s.anyPoison x.part x.addr.toNat 32 = false)
    (hok : s.entryOk x (s.readBytes x.part x.addr.toNat 32) = true) (hz : fBytes (s.readBytes x.part x.addr.toNat 32) ≠ 0)
    (hc : fCache (s.readBytes x.part x.addr.toNat 32) = false) :
    State.loadFloam (fuel + 1) s x = (s.takeFirst x (s.readBytes x.part x.addr.toNat 32)).cacheRead x.part := by
  rw [State.loadFloam, State.loadDesc_first 4096 hd hg hr hp hok (by simpa using hz)]
  generalize s.readBytes x.part x.addr.toNat 32 = b at hc ⊢
  dsimp only
  split
  · rfl
  next y hy =>
    rw [State.post, State.posts_cacheRead] at hy
    obtain ⟨z, rfl⟩ := State.post_modPost hy
    exact if_pos (by simp [hc])

/-! ### The stem engine's record (R193, R414) -/

/-- Whether a record's fields are within their ranges and its ranges within the partition's regions (R163, R193). -/
def State.stemSound (u : State) (p : Nat) (b : List Byte) : Prop :=
  stemFieldsOk b (u.sharedTokens p) = true ∧ (u.part p).stemRangesOk b = true

theorem State.stemUnsound_iff {u : State} {p : Nat} {b : List Byte} :
    (!stemFieldsOk b (u.sharedTokens p) || !(u.part p).stemRangesOk b) = true ↔ ¬ u.stemSound p b := by
  rw [State.stemSound, Classical.not_and_iff_not_or_not, Bool.or_eq_true, Bool.not_eq_true', Bool.not_eq_true', Bool.not_eq_true,
    Bool.not_eq_true]

section
variable {t : State} {i : Issue} {w : Nat}

/-- The post that a word of the shared lane's queue `q` makes, and the state it has joined. -/
def State.posted (t : State) (i : Issue) (q : PQueue) (w : Nat) : State := (t.newPost i q w).2

/-- The address of the stem record. -/
def State.stemAddr (t : State) (i : Issue) (w : Nat) : Nat := (t.postAddr i w).toNat

theorem State.issueStem_outside (h : ((t.posted i .stem w).part i.part).inRegion (t.stemAddr i w) 128 = false) :
    t.issueStem i w = (t.posted i .stem w).addrFault i.part i.lane :=
  if_pos (by rw [Bool.not_eq_true']; exact h)

section
variable {u : State} (he : u = (t.posted i .stem w).flushRun i.part (t.stemAddr i w) 128)
  (hr : ((t.posted i .stem w).part i.part).inRegion (t.stemAddr i w) 128 = true) (hu : (u.lane i.part i.lane).iss.fetched = true)
include he hr hu

theorem State.issueStem_poisoned (h : u.anyPoison i.part (t.stemAddr i w) 128 = true) :
    t.issueStem i w = u.endResident i.part stPoisonConsumed := by
  subst he
  exact (if_neg (by rw [Bool.not_eq_true', Bool.not_eq_false]; exact hr)).trans ((State.ifLive_live hu).trans (if_pos h))

section
variable (hp : u.anyPoison i.part (t.stemAddr i w) 128 = false)
include hp

theorem State.issueStem_unsound (h : ¬ u.stemSound i.part (u.readBytes i.part (t.stemAddr i w) 128)) :
    t.issueStem i w = u.addrFault i.part i.lane := by
  subst he
  exact (if_neg (by rw [Bool.not_eq_true', Bool.not_eq_false]; exact hr)).trans ((State.ifLive_live hu).trans
    ((if_neg (Bool.eq_false_iff.mp hp)).trans (if_pos (State.stemUnsound_iff.mpr h))))

/-- A sound record without output joins the stem engine's commands at once. -/
theorem State.issueStem_empty (h : u.stemSound i.part (u.readBytes i.part (t.stemAddr i w) 128))
    (hb : sEmpty (u.readBytes i.part (t.stemAddr i w) 128) = true) :
    t.issueStem i w = u.queueStem (t.newPost i .stem w).1 (u.readBytes i.part (t.stemAddr i w) 128) := by
  subst he
  exact (if_neg (by rw [Bool.not_eq_true', Bool.not_eq_false]; exact hr)).trans ((State.ifLive_live hu).trans
    ((if_neg (Bool.eq_false_iff.mp hp)).trans ((if_neg (fun hn => State.stemUnsound_iff.mp hn h)).trans (if_pos hb))))

/-- For one with output its requantisation entries decide, behind the gather entries of their lines. -/
theorem State.issueStem_output (h : u.stemSound i.part (u.readBytes i.part (t.stemAddr i w) 128))
    (hb : sEmpty (u.readBytes i.part (t.stemAddr i w) 128) = false) :
    let b := u.readBytes i.part (t.stemAddr i w) 128
    let z := u.flushRun i.part (sQuant b) (16 * sCout b)
    (z.lane i.part i.lane).iss.fetched = true → t.issueStem i w =
      if (List.range (sCout b)).all fun k => quantOk (z.readBytes i.part (sQuant b + 16 * k) 16) then
        z.queueStem (t.newPost i .stem w).1 b
      else z.addrFault i.part i.lane := by
  intro b z hz
  subst he
  exact (if_neg (by rw [Bool.not_eq_true', Bool.not_eq_false]; exact hr)).trans ((State.ifLive_live hu).trans
    ((if_neg (Bool.eq_false_iff.mp hp)).trans ((if_neg (fun hn => State.stemUnsound_iff.mp hn h)).trans
      ((if_neg (Bool.eq_false_iff.mp hb)).trans (State.ifLive_live hz)))))
end
end
end

/-- Settles O19: a DMA or Floam post joins its queue and `State.loadDesc_first` takes its first descriptor; a stem record joins
its queue or is refused check by check. -/
theorem sharedLanePosts : Obligations.SharedLanePosts := by
  intro i second w v s t hl after joined readable head inWork op slot
  refine ⟨fun hg hx => ?dma, fun hg hx hw => ?floam, fun hg hx hw => ?stem⟩
  case dma =>
    intro x u each
    have acts : ∀ {n mn}, op = n → slotRes (bits w.toNat 63 60 == n && i.lane == 255) mn
        (s.onSlot i slot [pAreg w.toNat] free fun t => t.issueDma i second w) = after slot (u.loadDma x).kickDma :=
      fun hn => slotRes_leads (by simpa [hl] using hn) hg hx rfl rfl
    have all : ∀ out : Res, after slot (u.loadDma x).kickDma = out → each out := fun out h =>
      ⟨fun hn => (acts hn).trans h, fun hn => (acts hn).trans h, fun hn => (acts hn).trans h, fun hn => (acts hn).trans h,
        fun hn => (acts hn).trans h, fun hn => (acts hn).trans h⟩
    refine ⟨all _ rfl, fun hgath hread hok hlen => all _ ?_⟩
    have load : u.loadDma x = inWork x u :=
      State.loadDesc_first (s := u) (x := x) 4096 rfl hgath hread.1 hread.2 hok (beq_eq_false_iff_ne.mpr hlen)
    rw [load]
    have hf : (t.lane i.part i.lane).iss.fetched = true := State.gate_fetched hg
    have hlive : ((inWork x u).kickDma.lane i.part i.lane).iss.fetched = true := by
      rw [State.lane_of_parts (State.kickDma_parts (s := inWork x u) hgath)]
      exact hf
    exact congrArg _ (if_pos hlive)
  case floam =>
    intro x u
    have acts : exec (.floamPost i v) s = after 3 (State.loadFloam 4097 u x) :=
      slotRes_leads (by simp [hl, hw]) hg hx rfl rfl
    refine ⟨acts, fun hgath hread hok hlen hc => acts.trans ?_⟩
    have load : State.loadFloam 4097 u x = (inWork x u).cacheRead i.part :=
      State.loadFloam_first (s := u) (x := x) 4096 rfl hgath hread.1 hread.2 hok hlen hc
    have hf : (t.lane i.part i.lane).iss.fetched = true := State.gate_fetched hg
    rw [load]
    exact congrArg _ (if_pos (State.cacheRead_fetched (s := inWork x u) hf))
  case stem =>
    intro x u0 u b live sound z quants put_
    have leads : ∀ y : State, t.issueStem i v.toNat = y → exec (.stemCommandPost i v) s = after 4 y := fun y hy =>
      slotRes_leads (by simp [hl, hw]) hg hx rfl hy
    refine ⟨fun hr => leads _ (State.issueStem_outside hr), fun hr hu => ⟨fun hp => leads _ (State.issueStem_poisoned rfl hr hu hp),
      fun hp => ?_⟩⟩
    refine ⟨fun hs => leads _ (State.issueStem_unsound rfl hr hu hp hs), fun hs he => ?_, fun hs he hz => ?_⟩
    · rw [leads _ (State.issueStem_empty rfl hr hu hp hs he)]
      exact congrArg _ (if_pos hu)
    · have output := State.issueStem_output rfl hr hu hp hs he hz
      refine ⟨fun hq => ?_, fun hq => leads _ (output.trans (if_neg (Bool.eq_false_iff.mp hq)))⟩
      rw [leads _ (output.trans (if_pos hq))]
      exact congrArg _ (if_pos hz)

end Sys2Proof.Machine
end

section
/-! PROOF. A job's start, its start work, and its end (R78, R79, R85, R211, R216, R224, R225, R229). -/

namespace Sys2Proof.Machine

variable {s : State} {p c : Nat}

/-! ### JOB_START (R211, R224) -/

theorem State.tileLost_iff :
    s.tileLost p = true ↔ ∃ e ∈ (s.part p).cfg.engines, s.hasTile e = false ∧ s.spareGone e = true := by
  simp [State.tileLost]

/-- The state in which a context has taken job `j` off its queue. -/
def State.takeJob (s : State) (p c : Nat) (im : Image) (j : Job) (rest : List Job) : State :=
  s.setCtx p c { s.ctx p c with
    state := .starting
    job := some { j with start := s.now, bound := (s.part p).models.bind im.models }
    waiting := rest, startedAt := s.now, preemptAt := none }

/-- The state in which that job's sequences are busy, its counters clear and its partition awake. -/
def State.openJob (s : State) (p c : Nat) (im : Image) (j : Job) (rest : List Job) : State :=
  ((s.takeJob p c im j rest).clearCounters p (s.ctx p c) im).modPart p fun q =>
    { q with low := .a0, kv := (ltNamed j.lt).foldl (fun k n => k.setSeq n { k.seq n with busy := some c }) q.kv }

theorem exec_jobStart {im : Image} {j : Job} {rest : List Job} (hs : (s.ctx p c).state = .loaded) (he : (s.part p).state = .enabled)
    (hi : (s.ctx p c).image = some im) (hw : (s.ctx p c).waiting = j :: rest) : exec (.jobStart p c) s =
      if s.tileLost p then .next ((s.takeJob p c im j rest).endJob p c stNoTile)
      else if !(j.lt.all (s.part p).kv.ltOk) then .next ((s.takeJob p c im j rest).endJob p c stKvSeqState)
      else .next ((s.openJob p c im j rest).startJob p c) := by
  show execJobStart p c s = _
  have hb : ((s.ctx p c).state == .loaded && (s.part p).state == .enabled) = true := by simp [hs, he]
  simp only [execJobStart, State.openJob, State.takeJob, hb, hi, hw]

/-! ### The job-start work (R216) -/

/-- With every page at hand and none swapped, the table and the arguments are copied and the context is READY. -/
theorem State.startJob_ready {im : Image} {j : Job} {t : State} (hs : (s.ctx p c).state = .starting) (hi : (s.ctx p c).image = some im)
    (hj : (s.ctx p c).job = some j)
    (hn : s.tableEntries + sumNat (((s.part p).kv.need j.lt).map fun e => e.2.length) ≤ 16777216)
    (hg : ((s.part p).kv.need j.lt).foldl (fun (t : Option State) e => t.bind fun u => u.allocKeys p e.1 e.2) (some s) = some t)
    (hw : (ltNamed j.lt).any (t.part p).kv.hasSwapped = false) :
    let t1 := t.modPart p fun q =>
      { q with kv := (ltNamed j.lt).foldl (fun k n => k.setSeq n { k.seq n with swapped := false }) q.kv }
    let t2 := if j.hasLt then t1.writeBytes p j.ltDst j.ltBytes else t1
    let t3 := if j.args.isEmpty then t2 else t2.writeBytes p j.argsDst j.args
    s.startJob p c = (t3.modCtx p c fun y => { y with state := .ready }).schedule p := by
  simp only [State.startJob, hj, hi, hs, Nat.not_lt.mpr hn, hg, hw]
  rfl

/-! ### The end of a job (R79, R225, R229) -/

theorem exec_jobComplete (hr : (s.ctx p c).state = .running ∨ (s.ctx p c).state = .stopping)
    (he : ∀ l ∈ (s.ctx p c).laneIds, (s.lane p l).run = .ended) (hq : s.quiet p = true) :
    exec (.jobComplete p c) s = .next (s.endJob p c stOk) := by
  show execJobComplete p c s = _
  have hall : ((s.ctx p c).laneIds.all fun l => (s.lane p l).run == .ended) = true := by simpa using he
  refine if_pos ?_
  simp [Ctx.resident, hr, hall, hq]

theorem exec_jobTimeout (h : (s.part p).cfg.jobTimeoutMs ≠ 0) : exec (.jobTimeout p c) s = .next (s.endJob p c stJobTimeout) :=
  if_neg h

theorem Job.endStatus_eq (j : Job) (st : Nat) :
    j.endStatus st = if st = stOk ∧ j.poisonMark = true then stPoisonConsumed else st := by
  simp [Job.endStatus]

/-- The submission of a job completes with its status, its result and the pre-emptions suffered (R331). -/
def State.answerJob (s : State) (j : Job) (st result : Nat) : State :=
  match j.cmd with
  | some (q, n) => s.finish q n st 0 result j.preempts
  | none => s

/-- The end of a resident job, step by step: record, completion, the engines, the sequences, the context. -/
theorem State.endJob_resident {im : Image} {j : Job} (st : Nat) (hi : (s.ctx p c).image = some im) (hj : (s.ctx p c).job = some j)
    (hr : (s.ctx p c).state = .running ∨ (s.ctx p c).state = .stopping) :
    let final := j.endStatus st
    let s0 := s.contain p final j
    let s1 := if j.statsAddr = 0 then s0 else s0.hostWrite j.statsAddr (statsRecord im j (s.part p).lanes final s.now)
    let s2 := s1.answerJob j final (jobResult im (s.part p).lanes)
    let s3 := (s2.clearEngines p).modPart p fun q => { q with kv := q.kv.jobEnd c j.lt (final == stOk) }
    let s4 := if final = stOk then s3 else (ltNamed j.lt).foldl (fun (u : State) (n : Nat) => u.trimSeq p n) s3
    s.endJob p c st = ((s4.setCtx p c { s.ctx p c with state := .loaded, job := none, saved := [], spill := [], preemptAt := none
      }).finishAwait p c stOkEmpty).schedule p := by
  have hres : (s.ctx p c).resident = true := by simpa [Ctx.resident] using hr
  simp only [State.endJob, State.closeJob, hj, hi, hres]
  rfl

/-- Settles O22: JOB_START branches on the tiles and the sequences; the start work, and the end of a job, are one equation
each. -/
theorem jobsStartAndEnd : Obligations.JobsStartAndEnd := by
  intro s p c x
  refine ⟨fun im j rest hs he hi hw => ?start, fun im j t hs hi hj hn hg hw => State.startJob_ready hs hi hj hn hg hw,
    exec_jobComplete, exec_jobTimeout, fun im j st hi hj hr => ?ends⟩
  case start =>
    intro job taken lost
    have acts := exec_jobStart hs he hi hw
    have hlost : s.tileLost p = true ↔ lost := State.tileLost_iff
    refine ⟨fun hl => acts.trans (if_pos (hlost.mpr hl)), fun hl hk => ?_, fun hl hk => ?_⟩
    · exact acts.trans ((if_neg (mt hlost.mp hl)).trans (if_pos (by rw [hk]; rfl)))
    · exact acts.trans ((if_neg (mt hlost.mp hl)).trans (if_neg (by rw [hk]; decide)))
  case ends =>
    intro final
    have hf : j.endStatus st = final := j.endStatus_eq st
    rw [← hf]
    exact State.endJob_resident st hi hj hr

end Sys2Proof.Machine
end

section
/-! PROOF. Pre-emption: its reasons, the yield points, the save of the context, and its time limit (R80, R82, R226 to R232). -/

namespace Sys2Proof.Machine

variable {s : State} {p c : Nat}

/-! ### Its reasons (R226, R227) -/

section
variable (hr : (s.part p).running = some c)
include hr

/-- A RUNNING context that is pre-empted is STOPPING from now on. -/
theorem State.preempt_running (hs : (s.ctx p c).state = .running) :
    s.preempt p = s.modCtx p c fun y => { y with state := .stopping, preemptAt := some s.now } := by
  simp [State.preempt, hr, hs]

/-- What makes the CP ask: a context of higher priority, a victim sequence of the context, or the driver. -/
def State.preemptWanted (s : State) (p c : Nat) : Prop :=
  (∃ y ∈ (s.part p).rivals c, (s.ctx p c).prio < y.prio) ∨
  (∃ v, (s.part p).kv.victim = some v ∧ ((s.part p).kv.seq v).busy = some c) ∨
  ∃ e ∈ s.host.queues, ∃ k ∈ e.2.cmds, k.await = some (p, c)

theorem exec_preemptRequest (hp : (s.part p).cfg.reserved = false) (h : s.preemptWanted p c) :
    exec (.preemptRequest p) s = .next (s.preempt p) := by
  show execPreemptRequest p s = _
  simp only [execPreemptRequest, hr]
  refine if_pos ?_
  simp only [hp, Bool.not_false, Bool.true_and, Bool.or_eq_true]
  obtain h | ⟨v, hv, hb⟩ | h := h
  · exact .inl (.inl (by simpa using h))
  · exact .inl (.inr (by simp [hv, hb]))
  · exact .inr (by simpa using h)

section
variable (hp : (s.part p).cfg.reserved = false) (hs : (s.ctx p c).state = .running)
include hp hs

theorem exec_quantumExpiry_preempts (h : ∃ y ∈ (s.part p).rivals c, y.prio = (s.ctx p c).prio) :
    exec (.quantumExpiry p) s = .next (s.preempt p) := by
  have hany : (((s.part p).rivals c).any fun x => x.prio == (s.ctx p c).prio) = true := by simpa using h
  show execQuantumExpiry p s = _
  simp [execQuantumExpiry, hr, hp, hs, hany]

/-- Without a context of equal priority the quantum starts again. -/
theorem exec_quantumExpiry_restarts (h : ∀ y ∈ (s.part p).rivals c, y.prio ≠ (s.ctx p c).prio) :
    exec (.quantumExpiry p) s = .next (s.modCtx p c fun y => { y with releasedAt := s.now }) := by
  have hany : (((s.part p).rivals c).any fun x => x.prio == (s.ctx p c).prio) = false := by simpa using h
  show execQuantumExpiry p s = _
  simp [execQuantumExpiry, hr, hp, hs, hany]
end

theorem exec_waitSwitchExpiry (hp : (s.part p).cfg.reserved = false) (hw : (s.part p).cfg.waitSwitchUs ≠ 0)
    (hv : (s.part p).rivals c ≠ [])
    (h : ∀ l ∈ (s.ctx p c).laneIds, (s.lane p l).run = .ended ∨ (s.lane p l).iss.waitSince.isSome = true) :
    exec (.waitSwitchExpiry p) s = .next (s.preempt p) := by
  have hall : ((s.ctx p c).laneIds.all fun l => (s.lane p l).run == .ended || (s.lane p l).iss.waitSince.isSome) = true := by
    simpa using h
  show execWaitSwitchExpiry p s = _
  simp only [execWaitSwitchExpiry, hr]
  exact if_pos (by simp [hp, hw, hv, hall])

/-! ### Its end (R82, R230, R231) -/

/-- The record of a context that is saved. -/
def State.savedCtx (s : State) (p c : Nat) (im : Image) : Ctx :=
  { s.ctx p c with
    state := .saved
    saved := im.laneIds.foldl (fun m l => Map.set {} m l (s.lane p l)) []
    spill := (s.liveRanges p c im).flatMap (s.spillRange p)
    preemptAt := none
    job := (s.ctx p c).job.map fun j => { j with preempts := j.preempts + 1 } }

theorem exec_contextSave {im : Image} (hi : (s.ctx p c).image = some im) (hs : (s.ctx p c).state = .stopping)
    (hall : ∀ l ∈ im.laneIds, (s.lane p l).run = .stopped ∨ (s.lane p l).run = .ended)
    (hany : ∃ l ∈ im.laneIds, (s.lane p l).run = .stopped) (hq : s.quiet p = true) : exec (.contextSave p) s =
      .next (((((s.clearEngines p).setCtx p c (s.savedCtx p c im)).recWrite (.contextSave p c)).finishAwait p c stOk).schedule p) := by
  have hok : ((s.ctx p c).state == .stopping &&
      ((im.laneIds.map fun l => (s.lane p l).run).all fun r => r == .stopped || r == .ended) &&
      (im.laneIds.map fun l => (s.lane p l).run).contains .stopped && s.quiet p) = true := by
    simpa [hs, hq] using ⟨hall, hany⟩
  show execContextSave p s = _
  simp only [execContextSave, hr, State.savedCtx, hi]
  exact if_neg (by rw [hok]; decide)

theorem exec_preemptTimeout (hs : (s.ctx p c).state = .stopping) :
    exec (.preemptTimeout p) s = .next (s.endJob p c stYieldTimeout) := by
  show execPreemptTimeout p s = _
  simp [execPreemptTimeout, hr, hs]
end

/-- A lane stops at its yield point, and nothing is consumed (R80). -/
theorem exec_yieldStop {l : Nat} (hon : s.laneOn p l = true) (hs : (s.onEngines p).state = .stopping) (hi : (s.lane p l).iss.iter = 0)
    (hd : (s.lane p l).iss.done = 0) (hg : (s.lane p l).iss.granted = false) (hy : s.atYield p l = true) :
    exec (.yieldStop p l) s = .next (s.modLane p l fun y => { y with run := .stopped }) :=
  if_pos (by simp [hon, hs, hi, hd, hg, hy])

/-- Settles O23: every request is `State.preempt` of a RUNNING context, and the lanes' stop, the save and the time limit are one
equation each. -/
theorem preemptionCourse : Obligations.PreemptionCourse := by
  intro s p c hr x stopping rivals
  refine ⟨fun hp hs => ?reasons, fun l => exec_yieldStop, fun im => exec_contextSave hr, exec_preemptTimeout hr⟩
  case reasons =>
    have stops : ∀ {r : Res}, r = .next (s.preempt p) → r = stopping := fun h => by rw [h, State.preempt_running hr hs]
    exact ⟨fun h => stops (exec_preemptRequest hr hp (.inl h)),
      fun v hv hb => stops (exec_preemptRequest hr hp (.inr (.inl ⟨v, hv, hb⟩))),
      fun h => stops (exec_preemptRequest hr hp (.inr (.inr h))), fun h => stops (exec_quantumExpiry_preempts hr hp hs h),
      exec_quantumExpiry_restarts hr hp hs, fun hw hv h => stops (exec_waitSwitchExpiry hr hp hw hv h)⟩

end Sys2Proof.Machine
end

section
/-! PROOF. Spare tiles and the rebind of a partition; swap units that go out and come back (R85, R217 to R219, R224, R412). -/

namespace Sys2Proof.Machine

/-! ### The binding of an engine (R224) -/

/-- The spare tile of an engine's compute die. -/
def spareTile (e : Nat) : Nat := 17 * (e / 16) + 16

theorem State.bindSpare_engineMap {s : State} (p : Nat) {e : Nat} (ht : s.hasTile e = false)
    (hf : spareTile e ∉ s.module.fencedTiles) (ho : s.engineOn (spareTile e) = none) :
    (s.bindSpare p e).engineMap = Map.set 0 s.engineMap e (spareTile e + 1) := by
  have hgone : s.spareGone e = false := by
    rw [spareTile] at hf ho
    simp [State.spareGone, hf, ho]
  simp only [State.bindSpare, ht, hgone]
  rfl

theorem State.tileOf_bindSpare_self {s : State} (p : Nat) {e : Nat} (ht : s.hasTile e = false)
    (hf : spareTile e ∉ s.module.fencedTiles) (ho : s.engineOn (spareTile e) = none) :
    (s.bindSpare p e).tileOf e = spareTile e := by
  rw [State.tileOf, State.bindSpare_engineMap p ht hf ho, Map.get_set_of_ne _ _ (Nat.succ_ne_zero _)]

theorem State.tileOf_bindSpare_ne {s : State} (p : Nat) {e k : Nat} (ht : s.hasTile e = false)
    (hf : spareTile e ∉ s.module.fencedTiles) (ho : s.engineOn (spareTile e) = none) (hk : k ≠ e) :
    (s.bindSpare p e).tileOf k = s.tileOf k := by
  rw [State.tileOf, State.bindSpare_engineMap p ht hf ho, Map.get_set_ne _ _ hk]
  rfl

/-! ### REBIND (R85, R224, R226) -/

section
variable {s : State} {p : Nat}

/-- The state in which every engine that can be has its tile. -/
def State.sparesBound (s : State) (p : Nat) : State := (s.part p).cfg.engines.foldl (fun t e => t.bindSpare p e) s

theorem exec_rebind (hs : (s.part p).state ≠ .free)
    (hc : ∀ e ∈ (s.part p).ctxs, e.2.state ≠ .starting ∧ e.2.state ≠ .running ∧ e.2.state ≠ .stopping) :
    exec (.rebind p) s = .next ((s.rebind p).schedule p) := by
  have hbusy : ((s.part p).ctxs.any fun e => e.2.state == .starting || e.2.state == .running || e.2.state == .stopping) = false := by
    simpa [and_assoc] using hc
  show execRebind p s = _
  simp [execRebind, hbusy, hs]

theorem State.rebind_allTiles (h : (s.sparesBound p).allTiles p = true) : s.rebind p = (s.sparesBound p).recheck p := by
  rw [State.sparesBound] at h
  simp only [State.rebind, h, if_true]
  rfl

/-- Where an engine is left without a tile, the jobs that cannot run end. -/
theorem State.rebind_noTile (h : (s.sparesBound p).allTiles p = false) : s.rebind p =
    ((List.range 8).foldl (fun t c => if (t.ctx p c).runnable then t.endJob p c stNoTile else t) (s.sparesBound p)).recheck p := by
  rw [State.sparesBound] at h
  simp only [State.rebind, h, Bool.false_eq_true, if_false]
  rfl
end

/-! ### Swap units (R217, R218, R219, R412) -/

/-- The pages of a victim that is idle or off the engines are written and freed, and waiting jobs try again. -/
theorem exec_swapOutComplete {s t : State} {p slot : Nat} (hv : (s.part p).kv.victim = some slot) (hp : s.host.swapPaused = false)
    (hb : ∀ c, ((s.part p).kv.seq slot).busy = some c → (s.ctx p c).resident = false) (ht : s.swapOut p slot = some t) :
    exec (.swapOutComplete p slot) s = .next ((t.modPart p fun x => { x with kv := { x.kv with victim := none } }).retryStarts p) := by
  show execSwapOutComplete p slot s = _
  simp only [execSwapOutComplete, hv, hp, ht]
  refine if_neg ?_
  split
  next c hc => simp [hb c hc]
  · simp

/-- Without units for its pages a victim stays. -/
theorem exec_swapOutComplete_noUnits {s : State} {p slot : Nat} (h : s.swapOut p slot = none) :
    exec (.swapOutComplete p slot) s = .next s := by
  show execSwapOutComplete p slot s = _
  simp only [execSwapOutComplete, h]
  exact ite_self _

section
variable {s : State} {p unit : Nat} {tag : TagCheck} {data : List Byte} {x : Post}

/-- Whether a unit comes back as the carried poison it went out as: its tag is the complement. -/
def SwapUnit.carries (r : SwapUnit) (tag : TagCheck) : Bool := r.written && r.carried && tag == .complement

/-- Whether its tag fails. -/
def SwapUnit.fails (r : SwapUnit) (tag : TagCheck) : Bool :=
  !r.written || (if r.carried then tag != .complement else tag != .match)

/-- A unit that a post in work reads arrives at the post's destination, poisoned where it carries poison or fails. -/
theorem exec_swapInComplete_post (hp : s.host.swapPaused = false)
    (hx : s.fab.posts.find? (fun x => x.part == p && x.inWork 3 && (dSrc x.cur + x.moved) / 8192 == unit) = some x) :
    let r := Map.get {} (s.part p).host.units unit
    let bad := r.carries tag || r.fails tag
    exec (.swapInComplete p unit tag data) s =
      .next ((if bad then s.swapFault p unit (r.carries tag) else s).hostUnitIn x data bad) := by
  intro r bad
  show execSwapInComplete p unit tag data s = _
  simp only [execSwapInComplete, hx, hp]
  rfl

end

theorem SwapUnit.sound_of_match {r : SwapUnit} {tag : TagCheck} (hw : r.written = true) (hc : r.carried = false) (ht : tag = .match) :
    r.carries tag = false ∧ r.fails tag = false := by
  simp [SwapUnit.carries, SwapUnit.fails, hw, hc, ht]

theorem SwapUnit.carries_of_complement {r : SwapUnit} {tag : TagCheck} (hw : r.written = true) (hc : r.carried = true)
    (ht : tag = .complement) : r.carries tag = true := by
  simp [SwapUnit.carries, hw, hc, ht]

theorem SwapUnit.fails_of_tag {r : SwapUnit} {tag : TagCheck}
    (h : r.written = false ∨ r.carried = false ∧ tag ≠ .match ∨ r.carried = true ∧ tag ≠ .complement) :
    r.carries tag = false ∧ r.fails tag = true := by
  obtain h | ⟨hc, ht⟩ | ⟨hc, ht⟩ := h
  · simp [SwapUnit.carries, SwapUnit.fails, h]
  · simp [SwapUnit.carries, SwapUnit.fails, hc, ht]
  · simp [SwapUnit.carries, SwapUnit.fails, hc, ht]

/-- Settles O24: a unit comes back by its record and tag (`exec_swapInComplete_post`), the rebind branches on the tiles left, and
a binding writes one entry of the engine map. -/
theorem rebindAndSwap : Obligations.RebindAndSwap := by
  refine ⟨fun s t p slot => exec_swapOutComplete, fun s p slot => exec_swapOutComplete_noUnits, fun s p unit tag data x hp hx => ?unit,
    fun s p hs hc => ?rebind,
    fun s p e ht hf ho => ⟨State.tileOf_bindSpare_self p ht hf ho, fun k => State.tileOf_bindSpare_ne p ht hf ho⟩⟩
  case unit =>
    intro r
    have acts := exec_swapInComplete_post (tag := tag) (data := data) hp hx
    refine ⟨fun hw hc ht => ?_, fun hw hc ht => ?_, fun h => ?_⟩
    · obtain ⟨hcar, hfail⟩ := SwapUnit.sound_of_match (r := r) hw hc ht
      exact acts.trans (by rw [hcar, hfail]; rfl)
    · have hcar := SwapUnit.carries_of_complement (r := r) hw hc ht
      exact acts.trans (by rw [hcar]; rfl)
    · obtain ⟨hcar, hfail⟩ := SwapUnit.fails_of_tag (r := r) h
      exact acts.trans (by rw [hcar, hfail]; rfl)
  case rebind =>
    intro bound
    rw [exec_rebind hs hc]
    exact ⟨fun h => by rw [State.rebind_allTiles h]; rfl, fun h => by rw [State.rebind_noTile h]; rfl⟩

end Sys2Proof.Machine
end

section
/-! PROOF. Program, model and job commands at their turn (R86, R165, R166, R168, R178, R210, R211, R225, R330, R331). -/

namespace Sys2Proof.Machine

/-! ### A command at its turn -/

/-- It is the turn of command `c`, its block is at hand, and it passes the common checks (R326, R473). -/
structure State.AtTurn (s : State) (q : Nat) (c : Cmd) : Prop where
  turn : s.turn q = some c
  ready : c.ready = true
  passes : s.common q c.entry c.block = none

/-- Then the command comes to what its own meaning answers. -/
theorem State.AtTurn.exec_eq {s : State} {q op : Nat} {c : Cmd} {i : Instr} {mine : Cmd → Bool} {f : State → Cmd → Done} {d : Done}
    (h : s.AtTurn q c) (hi : exec i s = .next (s.serve q op mine f)) (ho : c.entry.opcode = op) (hm : mine c = true) (hd : f s c = d) :
    exec i s = .next (s.settle q c d) := by
  rw [hi, State.serve_at h.turn h.ready h.passes ho hm, hd]

/-- The same for a meaning that answers from the inline bytes and the block. -/
theorem State.AtTurn.exec_args {s : State} {q op : Nat} {c : Cmd} {i : Instr} {f : State → List Byte → List Byte → Done} {d : Done}
    (h : s.AtTurn q c) (hi : exec i s = .next (s.serveArgs q op f)) (ho : c.entry.opcode = op) (hd : f s c.inl c.blk = d) :
    exec i s = .next (s.settle q c d) :=
  h.exec_eq hi ho rfl hd

variable {s : State} {inl blk : List Byte} {code : Nat}

/-! ### program.load and program.unload (R86, R225, R372) -/

section
variable (hi : (s.ctx (u8 inl 0) (u8 inl 1)).image = none) (hs : s.slotCheck (u16 inl 2) 0 (u8 inl 0) = none)
include hi hs

theorem State.programLoad_mediaError (hm : s.mediaBad (u16 inl 2) = true) :
    s.programLoad inl blk = .ends stMediaError (s.mediaDone (u16 inl 2)) := by
  simp [State.programLoad, hi, hs, hm]

section
variable (hm : s.mediaBad (u16 inl 2) = false)
include hm

theorem State.programLoad_badSignature (hg : s.lan.sigCheck (s.slot (u16 inl 2)).data 0 (u8 inl 0) = some code) :
    s.programLoad inl blk = .refuseWith code (s.logSignature code 0 (u16 inl 2) (u8 inl 0)) := by
  simp [State.programLoad, hi, hs, hm, hg]

section
variable (hg : s.lan.sigCheck (s.slot (u16 inl 2)).data 0 (u8 inl 0) = none)
include hg

theorem State.programLoad_badImage (hc : imageCheck (s.slot (u16 inl 2)).data = some code) : s.programLoad inl blk = .refuse code := by
  simp [State.programLoad, hi, hs, hm, hg, hc]

theorem State.programLoad_unfit (hc : imageCheck (s.slot (u16 inl 2)).data = none)
    (hf : s.loadFit (u8 inl 0) (u8 inl 1) (buildImage (u16 inl 2) (s.slot (u16 inl 2)).data) (imageWindows (s.slot (u16 inl 2)).data) =
      some code) : s.programLoad inl blk = .refuse code := by
  simp [State.programLoad, hi, hs, hm, hg, hc, hf]

/-- An image that passes every check is installed and its slot measured. -/
theorem State.programLoad_installs (hc : imageCheck (s.slot (u16 inl 2)).data = none)
    (hf : s.loadFit (u8 inl 0) (u8 inl 1) (buildImage (u16 inl 2) (s.slot (u16 inl 2)).data) (imageWindows (s.slot (u16 inl 2)).data) =
      none) :
    let t := s.install (u8 inl 0) (u8 inl 1) (u16 inl 2) (s.slot (u16 inl 2)).data
    s.programLoad inl blk = .ok (((t.ctx (u8 inl 0) (u8 inl 1)).image.map (·.dataBase)).getD 0)
      (t.measureSlot 0x0301 (u16 inl 2) (digest (s.slot (u16 inl 2)).body)) := by
  simp [State.programLoad, hi, hs, hm, hg, hc, hf]
end
end
end

theorem State.programUnload_idle {im : Image} (hi : (s.ctx (u8 inl 0) (u8 inl 1)).image = some im)
    (hj : (s.ctx (u8 inl 0) (u8 inl 1)).holdsJob = false) : s.programUnload inl blk =
      .ok 0 ((s.unloadImage (u8 inl 0) (u8 inl 1)).measureSlot 0x0302 im.slot (digest (s.slot im.slot).body)) := by
  simp [State.programUnload, hi, hj]

/-! ### Staged models (R165, R168, R178) -/

/-- The model that a sound slot stages. -/
def State.slotModel (s : State) (n mode : Nat) : Staged :=
  { used := true, id := digest16 (s.slot n).body, slot := n, nandDirect := mode == 1, bytes := (s.slot n).body.length,
    ready := mode == 1 }

section
variable {mode : Nat} {f : State → Nat → Staged → Done} (hs : s.slotCheck (u16 inl 2) 1 (u8 inl 0) = none)
  (hm : s.mediaBad (u16 inl 2) = false)
include hs hm

theorem State.stageModel_badSignature (hg : s.lan.sigCheck (s.slot (u16 inl 2)).data 1 (u8 inl 0) = some code) :
    s.stageModel inl mode f = .refuseWith code (s.logSignature code 1 (u16 inl 2) (u8 inl 0)) := by
  simp [State.stageModel, hs, hm, hg]

theorem State.stageModel_stages (hg : s.lan.sigCheck (s.slot (u16 inl 2)).data 1 (u8 inl 0) = none)
    (hc : (s.part (u8 inl 0)).stageCheck (digest16 (s.slot (u16 inl 2)).body) (s.slot (u16 inl 2)).body.length mode = none) :
    s.stageModel inl mode f = f (s.measureSlot 0x0401 (u16 inl 2) (digest (s.slot (u16 inl 2)).body)) (u8 inl 0)
      (s.slotModel (u16 inl 2) mode) := by
  simp [State.stageModel, State.slotModel, hs, hm, hg, hc]
end

section
variable {m : Nat} (hf : (s.part (u8 inl 0)).models.find (slice inl 16 16) = some m)
include hf

/-- A model that no job is bound to goes with its cache entries. -/
theorem State.modelUnstage_idle (hb : (s.part (u8 inl 0)).modelBusy m = false) :
    let slot := (Map.get {} (s.part (u8 inl 0)).models.staged m).slot
    s.modelUnstage inl blk = .ok 0 ((s.modPart (u8 inl 0) fun x => { x with models := { x.models with
      staged := Map.erase x.models.staged m, cache := x.models.cache.filter fun e => e.model != m } }).measureSlot 0x0402 slot
        (digest (s.slot slot).body)) := by
  simp [State.modelUnstage, hf, hb]

theorem State.modelEvict_one (hid : (slice inl 16 16).all (· == 0xFF) = false) : s.modelEvict inl blk =
    .ok 0 (s.modPart (u8 inl 0) fun x => { x with models := { x.models with
      cache := x.models.cache.filter fun e => e.model != m } }) := by
  simp only [State.modelEvict, hid, hf, Bool.false_eq_true, if_false]
end

/-! ### Jobs (R166, R210, R211, R225, R331) -/

/-- The length table is at hand, where one is named. -/
theorem Cmd.table_here {c : Cmd} (ht : u64 c.blk 8 = 0 ∨ c.table.isSome = true) : (u64 c.blk 8 != 0 && c.table.isNone) = false := by
  obtain h | h := ht
  · simp [h]
  · rw [Option.isNone_eq_false_iff.mpr h, Bool.and_false]

section
variable {q : Nat} {c : Cmd} (hr : (s.ctx (u8 c.blk 0) (u8 c.blk 1)).refuse = 0)
include hr

theorem State.jobSubmit_noImage (hi : (s.ctx (u8 c.blk 0) (u8 c.blk 1)).image = none) : s.jobSubmit q c = .refuse rcNoImage := by
  simp [State.jobSubmit, hr, hi]

section
variable {im : Image} (hi : (s.ctx (u8 c.blk 0) (u8 c.blk 1)).image = some im) (ht : u64 c.blk 8 = 0 ∨ c.table.isSome = true)
include hi ht

theorem State.jobSubmit_refused (hc : s.submitCheck (u8 c.blk 0) im c.blk (c.table.getD []) = some code) :
    s.jobSubmit q c = .refuse code := by
  simp only [State.jobSubmit, hr, hi, Cmd.table_here ht, hc]
  rfl

section
variable (hc : s.submitCheck (u8 c.blk 0) im c.blk (c.table.getD []) = none)
include hc

theorem State.jobSubmit_empty (hn : u64 c.blk 8 ≠ 0) (h0 : u32 (c.table.getD []) 0 = 0) : s.jobSubmit q c = .empty s := by
  have h : (u64 c.blk 8 != 0 && u32 (c.table.getD []) 0 == 0) = true := by simp [hn, h0]
  simp only [State.jobSubmit, hr, hi, Cmd.table_here ht, hc, h]
  rfl

theorem State.jobSubmit_joins (hn : u64 c.blk 8 = 0 ∨ u32 (c.table.getD []) 0 ≠ 0) : s.jobSubmit q c =
    .runs (s.modCtx (u8 c.blk 0) (u8 c.blk 1) fun y => { y with waiting := y.waiting ++ [jobOf q c (c.table.getD [])] }) := by
  have h : (u64 c.blk 8 != 0 && u32 (c.table.getD []) 0 == 0) = false := by
    obtain hn | hn := hn
    · simp [hn]
    · simp [hn]
  simp only [State.jobSubmit, hr, hi, Cmd.table_here ht, hc, h]
  rfl
end
end
end

theorem State.jobPreempt_resident {q : Nat} {c : Cmd} (hp : (s.part (u8 c.inl 0)).cfg.reserved = false)
    (hr : (s.ctx (u8 c.inl 0) (u8 c.inl 1)).resident = true) : s.jobPreempt q c =
      .runs ((s.preempt (u8 c.inl 0)).modCmd q c.no fun x => { x with await := some (u8 c.inl 0, u8 c.inl 1) }) := by
  simp [State.jobPreempt, hp, hr]

theorem State.jobAbort_job (h : (s.ctx (u8 inl 0) (u8 inl 1)).job.isSome = true) :
    s.jobAbort inl blk = .ok 0 (s.endJob (u8 inl 0) (u8 inl 1) stAborted) := by
  simp [State.jobAbort, Option.isSome_iff_ne_none.mp h]

/-- Settles O48: each command at its turn comes to its own meaning (`State.AtTurn.exec_eq`), which the lemmas above give check by
check. -/
theorem programJobCommands : Obligations.ProgramJobCommands := by
  intro s q c ht hr hc ok runs no op p k n
  have hat : s.AtTurn q c := ⟨ht, hr, hc⟩
  refine ⟨fun ho hi hs hm => ?mediaError, fun ho hi hs hm => ?load, fun ho im hi hj => ?unload, fun ho hs hm => ?stage,
    fun ho m hf hb => ?unstage, fun ho hid m hf => ?evict, fun ho => ?list, fun ho => ?submit, fun ho hp hres => ?preempt,
    fun ho hj => ?abort⟩
  case mediaError => exact hat.exec_args (f := State.programLoad) rfl ho (State.programLoad_mediaError hi hs hm)
  case load =>
    have loads : ∀ {d}, s.programLoad c.inl c.blk = d → exec (.programLoad q) s = .next (s.settle q c d) :=
      hat.exec_args (f := State.programLoad) rfl ho
    exact ⟨fun code hg => loads (State.programLoad_badSignature hi hs hm hg),
      fun code hg hic => loads (State.programLoad_badImage hi hs hm hg hic),
      fun hg hic => ⟨fun code hf => loads (State.programLoad_unfit hi hs hm hg hic hf),
        fun hf => loads (State.programLoad_installs hi hs hm hg hic hf)⟩⟩
  case unload => exact hat.exec_args (f := State.programUnload) rfl ho (State.programUnload_idle hi hj)
  case stage =>
    have directs : ∀ {d}, u8 c.inl 4 = 1 → (s.stageModel c.inl 1 fun u p m => .ok 0 (u.putModel p m)) = d →
        exec (.modelStageNandDirect q) s = .next (s.settle q c d) := fun h =>
      hat.exec_eq (f := fun t c => t.stageModel c.inl 1 fun u p m => .ok 0 (u.putModel p m)) rfl ho
        (show nandDirect c = true by simp [nandDirect, h])
    have copies : ∀ {d}, u8 c.inl 4 ≠ 1 → (s.stageModel c.inl 0 fun u p m => .runs (u.putModel p m)) = d →
        exec (.modelStageDdr5 q) s = .next (s.settle q c d) := fun h =>
      hat.exec_eq (f := fun t c => t.stageModel c.inl 0 fun u p m => .runs (u.putModel p m)) rfl ho
        (show (!nandDirect c) = true by simp [nandDirect, h])
    exact ⟨fun code hg => ⟨fun h1 => directs h1 (State.stageModel_badSignature hs hm hg),
        fun h1 => copies h1 (State.stageModel_badSignature hs hm hg)⟩,
      fun hg h1 hsc => directs h1 (State.stageModel_stages hs hm hg hsc),
      fun hg h1 hsc => copies h1 (State.stageModel_stages hs hm hg hsc)⟩
  case unstage => exact hat.exec_args (f := State.modelUnstage) rfl ho (State.modelUnstage_idle hf hb)
  case evict => exact hat.exec_args (f := State.modelEvict) rfl ho (State.modelEvict_one hf hid)
  case list => exact hat.exec_args (f := fun t inl _ => .data (t.part (u8 inl 0)).models.record64 0 t) rfl ho rfl
  case submit =>
    intro x href
    have submits : ∀ {d}, s.jobSubmit q c = d → exec (.jobSubmit q) s = .next (s.settle q c d) :=
      hat.exec_eq (f := fun t c => t.jobSubmit q c) rfl ho rfl
    refine ⟨fun hi => submits (State.jobSubmit_noImage href hi), fun im hi htab => ?_⟩
    exact ⟨fun code hsub => submits (State.jobSubmit_refused href hi htab hsub),
      fun hsub => ⟨fun hn h0 => submits (State.jobSubmit_empty href hi htab hsub hn h0),
        fun hn => submits (State.jobSubmit_joins href hi htab hsub hn)⟩⟩
  case preempt => exact hat.exec_eq (f := fun t c => t.jobPreempt q c) rfl ho rfl (State.jobPreempt_resident hp hres)
  case abort => exact hat.exec_args (f := State.jobAbort) rfl ho (State.jobAbort_job hj)

end Sys2Proof.Machine
end

section
/-! PROOF. Huveip frames received: acceptance, the route of writes and signals, and what the other types do (R123, R129 to R132,
R136, R137, R140, R144). -/

namespace Sys2Proof.Machine

variable {s : State} {h ty : Nat} {rx : RxFrame}

/-! ### Acceptance (R129, R130) -/

/-- A frame that port `h` takes at once: of a type it carries, sound, with the awaited number, and with nothing to say of the frames
sent the other way. -/
def State.awaits (s : State) (h ty : Nat) (rx : RxFrame) : Prop :=
  h < 4 ∧ (s.port h).carries ty = true ∧ rx.crcInverted = false ∧ rx.crcOk = true ∧ rx.tagOk = true ∧ rx.ackv = false ∧
    rx.nak = false ∧ rx.seq = ((s.drainWaiting h).port h).rxNext % 4096

/-- The state that has taken a frame with number `seq`: waiting frames have gone out, the frame is counted and acknowledged. -/
def State.accepts (s : State) (h seq : Nat) : State :=
  ((s.drainWaiting h).modPort h fun x => { x with
    rxNext := x.rxNext + 1
    session := { x.session with frames := x.session.frames + 1 }
    stats := { x.stats with framesRx := x.stats.framesRx + 1 } }).emit (.link h kAck [seq])

theorem State.receive_awaited (hs : s.awaits h ty rx) : s.receive h ty rx = .accepted (s.accepts h rx.seq) := by
  obtain ⟨hh, hc, hinv, hcrc, htag, hack, hnak, hseq⟩ := hs
  have hport : ¬ 4 ≤ h := Nat.not_le.mpr hh
  simp [State.receive, State.accepts, hport, hc, hinv, hcrc, htag, hack, hnak, hseq]

theorem State.receive_badCrc (hh : h < 4) (hc : (s.port h).carries ty = true) (hinv : rx.crcInverted = false)
    (hcrc : rx.crcOk = false) : s.receive h ty rx =
      .spent ((s.crcFailed h).emit (.link h kNak [(((s.crcFailed h).port h).rxNext + 4095) % 4096])) := by
  have hport : ¬ 4 ≤ h := Nat.not_le.mpr hh
  simp [State.receive, hport, hc, hinv, hcrc]

/-! ### Sending leaves the held route changes alone (R137) -/

section
variable (s : State) (h : Nat)

@[simp] theorem State.heldRoutes_sendFrame (ty : Nat) (f : RxFrame) : (s.sendFrame h ty f).huv.heldRoutes = s.huv.heldRoutes := by
  unfold State.sendFrame
  dsimp only
  split <;> rfl

@[simp] theorem State.heldRoutes_owe (ty vc : Nat) : (s.owe h ty vc).huv.heldRoutes = s.huv.heldRoutes := by
  unfold State.owe
  dsimp only
  split
  · exact State.heldRoutes_sendFrame _ _ _ _
  · rfl

@[simp] theorem State.heldRoutes_relay (t : TxFrame) : (s.relay h t).huv.heldRoutes = s.huv.heldRoutes := by
  unfold State.relay
  dsimp only
  split
  · split
    · exact State.heldRoutes_owe _ _ _ _
    · rfl
  · rfl

@[simp] theorem State.heldRoutes_drainWaiting : (s.drainWaiting h).huv.heldRoutes = s.huv.heldRoutes :=
  List.foldlRecOn (motive := fun t : State => t.huv.heldRoutes = s.huv.heldRoutes) _ _ rfl
    fun t ht w _ => (State.heldRoutes_relay t h w).trans ht

@[simp] theorem State.heldRoutes_accepts (seq : Nat) : (s.accepts h seq).huv.heldRoutes = s.huv.heldRoutes :=
  State.heldRoutes_drainWaiting s h

@[simp] theorem State.heldRoutes_sendCompletion (dst wtag status : Nat) :
    (s.sendCompletion dst wtag status).huv.heldRoutes = s.huv.heldRoutes := by
  unfold State.sendCompletion
  split
  · rfl
  · split
    · split
      · exact State.heldRoutes_sendFrame _ _ _ _
      · rfl
    · rfl

@[simp] theorem State.heldRoutes_takeFrame (ty : Nat) (rx : RxFrame) : (s.takeFrame ty rx).huv.heldRoutes = s.huv.heldRoutes := by
  unfold State.takeFrame
  dsimp only
  split
  · rfl
  · split <;> rfl

@[simp] theorem State.heldRoutes_countDrop (ty vc : Nat) : (s.countDrop h ty vc).huv.heldRoutes = s.huv.heldRoutes :=
  State.heldRoutes_owe _ _ _ _

@[simp] theorem State.heldRoutes_dropFrame (ty status : Nat) (rx : RxFrame) :
    (s.dropFrame h ty status rx).huv.heldRoutes = s.huv.heldRoutes := by
  unfold State.dropFrame
  dsimp only
  split <;> simp

@[simp] theorem State.heldRoutes_forwardFrame (k ty : Nat) (dl : Bool) (rx : RxFrame) :
    (s.forwardFrame h k ty dl rx).huv.heldRoutes = s.huv.heldRoutes := by
  unfold State.forwardFrame
  split
  · simp
  · split <;> simp

@[simp] theorem State.heldRoutes_routeFrame (ty : Nat) (rx : RxFrame) :
    (s.routeFrame h ty rx).huv.heldRoutes = s.huv.heldRoutes := by
  unfold State.routeFrame
  split <;> simp
end

/-! ### The route of a write or signal (R136, R137, R140) -/

theorem State.applyRoutes_nil (hr : s.huv.heldRoutes = []) : State.applyRoutes s.huv.heldRoutes.length s = s := by
  rw [hr]
  rfl

/-- With no route change held back, an accepted write or signal frame is routed at once. -/
theorem State.writeFrame_awaited (hs : s.awaits h ty rx) (hr : s.huv.heldRoutes = []) :
    s.writeFrame h ty rx = (s.accepts h rx.seq).routeFrame h ty rx := by
  have hback : (s.accepts h rx.seq).heldBack h rx = false := by simp [State.heldBack, hr]
  simp only [State.writeFrame, State.receive_awaited hs, hback]
  exact State.applyRoutes_nil (by simp [hr])

theorem State.routeFrame_here (hw : s.way (4 + h) rx.dst = .here) : s.routeFrame h ty rx = (s.takeFrame ty rx).owe h ty rx.vc := by
  simp only [State.routeFrame, hw]

theorem State.routeFrame_none (hw : s.way (4 + h) rx.dst = .none) : s.routeFrame h ty rx = s.dropFrame h ty stNoRoute rx := by
  simp only [State.routeFrame, hw]

/-- A frame for another device goes to its outgoing port; the writes under way there are kept up to date. -/
theorem State.routeFrame_out {k : Nat} {dl : Bool} (hw : s.way (4 + h) rx.dst = .out k dl) :
    ∃ f, s.routeFrame h ty rx = ({ s with huv.forwarding := f } : State).forwardFrame h k ty dl rx := by
  simp only [State.routeFrame, hw]
  exact ⟨_, rfl⟩

section
variable {k : Nat} {dl : Bool}

theorem State.forwardFrame_hopLimit (hh : rx.hops ≤ 1) : s.forwardFrame h k ty dl rx = s.dropFrame h ty stHopLimit rx :=
  if_pos hh

theorem State.forwardFrame_linkDown (hh : 1 < rx.hops) (hc : (s.port k).carries ty = false) :
    s.forwardFrame h k ty dl rx = s.dropFrame h ty stLinkDown rx := by
  simp [State.forwardFrame, Nat.not_le.mpr hh, hc]

theorem State.forwardFrame_relays (hh : 1 < rx.hops) (hc : (s.port k).carries ty = true) :
    s.forwardFrame h k ty dl rx = s.relay k (onward h ty dl rx) := by
  simp [State.forwardFrame, Nat.not_le.mpr hh, hc]

theorem onward_write (hty : ty < 2) : onward h ty dl rx =
    { ty := ty, f := { rx with vc := if rx.vc = 1 ∨ dl = true then 1 else 0, hops := rx.hops - 1 }, source := some (h, rx.vc) } := by
  simp [onward, hty]

/-- A forwarded frame that goes out frees the slot it was received in. -/
theorem State.relay_clear {t : TxFrame} {vc : Nat} (hs : t.source = some (h, vc)) (hc : (s.port k).clear t = true) :
    s.relay k t = (s.transmit k t).owe h t.ty vc := by
  simp only [State.relay, hc, hs, if_true]

theorem State.relay_waits {t : TxFrame} (hc : (s.port k).clear t = false) :
    s.relay k t = s.setPort k { s.port k with waiting := (s.port k).waiting ++ [t] } := by
  simp [State.relay, hc]
end

/-! ### Completions, credits and pace notices (R131, R136, R144) -/

theorem exec_completionFrame_here (hs : s.awaits h tyCompletion rx)
    (hw : (s.accepts h rx.seq).way (4 + h) rx.dst = .here) : exec (.completionFrame h rx) s =
      .next (((s.accepts h rx.seq).sendCompletion (s.accepts h rx.seq).huv.devId rx.wtag (rx.lineOff % 65536)).owe h tyCompletion 0) := by
  show execCompletionFrame h rx s = _
  simp only [execCompletionFrame, State.receive_awaited hs, hw]

theorem exec_completionFrame_none (hs : s.awaits h tyCompletion rx)
    (hw : (s.accepts h rx.seq).way (4 + h) rx.dst = .none) : exec (.completionFrame h rx) s =
      .next ((s.accepts h rx.seq).countDrop h tyCompletion 0) := by
  show execCompletionFrame h rx s = _
  simp only [execCompletionFrame, State.receive_awaited hs, hw]

theorem exec_linkCredits (hs : s.awaits h tyLink rx) : exec (.linkCredits h rx) s =
    .next (((s.accepts h rx.seq).modPort h fun x => { x with
      credits := { c0 := x.credits.c0 + (linkFrameCredits rx).c0, c1 := x.credits.c1 + (linkFrameCredits rx).c1,
                   cc := x.credits.cc + (linkFrameCredits rx).cc } }).drainWaiting h) := by
  show execLinkCredits h rx s = _
  simp only [execLinkCredits, State.receive_awaited hs]

theorem exec_paceNoticeReceive (hs : s.awaits h tyPace rx) : exec (.paceNoticeReceive h rx) s =
    .next (((s.accepts h rx.seq).takePace h (fit 0 64 rx.payload)).owe h tyPace 0) := by
  show execPaceNoticeReceive h rx s = _
  simp only [execPaceNoticeReceive, State.receive_awaited hs]

theorem State.takePace_seen {b : List Byte} (hseen : s.huv.paceSeen.contains (u16 b 0, u16 b 2) = true) : s.takePace h b = s :=
  if_pos hseen

/-- Settles O27: a frame that its port awaits is accepted (`State.receive_awaited`), and each type goes its way from there; the
route of a write is one equation per branch. -/
theorem huveipFrames : Obligations.HuveipFrames := by
  intro s h rx u acc sound
  refine ⟨fun ty => ⟨State.receive_awaited, State.receive_badCrc⟩, fun hs hr => ?write, fun hs hr => ?signal,
    fun ty => State.routeFrame_here, fun ty => State.routeFrame_none, fun ty k dl => State.routeFrame_out,
    fun k ty dl => ⟨State.forwardFrame_hopLimit, State.forwardFrame_linkDown, fun hh hc hty => ?forward⟩,
    fun hs => ⟨exec_completionFrame_here hs, exec_completionFrame_none hs⟩, exec_linkCredits,
    fun hs => ⟨exec_paceNoticeReceive hs, State.takePace_seen⟩⟩
  case write => exact congrArg Host.Outcome.next (State.writeFrame_awaited hs hr)
  case signal =>
    have hs : s.awaits h tySignal { rx with first := true, last := true, payload := [] } := hs
    exact congrArg Host.Outcome.next (State.writeFrame_awaited hs hr)
  case forward =>
    rw [State.forwardFrame_relays hh hc, onward_write hty]
    exact ⟨State.relay_clear rfl, State.relay_waits⟩

end Sys2Proof.Machine
end

section
/-! PROOF. The bring-up of a Huveip link step by step, and the rekey of its session (R133 to R135, R400 to R403). -/

namespace Sys2Proof.Machine

variable {s : State} {h : Nat}

/-- BRINGUP goes out on `n` of the port's usable lanes, the lowest, with the device ID `dev` and 512 slots. -/
def State.trained (u : State) (h n dev : Nat) : State :=
  (u.modPort h fun x => { x with
    state := .attesting, lanes := n, laneMask := keepLanes x.usable n, usable := keepLanes x.usable n
    session := { step := .bringup } }).emit (.link h kBringup [dev, n, 512])

/-- The bring-up stops, and waits to return to step 1. -/
def State.stopBringup (s : State) (h : Nat) : State := s.modSession h fun x => { x with refused := true, step := .idle }

section
variable (hh : h < 4)
include hh

/-! ### The lanes are trained (R133) -/

section
variable {n : Nat} (hn : n ∈ [4, 6, 7, 8]) (hu : n ≤ (bitList (s.port h).usable 8).length)
include hn hu

/-- Training ends with BRINGUP; a port whose session still stood loses it first. -/
theorem exec_huveipTrainingDone (hd : (s.port h).state ≠ .down) (ha : (s.port h).state ≠ .attesting) :
    exec (.huveipTrainingDone h n) s =
      .next ((if (s.port h).state = .training then s else s.loseSession h).trained h n s.huv.devId) := by
  have hcount : ([4, 6, 7, 8].contains n) = true := List.contains_iff_mem.mpr hn
  refine (if_neg ?_).trans (by simp only [beq_iff_eq, State.trained])
  simp only [Nat.not_le.mpr hh, Nat.not_lt.mpr hu, hcount]
  simp [hd, ha]
end

/-! ### The steps from BRINGUP to FINISH (R135, R401, R402) -/

section
variable (ha : (s.port h).state = .attesting)
include ha

/-- A peer with another ID is recorded, and HELLO goes out with a fresh nonce; the lower ID initiates. -/
theorem exec_linkBringup_peer {peer n slots : Nat} (hs : (s.port h).session.step = .bringup) (hd : s.huv.devId ≠ 0xFFFF)
    (hp : peer ≠ 0xFFFF) (hne : peer ≠ s.huv.devId) :
    let k := s.clk.free
    let u := ({ s with clk.free := k + 33 } : State).setPort h { s.port h with
      peerId := peer, peerSlots := slots, lanes := min (s.port h).lanes n
      session := { (s.port h).session with
        step := .hello, initiator := decide (s.huv.devId < peer), seed := k + 32
        nonce := (List.range 32).map fun i => (Config.freeWord (k + i)).truncate 8 } }
    exec (.linkBringup h peer n slots) s = .next (u.linkMessage h kHello (u.ownHello h)) := by
  show execLinkBringup h peer n slots s = _
  simp [execLinkBringup, Nat.not_le.mpr hh, ha, hs, hd, hp, hne, State.take]

section
variable {peer : Nat} {nonce key : List Byte} (hs : (s.port h).session.step = .hello)
include hs

theorem exec_linkHello_refused
    (hbad : peer ≠ (s.port h).peerId ∨ nonce.length ≠ 32 ∨ key.length ≠ if (s.port h).session.initiator then 0 else 1568) :
    exec (.linkHello h peer nonce key) s = .next (s.abortBringup h 1) := by
  show execLinkHello h peer nonce key s = _
  have hcheck : (peer != (s.port h).peerId || nonce.length != 32 ||
      key.length != (if (s.port h).session.initiator then 0 else 1568)) = true := by simpa [or_assoc] using hbad
  simp only [execLinkHello, hcheck, if_true]
  exact if_neg (by simp [Nat.not_le.mpr hh, ha, hs])

section
variable (hn : nonce.length = 32)
include hn

theorem exec_linkHello_initiator (hi : (s.port h).session.initiator = true) :
    exec (.linkHello h (s.port h).peerId nonce []) s = .next (s.modSession h fun y => { y with
      peerNonce := nonce, peerKey := [], transcript := s.ownHello h ++ helloBytes (s.port h).peerId nonce [], step := .encap }) := by
  show execLinkHello h (s.port h).peerId nonce [] s = _
  simp [execLinkHello, Nat.not_le.mpr hh, ha, hs, hn, hi]

/-- The responder encapsulates to the initiator's key, and answers with ENCAP and its REPORT. -/
theorem exec_linkHello_responder (hi : (s.port h).session.initiator = false) (hk : key.length = 1568) :
    let k := s.clk.free
    let ct := (Config.mlkemCipher key k).toList
    let all := helloBytes (s.port h).peerId nonce key ++ s.ownHello h ++ ct
    let u := ({ s with clk.free := k + 1 } : State).modSession h fun y => { y with
      peerNonce := nonce, peerKey := key, transcript := all, step := .report
      material := sessionMaterial (Config.mlkemShared key k).toList all }
    exec (.linkHello h (s.port h).peerId nonce key) s = .next ((u.linkMessage h kEncap ct).sendReport h) := by
  show execLinkHello h (s.port h).peerId nonce key s = _
  simp [execLinkHello, Nat.not_le.mpr hh, ha, hs, hn, hi, hk, State.take]
end
end

section
variable {ct : List Byte} (hs : (s.port h).session.step = .encap)
include hs

/-- The initiator decapsulates the shared secret, and reports. -/
theorem exec_linkEncap (hl : ct.length = 1568) :
    exec (.linkEncap h ct) s = .next ((s.modSession h fun y => { y with
      transcript := y.transcript ++ ct, step := .report
      material := sessionMaterial (Config.mlkemDecap y.seed ct).toList (y.transcript ++ ct) }).sendReport h) := by
  show execLinkEncap h ct s = _
  simp [execLinkEncap, Nat.not_le.mpr hh, ha, hs, hl]

theorem exec_linkEncap_refused (hl : ct.length ≠ 1568) : exec (.linkEncap h ct) s = .next (s.abortBringup h 2) := by
  show execLinkEncap h ct s = _
  simp [execLinkEncap, Nat.not_le.mpr hh, ha, hs, hl]
end

section
variable {v : PeerReport} (hs : (s.port h).session.step = .report)
include hs

theorem exec_linkReport_admitted (hv : s.admits h v = true) : exec (.linkReport h v) s =
    .next ((s.modSession h fun y => { y with step := .finish }).linkMessage h kFinish (s.port h).session.confirm) := by
  show execLinkReport h v s = _
  simp [execLinkReport, Nat.not_le.mpr hh, ha, hs, hv]

theorem exec_linkReport_refused (hv : s.admits h v = false) : exec (.linkReport h v) s = .next (s.abortBringup h 3) := by
  show execLinkReport h v s = _
  simp [execLinkReport, Nat.not_le.mpr hh, ha, hs, hv]
end

section
variable (hs : (s.port h).session.step = .finish)
include hs

/-- The session is up with a full buffer's credits and a fresh key. -/
theorem exec_linkFinish_confirmed :
    let up := s.setPort h { s.port h with state := .up, credits := { c0 := 224, c1 := 224, cc := 64 }, owed := {},
                                          session := { (s.port h).session with step := .done, key := s.lan.nextKey } }
    exec (.linkFinish h true) s = .next ({ up with lan.nextKey := s.lan.nextKey + 1 }.portNotice h) := by
  show execLinkFinish h true s = _
  simp [execLinkFinish, Nat.not_le.mpr hh, ha, hs]

theorem exec_linkFinish_refused : exec (.linkFinish h false) s = .next (s.abortBringup h 4) := by
  show execLinkFinish h false s = _
  simp [execLinkFinish, Nat.not_le.mpr hh, ha, hs]
end

theorem exec_linkAbort (r : Nat) : exec (.linkAbort h r) s = .next ((s.stopBringup h).portLog h 0x0604 r) :=
  if_pos (by simp [hh, ha])
end

theorem exec_bringupRetry (hr : (s.port h).session.refused = true) :
    exec (.bringupRetry h) s = .next (s.modPort h fun x => { x with state := .training, session := {} }) :=
  if_pos (by simp [hh, hr])

/-! ### The rekey of a session (R403) -/

section
variable (hx : (s.port h).state = .up) (hi : (s.port h).session.initiator = true)
include hx hi

theorem exec_rekeyStart (hr : (s.port h).session.rekeying = false) :
    let k := s.clk.free
    exec (.rekeyStart h) s = .next ((({ s with clk.free := k + 1 } : State).modSession h fun y =>
      { y with rekeying := true, seed := k }).linkMessage h kRekey (Config.mlkemKey k).toList) := by
  show Host.Outcome.next (s.startRekey h) = _
  simp [State.startRekey, hh, hx, hi, hr, State.take]

theorem exec_linkRekey_initiator {a b : Nat} {msg : List Byte} (hr : (s.port h).session.rekeying = true) (hl : msg.length = 1568) :
    exec (.linkRekey h a ⟨b, msg⟩) s = .next (s.rekeyed h (Config.mlkemDecap (s.port h).session.seed msg).toList a b) := by
  show execLinkRekey h a ⟨b, msg⟩ s = _
  simp [execLinkRekey, hh, hx, hi, hr, hl]
end

theorem exec_rekeyTimeout (hr : (s.port h).session.rekeying = true) : exec (.rekeyTimeout h) s = .next (s.loseSession h) :=
  congrArg Host.Outcome.next (if_pos (by simp [hh, hr]))
end

/-- Settles O28: each message at its step is one equation, and a failed check is `State.abortBringup`. -/
theorem huveipBringUp : Obligations.HuveipBringUp := by
  intro s h hh x ses stopped failed trained
  refine ⟨fun n hn hu => ⟨fun hx => ?trains, fun hx => ?retrains⟩, fun peer n slots ha => exec_linkBringup_peer hh ha,
    fun nonce key ha hs => ⟨fun hn hi hk => ?initiates, exec_linkHello_responder hh ha hs,
      fun peer => exec_linkHello_refused hh ha hs⟩,
    fun ct ha hs => ⟨exec_linkEncap hh ha hs, exec_linkEncap_refused hh ha hs⟩,
    fun v ha hs => ⟨exec_linkReport_admitted hh ha hs, exec_linkReport_refused hh ha hs⟩,
    fun ha hs => ⟨exec_linkFinish_confirmed hh ha hs, exec_linkFinish_refused hh ha hs⟩,
    fun r ha => exec_linkAbort hh ha r, exec_bringupRetry hh, exec_rekeyStart hh,
    fun a b msg hx hi hr hl => exec_linkRekey_initiator hh hx hi hr hl, exec_rekeyTimeout hh⟩
  case trains =>
    have e := exec_huveipTrainingDone hh hn hu (by simp [x, hx]) (by simp [x, hx])
    rwa [if_pos hx] at e
  case retrains =>
    obtain hx | hx := hx
    all_goals
      have e := exec_huveipTrainingDone hh hn hu (by simp [x, hx]) (by simp [x, hx])
      rwa [if_neg (by simp [x, hx])] at e
  case initiates =>
    subst hk
    exact exec_linkHello_initiator hh ha hs hn hi

end Sys2Proof.Machine
end

section
/-! PROOF. The upkeep of a Huveip port: replay, credit returns, lanes left out, and retrains (R130, R131, R133, R134, R140). -/

namespace Sys2Proof.Machine

variable {s : State} {h : Nat}

/-! ### Replay and credit returns (R130, R131) -/

/-- The replay buffer of port `h` goes out again from the port as `y`, counted. -/
def State.replayAs (s : State) (h : Nat) (y : Port) : State :=
  (s.port h).replay.foldl (fun (t : State) (f : TxFrame) => t.emit (.frame h f.ty f.f f.wire))
    (s.setPort h { y with
      stats := { (s.port h).stats with
        replays := satAdd 0xFFFFFFFF (s.port h).stats.replays 1
        framesTx := (s.port h).stats.framesTx + BitVec.ofNat 64 (s.port h).replay.length } })

theorem State.replay_again (hr : (s.port h).replayRuns < 7) :
    s.replay h = s.replayAs h { s.port h with replayRuns := (s.port h).replayRuns + 1 } := by
  have hruns : ¬ 8 ≤ (s.port h).replayRuns + 1 := by omega
  simp only [State.replay, State.replayAs, hruns, if_false]

/-- The eighth time in a row the port retrains. -/
theorem State.replay_eighth (hr : 7 ≤ (s.port h).replayRuns) :
    s.replay h = s.replayAs h { s.port h with replayRuns := 0, state := .retraining } := by
  have hruns : 8 ≤ (s.port h).replayRuns + 1 := by omega
  simp only [State.replay, State.replayAs, hruns, if_true]

/-! ### Lanes left out (R133) -/

theorem length_bitList_le (m n : Nat) : (bitList m n).length ≤ n :=
  Nat.le_trans (List.length_filter_le _ _) (Nat.le_of_eq List.length_range)

theorem laneCount_of_lt {n : Nat} (hn : n < 4) : laneCount n = 0 := by
  unfold laneCount
  repeat' split
  all_goals omega

/-- A port runs on 4, 6, 7 or 8 lanes, so five usable ones count as four. -/
theorem laneCount_of_le {n m : Nat} (hn : n ≤ 8) (hm : n = 5 ∧ m = 4 ∨ n ≠ 5 ∧ 4 ≤ n ∧ m = n) : laneCount n = m ∧ m ≠ 0 := by
  unfold laneCount
  repeat' split
  all_goals omega

section
variable {l : Nat}

/-- The lanes that are left when port `h` leaves lane `l` out. -/
def State.lanesLeft (s : State) (h l : Nat) : Nat := (s.port h).laneMask &&& (255 - 2 ^ l)

/-- The port's statistics with one more lane left out. -/
def Port.countDegrade (x : Port) : PortStats := { x.stats with degrades := satAdd 0xFFFFFFFF x.stats.degrades 1 }

theorem State.degrade_down (hl : (bitList (s.lanesLeft h l) 8).length < 4) (hu : (s.port h).state ≠ .up)
    (hr : (s.port h).state ≠ .retraining) : s.degrade h l = ((s.setPort h { s.port h with
      state := .down, lanes := 0, laneMask := 0, usable := s.lanesLeft h l, stats := (s.port h).countDegrade }).portLog
        h 0x0601 0).portNotice h := by
  have hn : laneCount (bitList ((s.port h).laneMask &&& (255 - 2 ^ l)) 8).length = 0 := laneCount_of_lt hl
  simp only [State.degrade, hn, if_true, beq_eq_false_iff_ne.mpr hu, beq_eq_false_iff_ne.mpr hr]
  rfl

theorem State.degrade_trains {n : Nat} (hl : (bitList (s.lanesLeft h l) 8).length = 5 ∧ n = 4 ∨
    (bitList (s.lanesLeft h l) 8).length ≠ 5 ∧ 4 ≤ (bitList (s.lanesLeft h l) 8).length ∧ n = (bitList (s.lanesLeft h l) 8).length) :
    s.degrade h l = ((s.setPort h { s.port h with
      state := if (s.port h).state = .up ∨ (s.port h).state = .retraining then .retraining else .training
      lanes := n, laneMask := keepLanes (s.lanesLeft h l) n, usable := keepLanes (s.lanesLeft h l) n
      stats := (s.port h).countDegrade }).portLog h 0x0601 0).portNotice h := by
  obtain ⟨hn, h0⟩ := laneCount_of_le (length_bitList_le _ _) hl
  unfold State.lanesLeft at hn
  simp [State.degrade, hn, h0, State.lanesLeft, Port.countDegrade]

variable (hh : h < 4) (hl : l < 8) (hm : (s.port h).laneMask.testBit l = true)
include hh hl hm

theorem exec_laneLockLoss : exec (.laneLockLoss h l) s = .next (s.degrade h l) :=
  congrArg Host.Outcome.next (if_pos (by simp [hh, hl, hm]))

/-- Every check counts the corrected symbols; more than one in 100,000 leaves the lane out. -/
theorem exec_fecRateCheck (bad all : Nat) :
    let u := s.modPort h fun x => { x with stats := { x.stats with fecCorrected := x.stats.fecCorrected + BitVec.ofNat 64 bad } }
    exec (.fecRateCheck h l bad all) s = .next (if all < 100000 * bad then u.degrade h l else u) :=
  if_pos (by simp [hh, hl, hm])
end

/-! ### Retrains (R134) -/

section
variable (hh : h < 4) (hx : (s.port h).state = .retraining)
include hh hx

/-- The port's statistics with one more retrain. -/
def Port.countRetrain (x : Port) : PortStats := { x.stats with retrains := satAdd 0xFFFFFFFF x.stats.retrains 1 }

theorem exec_portRetrain_succeeds : exec (.portRetrain h true) s =
    .next ((((s.setPort h { s.port h with stats := (s.port h).countRetrain, state := .up, failedRetrains := 0 }).portLog
      h 0x0602 0).drainWaiting h).portNotice h) := by
  show execPortRetrain h true s = _
  simp [execPortRetrain, Nat.not_le.mpr hh, hx, Port.countRetrain]

/-- A retrain that fails counts, and the third in a row loses the session. -/
theorem exec_portRetrain_fails :
    let bad := (s.setPort h { s.port h with
      stats := (s.port h).countRetrain, failedRetrains := (s.port h).failedRetrains + 1 }).portLog h 0x0602 0
    exec (.portRetrain h false) s = .next (if 2 ≤ (s.port h).failedRetrains then bad.loseSession h else bad) := by
  show execPortRetrain h false s = _
  simp [execPortRetrain, Nat.not_le.mpr hh, hx, Port.countRetrain]
end

/-- Settles O29: a replay and a lane left out are one equation per outcome, and every event reaches them by its guard alone. -/
theorem huveipLinkUpkeep : Obligations.HuveipLinkUpkeep := by
  intro s h hh x
  refine ⟨fun hr => ?replay, fun ho => ?credits, fun l hl hm => ?lanes, fun hx => ?retrain⟩
  case replay =>
    have resends : exec (.replayTimeout h) s = .next (s.replay h) :=
      congrArg Host.Outcome.next (if_pos (by simpa [hh] using hr))
    exact ⟨fun hn => resends.trans (congrArg _ (State.replay_again hn)), fun hn => resends.trans (congrArg _ (State.replay_eighth hn))⟩
  case credits => exact congrArg Host.Outcome.next (if_pos (by simpa [hh] using ho))
  case lanes =>
    refine ⟨exec_laneLockLoss hh hl hm, fun bad all hb => ?_, fun bad all hb => ?_, State.degrade_down, fun n => State.degrade_trains⟩
    · exact (exec_fecRateCheck hh hl hm bad all).trans (congrArg _ (if_pos hb))
    · exact (exec_fecRateCheck hh hl hm bad all).trans (congrArg _ (if_neg (Nat.not_lt.mpr hb)))
  case retrain =>
    exact ⟨exec_portRetrain_succeeds hh hx,
      fun hn => (exec_portRetrain_fails hh hx).trans (congrArg _ (if_neg (Nat.not_le.mpr hn))),
      fun hn => (exec_portRetrain_fails hh hx).trans (congrArg _ (if_pos hn))⟩

end Sys2Proof.Machine
end

section
/-! PROOF. Power: rail reports, the cap, the steps of the dies, droop and brown-out (R143, R335 to R345, R353 to R356). -/

namespace Sys2Proof.Machine

variable {s : State}

/-! ### Rail reports (R338, R341) -/

/-- The ceilings that rail `r` forces when it stands over its limit: PS7 on the die it feeds, or two steps down on every die. -/
def State.railForce (s : State) (r : Nat) : List Nat :=
  (List.range 4).map fun d => if r < 4 then (if d = r then 7 else 0) else min 7 ((s.die d).step + 2)

theorem exec_railReport_forces {r mv ma : Nat} (hr : r < 10) (ho : nth 0 railLimits r < ma) (hh : (s.rail r).high = 1) :
    exec (.railReport r mv ma) s =
      .next ((({ s with pwr.rails := Map.set {} s.pwr.rails r { mv, ma, high := 0, under := 0, force := s.railForce r } } :
        State).powerEvent 0x08 r ma).ceilingsSet) := by
  show execRailReport r mv ma s = _
  have h10 : r ≠ 10 := by omega
  have h11 : r ≠ 11 := by omega
  have hunder : ¬ 10 * ma < 9 * nth 0 railLimits r := by omega
  simp [execRailReport, State.railForce, h10, h11, Nat.not_le.mpr hr, ho, hh, hunder]

/-- The input stage's voltage and power are kept; what a lowering saved is known. -/
def State.keepInput (u : State) (mv mw : Nat) : State :=
  { u with pwr.mainMv := mv, pwr.inputs := (mw :: u.pwr.inputs).take 10, pwr.lowered := none }

theorem State.inputReport_lowered {mv mw d before : Nat} (hl : s.pwr.lowered = some (d, before)) :
    s.inputReport mv mw = (s.modDie d fun x => { x with saved := max 2000 (before - mw) }).keepInput mv mw := by
  simp only [State.inputReport, hl]
  rfl

theorem State.inputReport_else {mv mw : Nat} (hl : s.pwr.lowered = none) : s.inputReport mv mw = s.keepInput mv mw := by
  simp only [State.inputReport, hl]
  rfl

/-! ### The cap (R338) -/

section
variable {d : Nat}

/-- Above the cap, 100 µs after the last lowering, the die that draws most is lowered by one step. -/
theorem State.capLower_lowers {mw : Nat} (hw : 2 ≤ s.pwr.sinceLower) (hk : ∃ k, k < 4 ∧ (s.die k).step ≠ 7)
    (hd : s.mostDraw ((List.range 4).filter fun k => decide ((s.die k).cap < 7)) = some d) :
    s.capLower mw = { (s.modDie d fun x => { x with cap := x.cap + 1 }) with
      pwr.calm := 0, pwr.lowered := some (d, mw), pwr.sinceLower := 0 } := by
  have hall : ((List.range 4).all fun k => (({ s with pwr.calm := 0 } : State).die k).step == 7) = false := by
    simpa [State.die] using hk
  have hmost : ({ s with pwr.calm := 0 } : State).mostDraw
      ((List.range 4).filter fun k => decide ((({ s with pwr.calm := 0 } : State).die k).cap < 7)) = some d := hd
  simp only [State.capLower, hall, Bool.false_eq_true, if_false, Nat.not_lt.mpr hw, hmost]
  rfl

/-- At or below the cap, after 5 ms of room, the die that draws least is raised by one step. -/
theorem State.capRaise_raises {mean : Nat} (hd : s.leastDraw ((List.range 4).filter fun k => decide (0 < (s.die k).cap)) = some d)
    (hm : mean + (s.die d).saved ≤ 1000 * s.pwr.capW) (hc : 99 ≤ s.pwr.calm) :
    s.capRaise mean = { (s.modDie d fun x => { x with cap := x.cap - 1 }) with pwr.calm := 0 } := by
  have hcalm : 100 ≤ s.pwr.calm + 1 := Nat.succ_le_succ hc
  simp only [State.capRaise, hd, if_pos hm, if_pos hcalm]

theorem exec_capEvaluation_above (hp : 1000 * s.pwr.capW < s.pwr.inputs.headD 0) : exec (.capEvaluation () ()) s =
    .next (({ s with pwr.sinceLower := s.pwr.sinceLower + 1 } : State).capLower (s.pwr.inputs.headD 0)).ceilingsSet :=
  congrArg (fun t : State => Host.Outcome.next t.ceilingsSet) (if_pos hp)

theorem exec_capEvaluation_kept (hp : s.pwr.inputs.headD 0 ≤ 1000 * s.pwr.capW) : exec (.capEvaluation () ()) s =
    .next (({ s with pwr.sinceLower := s.pwr.sinceLower + 1 } : State).capRaise s.pwr.meanMw).ceilingsSet :=
  congrArg (fun t : State => Host.Outcome.next t.ceilingsSet) (if_neg (Nat.not_lt.mpr hp))
end

/-! ### The step of a die (R342, R343) -/

section
variable {d : Nat}

/-- The strictest of a list of limits is none of them laxer, and one of them or the floor. -/
theorem foldl_max_spec (l : List (Nat × Nat)) : ∀ b, let m := l.foldl (fun m c => max m c.1) b
    b ≤ m ∧ (∀ c ∈ l, c.1 ≤ m) ∧ (m = b ∨ ∃ c ∈ l, c.1 = m) := by
  induction l with
  | nil => simp
  | cons x l ih =>
    intro b m
    obtain ⟨hb, hl, hm⟩ := ih (max b x.1)
    refine ⟨Nat.le_trans (Nat.le_max_left _ _) hb, List.forall_mem_cons.mpr ⟨Nat.le_trans (Nat.le_max_right _ _) hb, hl⟩, ?_⟩
    obtain hm | ⟨c, hc, hm⟩ := hm
    · obtain hx | hx := Nat.le_total x.1 b
      · exact .inl (hm.trans (Nat.max_eq_left hx))
      · exact .inr ⟨x, List.mem_cons_self, (hm.trans (Nat.max_eq_right hx)).symm⟩
    · exact .inr ⟨c, List.mem_cons_of_mem _ hc, hm⟩

theorem State.ceiling_le_dieTarget {c : Nat × Nat} (hc : c ∈ s.ceilings d) : c.1 ≤ s.dieTarget d :=
  have ⟨_, hl, _⟩ := foldl_max_spec (s.ceilings d) 0
  Nat.le_trans (hl c hc) (Nat.le_max_left _ _)

theorem State.dieTarget_eq_cpStep_or_ceiling : s.dieTarget d = s.cpStep d ∨ ∃ c ∈ s.ceilings d, c.1 = s.dieTarget d := by
  obtain ⟨-, -, h0 | ⟨c, hc, hm⟩⟩ := foldl_max_spec (s.ceilings d) 0
  · exact .inl ((congrArg (max · (s.cpStep d)) h0).trans (Nat.zero_max _))
  · obtain hx | hx := Nat.le_total (s.cpStep d) (s.ceiling d)
    · exact .inr ⟨c, hc, hm.trans (Nat.max_eq_left hx).symm⟩
    · exact .inl (Nat.max_eq_right hx)

theorem exec_stepChange (hd : d < 4) (hs : (s.die d).step ≠ s.dieTarget d) :
    exec (.stepChange d) s = .next (s.modDie d fun x => { x with step := s.dieTarget d }).paceChange :=
  if_neg (by simp [Nat.not_le.mpr hd, hs])

/-! ### Droop (R345) -/

/-- A trip of detector `k` is counted, and below PS7 it holds the die's frequency lower. -/
def DiePower.trip (x : DiePower) (k : Nat) (times : List Nat) : DiePower :=
  { x with
    trips := satAdd 0xFFFFFFFF x.trips 1
    tripped := if x.step = 7 ∨ x.tripped.contains k = true then x.tripped else insertSorted k x.tripped
    drooped := x.drooped || decide (x.step < 7), tripsAt := times }

theorem exec_droopTrip (hd : d < 4) {k : Nat} (hk : k < 4) :
    let times := (s.now :: (s.die d).tripsAt).take 1001
    let u := s.modDie d fun x => x.trip k times
    exec (.droopTrip d k) s =
      .next (if times.length = 1001 ∧ s.now < times.getLastD 0 + 1000000 then u.powerEvent 0x0A d 1001 else u) := by
  show execDroopTrip d k s = _
  simp only [execDroopTrip, Nat.not_le.mpr hd, Nat.not_le.mpr hk, DiePower.trip, Bool.or_eq_true, Bool.and_eq_true,
    decide_eq_true_eq, or_self, if_false]

theorem exec_droopRelease (hd : d < 4) :
    exec (.droopRelease d) s = .next (s.modDie d fun x => { x with tripped := [], drooped := false }) :=
  congrArg Host.Outcome.next (if_pos hd)
end

/-! ### Ceilings set (R143, R354) -/

theorem State.ceilingsSet_settled (hd : ((List.range 4).all fun d => (s.setAlert.die d).step == s.setAlert.dieTarget d) = true) :
    s.ceilingsSet = s.setAlert.paceRelease :=
  if_pos hd

theorem State.ceilingsSet_moving (hd : ((List.range 4).all fun d => (s.setAlert.die d).step == s.setAlert.dieTarget d) = false) :
    s.ceilingsSet = s.setAlert :=
  if_neg (ne_true_of_eq_false hd)

/-- Settles O31: one equation per event and branch, and what the step of a die is by `foldl_max_spec`. -/
theorem powerCeilings : Obligations.PowerCeilings := by
  refine ⟨fun s r mv ma => exec_railReport_forces, fun s mv mw => ?input, fun s d hp hw hk hd => ?lowers,
    fun s d hp hd hm hc => ?raises, fun s d hd hs => ⟨exec_stepChange hd hs, fun c => State.ceiling_le_dieTarget,
      Nat.le_max_right _ _, State.dieTarget_eq_cpStep_or_ceiling⟩,
    fun s d k hd hk => ⟨fun ho => ?often, fun ho => ?seldom⟩, fun s d => exec_droopRelease,
    fun s => ⟨rfl, rfl, rfl, fun hb => congrArg Host.Outcome.next (if_pos hb), State.ceilingsSet_settled,
      State.ceilingsSet_moving⟩⟩
  case input =>
    dsimp only
    split
    next d before hl => exact congrArg Host.Outcome.next (State.inputReport_lowered hl)
    next hl => exact congrArg Host.Outcome.next (State.inputReport_else hl)
  case lowers =>
    exact (exec_capEvaluation_above hp).trans
      (congrArg (fun t : State => Host.Outcome.next t.ceilingsSet) (State.capLower_lowers (Nat.succ_le_succ hw) hk hd))
  case raises =>
    exact (exec_capEvaluation_kept hp).trans
      (congrArg (fun t : State => Host.Outcome.next t.ceilingsSet) (State.capRaise_raises hd hm hc))
  case often => exact (exec_droopTrip hd hk).trans (congrArg _ (if_pos ho))
  case seldom => exact (exec_droopTrip hd hk).trans (congrArg _ (if_neg ho))

end Sys2Proof.Machine
end

section
/-! PROOF. Heat, energy and pace: the thermal ceilings, the interlock, the shares billed, and pace notices (R143, R144, R346 to
R354). -/

namespace Sys2Proof.Machine

variable {s : State}

/-! ### Thermal ceilings (R349) -/

/-- Of the readings `h`, that of compute die `d` or of its base die is at 95 °C or above. -/
def hotAt (h : List Int) (d : Nat) : Bool := decide (950 ≤ nth 0 h d) || decide (950 ≤ nth 0 h (4 + d / 2))
/-- Both are at 92 °C or below. -/
def coolAt (h : List Int) (d : Nat) : Bool := decide (nth 0 h d ≤ 920) && decide (nth 0 h (4 + d / 2) ≤ 920)
/-- One of them is at 105 °C or above. -/
def limitAt (h : List Int) (d : Nat) : Bool := decide (1050 ≤ nth 0 h d) || decide (1050 ≤ nth 0 h (4 + d / 2))

/-- Every compute die has applied the rule of R349 to its reading, and the readings are kept. -/
def State.readHeat (s : State) (h : List Int) : State :=
  { (List.range 4).foldl (fun t d => t.modDie d fun x => x.heat (hotAt h d) (coolAt h d) (limitAt h d)) s with
    pwr.tj := h, pwr.junctionAlert := h.any fun x => decide (1050 ≤ x) }

theorem fit_eq_self {α : Type} {d : α} {n : Nat} {l : List α} (h : l.length = n) : fit d n l = l := by
  subst h
  exact List.take_left

theorem exec_thermalRead {h : List Int} (hl : h.length = 6) :
    exec (.thermalRead h) s = .next ((s.readHeat h).heatEvents s h).ceilingsSet := by
  show execThermalRead h s = _
  simp only [execThermalRead, fit_eq_self hl]
  rfl

theorem DiePower.heat_limit (x : DiePower) (hot cool : Bool) :
    x.heat hot cool true = { x with thermal := 7, hotWait := 9, coolReads := 0 } := rfl

/-- A hot reading: one step stricter, and then not for nine readings. -/
theorem DiePower.heat_hot (x : DiePower) (cool : Bool) : x.heat true cool false =
    if x.hotWait = 0 then { x with thermal := min 7 (x.thermal + 1), hotWait := 9, coolReads := 0 }
    else { x with hotWait := x.hotWait - 1, coolReads := 0 } := rfl

/-- A cool reading: the hundredth in a row is one step looser. -/
theorem DiePower.heat_cool (x : DiePower) : x.heat false true false =
    if 99 ≤ x.coolReads then { x with thermal := x.thermal - 1, hotWait := x.hotWait - 1, coolReads := 0 }
    else { x with hotWait := x.hotWait - 1, coolReads := x.coolReads + 1 } := by
  simp [DiePower.heat]

theorem DiePower.heat_between (x : DiePower) :
    x.heat false false false = { x with hotWait := x.hotWait - 1, coolReads := 0 } := rfl

/-- A reading moves the thermal ceiling alone: the step and the cap ceiling stay. -/
theorem DiePower.heat_keeps (x : DiePower) (hot cool limit : Bool) :
    (x.heat hot cool limit).step = x.step ∧ (x.heat hot cool limit).cap = x.cap := by
  unfold DiePower.heat
  repeat' split
  all_goals exact ⟨rfl, rfl⟩

/-- Below 95 °C no ceiling is set. -/
theorem DiePower.heat_unset {x : DiePower} (hx : x.thermal = 0) (cool : Bool) : (x.heat false cool false).thermal = 0 := by
  cases cool with
  | false => exact hx
  | true =>
    rw [DiePower.heat_cool]
    split
    · simp [hx]
    · exact hx

/-! ### A reading below 95 °C posts nothing (R349) -/

/-- The dies' table is canonical, and none of the four dies has a thermal ceiling. -/
def State.unheated (s : State) : Prop := Map.wf {} s.pwr.dies = true ∧ ∀ d, d < 4 → (s.die d).thermal = 0

theorem State.unheated_modDie (hs : s.unheated) (d : Nat) {f : DiePower → DiePower}
    (hf : ∀ x : DiePower, x.thermal = 0 → (f x).thermal = 0) (hd : d < 4) : (s.modDie d f).unheated := by
  obtain ⟨hw, hu⟩ := hs
  refine ⟨Map.wf_set hw _ _, fun k hk => ?_⟩
  by_cases e : k = d
  · subst e
    exact (congrArg DiePower.thermal (Map.get_set_self hw k _)).trans (hf _ (hu k hk))
  · exact (congrArg DiePower.thermal (Map.get_set_ne _ _ e)).trans (hu k hk)

theorem nth_zero_lt {l : List Int} {b : Int} (hl : ∀ x ∈ l, x < b) (hb : 0 < b) (k : Nat) : nth 0 l k < b := by
  unfold nth
  cases e : l[k]? with
  | none => exact hb
  | some x => exact hl x (List.mem_of_getElem? e)

theorem State.unheated_readHeat (hs : s.unheated) {h : List Int} (hh : ∀ k, nth 0 h k < 950) : (s.readHeat h).unheated := by
  have hot : ∀ d, hotAt h d = false := fun d => by simp [hotAt, hh]
  have limit : ∀ d, limitAt h d = false := fun d => by simp [limitAt, fun k => Int.lt_trans (hh k) (by decide : (950 : Int) < 1050)]
  exact List.foldlRecOn (motive := State.unheated) _ _ hs fun t ht d hd =>
    State.unheated_modDie ht d (fun x hx => by rw [hot, limit]; exact DiePower.heat_unset hx _) (List.mem_range.mp hd)

theorem State.heatEvents_none (old : State) {h : List Int} (hs : ∀ d, d < 4 → (s.die d).thermal = 0) (hh : ∀ k, nth 0 h k < 950) :
    s.heatEvents old h = s := by
  have hlow : ∀ k, ¬ 1050 ≤ nth 0 h k := fun k => Int.not_le.mpr (Int.lt_trans (hh k) (by decide))
  have dies : (List.range 4).foldl (fun (t : State) d =>
      if (old.die d).thermal = 0 && 0 < (t.die d).thermal then t.powerEvent 0x01 d (nth 0 h d).toNat else t) s = s :=
    List.foldlRecOn (motive := (· = s)) _ _ rfl fun t ht d hd => by
      subst ht
      simp [hs d (List.mem_range.mp hd)]
  simp only [State.heatEvents, hlow, if_false]
  rw [dies]
  exact List.foldlRecOn (motive := (· = s)) _ _ rfl fun t ht k _ => ht

/-! ### Coolant and the interlock (R350, R351, R354) -/

theorem exec_flowLoss_engages (hi : s.pwr.interlock = false) : exec .flowLoss s = .next
    ((({ s with pwr.interlock := true, pwr.flowLost := true, pwr.flowOk := false } : State).powerEvent 0x03 0xFF 0).setAlert) :=
  if_neg (ne_true_of_eq_false hi)

theorem exec_flowLoss_engaged (hi : s.pwr.interlock = true) : exec .flowLoss s = .next { s with pwr.flowOk := false } :=
  if_pos hi

/-- The interlock ends; after a loss of flow that is event 0x04. -/
theorem exec_interlockRelease :
    let u : State := { s with pwr.interlock := false, pwr.flowLost := false, pwr.flowOk := true }
    exec .interlockRelease s = .next (if s.pwr.flowLost then u.powerEvent 0x04 0xFF 0 else u).ceilingsSet := rfl

theorem exec_coolantRead_within {a b : Int} {n : Nat} (ha : a ≤ 650) (hb : b ≤ a + 100) (hn : n ≤ 95) :
    exec (.coolantRead a b n) s = .next { s with pwr.inlet := a, pwr.outlet := b, pwr.humidity := n } := by
  show execCoolantRead a b n s = _
  have hout : ¬ a + 100 < b := by omega
  simp [execCoolantRead, Int.not_lt.mpr ha, hout, Nat.not_lt.mpr hn]

/-! ### Shares and budgets (R346 to R348) -/

theorem sumNat_cons (x : Nat) (l : List Nat) : sumNat (x :: l) = x + sumNat l := by
  simp only [sumNat, ← List.sum_eq_foldl, List.sum_cons]

/-- Shares in proportion to their estimates stay within the whole. -/
theorem sumNat_map_share_le (l : List Nat) {e m : Nat} : sumNat (l.map fun x => x * e / m) ≤ sumNat l * e / m := by
  induction l with
  | nil => exact Nat.zero_le _
  | cons x l ih =>
    rw [List.map_cons, sumNat_cons, sumNat_cons, Nat.add_mul]
    exact Nat.le_trans (Nat.add_le_add_left ih _) Nat.div_add_div_le_add_div

theorem sumNat_shareOut_le (estimates : List Nat) (device energy : Nat) : sumNat (shareOut estimates device energy) ≤ energy := by
  have hm : sumNat (fit 0 16 estimates) ≤ max 1 (sumNat (fit 0 16 estimates) + device) := by omega
  calc sumNat (shareOut estimates device energy)
    _ ≤ sumNat (fit 0 16 estimates) * energy / max 1 (sumNat (fit 0 16 estimates) + device) := sumNat_map_share_le _
    _ ≤ energy := Nat.div_le_of_le_mul (Nat.mul_le_mul_right _ hm)

/-- Without a job to bill, a share counts to the partition alone. -/
theorem State.bill_noJob {p share : Nat} (hb : (s.part p).billed = none) :
    let w : PartPower := { (s.part p).power with
      shares := (share :: (s.part p).power.shares).take 10
      energyUj := (s.part p).power.energyUj + BitVec.ofNat 64 share }
    s.bill p share = s.modPart p fun q => { q with power := if q.state = .enabled then w.hold else w } := by
  simp [State.bill, hb, State.modPart]

theorem PartPower.hold_over {x : PartPower} (hb : 0 < x.budgetW) (he : 1000 * x.budgetW < x.estimate) :
    x.hold.cpLimit = min 7 (x.cpLimit + 1) := by
  simp [PartPower.hold, Nat.ne_of_gt hb, he]

/-- Settles O32: a reading is the rule of R349 case by case, the shares are bounded by `sumNat_shareOut_le`, and the other events
are one equation each. -/
theorem heatEnergyPace : Obligations.HeatEnergyPace := by
  refine ⟨fun s h hl => ⟨exec_thermalRead hl, fun hw hh hu => ?quiet⟩, fun x hot cool => ?rule,
    fun s => ⟨exec_flowLoss_engages, exec_flowLoss_engaged, fun hf => ?lost, fun hf => ?started⟩,
    fun s a b n => exec_coolantRead_within, fun s estimates device => ⟨rfl, sumNat_shareOut_le estimates device _⟩,
    fun s p share => State.bill_noJob, fun x => PartPower.hold_over, fun s hc => congrArg Host.Outcome.next (if_neg hc),
    fun s source => rfl⟩
  case quiet =>
    have cold : ∀ k, nth 0 h k < 950 := nth_zero_lt hh (by decide)
    exact State.heatEvents_none s (State.unheated_readHeat ⟨hw, hu⟩ cold).2 cold
  case rule =>
    rw [x.heat_limit, x.heat_hot, x.heat_cool, x.heat_between]
    exact ⟨rfl, apply_ite .., apply_ite .., apply_ite .., apply_ite .., rfl, rfl, rfl, x.heat_keeps hot cool false⟩
  case lost => exact exec_interlockRelease.trans (by rw [if_pos hf])
  case started => exact exec_interlockRelease.trans (by rw [if_neg (ne_true_of_eq_false hf)])

end Sys2Proof.Machine
end

section
/-! PROOF. DDR5 upkeep: lines read back, scrubs, refreshes, retirements, retrains, heat and staged models (R154 to R158, R165,
R419). -/

namespace Sys2Proof.Machine

variable {s : State}

/-! ### Lines (R154, R155) -/

theorem State.ddrRead_eq_read (s : State) (line : Nat) : s.ddrRead line =
    Map.read (Config.ddrUnwritten (Map.get 0 s.ddr.keyGen (line / 2 ^ 38))) s.ddr.mem (64 * line) 64 := by
  refine List.map_congr_left fun i _ => ?_
  cases Map.get none s.ddr.mem (64 * line + i) <;> rfl

theorem State.ddrWrite_open {line : Nat} (hf : s.ddrFenced line = false) {b : List Byte} (hb : b.length = 64) (poison : Bool) :
    s.ddrWrite line b poison = { s with
      ddr.mem := Map.write s.ddr.mem (64 * line) b, ddr.poison := Map.set false s.ddr.poison line poison } := by
  simp only [State.ddrWrite, hf, Bool.false_eq_true, if_false, fit_eq_self hb]
  rfl

theorem State.ddrRead_ddrWrite {line : Nat} (hf : s.ddrFenced line = false) {b : List Byte} (hb : b.length = 64)
    (poison : Bool) : (s.ddrWrite line b poison).ddrRead line = b := by
  rw [State.ddrWrite_open hf hb, State.ddrRead_eq_read]
  exact hb ▸ Map.read_write_self _ _ _ b

theorem State.poison_ddrEcc_uncorrectable (s : State) (line : Nat) :
    Map.get false (s.ddrEcc line .uncorrectable).ddr.poison line = true :=
  Map.get_set_of_ne s.ddr.poison line Bool.false_ne_true.symm

/-! ### Scrubs (R155, R419) -/

theorem exec_ddr5PatrolScrub (line : Nat) (ecc : Ecc) :
    exec (.ddr5PatrolScrub line ecc) s = .next (if s.ddrFenced line then s else s.ddrEcc line ecc) := rfl

/-! ### Refreshes (R157) -/

/-- Sub-channel `sub` owes `k` refreshes. -/
def State.oweRefreshes (s : State) (sub k : Nat) : State :=
  { s with ddr.subs := Map.modify {} s.ddr.subs sub fun x => { x with owed := k } }

/-- One more refresh is owed; the fifth takes the sub-channel, and none is owed. -/
theorem exec_refreshDue {sub : Nat} (hs : sub < 8) :
    let n := (Map.get {} s.ddr.subs sub).owed + 1
    exec (.refreshDue sub) s = .next (if 5 ≤ n then (s.arbUrgent 1 sub 22 []).oweRefreshes sub 0 else s.oweRefreshes sub n) :=
  if_neg (Nat.not_le.mpr hs)

/-! ### Pages (R156) -/

section
variable {page : Nat}

/-- The end of a page with `beats` corrected beats is logged and notified: outcome 0 in a spare page, 1 fenced. -/
def State.reportPage (s : State) (page beats event : Nat) (outcome : Byte) : State :=
  let phys := physOf (64 * page) / 4096
  (s.log (subOf (64 * page)) event 0xFF (leBytes 8 (4096 * phys) ++ leBytes 4 beats)).notice noticeDdrPage 0xFF
    (leBytes 8 phys ++ [outcome])

/-- A page that has met a trigger moves to a spare page; with none left, it is fenced for an uncorrectable beat. -/
theorem exec_ddr5PageRetirement_met (hf : (Map.get {} s.ddr.pages page).fenced = false)
    (ht : (Map.get {} s.ddr.pages page).bad = true ∨ 4 ≤ (Map.get {} s.ddr.pages page).corrected.length) :
    let x := Map.get {} s.ddr.pages page
    exec (.ddr5PageRetirement page) s = .next (
      if s.ddr.sparesUsed < 8192 then
        ({ s with ddr.pages := Map.set {} s.ddr.pages page { spare := some s.ddr.sparesUsed }
                  ddr.sparesUsed := s.ddr.sparesUsed + 1 } : State).reportPage page x.corrected.length 0x0403 0
      else if x.bad then
        ({ s with ddr.pages := Map.set {} s.ddr.pages page { x with fenced := true }
                  ddr.withdrawn := s.ddr.withdrawn ++ [4096 * (physOf (64 * page) / 4096) / 2 ^ 26] } :
          State).reportPage page x.corrected.length 0x0404 1
      else { s with ddr.pages := Map.set {} s.ddr.pages page { x with corrected := [] } }) := by
  have met : ((Map.get {} s.ddr.pages page).bad || 4 ≤ (Map.get {} s.ddr.pages page).corrected.length) = true := by
    rw [Bool.or_eq_true, decide_eq_true_eq]
    exact ht
  have guard : ¬ ((Map.get {} s.ddr.pages page).fenced ||
      !((Map.get {} s.ddr.pages page).bad || 4 ≤ (Map.get {} s.ddr.pages page).corrected.length)) = true := by
    rw [hf, met]
    decide
  refine (if_neg guard).trans ?_
  rw [apply_ite Host.Outcome.next, apply_ite Host.Outcome.next]
  rfl
end

/-! ### Retrains (R419) -/

section
variable {sub cause : Nat}

/-- The retrains of a sub-channel within the last hour, with one of now. -/
def State.retrainTimes (s : State) (sub : Nat) : List Nat :=
  s.now :: (Map.get {} s.ddr.subs sub).retrains.filter fun t => decide (s.now < t + 3600000000)

/-- Sub-channel `sub` has trained again, and stays in service or not. -/
def State.retrained (s : State) (sub : Nat) (fenced : Bool) : State :=
  let x := { Map.get {} s.ddr.subs sub with retrains := s.retrainTimes sub, fenced := fenced }
  { s with ddr.subs := Map.set {} s.ddr.subs sub x }

theorem exec_subchannelRetrain (hs : sub < 8) (hf : (Map.get {} s.ddr.subs sub).fenced = false) :
    let n := (s.retrainTimes sub).length
    let data := [BitVec.ofNat 8 cause, BitVec.ofNat 8 n]
    let u := (s.retrained sub (decide (3 ≤ n))).log sub 0x0405 0xFF data
    exec (.subchannelRetrain sub cause) s = .next (if 3 ≤ n then u.log sub 0x0406 0xFF data else u) :=
  if_neg (by simp [Nat.not_le.mpr hs, hf])

/-- Fewer than three retrains within the hour leave the sub-channel in service. -/
theorem exec_subchannelRetrain_seldom (hs : sub < 8) (hf : (Map.get {} s.ddr.subs sub).fenced = false)
    (hn : (s.retrainTimes sub).length < 3) :
    let data := [BitVec.ofNat 8 cause, BitVec.ofNat 8 (s.retrainTimes sub).length]
    exec (.subchannelRetrain sub cause) s =
      .next ((s.retrained sub (Map.get {} s.ddr.subs sub).fenced).log sub 0x0405 0xFF data) := by
  have hlt : ¬ 3 ≤ (s.retrainTimes sub).length := Nat.not_le.mpr hn
  rw [exec_subchannelRetrain hs hf, if_neg hlt, decide_eq_false hlt, hf]

/-- The third within the hour fences it. -/
theorem exec_subchannelRetrain_third (hs : sub < 8) (hf : (Map.get {} s.ddr.subs sub).fenced = false)
    (hn : 3 ≤ (s.retrainTimes sub).length) :
    let data := [BitVec.ofNat 8 cause, BitVec.ofNat 8 (s.retrainTimes sub).length]
    exec (.subchannelRetrain sub cause) s =
      .next (((s.retrained sub true).log sub 0x0405 0xFF data).log sub 0x0406 0xFF data) := by
  rw [exec_subchannelRetrain hs hf, if_pos hn, decide_eq_true hn]
end

/-! ### Heat (R158) -/

theorem exec_ddr5TempRead_within {ch : Nat} {t : Int} (hc : ch < 4) (ht : t ≤ 1050) :
    let c : Channel := { deciC := t, interval := if t ≤ 850 then 390 else 195, divisor := if t ≤ 950 then 1 else 2, alert := false }
    exec (.ddr5TempRead ch t) s = .next ({ s with ddr.chans := Map.set {} s.ddr.chans ch c } : State).setAlert := by
  show execDdr5TempRead ch t s = _
  simp [execDdr5TempRead, Nat.not_le.mpr hc, ht, Int.not_lt.mpr ht]

/-! ### Staged models (R165) -/

theorem exec_modelStageCopyDone_found {p id k : Nat} {m : Staged}
    (hf : (s.part p).models.staged.find? (fun e => e.2.used && !e.2.ready && leNat 16 e.2.id == id) = some (k, m)) :
    exec (.modelStageCopyDone p id) s = .next (((s.ddrFill (modelLine p k 0) (s.slot m.slot).body).modPart p fun q =>
      { q with models := { q.models with staged := Map.set {} q.models.staged k { m with ready := true } } }).finishAll
        (s.stagers p m.slot) (roundUp 65536 m.bytes)) := by
  show execModelStageCopyDone p id s = _
  simp only [execModelStageCopyDone, hf]

/-- Settles O30: a line is 64 cells written and read back, and every event is one equation, its branches chosen by the guard. -/
theorem ddrUpkeep : Obligations.DdrUpkeep := by
  refine ⟨fun s line b poison _ hf hb => State.ddrRead_ddrWrite hf hb poison,
    fun s line ecc hf => ⟨?scrub, s.poison_ddrEcc_uncorrectable line⟩, fun s line ecc hf => ?passed,
    fun s sub hs => ⟨fun hn => ?owed, fun hn => ?urgent⟩,
    fun s page hf ht => ⟨fun hu => ?spare, fun hu hb => ?fenced⟩,
    fun s sub cause hs hf => ⟨fun hn => ?seldom, fun hn => ?third⟩,
    fun s ch t => exec_ddr5TempRead_within, fun s p id k m => exec_modelStageCopyDone_found⟩
  case scrub => rw [exec_ddr5PatrolScrub, if_neg (ne_true_of_eq_false hf)]
  case passed => rw [exec_ddr5PatrolScrub, if_pos hf]
  case owed => exact (exec_refreshDue hs).trans (congrArg _ (if_neg (Nat.not_le.mpr hn)))
  case urgent => exact (exec_refreshDue hs).trans (congrArg _ (if_pos hn))
  case spare => exact (exec_ddr5PageRetirement_met hf ht).trans (congrArg _ (if_pos hu))
  case fenced => exact (exec_ddr5PageRetirement_met hf ht).trans (congrArg _ ((if_neg (Nat.not_lt.mpr hu)).trans (if_pos hb)))
  case seldom => exact exec_subchannelRetrain_seldom hs hf hn
  case third => exact exec_subchannelRetrain_third hs hf hn

end Sys2Proof.Machine
end

section
/-! PROOF. KV commands at their turn: the pool, sequences, domains and statistics (R198, R199, R205 to R208, R217, R220, R415). -/

namespace Sys2Proof.Machine

variable {s : State} {c : Cmd} {inl blk : List Byte}

/-! ### kv.pool_configure (R198, R199) -/

/-- The pool that a descriptor asks for. -/
def descriptorPool (b : List Byte) : KvPool :=
  { configured := true, format := u8 b 1, layers := u16 b 2, heads := u16 b 4, maxSeq := u16 b 6, swapUnits := u32 b 8 }

/-- A pool that its descriptor lays down soundly, within the quotas and with no sequence open, takes the place of the old one. -/
theorem State.poolConfigure_sound (hb : poolBad blk = false) (hclosed : ∀ e ∈ (s.part (u8 blk 0)).kv.seqs, e.2.isOpen = false)
    (hlayers : u16 blk 2 ≠ 0) (hheads : u16 blk 4 ≠ 0) (hseqs : u16 blk 6 ≠ 0)
    (hpages : (s.part (u8 blk 0)).cfg.quota 3 (s.part (u8 blk 0)).cfg.kvPages ≠ 0)
    (hswap : 8192 * u32 blk 8 ≤ (s.part (u8 blk 0)).cfg.quota 5 (s.part (u8 blk 0)).cfg.hostSwapBytes) :
    s.poolConfigure inl blk = .ok 0 (s.modPart (u8 blk 0) fun x =>
      { x.releasePool with kv := { x.releasePool.kv with pool := descriptorPool blk } }) := by
  have hany : ((s.part (u8 blk 0)).kv.seqs.any fun e => e.2.isOpen) = false := List.any_eq_false.mpr (by simpa using hclosed)
  simp [State.poolConfigure, descriptorPool, firstFail, hb, hany, hlayers, hheads, hseqs, hpages, Nat.not_lt.mpr hswap]

/-! ### kv.seq_open and kv.seq_extend (R205, R206, R208) -/

/-- What is checked only where a number is not 0 passes where it is 0. -/
theorem ne_zero_and_eq_false {n : Nat} {b : Bool} (h : n = 0 ∨ b = false) : (n != 0 && b) = false := by
  obtain h | h := h
  · simp [h]
  · rw [h, Bool.and_false]

/-- What kv.seq_open asks of its descriptor `b` and of the partition it names (R206). -/
structure State.CanOpen (s : State) (b : List Byte) : Prop where
  part : u8 b 0 < 16
  prio : u8 b 2 ≤ 7
  zero3 : u8 b 3 = 0
  zero6 : u16 b 6 = 0
  count : u32 b 8 ≤ 2 ^ 20
  zero12 : u32 b 12 = 0
  zero28 : u64 b 0x28 = 0
  slot : (s.part (u8 b 0)).kv.hasSlot (u16 b 4) = true
  closed : ((s.part (u8 b 0)).kv.seq (u16 b 4)).isOpen = false
  staged : ((s.part (u8 b 0)).models.find (slice b 0x10 16)).isSome = true
  domain : u8 b 1 = 0 ∨ (s.part (u8 b 0)).kv.domains.contains (u8 b 1) = true

/-- The leading blocks that a domain holds of the token IDs a command lists; without a domain there are none (R208). -/
def State.heldPrefix (s : State) (c : Cmd) : List Node :=
  if u8 c.blk 1 = 0 then []
  else (s.part (u8 c.blk 0)).kv.matchPrefix (u8 c.blk 1) (slice c.blk 0x10 16) 65536 0 0
    (tokenIds (c.tokens.getD []) (u32 c.blk 8))

/-- The table entries of those blocks. -/
def State.prefixRefs (s : State) (c : Cmd) : List (Nat × Nat) := (s.part (u8 c.blk 0)).kv.blockRefs (s.heldPrefix c)

/-- The sequence opens on those blocks, and the CP writes its table entries. -/
def State.openOnPrefix (s : State) (c : Cmd) : State :=
  (s.modKv (u8 c.blk 0) fun y => y.openSeq (u16 c.blk 4) (u8 c.blk 1) (u8 c.blk 2) (slice c.blk 0x10 16)
    (tokenIds (c.tokens.getD []) (u32 c.blk 8)) (s.heldPrefix c)).entriesWritten (u8 c.blk 0) (u16 c.blk 4)
      ((s.prefixRefs c).map Prod.fst)

/-- Past the checks, kv.seq_open turns on its token list and on the room in the page table. -/
theorem State.CanOpen.seqOpen_eq (h : s.CanOpen c.blk) : s.seqOpen c =
    if u32 c.blk 8 != 0 && c.tokens.isNone then .stay
    else if 16777216 < s.tableEntries + (s.prefixRefs c).length then .refuse rcKvTableFull
    else .ok (16 * (s.heldPrefix c).length) (s.openOnPrefix c) := by
  obtain ⟨part, prio, zero3, zero6, count, zero12, zero28, slot, closed, staged, domain⟩ := h
  have hdom : (u8 c.blk 1 != 0 && !(s.part (u8 c.blk 0)).kv.domains.contains (u8 c.blk 1)) = false :=
    ne_zero_and_eq_false (domain.imp_right fun h => by rw [h, Bool.not_true])
  simp only [State.seqOpen, hdom, zero3, zero6, zero12, zero28, slot, closed, Option.isNone_eq_false_iff.mpr staged,
    decide_eq_false (show ¬ 15 < u8 c.blk 0 by omega), decide_eq_false (Nat.not_lt.mpr prio), decide_eq_false (Nat.not_lt.mpr count)]
  rfl

/-- Without its token list the command waits for it. -/
theorem State.CanOpen.seqOpen_waits (h : s.CanOpen c.blk) (hn : u32 c.blk 8 ≠ 0) (ht : c.tokens = none) : s.seqOpen c = .stay := by
  simp [h.seqOpen_eq, hn, ht]

theorem State.CanOpen.seqOpen_opens (h : s.CanOpen c.blk) (ht : u32 c.blk 8 = 0 ∨ c.tokens.isSome = true)
    (hroom : s.tableEntries + (s.prefixRefs c).length ≤ 16777216) :
    s.seqOpen c = .ok (16 * (s.heldPrefix c).length) (s.openOnPrefix c) := by
  have hlist : (u32 c.blk 8 != 0 && c.tokens.isNone) = false :=
    ne_zero_and_eq_false (ht.imp_right Option.isNone_eq_false_iff.mpr)
  rw [h.seqOpen_eq, hlist, if_neg Bool.false_ne_true, if_neg (Nat.not_lt.mpr hroom)]

theorem State.seqExtend_appends {ts : List Byte} (ht : c.tokens = some ts)
    (hi : (s.part (u8 c.inl 0)).kv.idle (u16 c.inl 2) = true)
    (hl : ((s.part (u8 c.inl 0)).kv.seq (u16 c.inl 2)).ids.length + u32 c.inl 4 ≤ 2 ^ 20) (hn : u32 c.inl 4 ≠ 0) :
    let sq := (s.part (u8 c.inl 0)).kv.seq (u16 c.inl 2)
    let ids := sq.ids ++ tokenIds ts (u32 c.inl 4)
    s.seqExtend c = .ok ids.length (s.modKv (u8 c.inl 0) fun y => y.setSeq (u16 c.inl 2) { sq with ids := ids }) := by
  simp only [State.seqExtend, hi, ht, if_neg hn, decide_eq_false (Nat.not_lt.mpr hl)]
  rfl

/-! ### A busy, closed or absent sequence (R205, R206) -/

theorem State.seqExtend_notIdle (hi : (s.part (u8 c.inl 0)).kv.idle (u16 c.inl 2) = false) : s.seqExtend c = .refuse rcKvSeq := by
  simp [State.seqExtend, hi]

section
variable (hi : (s.part (u8 inl 0)).kv.idle (u16 inl 2) = false)
include hi

theorem State.seqFork_notIdle : s.seqFork inl blk = .refuse rcKvSeq := by simp [State.seqFork, hi]

theorem State.seqTruncate_notIdle : s.seqTruncate inl blk = .refuse rcKvSeq := by simp [State.seqTruncate, hi]

theorem State.seqClose_notIdle : s.seqClose inl blk = .refuse rcKvSeq := by simp [State.seqClose, hi]

theorem State.seqSwapOut_notIdle : s.seqSwapOut inl blk = .refuse rcKvSeq := by simp [State.seqSwapOut, hi]
end

/-! ### kv.seq_fork (R206, R415) -/

/-- The child of slot `b` opens on the pages that sequence `a` shares: each gains a reference, and the CP writes the child's table
entries. -/
def State.forkShared (s : State) (p a b : Nat) : State :=
  let k := (s.part p).kv
  let shared := k.ownPages a false
  (s.modKv p fun x =>
    let y := (shared.foldl (fun z e => z.addRef e.2) x).setSeq b { k.seq a with
      table := shared.foldl (fun m e => Map.set .none m e.1 (.resident e.2)) [], opened := k.nextOpen }
    { y with nextOpen := x.nextOpen + 1 }).entriesWritten p b (shared.map Prod.fst)

/-- The pages listed are copied, each to the page that the table of slot `b` has at its key. -/
def State.copyPagesTo (s : State) (p b : Nat) (own : List (Nat × Nat)) : State :=
  own.foldl (fun u e => match (u.part p).kvPage b e.1 with
    | some g => u.copyPage p e.2 g 16
    | none => u) s

/-- Where a table entry of sequence `a` reads back poisoned, so does that of slot `b` (R420). -/
def State.poisonEntriesTo (s : State) (p a b : Nat) (shared : List (Nat × Nat)) : State :=
  shared.foldl (fun u e => if u.recBad (.pageEntry p a e.1) then u.recPoison (.pageEntry p b e.1) else u) s

section
variable (hi : (s.part (u8 inl 0)).kv.idle (u16 inl 2) = true) (hslot : (s.part (u8 inl 0)).kv.hasSlot (u16 inl 4) = true)
  (hclosed : ((s.part (u8 inl 0)).kv.seq (u16 inl 4)).isOpen = false)
  (hroom : s.tableEntries + ((s.part (u8 inl 0)).kv.seq (u16 inl 2)).table.length ≤ 16777216)
include hi hslot hclosed hroom

theorem State.seqFork_recalls (hsw : (s.part (u8 inl 0)).kv.hasSwapped (u16 inl 2) = true)
    (ha : (s.allocPage (u8 inl 0)).isSome = true) :
    s.seqFork inl blk = .waits (s.modKv (u8 inl 0) fun y =>
      y.setSeq (u16 inl 2) { y.seq (u16 inl 2) with backWanted := true }) := by
  simp [State.seqFork, State.recallSeq, hi, hslot, hclosed, Nat.not_lt.mpr hroom, hsw, ha]

section
variable (hsw : (s.part (u8 inl 0)).kv.hasSwapped (u16 inl 2) = false)
include hsw

theorem State.seqFork_poisoned
    (hp : s.copiesPoison (u8 inl 0) (u16 inl 2) ((s.part (u8 inl 0)).kv.ownPages (u16 inl 2) true) = true) :
    s.seqFork inl blk = .ends stPoisonConsumed s := by
  simp [State.seqFork, hi, hslot, hclosed, Nat.not_lt.mpr hroom, hsw, hp]

theorem State.seqFork_forks {t : State}
    (hp : s.copiesPoison (u8 inl 0) (u16 inl 2) ((s.part (u8 inl 0)).kv.ownPages (u16 inl 2) true) = false)
    (ht : (s.forkShared (u8 inl 0) (u16 inl 2) (u16 inl 4)).allocKeys (u8 inl 0) (u16 inl 4)
      (((s.part (u8 inl 0)).kv.ownPages (u16 inl 2) true).map Prod.fst) = some t) :
    s.seqFork inl blk = .ok 0 ((t.copyPagesTo (u8 inl 0) (u16 inl 4) ((s.part (u8 inl 0)).kv.ownPages (u16 inl 2) true)).poisonEntriesTo
      (u8 inl 0) (u16 inl 2) (u16 inl 4) ((s.part (u8 inl 0)).kv.ownPages (u16 inl 2) false)) := by
  simp only [State.forkShared] at ht
  simp only [State.seqFork, hi, hslot, hclosed, if_neg (Nat.not_lt.mpr hroom), hsw, hp, ht]
  rfl
end
end

/-! ### kv.seq_truncate (R200, R206, R415) -/

/-- The sequence of slot `n` with its length and IDs cut to `l`, and without the pages beyond it. -/
def State.cutSeq (s : State) (p n l : Nat) : State :=
  s.modPart p fun y =>
    let z := y.dropEntries n fun key => decide (pagesOf l ≤ key % 65536)
    { z with kv := (z.kv.setSeq n { z.kv.seq n with length := l, ids := ((s.part p).kv.seq n).ids.take l }).settle n }

/-- The resident pages at page index `i` of a sequence, one in each layer and head, with their table keys. -/
def Part.pagesAt (x : Part) (n i : Nat) : List (Nat × Nat) :=
  (x.kv.seq n).table.filterMap fun e => if e.1 % 65536 = i then (x.kvPage n e.1).map fun g => (e.1, g) else none

/-- The same pages, taken in two passes. -/
theorem Part.filterMap_filter_eq_pagesAt (x : Part) (n i : Nat) :
    (((x.kv.seq n).table.filter fun e => e.1 % 65536 = i).filterMap fun e => (x.kvPage n e.1).map fun g => (e.1, g)) = x.pagesAt n i := by
  simp [Part.pagesAt, List.filterMap_filter]

section
variable (hi : (s.part (u8 inl 0)).kv.idle (u16 inl 2) = true)
  (hl : u32 inl 4 < ((s.part (u8 inl 0)).kv.seq (u16 inl 2)).length)
include hi hl

theorem State.seqTruncate_pages (hm : u32 inl 4 % 16 = 0) :
    s.seqTruncate inl blk = .ok 0 (s.cutSeq (u8 inl 0) (u16 inl 2) (u32 inl 4)) := by
  simp [State.seqTruncate, State.cutSeq, hi, hm, Nat.lt_asymm hl, Nat.ne_of_lt hl]

/-- Of a tail page that nothing shares the tokens past the length become zero in place. -/
theorem State.seqTruncate_tail (hm : u32 inl 4 % 16 ≠ 0)
    (hp : s.copiesPoison (u8 inl 0) (u16 inl 2) ((s.part (u8 inl 0)).pagesAt (u16 inl 2) ((u32 inl 4 - 1) / 16)) = false) :
    let t := s.cutSeq (u8 inl 0) (u16 inl 2) (u32 inl 4)
    let tail := (t.part (u8 inl 0)).pagesAt (u16 inl 2) ((u32 inl 4 - 1) / 16)
    (∀ e ∈ tail, (Map.get {} (t.part (u8 inl 0)).kv.pages e.2).readOnly = false) →
    s.seqTruncate inl blk = .ok 0 (tail.foldl (fun u e => u.copyPage (u8 inl 0) e.2 e.2 (u32 inl 4 % 16)) t) := by
  intro t tail hown
  unfold State.seqTruncate
  extract_lets p n l k sq last cut x pages shared alone cleared
  refine (if_neg ?checks).trans ((if_neg (Nat.ne_of_lt hl)).trans ((if_neg ?sound).trans ((if_neg hm).trans ?clears)))
  case checks => simp [k, p, n, l, sq, hi, Nat.le_of_lt hl]
  case sound =>
    rw [Part.filterMap_filter_eq_pagesAt, hp, Bool.and_false]
    exact Bool.false_ne_true
  case clears =>
    have hshared : shared = [] := List.filter_eq_nil_iff.mpr fun e he => Bool.eq_false_iff.mp (hown e he)
    have halone : alone = tail := List.filter_eq_self.mpr fun e he => congrArg not (hown e he)
    have hcleared : cleared = tail.foldl (fun u e => u.copyPage (u8 inl 0) e.2 e.2 (u32 inl 4 % 16)) t :=
      congrArg (List.foldl _ t) halone
    simp only [hshared, List.map_nil, State.allocKeys, List.foldl_nil, hcleared]
end

/-! ### kv.seq_close and kv.seq_swap_out (R206, R217) -/

section
variable (hi : (s.part (u8 inl 0)).kv.idle (u16 inl 2) = true)
include hi

theorem State.seqClose_idle : s.seqClose inl blk = .ok 0 ((s.modPart (u8 inl 0) fun y =>
    let z := y.dropEntries (u16 inl 2) fun _ => true
    { z with kv := { (z.kv.setSeq (u16 inl 2) {}) with
      victim := if z.kv.victim = some (u16 inl 2) then none else z.kv.victim } }).retryStarts (u8 inl 0)) := by
  simp [State.seqClose, hi]

section
variable (hsw : ((s.part (u8 inl 0)).kv.seq (u16 inl 2)).swapped = false) (ha : (s.part (u8 inl 0)).kv.alone (u16 inl 2) ≠ [])
include hsw ha

theorem State.seqSwapOut_swaps {t : State} (ht : s.swapOut (u8 inl 0) (u16 inl 2) = some t) :
    s.seqSwapOut inl blk = .ok ((s.part (u8 inl 0)).kv.alone (u16 inl 2)).length (t.retryStarts (u8 inl 0)) := by
  simp [State.seqSwapOut, hi, hsw, ha, ht]

theorem State.seqSwapOut_noUnits (ht : s.swapOut (u8 inl 0) (u16 inl 2) = none) : s.seqSwapOut inl blk = .refuse rcKvExhausted := by
  simp [State.seqSwapOut, hi, hsw, ha, ht]
end
end

/-! ### Domains (R206, R207) -/

theorem State.domainCreate_new (hd : u8 inl 1 ≠ 0) (hn : (s.part (u8 inl 0)).kv.domains.contains (u8 inl 1) = false) :
    s.domainCreate inl blk = .ok 0 ((s.modKv (u8 inl 0) fun y => { y with
      domains := y.domains ++ [u8 inl 1], keys := Map.set 0 y.keys (u8 inl 1) s.lan.nextKey }).modLan
        fun l => { l with nextKey := s.lan.nextKey + 1 }) := by
  simp only [State.domainCreate, if_neg hd, hn]
  rfl

/-- A domain that no open sequence belongs to goes with its nodes and its key. -/
theorem State.domainDestroy_unused (hd : u8 inl 1 ≠ 0) (hn : (s.part (u8 inl 0)).kv.domains.contains (u8 inl 1) = true)
    (hu : ∀ e ∈ (s.part (u8 inl 0)).kv.seqs, e.2.isOpen = true → e.2.domain ≠ u8 inl 1) :
    s.domainDestroy inl blk = .ok 0 ((s.modKv (u8 inl 0) fun y =>
      let z := (y.nodes.filter fun m => m.domain == u8 inl 1).foldl Kv.dropNode y
      { z with domains := z.domains.filter (· != u8 inl 1), keys := Map.erase z.keys (u8 inl 1) }).retryStarts (u8 inl 0)) := by
  have hany : ((s.part (u8 inl 0)).kv.seqs.any fun e => e.2.isOpen && e.2.domain == u8 inl 1) = false :=
    List.any_eq_false.mpr (by simpa using hu)
  simp only [State.domainDestroy, if_neg hd, hn, hany]
  rfl

/-- Settles O50: each command at its turn comes to its own meaning (`State.AtTurn.exec_eq`), which the lemmas above give check by
check. -/
theorem kvCommands : Obligations.KvCommands := by
  intro s q c ht hr hc ok no op b p k n sq
  have hat : s.AtTurn q c := ⟨ht, hr, hc⟩
  have appends : ∀ {d}, op = 0x0612 → s.seqExtend c = d → exec (.kvSeqExtend q) s = .next (s.settle q c d) := fun ho =>
    hat.exec_eq (f := State.seqExtend) rfl ho rfl
  have forks : ∀ {d}, op = 0x0613 → s.seqFork c.inl c.blk = d → exec (.kvSeqFork q) s = .next (s.settle q c d) := fun ho =>
    hat.exec_args (f := State.seqFork) rfl ho
  have truncates : ∀ {d}, op = 0x0614 → s.seqTruncate c.inl c.blk = d → exec (.kvSeqTruncate q) s = .next (s.settle q c d) :=
    fun ho => hat.exec_args (f := State.seqTruncate) rfl ho
  have closes : ∀ {d}, op = 0x0615 → s.seqClose c.inl c.blk = d → exec (.kvSeqClose q) s = .next (s.settle q c d) := fun ho =>
    hat.exec_args (f := State.seqClose) rfl ho
  have swaps : ∀ {d}, op = 0x0616 → s.seqSwapOut c.inl c.blk = d → exec (.kvSeqSwapOut q) s = .next (s.settle q c d) := fun ho =>
    hat.exec_args (f := State.seqSwapOut) rfl ho
  refine ⟨fun ho => ?pool, fun ho => ?opening, fun ho => ?extend, fun _ hi => ?notIdle, fun ho => ?fork,
    fun ho => ?truncate, fun ho hi => ?close, fun ho hi hsw ha => ?swapOut, fun ho => ?create, fun ho => ?destroy, fun ho => ?stats⟩
  case pool =>
    intro x hb hclosed hlayers hheads hseqs hpages hswap
    exact hat.exec_args (f := State.poolConfigure) rfl ho
      (State.poolConfigure_sound hb hclosed hlayers hheads hseqs hpages hswap)
  case opening =>
    intro x dom m ids nodes refs part prio zero3 zero6 count zero12 zero28 slot closed staged domain
    have hopen : s.CanOpen c.blk := ⟨part, prio, zero3, zero6, count, zero12, zero28, slot, closed, staged, domain⟩
    have opens : ∀ {d}, s.seqOpen c = d → exec (.kvSeqOpen q) s = .next (s.settle q c d) :=
      hat.exec_eq (f := State.seqOpen) rfl ho rfl
    exact ⟨fun hm htok => opens (hopen.seqOpen_waits hm htok), fun htok hroom => opens (hopen.seqOpen_opens htok hroom)⟩
  case extend =>
    intro ts m htok hi hl hm
    exact appends ho (State.seqExtend_appends htok hi hl hm)
  case notIdle =>
    exact ⟨fun ho => appends ho (State.seqExtend_notIdle hi), fun ho => forks ho (State.seqFork_notIdle hi),
      fun ho => truncates ho (State.seqTruncate_notIdle hi), fun ho => closes ho (State.seqClose_notIdle hi),
      fun ho => swaps ho (State.seqSwapOut_notIdle hi)⟩
  case fork =>
    intro child own shared hi hslot hclosed hroom
    exact ⟨fun hsw ha => forks ho (State.seqFork_recalls hi hslot hclosed hroom hsw ha),
      fun hsw hp => forks ho (State.seqFork_poisoned hi hslot hclosed hroom hsw hp),
      fun hsw hp t halloc => forks ho (State.seqFork_forks hi hslot hclosed hroom hsw hp halloc)⟩
  case truncate =>
    intro l s1 tail hi hl
    refine ⟨fun hm => truncates ho (State.seqTruncate_pages hi hl hm), fun hm hp hown => ?_⟩
    rw [Part.filterMap_filter_eq_pagesAt] at hp
    exact truncates ho (State.seqTruncate_tail hi hl hm hp hown)
  case close => exact closes ho (State.seqClose_idle hi)
  case swapOut =>
    exact ⟨fun t hs => swaps ho (State.seqSwapOut_swaps hi hsw ha hs), fun hs => swaps ho (State.seqSwapOut_noUnits hi hsw ha hs)⟩
  case create =>
    intro d hd hn
    exact hat.exec_args (f := State.domainCreate) rfl ho (State.domainCreate_new hd hn)
  case destroy =>
    intro d hd hn hu
    exact hat.exec_args (f := State.domainDestroy) rfl ho (State.domainDestroy_unused hd hn hu)
  case stats => exact hat.exec_args (f := fun t inl _ => .data ((t.part (u8 inl 0)).kvRecord (u8 inl 0)) 0 t) rfl ho rfl

end Sys2Proof.Machine
end

section
/-! PROOF. Device, session and queue commands at their turn (R239, R323, R324, R326, R328, R330). -/

namespace Sys2Proof.Machine

variable {s : State} {inl blk : List Byte}

/-! ### session.open (R323) -/

theorem State.openSession_attached (hs : s.host.session.isSome = true) : s.openSession inl blk = .refuse rcSession := by
  simp [State.openSession, hs]

theorem State.openSession_kept (hd : s.host.detached.isSome = true) (hk : u8 inl 0 ≠ 1) :
    s.openSession inl blk = .refuse rcSession := by
  simp [State.openSession, hd, hk]

/-- The state once a detached session, where there is one, is discarded. -/
def State.undetached (s : State) : State := if s.host.detached.isSome then s.discard else s

/-- The state with the session `id` attached and none detached. -/
def State.attach (s : State) (id : Nat) : State :=
  { s with clk.free := s.clk.free + 1, host.session := some id, host.detached := none, host.swapPaused := false }

/-- A session opens under a free value as its id. -/
theorem State.openSession_opens (hs : s.host.session = none) (hd : s.host.detached = none ∨ u8 inl 0 = 1) :
    let id := (Config.freeWord s.undetached.clk.free).toNat
    s.openSession inl blk = .ok id (s.undetached.attach id) := by
  have hopen : (s.host.session.isSome || (s.host.detached.isSome && !(u8 inl 0 == 1))) = false := by
    obtain hd | hd := hd
    · simp [hs, hd]
    · simp [hs, hd]
  simp only [State.openSession, hopen]
  rfl

/-! ### session.resume (R324) -/

/-- Which session is attached or detached, and whether swap transfers pause. -/
def State.attachment (s : State) : Option Nat × Option Nat × Bool := (s.host.session, s.host.detached, s.host.swapPaused)

@[simp] theorem State.setQueue_attachment (q : Nat) (x : Queue) : (s.setQueue q x).attachment = s.attachment := rfl

@[simp] theorem State.message_attachment (v : Nat) : (s.message v).attachment = s.attachment := by
  unfold State.message
  split
  · rfl
  · rfl

@[simp] theorem State.stopQueue_attachment (q : Nat) (c : Cmd) : (s.stopQueue q c).attachment = s.attachment := by
  unfold State.stopQueue
  extract_lets
  split
  · rfl
  · rfl

@[simp] theorem State.postEntry_attachment (q : Nat) (c : Cmd) : (s.postEntry q c).attachment = s.attachment := by
  unfold State.postEntry
  extract_lets
  split
  · rfl
  · exact State.message_attachment _

theorem State.postHeld_attachment (n : Nat) (s : State) (q : Nat) : (State.postHeld n s q).2.attachment = s.attachment := by
  induction n generalizing s with
  | zero => rfl
  | succ n ih =>
    unfold State.postHeld
    split
    · rfl
    · split
      · rfl
      · exact (ih _).trans (by simp)

/-- The held completions of every queue in `l` are posted, and their number is added to `a.1`. -/
def State.postAllHeld (a : Nat × State) (l : List Nat) : Nat × State :=
  l.foldl (fun a q =>
    let (k, u) := State.postHeld (a.2.queue q).cmds.length a.2 q
    (a.1 + k, u)) a

theorem State.postAllHeld_attachment (a : Nat × State) (l : List Nat) : (State.postAllHeld a l).2.attachment = a.2.attachment :=
  List.foldlRecOn (motive := fun b : Nat × State => b.2.attachment = a.2.attachment) l _ rfl
    fun _ hb _ _ => (State.postHeld_attachment ..).trans hb

/-- The detached session is attached again, its queues restarted from the base block. -/
def State.reattach (s : State) (blk : List Byte) : State :=
  { s with host.queues := s.host.queues.map (restartQueue blk), host.session := s.host.detached, host.detached := none,
           host.swapPaused := false }

/-- The detached session that the command names is attached, and the held completions are posted. -/
theorem State.resumeSession_resumes (hs : s.host.session = none) (hd : s.host.detached = some (u64 inl 0)) :
    let r := State.postAllHeld (0, s.reattach blk) (List.range 64)
    s.resumeSession inl blk = .ok r.1 r.2 := by
  simp only [State.resumeSession, hs, hd, Option.isSome_none, bne_self_eq_false, Bool.or_self]
  rfl

/-- Posting leaves the session attached. -/
theorem State.postAllHeld_reattach (l : List Nat) :
    (State.postAllHeld (0, s.reattach blk) l).2.attachment = (s.host.detached, none, false) :=
  State.postAllHeld_attachment _ l

/-! ### Queue commands (R323, R326, R328) -/

/-- What queue.create asks of its descriptor `b` (R323). -/
structure QueueSound (b : List Byte) : Prop where
  low : 1 ≤ u8 b 0
  high : u8 b 0 ≤ 63
  policy : u8 b 1 ≤ 1
  vector : u8 b 2 ≤ 63
  zero3 : u8 b 3 = 0
  zero24 : allZero b 0x18 8 = true
  sqLow : 2 ≤ u16 b 4
  sqHigh : u16 b 4 ≤ 4096
  cqLow : 2 ≤ u16 b 6
  cqHigh : u16 b 6 ≤ 4096
  sqBase : u64 b 8 % 4096 = 0
  cqBase : u64 b 0x10 % 4096 = 0

/-- The queue that descriptor `b` creates in place of `x`: of `x` it keeps the number of the next fetch alone. -/
def Queue.created (x : Queue) (b : List Byte) : Queue :=
  { live := true, cont := u8 b 1 == 1, vector := u8 b 2, sqSize := u16 b 4, cqSize := u16 b 6, sqBase := u64 b 8,
    cqBase := u64 b 0x10, fetched := x.fetched }

/-- Of a sound descriptor it is only asked whether the queue lives. -/
theorem QueueSound.createQueue_eq (h : QueueSound blk) : s.createQueue inl blk =
    if (s.queue (u8 blk 0)).live then .refuse rcQueueBusy
    else .ok 0 (s.setQueue (u8 blk 0) ((s.queue (u8 blk 0)).created blk)) := by
  obtain ⟨low, high, policy, vector, zero3, zero24, sqLow, sqHigh, cqLow, cqHigh, sqBase, cqBase⟩ := h
  have hn : u8 blk 0 ≠ 0 := by omega
  have hsq : u16 blk 4 ≠ 0 := by omega
  have hcq : u16 blk 6 ≠ 0 := by omega
  cases hl : (s.queue (u8 blk 0)).live <;>
    simp [State.createQueue, Queue.created, firstFail, hl, hn, hsq, hcq, zero3, zero24, sqBase, cqBase, Nat.not_lt.mpr high,
      Nat.not_lt.mpr policy, Nat.not_lt.mpr vector, Nat.not_lt.mpr sqLow, Nat.not_lt.mpr sqHigh, Nat.not_lt.mpr cqLow,
      Nat.not_lt.mpr cqHigh]

section
variable (hn : u8 inl 0 ≠ 0) (hl : (s.queue (u8 inl 0)).live = true)
include hn hl

theorem State.destroyQueue_idle (hc : (s.queue (u8 inl 0)).cmds = []) (hb : s.boundByEnabled (u8 inl 0) = false) :
    s.destroyQueue inl blk = .ok 0 (s.setQueue (u8 inl 0) (s.queue (u8 inl 0)).gone) := by
  simp [State.destroyQueue, hn, hl, hc, hb]

theorem State.restartStopped_stopped (hs : (s.queue (u8 inl 0)).stopped = true) : s.restartStopped inl blk =
    .ok (s.queue (u8 inl 0)).sqHead (s.setQueue (u8 inl 0) { s.queue (u8 inl 0) with stopped := false }) := by
  simp [State.restartStopped, hn, hl, hs]
end

/-! ### device.arbiter_configure (R239) -/

section
variable (hw : arbWordBad (u8 inl 0) (u32 inl 4) = false)
include hw

theorem State.configureArbiter_one (hk : u16 inl 2 < arbInstances (u8 inl 0)) (h1 : u16 inl 2 ≠ 0xFFFF) :
    s.configureArbiter inl blk = .ok 0 (s.setArb (u8 inl 0) (u16 inl 2)
      ((s.arb (u8 inl 0) (u16 inl 2)).configure (u8 inl 0) (u32 inl 4))) := by
  simp [State.configureArbiter, hw, h1, Nat.not_le.mpr hk]

theorem State.configureArbiter_all (ha : u16 inl 2 = 0xFFFF) : s.configureArbiter inl blk =
    .ok 0 ((List.range (arbInstances (u8 inl 0))).foldl (fun t k =>
      t.setArb (u8 inl 0) k ((t.arb (u8 inl 0) k).configure (u8 inl 0) (u32 inl 4))) s) := by
  simp [State.configureArbiter, hw, ha]
end

/-- Settles O46: each command at its turn comes to its own meaning (`State.AtTurn.exec_eq`), which the lemmas above give; what a
resumed session posts leaves it attached (`State.postAllHeld_reattach`). -/
theorem sessionCommands : Obligations.SessionCommands := by
  intro s q c ht hr hc ok no op b
  have hat : s.AtTurn q c := ⟨ht, hr, hc⟩
  have opens : ∀ {d}, op = 0x0102 → s.openSession c.inl c.blk = d → exec (.sessionOpen q) s = .next (s.settle q c d) := fun ho =>
    hat.exec_args (f := State.openSession) rfl ho
  refine ⟨fun ho => ?identify, fun ho hs => opens ho (State.openSession_attached hs),
    fun ho _ hd hk => opens ho (State.openSession_kept hd hk), fun ho hs hd => opens ho (State.openSession_opens hs hd),
    fun ho hs hd => ?resume,
    fun ho low high policy vector zero3 zero24 sqLow sqHigh cqLow cqHigh sqBase cqBase => ?create,
    fun ho hn hl he hb => ?destroy, fun ho hn hl hs => ?restart, fun ho hl => ?fence,
    fun ho hw hk h1 => ?arbiter, fun ho hw ha => ?arbiters⟩
  case identify =>
    exact hat.exec_args (f := fun t _ _ => .data (openBytes (t.take 64).1 64) 0 (t.take 64).2) rfl ho rfl
  case resume =>
    intro s1 r
    have hpost : r.2.attachment = (some (u64 c.inl 0), none, false) :=
      (State.postAllHeld_reattach (blk := b) (List.range 64)).trans (by rw [hd])
    obtain ⟨hsession, hdetached, hpaused⟩ : _ ∧ _ ∧ _ := by simpa only [State.attachment, Prod.mk.injEq] using hpost
    exact ⟨hat.exec_args (f := State.resumeSession) rfl ho (State.resumeSession_resumes hs hd), hsession, hdetached, hpaused⟩
  case create =>
    have hsound : QueueSound b :=
      ⟨low, high, policy, vector, zero3, zero24, sqLow, sqHigh, cqLow, cqHigh, sqBase, cqBase⟩
    have creates : ∀ {d}, s.createQueue c.inl c.blk = d → exec (.queueCreate q) s = .next (s.settle q c d) :=
      hat.exec_args (f := State.createQueue) rfl ho
    exact ⟨fun hl => creates (hsound.createQueue_eq.trans (if_pos hl)),
      fun hl => creates (hsound.createQueue_eq.trans (if_neg (Bool.eq_false_iff.mp hl)))⟩
  case destroy => exact hat.exec_args (f := State.destroyQueue) rfl ho (State.destroyQueue_idle hn hl he hb)
  case restart => exact hat.exec_args (f := State.restartStopped) rfl ho (State.restartStopped_stopped hn hl hs)
  case fence =>
    exact hat.exec_args (f := fun t inl _ => if (t.queue (u8 inl 0)).live then .ok 0 t else .refuse rcQueueMalformed) rfl ho
      (if_pos hl)
  case arbiter => exact hat.exec_args (f := State.configureArbiter) rfl ho (State.configureArbiter_one hw hk h1)
  case arbiters => exact hat.exec_args (f := State.configureArbiter) rfl ho (State.configureArbiter_all hw ha)

end Sys2Proof.Machine
end

section
/-! PROOF. Partition commands at their turn (R221, R222, R233, R332, R441, R443, R476). -/

namespace Sys2Proof.Machine

variable {s : State} {inl blk : List Byte}

/-! ### partition.configure (R221, R332) -/

/-- The record `b` replaces that of the partition it names, which is then DISABLED, in A2, with the default policy. -/
def State.configured (s : State) (b : List Byte) : State :=
  (s.modPart (u8 b 0) fun x =>
    { (if x.cfg.poolDiffers (partRecord b) then x.releasePool else x) with
        cfg := partRecord b, state := .disabled, policy := 0xF4, low := .a2 }).keyPair (u8 b 0)

section
variable (hb : partBad blk = false) (hz : (partRecord blk).zeroQuota = false)
include hb hz

theorem State.configurePartition_enabled (he : (s.part (u8 blk 0)).state = .enabled) :
    s.configurePartition inl blk = .refuse rcPartitionBusy := by
  unfold State.configurePartition
  extract_lets p r
  rw [hb, show r.zeroQuota = false from hz, show (s.part p).state = .enabled from he]
  rfl

theorem State.configurePartition_configures (he : (s.part (u8 blk 0)).state ≠ .enabled) :
    s.configurePartition inl blk = .ok 0 (s.configured blk) := by
  unfold State.configurePartition
  extract_lets p r
  rw [hb, show r.zeroQuota = false from hz, show ((s.part p).state == .enabled) = false from beq_eq_false_iff_ne.mpr he]
  rfl
end

/-! ### partition.enable (R332, R443) -/

/-- Past its checks partition `p` has its spares, its banks out of retention, its sequencer, and its images checked again. -/
def State.boundForEnable (s : State) (p : Nat) : State := (((s.bindSpares p).retainBanks p false).bindSequencer p).recheck p

theorem State.enablePartition_unfit {code : Nat} (h : s.enableCheck (s.bindSpares (u8 inl 0)) (u8 inl 0) = some code) :
    s.enablePartition inl blk = .refuse code := by
  simp [State.enablePartition, h]

theorem State.enablePartition_enables (h : s.enableCheck (s.bindSpares (u8 inl 0)) (u8 inl 0) = none) :
    let u := s.boundForEnable (u8 inl 0)
    s.enablePartition inl blk = .ok ((u.part (u8 inl 0)).sequencer.getD 0)
      (u.modPart (u8 inl 0) fun x => { x with state := .enabled, low := .a0 }) := by
  simp [State.enablePartition, State.boundForEnable, h]

/-! ### partition.disable (R222, R443) -/

theorem State.disablePartition_disabled (h : (s.part (u8 inl 0)).state = .disabled) : s.disablePartition inl blk = .empty s := by
  simp [State.disablePartition, h]

section
variable (he : (s.part (u8 inl 0)).state = .enabled)
include he

theorem State.disablePartition_busy (hj : (s.part (u8 inl 0)).holdsJob = true) :
    s.disablePartition inl blk = .refuse rcPartitionBusy := by
  simp [State.disablePartition, he, hj]

theorem State.disablePartition_idle (hj : (s.part (u8 inl 0)).holdsJob = false) :
    s.disablePartition inl blk = .ok 0 (s.enterA2 (u8 inl 0)) := by
  simp [State.disablePartition, he, hj]
end

/-! ### partition.policy_set (R233) -/

/-- What partition.policy_set answers: a table whose first key ends the list is refused. -/
def State.setPolicy (s : State) (inl _blk : List Byte) : Done :=
  if u8 inl 1 % 4 = 3 then .refuse rcPartitionMalformed
  else .ok 0 (s.modPart (u8 inl 0) fun x => { x with policy := u8 inl 1 })

/-- Settles O47: each command at its turn comes to its own meaning (`State.AtTurn.exec_args`), which the lemmas above give check by
check. -/
theorem partitionCommands : Obligations.PartitionCommands := by
  intro s q c ht hr hc ok no op b p
  have hat : s.AtTurn q c := ⟨ht, hr, hc⟩
  have disables : ∀ {d}, op = 0x0203 → s.disablePartition c.inl c.blk = d →
      exec (.partitionDisable q) s = .next (s.settle q c d) := fun ho => hat.exec_args (f := State.disablePartition) rfl ho
  refine ⟨fun ho hb hz => ?configure, fun ho => ?enable, fun ho he => ?disable,
    fun ho he => disables ho (State.disablePartition_disabled he), fun ho => ?reset, fun ho => ?policy, fun ho => ?table⟩
  case configure =>
    have configures : ∀ {d}, s.configurePartition c.inl c.blk = d → exec (.partitionConfigure q) s = .next (s.settle q c d) :=
      hat.exec_args (f := State.configurePartition) rfl ho
    exact ⟨fun he => configures (State.configurePartition_enabled hb hz he),
      fun he => configures (State.configurePartition_configures hb hz he)⟩
  case enable =>
    have enables : ∀ {d}, s.enablePartition c.inl c.blk = d → exec (.partitionEnable q) s = .next (s.settle q c d) :=
      hat.exec_args (f := State.enablePartition) rfl ho
    exact ⟨fun code h => enables (State.enablePartition_unfit h), fun h => enables (State.enablePartition_enables h)⟩
  case disable =>
    exact ⟨fun hj => disables ho (State.disablePartition_busy he hj), fun hj => disables ho (State.disablePartition_idle he hj)⟩
  case reset => exact hat.exec_args (f := fun t inl _ => .ok 0 (t.resetPartition (u8 inl 0))) rfl ho rfl
  case policy =>
    have sets : ∀ {d}, s.setPolicy c.inl c.blk = d → exec (.partitionPolicySet q) s = .next (s.settle q c d) :=
      hat.exec_args (f := State.setPolicy) rfl ho
    exact ⟨fun h => sets (if_pos h), fun h => sets (if_neg h)⟩
  case table => exact hat.exec_args (f := fun t inl _ => .data (t.dst (u8 inl 0)) 0 t) rfl ho rfl

end Sys2Proof.Machine
end

section
/-! PROOF. Sensor and group commands at their turn (R242, R243, R247, R248, R256, R259, R268). -/

namespace Sys2Proof.Machine

variable {s : State} {inl blk : List Byte} {code : Nat}

/-! ### sensor.configure (R243) -/

/-- A sensor that is under the descriptor `b` and nothing else. -/
def Sensor.under (b : List Byte) : Sensor := { cfg := b }

/-- The sensor that starts afresh under the descriptor `b` in place of `x`; `down` are the ports out of lock. -/
def Sensor.afresh (x : Sensor) (down : List Nat) (b : List Byte) : Sensor :=
  let same := x.kind != 0xFF && x.isLidar == (Sensor.under b).isLidar
  { cfg := b, stopped := down.contains (Sensor.under b).port, stats := x.stats, calib := if same then x.calib else none
    calibNext := if same then x.calibNext else none, calibDue := if same then x.calibDue else [] }

/-- What sensor.configure refuses, in the order of its checks. -/
def State.sensorCheck (s : State) (b : List Byte) : Option Nat :=
  let y := Sensor.under b
  firstFail [
    (sensorBad b, rcSensorMalformed), (y.isCamera && y.depth == 0, rcZeroSize), ((s.groupOf (u8 b 0)).isSome, rcSensorBusy),
    ((List.range 16).any fun k => k != u8 b 0 && y.clashes (s.sensor k), rcSensorPort),
    (y.isCamera && decide (8388608 < s.ringBytes (u8 b 0) + y.depth * y.lineBytes), rcIngestSpace)]

theorem State.sensorConfigure_eq : s.sensorConfigure inl blk = match s.sensorCheck blk with
    | some code => .refuse code
    | none => .ok 0 (s.modSensor (u8 blk 0) fun x => x.afresh s.cup.portsDown blk) := rfl

theorem State.sensorConfigure_refused (hc : s.sensorCheck blk = some code) : s.sensorConfigure inl blk = .refuse code := by
  rw [State.sensorConfigure_eq, hc]

theorem State.sensorConfigure_passes (hc : s.sensorCheck blk = none) :
    s.sensorConfigure inl blk = .ok 0 (s.modSensor (u8 blk 0) fun x => x.afresh s.cup.portsDown blk) := by
  rw [State.sensorConfigure_eq, hc]

theorem State.sensorCheck_malformed (hb : sensorBad blk = true) : s.sensorCheck blk = some rcSensorMalformed := by
  simp [State.sensorCheck, firstFail, hb]

/-- What is checked of a camera alone passes where a camera passes it. -/
theorem camera_and_eq_false {cam bad : Bool} (h : cam = true → bad = false) : (cam && bad) = false := by
  cases cam
  · rfl
  · exact h rfl

/-- A sound descriptor with room for its ring, of a sensor in no started group that clashes with no other, passes. -/
theorem State.sensorCheck_sound (hb : sensorBad blk = false)
    (hroom : (Sensor.under blk).isCamera = true → (Sensor.under blk).depth ≠ 0 ∧
      s.ringBytes (u8 blk 0) + (Sensor.under blk).depth * (Sensor.under blk).lineBytes ≤ 8388608)
    (hg : s.groupOf (u8 blk 0) = none)
    (hfree : ∀ k, k < 16 → k ≠ u8 blk 0 → (Sensor.under blk).clashes (s.sensor k) = false) : s.sensorCheck blk = none := by
  have hdepth : ((Sensor.under blk).isCamera && (Sensor.under blk).depth == 0) = false :=
    camera_and_eq_false fun hcam => beq_eq_false_iff_ne.mpr (hroom hcam).1
  have hclash : ((List.range 16).any fun k => k != u8 blk 0 && (Sensor.under blk).clashes (s.sensor k)) = false :=
    List.any_eq_false.mpr fun k hk => by simpa using hfree k (List.mem_range.mp hk)
  have hring : ((Sensor.under blk).isCamera && decide (8388608 < s.ringBytes (u8 blk 0) +
      (Sensor.under blk).depth * (Sensor.under blk).lineBytes)) = false :=
    camera_and_eq_false fun hcam => decide_eq_false (Nat.not_lt.mpr (hroom hcam).2)
  simp only [State.sensorCheck, hb, hdepth, hg, hclash, hring]
  rfl

theorem State.sensorRelease_releases (hi : u8 blk 0 ≤ 15) (hz : allZero blk 0x34 12 = true) (hg : s.groupOf (u8 blk 0) = none) :
    s.sensorRelease blk = .ok 0 (s.modSensor (u8 blk 0) fun x => { stats := x.stats }) := by
  simp [State.sensorRelease, Nat.not_lt.mpr hi, hz, hg]

/-! ### sensor.calibrate, sensor.parse_table, sensor.trigger and sensor.eth_send (R242, R247, R248, R259) -/

theorem State.sensorCalibrate_malformed (hb : calibBad (s.sensor (u8 blk 0)) blk = true) :
    s.sensorCalibrate inl blk = .refuse rcSensorMalformed := by
  simp [State.sensorCalibrate, hb]

theorem State.sensorCalibrate_sound (hi : u8 blk 0 ≤ 15) (hb : calibBad (s.sensor (u8 blk 0)) blk = false) :
    s.sensorCalibrate inl blk = .ok 0 (s.modSensor (u8 blk 0) fun x => { x with calibNext := some blk }) := by
  simp [State.sensorCalibrate, Nat.not_lt.mpr hi, hb]

theorem State.ethSend_sends (hlo : 8 ≤ u8 inl 0) (hhi : u8 inl 0 ≤ 11) (hmin : 60 ≤ u16 inl 2) (hmax : u16 inl 2 ≤ 1518)
    (hup : s.cup.portsDown.contains (u8 inl 0) = false) : s.ethSend inl blk = .ok 0 (s.emit (.eth (u8 inl 0) blk)) := by
  refine if_neg ?_
  rw [hup]
  simp [Nat.not_lt.mpr hlo, Nat.not_lt.mpr hhi, Nat.not_lt.mpr hmin, Nat.not_lt.mpr hmax]

/-! ### Groups (R256) -/

theorem State.groupConfigure_refused (hc : s.groupCheck blk = some code) : s.groupConfigure none blk = .refuse code := by
  unfold State.groupConfigure
  rw [hc]

/-- Group `g` is configured by `b`, its release window open under `id` in place of the one it had. -/
def State.configureGroup (s : State) (g id : Nat) (b : List Byte) : State :=
  ((s.dropRelease g).openWindow id (releaseWin g (u8 b 2))).modGroup g fun x =>
    { configured := true, cfg := b, window := id, blocked := x.blocked, fault := x.fault }

theorem State.groupConfigure_opens {id : Nat} (hc : s.groupCheck blk = none) (hw : s.freeWindow = some id) :
    let u := s.configureGroup (u8 blk 0) id blk
    s.groupConfigure none blk = .ok (u.handle id).toNat u := by
  unfold State.groupConfigure
  rw [hc, show s.windowId none = some id from hw]
  rfl

section
variable (hc : (s.group (u8 inl 0)).configured = true)
include hc

theorem State.groupStart_started (hs : (s.group (u8 inl 0)).started = true) : s.groupStart inl blk = .refuse rcGroupBusy := by
  simp [State.groupStart, hc, hs]

theorem State.groupStart_stopped (hs : (s.group (u8 inl 0)).started = false) :
    s.groupStart inl blk = .ok 0 (s.startGroup (u8 inl 0)) := by
  simp [State.groupStart, hc, hs]
end

section
variable {q : Nat} {c : Cmd} (hs : (s.group (u8 c.inl 0)).started = true) (hp : (s.group (u8 c.inl 0)).stopping = none)
include hs hp

theorem State.groupStop_noFrame (hf : (s.group (u8 c.inl 0)).frame = none) :
    s.groupStop q c = .ok 0 (s.stopGroup (u8 c.inl 0)) := by
  simp [State.groupStop, hs, hp, hf]

/-- A stop waits for the frame in progress. -/
theorem State.groupStop_frame (hf : (s.group (u8 c.inl 0)).frame.isSome = true) :
    s.groupStop q c = .runs (s.modGroup (u8 c.inl 0) fun y => { y with stopping := some (q, c.no) }) := by
  simp [State.groupStop, hs, hp, Option.isSome_iff_ne_none.mp hf]
end

/-- Settles O51: each command at its turn comes to its own meaning (`State.AtTurn.exec_eq`), which the lemmas above give check by
check. -/
theorem sensorCommands : Obligations.SensorCommands := by
  intro s q c ht hr hc ok no op b g
  have hat : s.AtTurn q c := ⟨ht, hr, hc⟩
  refine ⟨fun ho hk => ?configure, fun ho hk hi hz hg => ?release, fun ho => ?calibrate, fun ho => ?table, fun ho => ?trigger,
    fun ho hlo hhi hmin hmax hup => ?send, fun ho => ?stats, fun ho => ?group, fun ho hconf => ?start, fun ho hs hp => ?stop⟩
  case configure =>
    intro i y
    have hmine : (!releasing c) = true := by simpa [releasing] using hk
    have configures : ∀ {d}, s.sensorConfigure c.inl c.blk = d → exec (.sensorConfigure q) s = .next (s.settle q c d) :=
      hat.exec_eq (f := fun t c => t.sensorConfigure c.inl c.blk) rfl ho hmine
    exact ⟨fun hb => configures (State.sensorConfigure_refused (State.sensorCheck_malformed hb)),
      fun hb hroom hg hfree => configures (State.sensorConfigure_passes (State.sensorCheck_sound hb hroom hg hfree))⟩
  case release =>
    have hmine : releasing c = true := beq_iff_eq.mpr hk
    exact hat.exec_eq (f := fun t c => t.sensorRelease c.blk) rfl ho hmine (State.sensorRelease_releases hi hz hg)
  case calibrate =>
    have calibrates : ∀ {d}, s.sensorCalibrate c.inl c.blk = d → exec (.sensorCalibrate q) s = .next (s.settle q c d) :=
      hat.exec_args (f := State.sensorCalibrate) rfl ho
    exact ⟨fun hi hb => calibrates (State.sensorCalibrate_sound hi hb),
      fun hb => calibrates (State.sensorCalibrate_malformed hb)⟩
  case table =>
    have sets : ∀ {d}, s.parseTable c.inl c.blk = d → exec (.sensorParseTable q) s = .next (s.settle q c d) :=
      hat.exec_args (f := State.parseTable) rfl ho
    exact ⟨fun hb => sets (if_pos hb), fun hb => sets (if_neg (Bool.eq_false_iff.mp hb))⟩
  case trigger =>
    have sets : ∀ {d}, s.sensorTrigger c.inl c.blk = d → exec (.sensorTrigger q) s = .next (s.settle q c d) :=
      hat.exec_args (f := State.sensorTrigger) rfl ho
    exact ⟨fun hb => sets (if_pos hb), fun hb => sets (if_neg (Bool.eq_false_iff.mp hb))⟩
  case send => exact hat.exec_args (f := State.ethSend) rfl ho (State.ethSend_sends hlo hhi hmin hmax hup)
  case stats => exact hat.exec_args (f := fun t inl _ => .data (t.sensorRecord (u8 inl 0)) 0 t) rfl ho rfl
  case group =>
    have configures : ∀ {d}, s.groupConfigure none c.blk = d → exec (.groupConfigure q) s = .next (s.settle q c d) :=
      hat.exec_args (f := fun t _ b => t.groupConfigure none b) rfl ho
    exact ⟨fun code h => configures (State.groupConfigure_refused h),
      fun id h hw => configures (State.groupConfigure_opens h hw)⟩
  case start =>
    have starts : ∀ {d}, s.groupStart c.inl c.blk = d → exec (.groupStart q) s = .next (s.settle q c d) :=
      hat.exec_args (f := State.groupStart) rfl ho
    exact ⟨fun hs => starts (State.groupStart_started hconf hs), fun hs => starts (State.groupStart_stopped hconf hs)⟩
  case stop =>
    have stops : ∀ {d}, s.groupStop q c = d → exec (.groupStop q) s = .next (s.settle q c d) :=
      hat.exec_eq (f := fun t c => t.groupStop q c) rfl ho rfl
    exact ⟨fun hf => stops (State.groupStop_noFrame hs hp hf), fun hf => stops (State.groupStop_frame hs hp hf)⟩

end Sys2Proof.Machine
end

section
/-! PROOF. Cupola's ingest: camera lines and images, Ethernet frames, lidar packets and their returns (R241 to R249, R253, R255). -/

namespace Sys2Proof.Machine

variable {s : State} {port vc i g : Nat}

/-! ### Images of a camera (R245) -/

/-- Image `frame` of sensor `i` begins at `x`, under the next ingest sequence number. -/
def State.beginImage (s : State) (i frame : Nat) (x : Sensor) : Sensor :=
  { s.stampImage i frame x with
    seqNo := some (match x.seqNo with
      | some n => (n + 1) % 2 ^ 32
      | none => 0)
    lineNo := Map.set 0 x.lineNo 0 0, raws := [], inImage := true, gatesEnded := [], damaged := false
    member := { x.member with sent := true } }

/-- The stamp of an image moves the sensor's times alone. -/
theorem State.stampImage_eq (frame : Nat) (x : Sensor) :
    ∃ t m, s.stampImage i frame x = { x with time := t, imageTime := m } := by
  unfold State.stampImage
  split
  · exact ⟨_, _, rfl⟩
  · exact ⟨x.time, _, rfl⟩

theorem execCsiFrameStart_first {frame : Nat} (hc : s.cameraAt port vc = some (i, 0)) :
    let t := s.modSensor i (s.beginImage i frame)
    exec (.csiFrameStart port vc frame) s = .next (t.anchorEvent i (t.sensor i).imageTime) := by
  show execCsiFrameStart port vc frame s = _
  have hbegin : s.beginImage i frame = fun x =>
      let y := s.stampImage i frame x
      { y with
        seqNo := some (match y.seqNo with
          | some n => (n + 1) % 2 ^ 32
          | none => 0)
        lineNo := Map.set 0 y.lineNo 0 0, raws := [], inImage := true, gatesEnded := [], damaged := false
        member := { y.member with sent := true } } := by
    funext x
    obtain ⟨t, m, hx⟩ := State.stampImage_eq (s := s) (i := i) frame x
    unfold State.beginImage
    rw [hx]
  rw [hbegin]
  unfold execCsiFrameStart
  rw [hc]
  rfl

theorem execCsiFrameStart_gate {frame gate : Nat} (hc : s.cameraAt port vc = some (i, gate + 1)) :
    exec (.csiFrameStart port vc frame) s = .next (s.modSensor i fun x => { x with lineNo := Map.set 0 x.lineNo (gate + 1) 0 }) := by
  show execCsiFrameStart port vc frame s = _
  unfold execCsiFrameStart
  rw [hc]
  rfl

/-- Line `y` of a gate has come; `ok` says whether its CRC held. -/
def Sensor.nextLine (z : Sensor) (gate y : Nat) (ok : Bool) : Sensor :=
  { z with lineNo := Map.set 0 z.lineNo gate (y + 1), damaged := z.damaged || !ok, stats := { z.stats with lines := z.stats.lines + 1 } }

theorem execCsiLongPacket_line {errors gate y : Nat} {ok : Bool} {px : List Nat} (he : errors < 2)
    (hc : s.cameraAt port vc = some (i, gate)) (hin : (s.sensor i).inImage = true)
    (hend : (s.sensor i).gatesEnded.contains gate = false) (hy : Map.get 0 (s.sensor i).lineNo gate = y)
    (hh : y < (s.sensor i).height) :
    exec (.csiLongPacket port vc (s.sensor i).dataType errors ok px) s =
      .next ((s.modSensor i fun z => z.nextLine gate y ok).takeLine i gate y ok px) := by
  show execCsiLongPacket port vc _ errors ok px s = _
  subst hy
  unfold execCsiLongPacket
  rw [if_neg (Nat.not_le.mpr he), hc]
  refine if_neg ?_
  rw [hin, hend]
  simp [Nat.not_le.mpr hh]

/-! ### Lines in their ring (R244 to R246) -/

theorem State.heldSlot_idle {l : RingLine} (hs : s.stem = []) : s.heldSlot i l = false := by
  unfold State.heldSlot
  rw [hs]
  rfl

/-- The samples of a packet that carries them all, none over its width, arrive as they are. -/
theorem lineSamples_whole {w seed : Nat} {px : List Nat} (hb : ∀ v ∈ px, v < 2 ^ w) : lineSamples w seed px.length px = px := by
  refine List.ext_getElem (by simp [lineSamples]) fun k hk hp => ?_
  simp [lineSamples, hp, Nat.mod_eq_of_lt (hb _ (List.getElem_mem hp))]

/-- A slot that holds another line takes the new one alone, where no stem command may hold it. -/
theorem State.storeLine_fresh {y needed k : Nat} {px : List Nat} (hs : s.stem = [])
    (hr : (Map.get {} (s.sensor i).ring (y % (s.sensor i).depth)).y ≠ y) :
    s.storeLine i y [(k, px)] needed = ({ s with clk.free := s.clk.free + 1 } : State).modSensor i fun z => { z with
      ring := Map.set {} z.ring (y % (s.sensor i).depth) ⟨(s.sensor i).seqNo.getD 0, y, [(k, px)], decide (needed ≤ 1)⟩ } := by
  simp only [State.storeLine, State.heldSlot_idle hs, hr]
  simp [State.take, Map.insert]

/-- A line of one component that no stem command holds is stored, as zeros where its CRC failed. -/
theorem State.takeLine_mono {gate y : Nat} {ok : Bool} {px : List Nat} (hk : (s.sensor i).kind ≠ 2)
    (hrgb : (s.sensor i).dataType ≠ 0x24) (hyuv : (s.sensor i).dataType ≠ 0x1E) (hb : (s.sensor i).bayer = 0) (hs : s.stem = [])
    (hr : (Map.get {} (s.sensor i).ring (y % (s.sensor i).depth)).y ≠ y) (hl : px.length = (s.sensor i).width)
    (hv : ∀ v ∈ px, v < 2 ^ (s.sensor i).compBits) :
    s.takeLine i gate y ok px = ({ s with clk.free := s.clk.free + 16385 } : State).modSensor i fun z => { z with
      ring := Map.set {} z.ring (y % (s.sensor i).depth)
        ⟨(s.sensor i).seqNo.getD 0, y, [(0, if ok then px else List.replicate (s.sensor i).width 0)], true⟩ } := by
  have hpx : (if ok then lineSamples (s.sensor i).compBits s.clk.free (s.sensor i).width px
      else List.replicate (s.sensor i).width 0) = if ok then px else List.replicate (s.sensor i).width 0 := by
    rw [← hl, lineSamples_whole hv]
  have hstore := State.storeLine_fresh (s := (s.take 16384).2) (i := i) (y := y) (needed := 1) (k := 0)
    (px := if ok then px else List.replicate (s.sensor i).width 0) hs hr
  simp only [State.takeLine, hk, hrgb, hyuv, hb, if_false, if_true, Nat.mul_one]
  rw [show (s.take 16384).1 = s.clk.free from rfl, hpx, hstore]
  rfl

/-! ### The end of an image (R241, R245, R255, R258) -/

section
variable (hg : s.groupOf i = some g)
include hg

theorem State.joinImage_untimed (ht : (s.sensor i).time.timed = false) : s.joinImage i = s.modSensor i fun z =>
    { z with stats := { z.stats with unalignedDrops := z.stats.unalignedDrops + 1 } } := by
  unfold State.joinImage
  rw [hg]
  simp only [ht]
  rfl

section
variable (ht : (s.sensor i).time.timed = true)
include ht

theorem State.joinImage_damaged (hd : (s.sensor i).damaged = true) : s.joinImage i = s := by
  unfold State.joinImage
  rw [hg]
  simp only [ht, hd]
  rfl

theorem State.joinImage_whole (hd : (s.sensor i).damaged = false) (hl : (s.sensor i).lines = (s.sensor i).height) :
    s.joinImage i = s.modSensor i fun z => { z with
      member := { z.member with images := z.member.images ++ [⟨z.imageTime, (s.group g).isLate z.imageTime, z.seqNo.getD 0⟩] } } := by
  unfold State.joinImage
  rw [hg]
  simp [ht, hd, hl]
end
end

/-- The image of a sensor is over; a damaged one is counted. -/
def Sensor.endImage (z : Sensor) : Sensor :=
  { z with
    inImage := false, gatesEnded := [], raws := [], lastDamaged := z.damaged
    stats := if z.damaged then { z.stats with damaged := z.stats.damaged + 1 } else z.stats }

/-- The last line of a Bayer image, which had no line below it, is completed. -/
def State.lastLine (s : State) (i : Nat) : State :=
  if (s.sensor i).bayer = 0 then s
  else match (s.sensor i).raws with
    | line :: rest => s.bayerLine i ((s.sensor i).lines - 1) ((rest.map Prod.snd).headD []) line []
    | [] => s

section
variable {gate : Nat} (hc : s.cameraAt port vc = some (i, gate)) (hin : (s.sensor i).inImage = true)
include hc hin

theorem execCsiFrameEnd_gate (hn : (dedup (gate :: (s.sensor i).gatesEnded)).length < (s.sensor i).gates) :
    exec (.csiFrameEnd port vc) s =
      .next (s.modSensor i fun z => { z with gatesEnded := dedup (gate :: (s.sensor i).gatesEnded) }) := by
  show execCsiFrameEnd port vc s = _
  unfold execCsiFrameEnd
  rw [hc]
  simp only [hin, hn, if_true]
  rfl

theorem execCsiFrameEnd_last (hn : (s.sensor i).gates ≤ (dedup (gate :: (s.sensor i).gatesEnded)).length) :
    exec (.csiFrameEnd port vc) s = .next (((s.lastLine i).joinImage i).modSensor i Sensor.endImage).noteReady := by
  show execCsiFrameEnd port vc s = _
  have hlast : s.lastLine i = match (s.sensor i).bayer, (s.sensor i).raws with
      | 0, _ => s
      | _, line :: rest => s.bayerLine i ((s.sensor i).lines - 1) ((rest.map Prod.snd).headD []) line []
      | _, _ => s := by
    unfold State.lastLine
    cases (s.sensor i).bayer with
    | zero => rfl
    | succ n =>
      cases (s.sensor i).raws with
      | nil => rfl
      | cons line rest => rfl
  rw [hlast]
  unfold execCsiFrameEnd
  rw [hc]
  simp only [hin, Nat.not_lt.mpr hn, if_false]
  rfl
end

/-! ### Ethernet frames (R242, R249) -/

/-- The frames `l` are queued for the parser of a port. -/
def State.setFrames (s : State) (port : Nat) (l : List EthFrame) : State :=
  { s with cup := { s.cup with queues := Map.set [] s.cup.queues port l } }

/-- The stamp of a frame of lidar `i` on a port: its own on the anchor's port, otherwise Cupola's copy of the group's count. -/
def State.frameStamp (s : State) (port i : Nat) (f : EthFrame) : Nat :=
  match s.groupOf i with
  | some g => if (s.sensor (s.group g).anchor).port = port then f.stamp else (s.group g).count
  | none => f.stamp

section
variable {f : EthFrame} (hlo : 8 ≤ port) (hhi : port < 12) (hup : s.cup.portsDown.contains port = false)
include hlo hhi hup

/-- A port that is up and in range lets a frame in. -/
theorem ethPort_open : (decide (port < 8) || decide (12 ≤ port) || s.cup.portsDown.contains port) = false := by
  rw [hup]
  simp [Nat.not_lt.mpr hlo, Nat.not_le.mpr hhi]

theorem execEthFrameReceive_bad (hf : f.fcsOk = false) : exec (.ethFrameReceive port f) s =
    .next { s with cup.etherDropped := Map.modify 0 s.cup.etherDropped port (· + 1) } := by
  show execEthFrameReceive port f s = _
  simp only [execEthFrameReceive, ethPort_open hlo hhi hup, hf]
  rfl

section
variable {u : Nat} {p : List Byte} (hf : f.fcsOk = true) (hu : udpOf f.bytes = some (u, p)) (hi : s.lidarAt port u = some i)
include hf hu hi

theorem execEthFrameReceive_queued (hq : (Map.get [] s.cup.queues port).length < 64) : exec (.ethFrameReceive port f) s =
    .next (s.setFrames port (Map.get [] s.cup.queues port ++ [{ f with stamp := s.frameStamp port i f }])) := by
  show execEthFrameReceive port f s = _
  simp only [execEthFrameReceive, ethPort_open hlo hhi hup, hf, hu, hi, Nat.not_le.mpr hq]
  rfl

theorem execEthFrameReceive_full (hq : 64 ≤ (Map.get [] s.cup.queues port).length) : exec (.ethFrameReceive port f) s =
    .next (s.modSensor i fun x => { x with stats := { x.stats with parseOverrun := x.stats.parseOverrun + 1 } }) := by
  show execEthFrameReceive port f s = _
  simp only [execEthFrameReceive, ethPort_open hlo hhi hup, hf, hu, hi, hq]
  rfl
end
end

/-! ### Lidar packets (R248) -/

/-- The parse table of lidar `i`. -/
def State.tableOf (s : State) (i : Nat) : List Byte := Map.get [] s.cup.tables (s.sensor i).parse

section
variable {f : EthFrame} {rest : List EthFrame} {u : Nat} {p : List Byte} (hq : Map.get [] s.cup.queues port = f :: rest)
  (hu : udpOf f.bytes = some (u, p)) (hi : s.lidarAt port u = some i)
include hq hu hi

theorem execLidarPacketParse_parsed (hb : s.tableOf i ≠ []) (hl : tMinLen (s.tableOf i) ≤ p.length)
    (hm : matchesAll (s.tableOf i) p = true) : exec (.lidarPacketParse port) s =
      .next (({ ((s.setFrames port rest).modSensor i fun x => { x with stats := { x.stats with packets := x.stats.packets + 1 } }) with
        clk.free := s.clk.free + 65536 } : State).joinReturns i f.stamp (timeVal (s.tableOf i) p 0 0)
          (packetReturns (s.tableOf i) p s.clk.free)) := by
  show execLidarPacketParse port s = _
  have hi : State.lidarAt { s with cup := { s.cup with queues := Map.set [] s.cup.queues port rest } } port u = some i := hi
  have hpass : ((s.tableOf i).isEmpty || p.length < tMinLen (s.tableOf i) || !matchesAll (s.tableOf i) p) = false := by
    simp [hb, Nat.not_lt.mpr hl, hm]
  unfold execLidarPacketParse
  rw [hq]
  simp only [hu, hi]
  exact if_neg (Bool.eq_false_iff.mp hpass)

theorem execLidarPacketParse_failed
    (hbad : s.tableOf i = [] ∨ p.length < tMinLen (s.tableOf i) ∨ matchesAll (s.tableOf i) p = false) :
    exec (.lidarPacketParse port) s = .next ((s.setFrames port rest).modSensor i fun x =>
      { x with stats := { x.stats with failed := x.stats.failed + 1 } }) := by
  show execLidarPacketParse port s = _
  have hi : State.lidarAt { s with cup := { s.cup with queues := Map.set [] s.cup.queues port rest } } port u = some i := hi
  have hfail : ((s.tableOf i).isEmpty || p.length < tMinLen (s.tableOf i) || !matchesAll (s.tableOf i) p) = true := by
    simpa [or_assoc] using hbad
  unfold execLidarPacketParse
  rw [hq]
  simp only [hu, hi]
  exact if_pos hfail
end

/-! ### Returns that join (R253, R255, R257) -/

/-- In a canonical table a sensor reads as it was last set. -/
theorem State.sensor_modSensor {f : Sensor → Sensor} (hw : Map.wf {} s.cup.sensors = true) :
    (s.modSensor i f).sensor i = f (s.sensor i) := Map.get_set_self hw i _

theorem State.modSensor_sensors_wf {f : Sensor → Sensor} (hw : Map.wf {} s.cup.sensors = true) :
    Map.wf {} (s.modSensor i f).cup.sensors = true := Map.wf_set hw i _

@[simp] theorem State.modGroup_sensors (f : Group → Group) : (s.modGroup g f).cup.sensors = s.cup.sensors := rfl

@[simp] theorem State.anchorEvent_sensors (t : Int) : (s.anchorEvent i t).cup.sensors = s.cup.sensors := by
  unfold State.anchorEvent
  split
  · split
    · rfl
    · rfl
  · rfl

@[simp] theorem State.noteReady_sensors : s.noteReady.cup.sensors = s.cup.sensors := by
  unfold State.noteReady
  extract_lets
  split
  · rfl
  · rfl

/-- The ends of a packet's sweeps are events of a group, and leave the sensors. -/
theorem State.foldl_anchorEvent_sensors (l : List Int) (t : State) :
    (l.foldl (fun (t : State) e => t.anchorEvent i e) t).cup.sensors = t.cup.sensors :=
  List.foldlRecOn (motive := fun b : State => b.cup.sensors = t.cup.sensors) l _ rfl
    fun _ hb _ _ => (State.anchorEvent_sensors _).trans hb

/-- The sensor has sent something, and `last` is the time of its latest sample. -/
def Sensor.hasSent (z : Sensor) (last : Int) : Sensor :=
  { z with time := { z.time with sample := last }, member := { z.member with sent := true } }

/-- The points `pts` of `n` returns join the sensor's frames; `past` is the side of SWEEP_AZ after them. -/
def Sensor.addPoints (z : Sensor) (pts : List Pt) (n : Nat) (past : Option Bool) : Sensor :=
  { z with
    sweepPast := past, member := { z.member with points := z.member.points ++ pts }
    stats := { z.stats with points := z.stats.points + BitVec.ofNat 64 n } }

/-- `n` samples without an anchor time are counted. -/
def Sensor.dropUnaligned (z : Sensor) (n : Nat) : Sensor :=
  { z with stats := { z.stats with unalignedDrops := z.stats.unalignedDrops + BitVec.ofNat 64 n } }

/-- The points that returns give to the frames of group `g`. -/
def Sensor.pointsOf (x : Sensor) (y : Group) (stamp : Nat) (first : Int) (l : List Ret) : List Pt :=
  l.zipIdx.map fun e =>
    let t := x.returnTime stamp first e.1.time
    e.1.point l e.2 t (y.isLate t) (x.time.state == .arrival)

/-- The sweeps that end with the returns. -/
def Sensor.sweepsOf (x : Sensor) (stamp : Nat) (first : Int) (l : List Ret) : List Int × Option Bool :=
  sweepEnds x.sweepPast (l.map fun e => (x.returnTime stamp first e.time, e.sweep))

/-- The state once sensor `i` is known to have sent the returns. -/
def State.heard (s : State) (i : Nat) (l : List Ret) : State :=
  s.modSensor i fun z => z.hasSent ((l.getLast?.map (·.time)).getD (s.sensor i).time.sample)

section
variable {stamp : Nat} {first : Int} {l : List Ret}

section
variable (hg : s.groupOf i = some g)
include hg

theorem State.joinReturns_timed (ht : (s.sensor i).time.timed = true) :
    let x := s.sensor i
    s.joinReturns i stamp first l = (((x.sweepsOf stamp first l).1.foldl (fun (t : State) e => t.anchorEvent i e)
      ((s.heard i l).modSensor i fun z =>
        z.addPoints (x.pointsOf (s.group g) stamp first l) l.length (x.sweepsOf stamp first l).2))).noteReady := by
  unfold State.joinReturns
  rw [hg]
  simp only [ht]
  rfl

theorem State.joinReturns_untimed (ht : (s.sensor i).time.timed = false) :
    s.joinReturns i stamp first l = (s.heard i l).modSensor i fun z => z.dropUnaligned l.length := by
  unfold State.joinReturns
  rw [hg]
  simp only [ht]
  rfl
end

variable (hw : Map.wf {} s.cup.sensors = true)
include hw

/-- In a canonical table the sensor reads as the returns and `f` have left it. -/
theorem State.sensor_heard_modSensor (f : Sensor → Sensor) : ((s.heard i l).modSensor i f).sensor i =
    f ((s.sensor i).hasSent ((l.getLast?.map (·.time)).getD (s.sensor i).time.sample)) := by
  exact (State.sensor_modSensor (State.modSensor_sensors_wf hw)).trans (congrArg f (State.sensor_modSensor hw))

/-- The ends of the sweeps leave the points that have joined. -/
theorem State.sensor_joinReturns_timed (hg : s.groupOf i = some g) (ht : (s.sensor i).time.timed = true) :
    let x := s.sensor i
    (s.joinReturns i stamp first l).sensor i = (x.hasSent ((l.getLast?.map (·.time)).getD x.time.sample)).addPoints
      (x.pointsOf (s.group g) stamp first l) l.length (x.sweepsOf stamp first l).2 := by
  intro x
  have hsensors : (s.joinReturns i stamp first l).cup.sensors = ((s.heard i l).modSensor i fun z =>
      z.addPoints (x.pointsOf (s.group g) stamp first l) l.length (x.sweepsOf stamp first l).2).cup.sensors := by
    rw [State.joinReturns_timed hg ht, State.noteReady_sensors, State.foldl_anchorEvent_sensors]
  unfold State.sensor
  rw [hsensors]
  exact State.sensor_heard_modSensor hw _
end

/-- Settles O33: each event comes to one equation for each of its branches; of the returns that join, the sensor's own record is
read back from the canonical table. -/
theorem cupolaIngest : Obligations.CupolaIngest := by
  refine ⟨fun s port vc frame i hc => execCsiFrameStart_first hc, fun s port vc frame i gate hc => execCsiFrameStart_gate hc,
    fun s port vc errors i gate y ok px he hc hin hend hy hh => execCsiLongPacket_line he hc hin hend hy hh,
    fun s port vc ty errors ok px he => if_pos he,
    fun s i gate y ok px hk hrgb hyuv hb hs hr hl hv => State.takeLine_mono hk hrgb hyuv hb hs hr hl hv,
    fun s port vc i gate hc hin => ⟨execCsiFrameEnd_gate hc hin, execCsiFrameEnd_last hc hin⟩,
    fun s i g hg => ⟨State.joinImage_untimed hg, State.joinImage_damaged hg, State.joinImage_whole hg⟩,
    fun s port f hlo hhi hup => ⟨execEthFrameReceive_bad hlo hhi hup, fun u p i hf hu hi =>
      ⟨execEthFrameReceive_queued hlo hhi hup hf hu hi, execEthFrameReceive_full hlo hhi hup hf hu hi⟩⟩,
    fun s port u i f rest p hq hu hi => ⟨execLidarPacketParse_parsed hq hu hi, execLidarPacketParse_failed hq hu hi⟩,
    fun s i stamp g first l hw hg => ⟨fun ht => ?timed, fun ht => ?untimed⟩⟩
  case timed =>
    rw [State.sensor_joinReturns_timed hw hg ht]
    exact ⟨rfl, by simp [Sensor.addPoints, Sensor.hasSent, Sensor.pointsOf]⟩
  case untimed =>
    rw [State.joinReturns_untimed hg ht, State.sensor_heard_modSensor hw]
    exact ⟨rfl, rfl⟩

end Sys2Proof.Machine
end

section
/-! PROOF. Times: strobes and missed strobes, anchor counts, trigger pulses, sensor ports lost and regained (R247, R252 to R255, R262,
R294, R416). -/

namespace Sys2Proof.Machine

variable {s : State} {i g port : Nat}

/-! ### A strobe edge in a sensor's fit (R254, R255) -/

section
variable {x : SensorTime} {f : Fit} {period slip rate : Nat} {t : Int} (hf : fitOf x.pairs = some f)
include hf

section
variable (hx : x.state = .aligned)
include hx

theorem SensorTime.strobe_aligned_consistent (hc : f.consistent slip rate (f.nearest period t) t = true) :
    x.strobe period slip rate t = ({ x with pairs := ((f.nearest period t, t) :: x.pairs).take 16, missed := 0 }, false) := by
  simp [SensorTime.strobe, hx, hf, hc]

theorem SensorTime.strobe_aligned_slips (hc : f.consistent slip rate (f.nearest period t) t = false) :
    x.strobe period slip rate t = ({ x with state := .unaligned, pairs := [], run := 0, missed := 0 }, true) := by
  simp [SensorTime.strobe, hx, hf, hc]
end

section
variable (hx : x.state = .unaligned)
include hx

/-- A consistent edge lengthens the run, and the sixteenth in a row aligns the sensor. -/
theorem SensorTime.strobe_unaligned_consistent (hc : f.consistent slip rate (nearestInt x.sample period * period) t = true) :
    let k := min 16 (x.run + 1)
    x.strobe period slip rate t = ({ x with
      pairs := ((nearestInt x.sample period * period, t) :: x.pairs).take 16, run := k, missed := 0
      state := if k = 16 then .aligned else .unaligned }, false) := by
  simp [SensorTime.strobe, hx, hf, hc]

theorem SensorTime.strobe_unaligned_restarts (hr : 2 ≤ x.run)
    (hc : f.consistent slip rate (nearestInt x.sample period * period) t = false) :
    x.strobe period slip rate t =
      ({ x with pairs := [(nearestInt x.sample period * period, t)], run := 1, missed := 0 }, false) := by
  simp [SensorTime.strobe, hx, hf, hc, Nat.not_lt.mpr hr]
end
end

/-! ### Missed strobes and the anchor's counter (R252, R255, R262) -/

/-- The sensor is UNALIGNED, without a pair. -/
def Sensor.unalign (y : Sensor) : Sensor :=
  { y with time := { y.time with state := .unaligned, pairs := [], run := 0, missed := 0 } }

section
variable (hg : s.groupOf i = some g)
include hg

theorem State.anchorLost_member :
    s.anchorLost i = if (s.group g).anchor = i then s.modGroup g fun x => { x with broken := true } else s := by
  unfold State.anchorLost
  rw [hg]

section
variable (hs : (s.sensor i).strobeTimed = true)
include hs

theorem execStrobeMissed_counts (hx : (s.sensor i).time.state = .aligned) (hm : (s.sensor i).time.missed < 3) :
    exec (.strobeMissed i) s = .next (s.modSensor i fun y => { y with time := { y.time with missed := y.time.missed + 1 } }) := by
  show execStrobeMissed i s = _
  simp [execStrobeMissed, hg, hs, hx, Nat.not_le.mpr hm]

theorem execStrobeMissed_fourth (hx : (s.sensor i).time.state = .aligned) (hm : 3 ≤ (s.sensor i).time.missed) :
    exec (.strobeMissed i) s = .next ((s.modSensor i Sensor.unalign).anchorLost i) := by
  show execStrobeMissed i s = _
  simp [execStrobeMissed, hg, hs, hx, hm]
  rfl

theorem execStrobeMissed_unaligned (hx : (s.sensor i).time.state = .unaligned) :
    exec (.strobeMissed i) s = .next (s.modSensor i fun y => { y with time := { y.time with run := 0, pairs := [] } }) := by
  show execStrobeMissed i s = _
  simp [execStrobeMissed, hg, hs, hx]
end
end

theorem execAnchorCountUpdate_started {n : Nat} (hg : g < 4) (hs : (s.group g).started = true) (hn : n < 2 ^ 64) :
    exec (.anchorCountUpdate g n) s = .next (s.modGroup g fun x => { x with count := max x.count n }) := by
  show execAnchorCountUpdate g n s = _
  simp only [execAnchorCountUpdate, hs, hg, Nat.mod_eq_of_lt hn]
  rfl

/-! ### Trigger pulses (R247) -/

/-- The cycle counter comes to `k`, and trigger output `t` starts its train there under the record `y`. -/
def State.sendTrain (s : State) (t k : Nat) (y : Trigger) : State :=
  ({ s with
    cup.cycles := BitVec.ofNat 64 k, cup.triggers := Map.set {} s.cup.triggers t { y with last := some k } } : State).emit
      (.trigger t k y.count y.width y.spacing y.polarity)

section
variable {t : Nat} {y : Trigger} (ht : t < 8)
include ht

theorem execTriggerPulse_sends {k : Nat} (hp : (Map.get {} s.cup.triggers t).nextPulse s.cup.cycles.toNat = (some k, y))
    (hk : k < 2 ^ 64) : exec (.triggerPulse t) s = .next (s.sendTrain t k y) := by
  show execTriggerPulse t s = _
  simp only [execTriggerPulse, hp]
  exact if_neg (by simpa [Nat.not_le.mpr ht] using hk)

theorem execTriggerPulse_none (hp : (Map.get {} s.cup.triggers t).nextPulse s.cup.cycles.toNat = (none, y)) :
    exec (.triggerPulse t) s = .next { s with cup.triggers := Map.set {} s.cup.triggers t y } := by
  show execTriggerPulse t s = _
  simp only [execTriggerPulse, hp, ht, if_true]
end

/-- The count `k` is the first from `lo` on that modulo `p` is `r`. -/
theorem least_count_of_phase {lo p r : Nat} (hp : 0 < p) (hr : r < p) :
    let k := lo + (r + p - lo % p) % p
    k % p = r ∧ ∀ m, lo ≤ m → m % p = r → k ≤ m := by
  intro k
  have hl : lo % p < p := Nat.mod_lt lo hp
  refine ⟨?_, fun m hlo hm => ?_⟩
  · have hsum : lo + (r + p - lo % p) = r + p + p * (lo / p) := by
      have hdiv := Nat.div_add_mod lo p
      omega
    rw [Nat.add_mod_mod, hsum, Nat.add_mul_mod_self_left, Nat.add_mod_right, Nat.mod_eq_of_lt hr]
  · obtain ⟨d, rfl⟩ := Nat.exists_eq_add_of_le hlo
    have hd : d % p < p := Nat.mod_lt d hp
    have hc : (lo % p + d % p) % p = r := (Nat.add_mod lo d p).symm.trans hm
    have he : (r + p - lo % p) % p = d % p := by
      obtain hs | hs := Nat.lt_or_ge (lo % p + d % p) p
      · rw [Nat.mod_eq_of_lt hs] at hc
        rw [show r + p - lo % p = d % p + p by omega, Nat.add_mod_right, Nat.mod_mod]
      · rw [Nat.mod_eq_sub_mod hs, Nat.mod_eq_of_lt (by omega)] at hc
        rw [show r + p - lo % p = d % p by omega, Nat.mod_mod]
    have hle : (r + p - lo % p) % p ≤ d := he ▸ Nat.mod_le d p
    exact Nat.add_le_add_left hle lo

/-- The count from which an output looks for its next train, after the one it started last. -/
def Trigger.earliest (x : Trigger) (n : Nat) : Nat :=
  match x.last with
  | some k => max n (k + 1)
  | none => n

theorem Trigger.earliest_le_iff {x : Trigger} {n m : Nat} : x.earliest n ≤ m ↔ n ≤ m ∧ ∀ l, x.last = some l → l < m := by
  unfold Trigger.earliest
  cases x.last with
  | none => exact ⟨fun h => ⟨h, nofun⟩, And.left⟩
  | some k =>
    simp only [Option.some.injEq, forall_eq']
    omega

/-- An output that runs, with no record waiting, starts its next train at the first count of its phase. -/
theorem Trigger.nextPulse_running {x : Trigger} {n : Nat} (hm : x.mode = 1) (hp : 0 < x.period) (hx : x.next = none) :
    x.nextPulse n = (some (x.earliest n + (x.phase + x.period - x.earliest n % x.period) % x.period), x) := by
  have hpulse : ∀ lo, x.pulseFrom lo = some (lo + (x.phase + x.period - lo % x.period) % x.period) := fun lo => by
    simp [Trigger.pulseFrom, hm, Nat.pos_iff_ne_zero.mp hp]
  unfold Trigger.nextPulse
  rw [hx]
  simp only [hpulse]
  rfl

theorem Trigger.nextPulse_least {x : Trigger} {n : Nat} (hm : x.mode = 1) (hp : 0 < x.period) (hph : x.phase < x.period)
    (hx : x.next = none) : ∃ k, x.nextPulse n = (some k, x) ∧ n ≤ k ∧ k % x.period = x.phase ∧ (∀ l, x.last = some l → l < k) ∧
      ∀ m, n ≤ m → (∀ l, x.last = some l → l < m) → m % x.period = x.phase → k ≤ m := by
  obtain ⟨hmod, hleast⟩ := least_count_of_phase (lo := x.earliest n) hp hph
  obtain ⟨hn, hlast⟩ := Trigger.earliest_le_iff.mp (Nat.le_add_right (x.earliest n) ((x.phase + x.period - x.earliest n % x.period) % x.period))
  exact ⟨_, Trigger.nextPulse_running hm hp hx, hn, hmod, hlast,
    fun m hnm hlm hmm => hleast m (Trigger.earliest_le_iff.mpr ⟨hnm, hlm⟩) hmm⟩

/-! ### Sensor ports (R262, R416) -/

theorem execSensorPortLockLoss_up (hp : port < 12) (hu : s.cup.portsDown.contains port = false) :
    exec (.sensorPortLockLoss port) s = .next (((s.sensorsOn port).foldl (fun (t : State) i =>
      (t.modSensor i fun x => { x with stopped := true, inImage := false, gatesEnded := [], raws := [] }).anchorLost i)
        { s with cup.portsDown := port :: s.cup.portsDown }).log port 0x0701 0xFF (leBytes 1 port)) := by
  show execSensorPortLockLoss port s = _
  exact if_neg (by rw [hu]; simp [Nat.not_le.mpr hp])

theorem execPortLockRegain_down (hd : s.cup.portsDown.contains port = true) :
    exec (.portLockRegain port) s = .next (((s.sensorsOn port).foldl (fun (t : State) i =>
      t.modSensor i fun x => { x with stopped := false }) { s with cup.portsDown := s.cup.portsDown.filter (· != port) }).log
        port 0x0702 0xFF (leBytes 1 port)) := by
  show execPortLockRegain port s = _
  exact if_neg (by rw [hd]; decide)

/-- Settles O34: each event comes to one equation for each of its branches; the next train of an output is the first count of its
phase (`Trigger.nextPulse_least`). -/
theorem cupolaTimes : Obligations.CupolaTimes := by
  refine ⟨fun s stb cycles latches => ⟨rfl, rfl⟩, fun x f period slip rate t hf => ?strobe,
    fun s i g hg hs => ⟨execStrobeMissed_counts hg hs, execStrobeMissed_fourth hg hs, execStrobeMissed_unaligned hg hs,
      State.anchorLost_member hg⟩,
    fun s g n => execAnchorCountUpdate_started,
    fun s t k y ht => ⟨execTriggerPulse_sends ht, execTriggerPulse_none ht⟩,
    fun x n hm hp hph hx => Trigger.nextPulse_least hm hp hph hx,
    fun s port hp => ⟨execSensorPortLockLoss_up hp, execPortLockRegain_down⟩⟩
  case strobe =>
    intro near
    refine ⟨fun hx hc => ?_, SensorTime.strobe_aligned_slips hf, fun hx hc => ?_, fun hx hr hc => ?_⟩
    · rw [SensorTime.strobe_aligned_consistent hf hx hc]
      exact ⟨hx, rfl⟩
    · rw [SensorTime.strobe_unaligned_consistent hf hx hc]
      refine ⟨fun hr => by simp [hr], fun hr => ?_⟩
      have hk : min 16 (x.run + 1) = x.run + 1 := by omega
      have h16 : x.run + 1 ≠ 16 := by omega
      simp [hk, h16]
    · rw [SensorTime.strobe_unaligned_restarts hf hx hr hc]
      exact ⟨rfl, rfl⟩

end Sys2Proof.Machine
end

section
/-! PROOF. Fusion frames: instants, deadlines, assembly, headers, time breaks, slots, lateness and levels (R251, R257 to R259, R261,
R262, R264, R277). -/

namespace Sys2Proof.Machine

variable {s : State} {g : Nat}

/-! ### What a step leaves of a group -/

/-- A group that is set to anything but an empty record reads as it was set. -/
theorem State.group_modGroup {f : Group → Group} (h : f (s.group g) ≠ {}) : (s.modGroup g f).group g = f (s.group g) :=
  Map.get_set_of_ne _ g h

theorem Group.ne_of_started {x : Group} (h : x.started = true) : x ≠ {} := fun e => by simp [e] at h

theorem Group.ne_of_sequence {x : Group} {n : Nat} (h : x.sequence = n + 1) : x ≠ {} := fun e => by simp [e] at h

@[simp] theorem State.modSensor_group (i : Nat) (f : Sensor → Sensor) : (s.modSensor i f).group g = s.group g := rfl

/-- An update of each of several sensors leaves the groups. -/
theorem State.foldl_modSensor_group (l : List Nat) (f : Nat → Sensor → Sensor) (t : State) :
    (l.foldl (fun (u : State) i => u.modSensor i (f i)) t).group g = t.group g :=
  List.foldlRecOn (motive := fun b : State => b.group g = t.group g) l _ rfl fun _ hb _ _ => hb

/-- Noting the frames that are ready touches their order alone. -/
theorem State.noteReady_eq : ∃ l, s.noteReady = { s with cup.ready := l } := by
  unfold State.noteReady
  extract_lets
  split
  · exact ⟨s.cup.ready, rfl⟩
  · exact ⟨_, rfl⟩

@[simp] theorem State.noteReady_group (g : Nat) : s.noteReady.group g = s.group g := by
  obtain ⟨l, hl⟩ := State.noteReady_eq (s := s)
  rw [hl]
  rfl

@[simp] theorem State.noteReady_incomplete (t : Int) : s.noteReady.incomplete g t = s.incomplete g t := by
  obtain ⟨l, hl⟩ := State.noteReady_eq (s := s)
  rw [hl]
  rfl

/-! ### Instants and deadlines (R257, R259) -/

theorem execFrameInstant_takes {d : Int} {rest : List Int} {t : Nat} (hg : g < 4) (hd : (s.group g).due = d :: rest)
    (hs : (s.group g).started = true) (hp : (s.group g).stopping = none) (hb : (s.group g).broken = false)
    (ha : s.anchorOk g = true) (ht : wrapI 64 d = t) :
    exec (.frameInstant g t) s = .next (((s.group g).members.foldl (fun (u : State) i => u.modSensor i (Sensor.calibFrom d)) s).modGroup g
      fun y => { y with due := rest, instants := y.instants ++ [d] }.takeUp).noteReady := by
  show execFrameInstant g t s = _
  simp only [execFrameInstant, hd]
  exact if_neg (by simp [Nat.not_le.mpr hg, hs, hp, hb, ha, ht])

section
variable {f : Frame} (hf : (s.group g).frame = some f)
include hf

theorem execFrameDeadline_early (hc : ((s.group g).count : Int) < f.t + (s.group g).deadline) :
    exec (.frameDeadline g) s = .next s := by
  show execFrameDeadline g s = _
  simp only [execFrameDeadline, hf]
  exact if_pos (by simp [hc])

section
variable (ha : f.assembled = false)
include ha

/-- At the deadline the frame closes, and the members still incomplete are marked. -/
theorem execFrameDeadline_closes (hcl : f.closed = false) (hc : f.t + (s.group g).deadline ≤ ((s.group g).count : Int)) :
    exec (.frameDeadline g) s =
      .next (s.modGroup g fun y => { y with frame := some { f with closed := true, lateMask := s.incomplete g f.t } }).noteReady := by
  show execFrameDeadline g s = _
  simp only [execFrameDeadline, hf]
  exact if_neg (by simp [hcl, ha, hc])

/-! ### Assembly (R257) -/

theorem State.stepTwoOver_of_frame (hc : f.closed = true ∨ s.incomplete g f.t = 0) : s.stepTwoOver g = true := by
  unfold State.stepTwoOver
  rw [hf]
  simpa [ha] using hc

/-- The first group's frame may be assembled while no other is. -/
theorem State.mayAssemble_first (hc : f.closed = true ∨ s.incomplete g f.t = 0) (hr : s.cup.ready.head? = some g)
    (ho : ∀ k h, k < 4 → k ≠ g → (s.group k).frame = some h → h.assembled = false) : s.mayAssemble g = true := by
  have hidle : ∀ k < 4, (((s.group k).frame.map (·.assembled)).getD false) = false := fun k hk => by
    by_cases hkg : k = g
    · rw [hkg, hf]
      exact ha
    · cases hfk : (s.group k).frame with
      | none => rfl
      | some h => exact ho k h hk hkg hfk
  unfold State.mayAssemble
  rw [hr, State.stepTwoOver_of_frame hf ha hc]
  simpa using hidle

theorem execFrameAssembly_first (hc : f.closed = true ∨ s.incomplete g f.t = 0) (hr : s.noteReady.cup.ready.head? = some g)
    (ho : ∀ k h, k < 4 → k ≠ g → (s.group k).frame = some h → h.assembled = false) : exec (.frameAssembly g) s =
      .next (({ s.noteReady with cup.ready := s.noteReady.cup.ready.erase g } : State).assemble g f).noteReady := by
  show execFrameAssembly g s = _
  have hmay : s.noteReady.mayAssemble g = true :=
    State.mayAssemble_first (by simpa using hf) ha (by simpa using hc) hr (by simpa using ho)
  simp only [execFrameAssembly, State.noteReady_group, hf, hmay, if_true]
end

/-! ### The header (R257, R264, R277) -/

theorem execFrameHeaderWrite_unfed (hb : s.boxesFed g = false) : exec (.frameHeaderWrite g) s = .next s := by
  show execFrameHeaderWrite g s = _
  simp [execFrameHeaderWrite, hf, hb]

section
variable (ha : f.assembled = true) (hw : f.writes = []) (hh : f.headerWrite = none) (hb : s.boxesFed g = true)
include ha hw hh hb

theorem execFrameHeaderWrite_writes (hl : f.lost = false) (hx : f.failed = false) :
    exec (.frameHeaderWrite g) s = .next (s.headerWrite g f) := by
  show execFrameHeaderWrite g s = _
  simp [execFrameHeaderWrite, hf, ha, hw, hh, hb, hl, hx]

theorem execFrameHeaderWrite_failed (hl : f.lost = false) (hx : f.failed = true) :
    exec (.frameHeaderWrite g) s = .next ((s.outputFault g).frameDone g).noteReady := by
  show execFrameHeaderWrite g s = _
  simp [execFrameHeaderWrite, hf, ha, hw, hh, hb, hl, hx]

/-- The map goes with a frame whose data were lost. -/
theorem execFrameHeaderWrite_lost (hl : f.lost = true) :
    exec (.frameHeaderWrite g) s = .next (((s.outputFault g).clearMap g).frameDone g).noteReady := by
  show execFrameHeaderWrite g s = _
  simp [execFrameHeaderWrite, hf, ha, hw, hh, hb, hl]
end
end

theorem State.boxesFed_ready (hb : (s.group g).boxesReady = true) : s.boxesFed g = false := by
  simp [State.boxesFed, hb]

/-! ### Slots (R264) -/

/-- The frame of header `h` takes its SEQUENCE. -/
def State.number (s : State) (g : Nat) (h : Head) : State :=
  s.modGroup g fun y => { y with sequence := y.sequence + 1, tLast := h.t }

/-- No bytes, no write. -/
theorem State.frameWrite_nil (k : Nat) : s.frameWrite g k [] = s := by
  unfold State.frameWrite
  split
  · rfl
  · rfl

/-- The frame in the next slot of group `x`, the group's number `g` and the slot in its header. -/
def Group.slotFrame (x : Group) (g : Nat) (h : Head) (lost : Bool) : Frame :=
  { t := h.t, closed := true, assembled := true, slot := x.written % x.slots, lost := lost
    header := { h with slot := x.written % x.slots }.bytes g (x.sequence % 2 ^ 32) }

section
variable {h : Head} {lost : Bool}

theorem State.issueFrame_slot (hw : (s.group g).written < (s.group g).released + (s.group g).slots) :
    s.issueFrame g h lost [] [] [] = ((s.number g h).modGroup g fun y =>
      { y with frame := some ((s.group g).slotFrame g h lost), written := y.written + 1 }) := by
  simp only [State.issueFrame, hw, if_true, State.frameWrite_nil]
  rfl

theorem State.issueFrame_blocked {points grid depth : List Byte}
    (hw : (s.group g).released + (s.group g).slots ≤ (s.group g).written) :
    let v := (s.number g h).modGroup g fun y => { y with blocked := y.blocked + 1 }
    s.issueFrame g h lost points grid depth = (if lost then (v.outputFault g).clearMap g else v).frameDone g := by
  simp only [State.issueFrame, Nat.not_lt.mpr hw, if_false]
  rfl
end

/-! ### Time breaks (R262) -/

/-- The group has issued the frame of SEQUENCE `n` at `t`, and owes no time break. -/
structure Group.Issued (x : Group) (n : Nat) (t : Int) : Prop where
  sequence : x.sequence = n + 1
  broken : x.broken = false
  tLast : x.tLast = t

section
variable {n : Nat} {t : Int}

theorem State.modGroup_issued {f : Group → Group} (h : (f (s.group g)).Issued n t) : ((s.modGroup g f).group g).Issued n t := by
  rwa [State.group_modGroup (Group.ne_of_sequence h.sequence)]

theorem Group.Issued.takeUp {x : Group} (h : x.Issued n t) : x.takeUp.Issued n t := by
  unfold Group.takeUp
  split
  · exact ⟨h.sequence, h.broken, h.tLast⟩
  · exact h

/-- The sensor once its group has stopped (R255, R256): idle, under its latest calibration. -/
def Sensor.idled (x : Sensor) : Sensor :=
  { x with time := {}, member := {}, calib := { x with calibNext := none }.calibLatest, calibDue := [], sweepPast := none }

theorem State.stopGroup_issued (h : (s.group g).Issued n t) : ((s.stopGroup g).group g).Issued n t := by
  unfold State.stopGroup
  refine State.modGroup_issued ?_
  have hmembers := State.foldl_modSensor_group (g := g) (s.group g).members (fun _ => Sensor.idled) s
  exact ⟨(congrArg Group.sequence hmembers).trans h.sequence, rfl, (congrArg Group.tLast hmembers).trans h.tLast⟩

/-- The end of its frame keeps what a group has issued. -/
theorem State.frameDone_issued (h : (s.group g).Issued n t) : ((s.frameDone g).group g).Issued n t := by
  unfold State.frameDone
  split
  · unfold State.group
    rw [State.finishOk_cup]
    exact State.stopGroup_issued h
  · exact State.modGroup_issued (Group.Issued.takeUp ⟨h.sequence, h.broken, h.tLast⟩)
end

theorem State.number_issued {h : Head} (hb : (s.group g).broken = false) :
    ((s.number g h).group g).Issued (s.group g).sequence h.t := State.modGroup_issued ⟨rfl, hb, rfl⟩

/-- A frame without data is issued, whether it finds a slot or not. -/
theorem State.issueFrame_issued {h : Head} (hb : (s.group g).broken = false) :
    ((s.issueFrame g h false [] [] []).group g).Issued (s.group g).sequence h.t := by
  obtain ⟨hseq, hbroken, ht⟩ := State.number_issued (h := h) hb
  obtain hw | hw := Nat.lt_or_ge (s.group g).written ((s.group g).released + (s.group g).slots)
  · rw [State.issueFrame_slot hw]
    exact State.modGroup_issued ⟨hseq, hbroken, ht⟩
  · rw [State.issueFrame_blocked hw]
    exact State.frameDone_issued (State.modGroup_issued ⟨hseq, hbroken, ht⟩)

/-- The group's course is cut: no map, no instant, no frame. -/
def Group.cut (y : Group) : Group :=
  { y with broken := false, hasPrev := false, instants := [], due := [], frame := none, occupied := [], map := [] }

/-- What a time break of group `g` does before its frame is issued. -/
def State.breakOff (s : State) (g : Nat) : State :=
  let x := s.group g
  let s1 := x.members.foldl (fun (t : State) i => t.modSensor i fun z => if z.strobeTimed then z.unalign else z) s
  let s2 := ((s1.take 4096).2.modGroup g Group.cut).log g 0x0803 x.part (leBytes 1 x.anchor ++ leBytes 4 x.sequence)
  { s2 with cup := { s2.cup with ready := s2.cup.ready.erase g } }

section
variable (hs : (s.group g).started = true)
include hs

theorem State.breakOff_group : (s.breakOff g).group g = (s.group g).cut := by
  have hmembers := State.foldl_modSensor_group (g := g) (s.group g).members (fun _ z => if z.strobeTimed then z.unalign else z) s
  refine (State.group_modGroup (Group.ne_of_started ?_)).trans (congrArg Group.cut hmembers)
  exact (congrArg Group.started hmembers).trans hs

/-- A time break issues one frame at the last anchor count. -/
theorem execTimeBreak_issues (hb : (s.group g).broken = true) (hf : (s.group g).frame = none) :
    ∃ h : Head, h.t = ((s.group g).count : Int) ∧
      exec (.timeBreak g) s = .next ((s.breakOff g).issueFrame g h false [] [] []).noteReady :=
  ⟨_, rfl, if_neg (by simp [hs, hb, hf])⟩
end

/-! ### Lateness and levels (R258, R262) -/

theorem Group.isLate_iff {x : Group} {t : Int} : x.isLate t = true ↔ x.sequence ≠ 0 ∧ t ≤ x.tLast := by
  simp [Group.isLate]

section
variable {noPrev measured missing : Bool} {hold n : Nat} {conf con : List Nat}

theorem levelOf_no_contributor : levelOf noPrev measured hold n conf [] missing = 4 := rfl

section
variable (hcon : con ≠ [])
include hcon

theorem levelOf_held : levelOf false false hold n conf con missing = if n < hold + 1 then 4 else 3 := by
  simp [levelOf, hcon]

theorem levelOf_first : levelOf true false hold n conf con missing = 3 := by
  simp [levelOf, hcon]

theorem levelOf_measured : levelOf noPrev true hold n conf con missing =
    if 2 ≤ (dedup conf).length ∧ (dedup con).length = 1 then 2 else if missing = true then 1 else 0 := by
  simp [levelOf, hcon]
end
end

/-- Settles O35: each event comes to one equation for each of its branches; that the frame of a time break is issued is kept
through the slot it takes or finds none of (`State.issueFrame_issued`). -/
theorem fusionFrames : Obligations.FusionFrames := by
  intro s g hg x
  refine ⟨fun d rest t hd hs hp hb ha ht => ?instant, fun f hf hcl ha => ⟨execFrameDeadline_early hf, execFrameDeadline_closes hf ha hcl⟩,
    fun f hf ha hc hr ho => execFrameAssembly_first hf ha hc hr ho, fun f hf ha hw hh hb => ?header, State.boxesFed_ready,
    fun f hf => execFrameHeaderWrite_unfed hf, fun hb hs hf => ?timeBreak, fun h lost points grid depth => ?slots,
    fun t => Group.isLate_iff, fun noPrev measured missing hold n conf con => ?levels⟩
  case instant => exact execFrameInstant_takes hg hd hs hp hb ha ht
  case header =>
    exact ⟨execFrameHeaderWrite_writes hf ha hw hh hb, execFrameHeaderWrite_failed hf ha hw hh hb,
      execFrameHeaderWrite_lost hf ha hw hh hb⟩
  case timeBreak =>
    obtain ⟨h, ht, he⟩ := execTimeBreak_issues hs hb hf
    have hcut := State.breakOff_group hs
    have hissued := State.issueFrame_issued (s := s.breakOff g) (g := g) (h := h) (by rw [hcut]; rfl)
    rw [hcut, ht, ← State.noteReady_group] at hissued
    exact ⟨_, he, hissued.sequence, hissued.broken, hissued.tLast⟩
  case slots => exact ⟨State.issueFrame_slot, State.issueFrame_blocked⟩
  case levels => exact ⟨levelOf_no_contributor, fun hcon => ⟨levelOf_held hcon, levelOf_first hcon, levelOf_measured hcon⟩⟩

end Sys2Proof.Machine
end

section
/-! PROOF. The collision test: what clashes, what a sphere on a leg meets, and whose contacts there are (R271, R285). -/

namespace Sys2Proof.Machine

/-! ### Contacts that clash (R285) -/

section
variable {free : Bool} {l : List Contact}

theorem clashes_of_sure (h : ∃ c ∈ l, c.sure = true) : clashes free l = true := by
  simp [clashes, List.any_eq_true.mpr h]

@[simp] theorem clashes_nil : clashes free [] = false := rfl

theorem clashes_of_unsure (hl : l ≠ []) (h : ∀ c ∈ l, c.sure = false) : clashes free l = free := by
  have hany : l.any (·.sure) = false := by simpa using h
  simp [clashes, hany, hl]
end

/-! ### A sphere on a leg and a shape (R285) -/

/-- Whether R285 bounds the distance of a sphere on a leg from a shape. -/
def legBounded (shape : Shape) (e : V3 × Int) (l : MPose × MPose) : Bool :=
  (l.1.place e.1).inBounds && (l.2.place e.1).inBounds && shape.inBounds

/-- The distance under which they clash: both radii and CLEARANCE. -/
def legLimit (clear : Nat) (shape : Shape) (e : V3 × Int) (l : MPose × MPose) : Int :=
  e.2 + (shape.dist2 (l.1.place e.1) (l.2.place e.1)).2 + mmUnits clear

/-- The squared distance. -/
def legDist2 (shape : Shape) (e : V3 × Int) (l : MPose × MPose) : Nat := (shape.dist2 (l.1.place e.1) (l.2.place e.1)).1

/-- What is left on either side of the limit: 1 mm less 2^-20 m. -/
def bandSlack : Int := mmUnits 1 - 2 ^ 20

theorem bandSlack_nonneg : 0 ≤ bandSlack := by decide

section
variable {clear : Nat} {shape : Shape} {e : V3 × Int} {l : MPose × MPose}

theorem meets_unbounded (hb : legBounded shape e l = false) : meets clear shape e l = some false :=
  if_pos (by rw [show (_ && _ && _) = false from hb]; rfl)

section
variable (hb : legBounded shape e l = true)
include hb

theorem meets_bounded : meets clear shape e l =
    if legLimit clear shape e l + bandSlack < 0 || (legLimit clear shape e l + bandSlack).natAbs ^ 2 < legDist2 shape e l then none
    else some (decide (0 < legLimit clear shape e l - bandSlack) &&
      decide (legDist2 shape e l < (legLimit clear shape e l - bandSlack).natAbs ^ 2)) :=
  if_neg (by rw [show (_ && _ && _) = true from hb]; simp)

theorem meets_beyond (h : legLimit clear shape e l + bandSlack < 0 ∨
    (legLimit clear shape e l + bandSlack).natAbs ^ 2 < legDist2 shape e l) : meets clear shape e l = none := by
  rw [meets_bounded hb]
  exact if_pos (by simpa using h)

/-- Nearer than the limit less the slack is nearer than the limit and the slack too. -/
theorem meets_within (h0 : 0 < legLimit clear shape e l - bandSlack)
    (hd : legDist2 shape e l < (legLimit clear shape e l - bandSlack).natAbs ^ 2) : meets clear shape e l = some true := by
  have hslack := bandSlack_nonneg
  have hle : (legLimit clear shape e l - bandSlack).natAbs ^ 2 ≤ (legLimit clear shape e l + bandSlack).natAbs ^ 2 :=
    Nat.pow_le_pow_left (by omega) 2
  have hnear : 0 ≤ legLimit clear shape e l + bandSlack := by omega
  rw [meets_bounded hb, if_neg (by simpa using ⟨hnear, (hd.le.trans hle)⟩), decide_eq_true h0, decide_eq_true hd, Bool.and_self]

theorem meets_band (h0 : 0 ≤ legLimit clear shape e l + bandSlack)
    (hd : legDist2 shape e l ≤ (legLimit clear shape e l + bandSlack).natAbs ^ 2)
    (hn : legLimit clear shape e l - bandSlack ≤ 0 ∨ (legLimit clear shape e l - bandSlack).natAbs ^ 2 ≤ legDist2 shape e l) :
    meets clear shape e l = some false := by
  rw [meets_bounded hb, if_neg (by simpa using ⟨h0, hd⟩)]
  simpa [imp_iff_not_or] using hn
end
end

/-! ### Whose contacts there are (R287) -/

/-- Every contact is with something of the world. -/
theorem mem_contactsOf {clear : Nat} {spheres : List (V3 × Int)} {world : List (Nat × Shape)} {poses : List MPose} {c : Contact}
    (h : c ∈ contactsOf clear spheres world poses) : ∃ w ∈ world, w.1 = c.id := by
  obtain ⟨w, hw, hc⟩ := List.mem_filterMap.mp h
  refine ⟨w, hw, ?_⟩
  simp only [contactOf] at hc
  split at hc
  · exact absurd hc (by simp)
  · exact congrArg Contact.id (Option.some.inj hc)

/-- Settles O38: a clash is read off its contacts, and a distance beyond, within or in the band about the limit is one lemma each. -/
theorem collisionBand : Obligations.CollisionBand :=
  ⟨fun _ _ => ⟨clashes_of_sure, clashes_nil, clashes_of_unsure⟩,
    fun _ _ _ _ => ⟨meets_unbounded, fun hb h => meets_beyond hb (.inl h), fun hb h => meets_beyond hb (.inr h), meets_within,
      meets_band⟩,
    fun _ _ _ _ _ => mem_contactsOf⟩

end Sys2Proof.Machine
end

section
/-! PROOF. The world's buffers: box sets, edits, publication and the copy behind it (R270 to R273, R275, R277 to R279, R422). -/

namespace Sys2Proof.Machine

variable {s : State} {g : Nat}

/-! ### Box sets (R277 to R279) -/

theorem State.boxTrigger_taken {urgent : Bool} (hm : s.stp.mode g = 1 ∨ s.stp.mode g = 2) :
    s.boxTrigger g urgent = if s.stp.mode g = 2 ∨ urgent = true then s.modStp fun t => t.trigger urgent none else s := by
  obtain h | h := hm <;> simp [State.boxTrigger, h]

/-- Placing a set leaves the modes that its trigger goes by. -/
theorem State.boxTrigger_placeBoxes {set : List GBox} {motion : Option (V3 × V3)} {time : Int} {urgent : Bool}
    (hm : s.stp.mode g = 1 ∨ s.stp.mode g = 2) :
    let placed := s.placeBoxes g set motion time urgent
    placed.boxTrigger g urgent = if s.stp.mode g = 2 ∨ urgent = true then placed.modStp fun t => t.trigger urgent none else placed :=
  State.boxTrigger_taken (s := s.placeBoxes g set motion time urgent) hm

/-- Group `g` has handed its box set over. -/
def State.handOver (s : State) (g : Nat) : State := s.modGroup g fun y => { y with boxesReady := false }

section
variable (hg : g < 4) (hr : (s.group g).boxesReady = true)
include hg hr

theorem execBoxSetTake_ready : exec (.boxSetTake g) s =
    let x := s.group g
    if s.stp.mode g = 0 then .next (s.handOver g)
    else .next (if s.stp.pubPending || s.stp.copying then
        (s.handOver g).modStp fun t => { t with
          waitingOps := t.waitingOps ++ [.boxes g x.boxes x.boxMotion x.boxTime x.urgent]
          pubUrgent := t.pubUrgent || (x.urgent && !t.copying) }
      else ((s.handOver g).placeBoxes g x.boxes x.boxMotion x.boxTime x.urgent).boxTrigger g x.urgent) :=
  if_neg (by simp [hr, Nat.not_le.mpr hg])

theorem execBoxSetTake_untaken (hm : s.stp.mode g = 0) : exec (.boxSetTake g) s = .next (s.handOver g) := by
  rw [execBoxSetTake_ready hg hr]
  exact if_pos hm

section
variable (hm : s.stp.mode g = 1 ∨ s.stp.mode g = 2)
include hm

theorem execBoxSetTake_places (hp : s.stp.pubPending = false) (hc : s.stp.copying = false) :
    let placed := (s.handOver g).placeBoxes g (s.group g).boxes (s.group g).boxMotion (s.group g).boxTime (s.group g).urgent
    exec (.boxSetTake g) s = .next (if s.stp.mode g = 2 ∨ (s.group g).urgent = true
      then placed.modStp fun t => t.trigger (s.group g).urgent none else placed) := by
  have h0 : s.stp.mode g ≠ 0 := by omega
  simp only [execBoxSetTake_ready hg hr, h0, hp, hc]
  exact congrArg Host.Outcome.next (State.boxTrigger_placeBoxes (s := s.handOver g) hm)

/-- During a publication a set waits, and makes it urgent before its copy. -/
theorem execBoxSetTake_waits (hw : s.stp.pubPending = true ∨ s.stp.copying = true) :
    exec (.boxSetTake g) s = .next ((s.handOver g).modStp fun t => { t with
      waitingOps := t.waitingOps ++ [.boxes g (s.group g).boxes (s.group g).boxMotion (s.group g).boxTime (s.group g).urgent]
      pubUrgent := t.pubUrgent || ((s.group g).urgent && !s.stp.copying) }) := by
  have h0 : s.stp.mode g ≠ 0 := by omega
  have hwait : (s.stp.pubPending || s.stp.copying) = true := by simpa using hw
  simp only [execBoxSetTake_ready hg hr, h0, hwait]
  rfl
end
end

/-! ### Publication and copy (R277, R278, R422) -/

/-- The numbers of the published and of the building buffer after the next publication. -/
def Steeple.rolesAfter (t : Steeple) : Nat × Nat :=
  if (t.buffer t.building).bad then (t.published, t.building)
  else if (t.buffer t.published).bad then (t.building, t.published) else (t.building, t.retained)

theorem Steeple.rolesAfter_published (t : Steeple) :
    t.rolesAfter.1 = if (t.buffer t.building).bad then t.published else t.building := by
  unfold Steeple.rolesAfter
  split
  · rfl
  · split <;> rfl

theorem Steeple.rolesAfter_building (t : Steeple) : t.rolesAfter.2 = if (t.buffer t.building).bad then t.building
    else if (t.buffer t.published).bad then t.published else t.retained := by
  unfold Steeple.rolesAfter
  split
  · rfl
  · split <;> rfl

/-- Whether a query that an urgent publication has not yet made obsolete pins the retained buffer. -/
def Steeple.retainedPinned (t : Steeple) : Bool :=
  match t.running with
  | some r => r.buffer == t.retained && !r.stale
  | none => false

theorem Steeple.retainedPinned_eq_false {t : Steeple} (h : ∀ r, t.running = some r → r.buffer ≠ t.retained ∨ r.stale = true) :
    t.retainedPinned = false := by
  unfold Steeple.retainedPinned
  split
  next r hr => simpa [imp_iff_not_or] using h r hr
  next => rfl

theorem execPublication_swaps (hp : s.stp.pubPending = true) (hc : s.stp.copying = false)
    (hu : s.stp.pubUrgent = true ∨ s.stp.retainedPinned = false) :
    exec .publication s = .next (s.modStp fun t => { t with
      published := s.stp.rolesAfter.1, building := s.stp.rolesAfter.2, epoch := (t.epoch + 1) % 2 ^ 32, copying := true
      running := if t.pubUrgent then t.running.map fun r => { r with stale := true } else t.running
      stats := { t.stats with publishes := satAdd 0xFFFFFFFF t.stats.publishes 1 } }) := by
  have hopen : (s.stp.retainedPinned && !s.stp.pubUrgent) = false := by
    obtain h | h := hu <;> simp [h]
  refine if_neg ?_
  rw [hp, hc]
  exact Bool.eq_false_iff.mp hopen

theorem execBuildingCopyDone_copies (hc : s.stp.copying = true) : exec .buildingCopyDone s =
    .next ((s.stp.waitingOps.foldl State.buildOp (s.modStp fun t => { t.modBuilding fun _ => { t.buffer t.published with bad := false } with
      copying := false, pubPending := false, pubUrgent := false, pubWaiters := [], waitingOps := [] })).finishAll
        s.stp.pubWaiters s.stp.epoch) :=
  if_neg (by rw [hc]; decide)

/-! ### Edits (R272, R273) -/

/-- What of a world an edit list leaves: the epoch and the buffers' roles. -/
def Steeple.roles (t : Steeple) : Nat × Nat × Nat := (t.epoch, t.published, t.building)

theorem Steeple.editPose_roles (t : Steeple) (r : List Byte) : (t.editPose r).roles = t.roles := by
  unfold Steeple.editPose
  split <;> rfl

theorem Steeple.applyEdits_roles {t u : Steeple} {rs : List (List Byte)} (h : t.applyEdits rs = some u) : u.roles = t.roles := by
  obtain ⟨b, -, rfl⟩ := Option.map_eq_some_iff.mp h
  exact List.foldlRecOn (motive := fun v : Steeple => v.roles = t.roles) rs _ rfl fun v hv r _ => (v.editPose_roles r).trans hv

section
variable {q n : Nat} {rs : List (List Byte)}

theorem State.editWorld_full (h : s.stp.applyEdits rs = none) : s.editWorld q n rs = s.finish q n stRefused rcWorldFull 0 0 := by
  simp [State.editWorld, h]

theorem State.editWorld_whole {t : Steeple} (h : s.stp.applyEdits rs = some t) :
    s.editWorld q n rs = ({ s with stp := t } : State).finishOk q n := by
  simp [State.editWorld, h]
end

section
variable {t : Steeple} {b : Buffer} {r : List Byte}

theorem Steeple.editBuffer_remove (h : u8 r 0 = 1) :
    t.editBuffer b r = some { b.delist (· == u16 r 2) with host := Map.erase b.host (u16 r 2) } := by
  simp [Steeple.editBuffer, h]

theorem Steeple.editBuffer_put (h : u8 r 0 = 0) :
    let c : Buffer := { b.delist (· == u16 r 2) with host := Map.insert b.host (u16 r 2) (slice r 16 32) }
    t.editBuffer b r =
      if c.host.length + c.setCount [0, 1, 2, 3] ≤ 32768 then some (t.enlist c (u16 r 2) (slice r 16 32)) else none := by
  intro c
  refine (if_pos h).trans ?_
  simp only [← Nat.not_lt, ite_not]
  rfl
end

/-- Settles O36: each event comes to one equation for each of its branches; a box set's trigger is `State.boxTrigger_taken`, and an
edit list keeps the buffers' roles (`Steeple.applyEdits_roles`). -/
theorem worldPublication : Obligations.WorldPublication := by
  refine ⟨fun s g hg hr => ⟨execBoxSetTake_untaken hg hr, execBoxSetTake_places hg hr, execBoxSetTake_waits hg hr⟩,
    fun s hp hc hu => ?publication, fun s hc => execBuildingCopyDone_copies hc,
    fun s q n rs => ⟨State.editWorld_full, fun t ht => ?edit⟩, fun t b r => ⟨Steeple.editBuffer_remove, Steeple.editBuffer_put⟩⟩
  case publication =>
    rw [execPublication_swaps hp hc (hu.imp_right Steeple.retainedPinned_eq_false), Steeple.rolesAfter_published,
      Steeple.rolesAfter_building]
    rfl
  case edit =>
    have hroles := Steeple.applyEdits_roles ht
    simp only [Steeple.roles, Prod.mk.injEq] at hroles
    exact ⟨State.editWorld_whole ht, hroles⟩

end Sys2Proof.Machine
end

section
/-! PROOF. The course of a query: its post, its start, its expansions and budgets, and its result (R282 to R288). -/

namespace Sys2Proof.Machine

variable {s : State} {r : Running} {us : Nat}

/-! ### Posts (R282, R283) -/

section
variable {id p : Nat} {w : Write}

theorem execQueryPost_landed (hw : s.write id = some w) (hk : (s.win (hWindow w.handle)).kind = .query p) (hp : w.phase = .landed)
    (ht : w.tamt ≠ 0) (hh : w.op ≠ .halo) (hb : w.op ≠ .wb) :
    exec (.queryPost id) s = .next ((s.takeQuery w p).modWrite id fun x => { x with phase := .applied }) := by
  show execQueryPost id s = _
  simp [execQueryPost, hw, hk, hp, ht, hh, hb]

theorem State.takeQuery_queued {l n : Nat} (hs : w.src = .post l n) (hu : s.stp.slotsUsed p < 4) (hl : w.data.length = 128)
    (hb : w.poison.contains true = false) (hq : s.queryOk p w.data = true) :
    s.takeQuery w p = ({ s with clk.free := s.clk.free + 4 } : State).modStp fun t => { t with
      queue := t.queue ++ [{ part := p, post := n, reserved := (s.part p).cfg.reserved, record := w.data }] } := by
  have hsound : (w.data.length != 128 || w.poison.contains true || !s.queryOk p w.data) = false := by rw [hl, hb, hq]; rfl
  simp only [State.takeQuery, hs, fit_eq_self hl, Nat.not_le.mpr hu, hsound]
  rfl

theorem State.takeQuery_busy (hu : 4 ≤ s.stp.slotsUsed p) : ∃ e : Ended, e.status = stPlanBusy ∧ e.query.part = p ∧
    s.takeQuery w p = ({ s with clk.free := s.clk.free + 4 } : State).modStp fun t => { t with ended := t.ended ++ [e] } := by
  have hfail : s.takeQuery w p = _ := if_pos hu
  exact ⟨_, rfl, rfl, hfail⟩
end

/-! ### The query that starts next (R283) -/

theorem Steeple.nextQuery_mem {t : Steeple} {q : Query} (h : t.nextQuery = some q) : q ∈ t.queue := by
  unfold Steeple.nextQuery at h
  split at h
  next x hx => exact Option.some.inj h ▸ List.mem_of_find?_eq_some hx
  next => exact List.mem_of_mem_head? h

theorem Steeple.nextQuery_reserved {t : Steeple} {q : Query} (h : t.nextQuery = some q) (hr : ∃ x ∈ t.queue, x.reserved = true) :
    q.reserved = true := by
  unfold Steeple.nextQuery at h
  split at h
  next x hx => exact Option.some.inj h ▸ List.find?_some hx
  next hnone =>
    obtain ⟨x, hx, hxr⟩ := hr
    exact absurd hxr (List.find?_eq_none.mp hnone x hx)

/-! ### How a query ends -/

theorem State.endQuery_ended (s : State) (r : Running) (status : Nat) (elapsed node : Option Nat) (hit : Nat) :
    ∃ e, (s.endQuery r status elapsed node hit).stp.ended = s.stp.ended ++ [e] ∧ e.query = r.query ∧ e.status = status :=
  ⟨_, rfl, rfl, rfl⟩

/-! ### The start (R276, R284) -/

/-- The lattice that a query names. -/
def State.queryLattice (s : State) (b : List Byte) : Lattice := Map.get {} s.stp.lattices (qLattice b)

/-- What the machine of a query meets at its start, and at its goal, in the published world. -/
def State.startContacts (s : State) (b : List Byte) : List Contact :=
  s.contacts s.stp.published b [(s.queryLattice b).pose (qStartX b) (qStartY b) (u8 b 0x18)]
def State.goalContacts (s : State) (b : List Byte) : List Contact :=
  s.contacts s.stp.published b [(s.queryLattice b).pose (qGoalX b) (qGoalY b) (u8 b 0x19)]

/-- The node that a query starts from. -/
def startNode (b : List Byte) : SNode := ⟨qStartX b, qStartY b, u8 b 0x18, 0, 0, 0, 0⟩

/-- A query as it starts: the published epoch pinned, its workspace empty. -/
def State.pinned (s : State) (q : Query) : Running :=
  { query := q, epoch := s.stp.epoch, buffer := s.stp.published
    capacity := min 262144 ((s.win (hWindow (qWorkspace q.record))).len / 48) }

theorem execQueryStart_starts {q : Query} (hr : s.stp.running = none) (hq : s.stp.nextQuery = some q) :
    exec .queryStart s = .next (s.startQuery q) := by
  show execQueryStart s = _
  simp [execQueryStart, hr, hq]

section
variable {q : Query}

/-- The checks of a start in their order, each with its outcome; the free values and the counts of tests stay open. -/
theorem State.startQuery_eq : ∃ (f g : Bool) (t u v : State) (hit hit' : Nat), t.stp.ended = s.stp.ended ∧ u.stp.ended = s.stp.ended ∧
    s.startQuery q =
      if clashes f (s.startContacts q.record) then t.endQuery (s.pinned q) stStartInCollision none none hit
      else if clashes g (s.goalContacts q.record) then u.endQuery (s.pinned q) stGoalInCollision none none hit'
      else if inGoal q.record (s.queryLattice q.record).headings (startNode q.record) then
        u.endQuery { (s.pinned q).push (startNode q.record) with pushed := 0 } stPathFound none (some 0)
      else v.modStp fun x => { x with running := some ((s.pinned q).push (startNode q.record)) } := by
  refine ⟨_, _, _, _, _, _, _, ?_, ?_, rfl⟩
  · rfl
  · rfl

theorem State.startQuery_startClashes (h : ∃ c ∈ s.startContacts q.record, c.sure = true) :
    ∃ e, (s.startQuery q).stp.ended = s.stp.ended ++ [e] ∧ e.query = q ∧ e.status = stStartInCollision := by
  obtain ⟨f, g, t, u, v, hit, hit', ht, -, heq⟩ := State.startQuery_eq (s := s) (q := q)
  rw [heq, if_pos (clashes_of_sure h), ← ht]
  exact t.endQuery_ended ..

section
variable (hs : s.startContacts q.record = [])
include hs

theorem State.startQuery_goalClashes (h : ∃ c ∈ s.goalContacts q.record, c.sure = true) :
    ∃ e, (s.startQuery q).stp.ended = s.stp.ended ++ [e] ∧ e.query = q ∧ e.status = stGoalInCollision := by
  obtain ⟨f, g, t, u, v, hit, hit', -, hu, heq⟩ := State.startQuery_eq (s := s) (q := q)
  rw [heq, hs, clashes_nil, if_neg Bool.false_ne_true, if_pos (clashes_of_sure h), ← hu]
  exact u.endQuery_ended ..

theorem State.startQuery_runs (h : s.goalContacts q.record = [])
    (hg : inGoal q.record (s.queryLattice q.record).headings (startNode q.record) = false) :
    (s.startQuery q).stp.running = some ((s.pinned q).push (startNode q.record)) := by
  obtain ⟨f, g, t, u, v, hit, hit', -, -, heq⟩ := State.startQuery_eq (s := s) (q := q)
  rw [heq, hs, h, hg]
  rfl
end
end

/-! ### The queue's lowest entry (R284) -/

theorem pqMin_eq_none {l : List PqEnt} (h : pqMin l = none) : l = [] := by
  cases l with
  | nil => rfl
  | cons e l =>
    simp only [pqMin] at h
    split at h
    · split at h <;> simp at h
    · simp at h

/-- The entry taken is one of the queue, and none has a lower key. -/
theorem pqMin_lowest {l : List PqEnt} : ∀ {e : PqEnt}, pqMin l = some e → e ∈ l ∧ ∀ x ∈ l, e.key ≤ x.key := by
  induction l with
  | nil => exact fun h => absurd h (by simp [pqMin])
  | cons a l ih =>
    intro e h
    simp only [pqMin] at h
    split at h
    next m hm =>
      obtain ⟨hmem, hlow⟩ := ih hm
      split at h
      next hlt =>
        obtain rfl := Option.some.inj h
        exact ⟨List.mem_cons_of_mem _ hmem, List.forall_mem_cons.mpr ⟨hlt.le, hlow⟩⟩
      next hge =>
        obtain rfl := Option.some.inj h
        exact ⟨List.mem_cons_self, List.forall_mem_cons.mpr ⟨le_rfl, fun x hx => (Nat.not_lt.mp hge).trans (hlow x hx)⟩⟩
    next hnone =>
      obtain rfl := Option.some.inj h
      rw [pqMin_eq_none hnone]
      simp

/-! ### Budgets (R286) -/

theorem State.checkBudgets_exhausted {e : PqEnt} (he : pqMin r.pq = some e)
    (h : qBudget r.query.record ≤ us ∨ (qMaxExp r.query.record ≠ 0 ∧ qMaxExp r.query.record ≤ r.expansions) ∨ r.full = true) :
    s.checkBudgets r us = s.endQuery r stBudgetExhausted (some us) (some e.node) := by
  refine (if_pos (by simpa [or_assoc] using h)).trans ?_
  rw [he]

theorem State.checkBudgets_left (hb : us < qBudget r.query.record)
    (hm : qMaxExp r.query.record = 0 ∨ r.expansions < qMaxExp r.query.record) (hf : r.full = false) : s.checkBudgets r us = s.modStp fun t => { t with running := some r } := by
  refine if_neg ?_
  simp only [hf, Bool.or_eq_true, Bool.and_eq_true, decide_eq_true_eq, bne_iff_ne]
  rintro ((h | h) | h)
  · omega
  · omega
  · exact absurd h (by decide)

section
variable (hr : s.stp.running = some r)
include hr

theorem execQueryExpansion_stale (hs : r.stale = true) :
    exec (.queryExpansion us) s = .next (s.endQuery r stStaleWorld (some us) none) := by
  show execQueryExpansion us s = _
  simp [execQueryExpansion, State.queryLost, hr, hs]

theorem execQueryBudgetExpiry_early (hb : us < qBudget r.query.record) : exec (.queryBudgetExpiry us) s = .next s := by
  show execQueryBudgetExpiry us s = _
  simp [execQueryBudgetExpiry, hr, hb]
end

/-! ### Expansions (R284) -/

/-- The state once an expansion's free values are taken. -/
def State.expanding (s : State) : State := { s with clk.free := s.clk.free + 512 }

/-- The query once node `n` of entry `e` is expanded: its heading's primitives tried in table order. -/
def State.expanded (s : State) (l : Lattice) (seed : Nat) (r : Running) (e : PqEnt) (n : SNode) : Running :=
  (l.from n.h).foldl (s.candidate l seed e.node n) { r.pop e with expansions := r.expansions + 1 }

section
variable (hr : s.stp.running = some r) (hs : r.stale = false) (hl : r.lost = false)
  (hw : s.unitWindow r.query.part (qWorkspace r.query.record) = true)
include hr hs hl hw

theorem execQueryExpansion_expands :
    exec (.queryExpansion us) s = .next (State.expand (r.pq.length + 1) s.expanding r us s.clk.free) := by
  show execQueryExpansion us s = _
  simp only [execQueryExpansion, hr, State.queryLost, hs, hl, hw]
  rfl

theorem execQueryBudgetExpiry_passed (hb : qBudget r.query.record ≤ us) :
    exec (.queryBudgetExpiry us) s = .next (s.checkBudgets r us) := by
  show execQueryBudgetExpiry us s = _
  simp [execQueryBudgetExpiry, hr, State.queryLost, hs, hl, hw, Nat.not_lt.mpr hb]
end

section
variable {fuel seed : Nat}

theorem State.expand_empty (h : r.pq = []) : State.expand (fuel + 1) s r us seed = s.endQuery r stNoPath (some us) none := by
  simp [State.expand, h, pqMin]

section
variable {e : PqEnt} (he : pqMin r.pq = some e)
  (hb : (r.bestG ((r.node e.node).x, (r.node e.node).y, (r.node e.node).h)).any (fun v => decide (v < (r.node e.node).g)) = false)
include he hb

theorem State.expand_goal (hg : inGoal r.query.record (s.queryLattice r.query.record).headings (r.node e.node) = true) :
    State.expand (fuel + 1) s r us seed = s.endQuery (r.pop e) stPathFound (some us) (some e.node) := by
  rw [State.expand, he]
  exact (if_neg (Bool.eq_false_iff.mp hb)).trans (if_pos hg)

theorem State.expand_expands (hg : inGoal r.query.record (s.queryLattice r.query.record).headings (r.node e.node) = false) :
    State.expand (fuel + 1) s r us seed =
      ((s.modStp fun t => { t with stats := { t.stats with expansions := t.stats.expansions + 1 } }).countTests
        (s.testsMade r.buffer (seed + 256))).checkBudgets (s.expanded (s.queryLattice r.query.record) seed r e (r.node e.node)) us := by
  rw [State.expand, he]
  exact (if_neg (Bool.eq_false_iff.mp hb)).trans (if_neg (Bool.eq_false_iff.mp hg))
end
end

/-! ### Candidates (R284, R285) -/

section
variable {l : Lattice} {seed parent k : Nat} {n : SNode} {p : List Byte}

theorem State.candidate_clashes (h : ∃ c ∈ s.sweep r.buffer r.query.record l n p, c.sure = true) :
    s.candidate l seed parent n r (p, k) = r :=
  if_pos (by rw [clashes_of_sure h, Bool.or_true])

/-- The node that primitive `p`, the `k`-th of its table, leads to from the node `n` numbered `parent`. -/
def SNode.after (n : SNode) (p : List Byte) (parent k : Nat) : SNode :=
  ⟨n.x + sext 16 (u16 p 2), n.y + sext 16 (u16 p 4), u8 p 1, satCost n.g (u32 p 8), parent, k, u8 p 6⟩

theorem State.candidate_pushed (hs : s.sweep r.buffer r.query.record l n p = [])
    (hb : ∀ v, r.bestG ((n.after p parent k).x, (n.after p parent k).y, (n.after p parent k).h) = some v → (n.after p parent k).g < v) :
    s.candidate l seed parent n r (p, k) = r.push (n.after p parent k) := by
  refine if_neg ?_
  rw [hs, clashes_nil, Bool.or_false]
  split
  next v hv => exact (decide_eq_false (Nat.not_le.mpr (hb v hv))) ▸ Bool.false_ne_true
  next => decide
end

/-! ### Results (R287, R288) -/

section
variable {e : Ended} (he : s.stp.ended.find? (·.write.isNone) = some e)
include he

theorem execQueryResultWrite_writes (h : qForward e.query.record = false ∨ e.status ≠ stPathFound ∨ e.forwarded = true) :
    exec .queryResultWrite s = .next (s.writeResult e) := by
  have hno : (qForward e.query.record && e.status == stPathFound && !e.forwarded) = false := by
    obtain h | h | h := h <;> simp [h]
  show execQueryResultWrite s = _
  simp only [execQueryResultWrite, he, hno]
  rfl

theorem execQueryResultWrite_forwards (hf : qForward e.query.record = true) (hs : e.status = stPathFound) (hn : e.forwarded = false) :
    exec .queryResultWrite s = .next (s.forward e) := by
  show execQueryResultWrite s = _
  simp [execQueryResultWrite, he, hf, hs, hn]
end

/-- Settles O37: a query's course event by event, each branch one lemma; the checks of a start are told once (`State.startQuery_eq`),
and the queue's lowest entry is found by induction on the queue (`pqMin_lowest`). -/
theorem queryCourse : Obligations.QueryCourse := by
  refine ⟨fun s id p w hw hk hp ht hh hb => ⟨execQueryPost_landed hw hk hp ht hh hb, fun l n => State.takeQuery_queued,
      State.takeQuery_busy⟩,
    fun s q hr hq => ⟨execQueryStart_starts hr hq, State.startQuery_startClashes, State.startQuery_goalClashes,
      State.startQuery_runs⟩,
    fun t q hq => ⟨Steeple.nextQuery_mem hq, Steeple.nextQuery_reserved hq⟩,
    fun s r us hr => ⟨execQueryExpansion_stale hr, execQueryBudgetExpiry_early hr, fun hs hl hw => ?running⟩,
    fun s r us => ⟨fun e he => State.checkBudgets_exhausted he, State.checkBudgets_left⟩,
    fun s l seed parent k n r p => ⟨State.candidate_clashes, State.candidate_pushed⟩,
    fun l e he => pqMin_lowest he,
    fun s e he => ⟨execQueryResultWrite_writes he, execQueryResultWrite_forwards he⟩⟩
  case running =>
    have expands := execQueryExpansion_expands (us := us) hr hs hl hw
    exact ⟨fun h => expands.trans (congrArg _ (State.expand_empty h)),
      fun e he hb => ⟨fun hg => expands.trans (congrArg _ (State.expand_goal he hb hg)),
        fun hg => expands.trans (congrArg _ (State.expand_expands he hb hg))⟩,
      execQueryBudgetExpiry_passed hr hs hl hw⟩

end Sys2Proof.Machine
end

section
/-! PROOF. World and planning commands at their turn (R271, R273 to R275, R277, R280 to R282, R291). -/

namespace Sys2Proof.Machine

variable {s : State} {q code : Nat} {c : Cmd} {inl blk : List Byte}

/-! ### world.configure and world.edit (R273, R275) -/

theorem State.worldConfigure_malformed (hb : worldBad c.inl = true) : s.worldConfigure q c = .refuse rcPlanMalformed := if_pos hb

section
variable (hb : worldBad c.inl = false)
include hb

theorem State.worldConfigure_busy (hu : s.stp.busy = true) : s.worldConfigure q c = .refuse rcPlanBusy := by
  simp [State.worldConfigure, hb, hu]

theorem State.worldConfigure_sets (hu : s.stp.busy = false) :
    s.worldConfigure q c = (s.modStp fun t => t.setWorld c.inl).publishFor q c.no := by
  simp [State.worldConfigure, hb, hu]
end

section
variable (hn : editList c.blk ≠ [])
include hn

theorem State.worldEdit_malformed (hb : (editList c.blk).any editBad = true) : s.worldEdit q c = .refuse rcPlanMalformed := by
  simp [State.worldEdit, hn, hb]

section
variable (hb : (editList c.blk).any editBad = false)
include hb

/-- Behind a publication an edit waits. -/
theorem State.worldEdit_waits (hp : (s.stp.pubPending || s.stp.copying) = true) : s.worldEdit q c =
    .runs (s.modStp fun t => { t with waitingOps := t.waitingOps ++ [.edit q c.no (editList c.blk)] }) := by
  simp only [State.worldEdit, List.isEmpty_eq_false_iff.mpr hn, hb, hp]
  rfl

section
variable (hp : (s.stp.pubPending || s.stp.copying) = false)
include hp

theorem State.worldEdit_full (ha : s.stp.applyEdits (editList c.blk) = none) : s.worldEdit q c = .refuse rcWorldFull := by
  simp only [State.worldEdit, List.isEmpty_eq_false_iff.mpr hn, hb, hp, ha]
  rfl

theorem State.worldEdit_whole {t : Steeple} (ha : s.stp.applyEdits (editList c.blk) = some t) :
    s.worldEdit q c = .ok 0 { s with stp := t } := by
  simp only [State.worldEdit, List.isEmpty_eq_false_iff.mpr hn, hb, hp, ha]
  rfl
end
end
end

/-! ### world.load and world.unload (R274) -/

section
variable (hs : s.slotCheck (u16 c.inl 0) 2 0xFF = none)
include hs

theorem State.worldLoad_mediaError (hm : s.mediaBad (u16 c.inl 0) = true) :
    s.worldLoad q c = .ends stMediaError (s.mediaDone (u16 c.inl 0)) := by
  simp [State.worldLoad, hs, hm]

section
variable (hm : s.mediaBad (u16 c.inl 0) = false)
include hm

theorem State.worldLoad_badSignature (hg : s.lan.sigCheck (s.slot (u16 c.inl 0)).data 2 0xFF = some code) :
    s.worldLoad q c = .refuseWith code (s.logSignature code 2 (u16 c.inl 0) 0xFF) := by
  simp [State.worldLoad, hs, hm, hg]

section
variable (hg : s.lan.sigCheck (s.slot (u16 c.inl 0)).data 2 0xFF = none)
include hg

theorem State.worldLoad_busy (hu : s.stp.busy = true) : s.worldLoad q c = .refuse rcPlanBusy := by
  simp [State.worldLoad, hs, hm, hg, hu]

section
variable (hu : s.stp.busy = false)
include hu

theorem State.worldLoad_badImage (hc : meshCheck (s.slot (u16 c.inl 0)).data = some code) : s.worldLoad q c = .refuse code := by
  simp [State.worldLoad, hs, hm, hg, hu, hc]

/-- An image that passes every check is the mesh, its slot measured, and a publication follows. -/
theorem State.worldLoad_loads (hc : meshCheck (s.slot (u16 c.inl 0)).data = none) : s.worldLoad q c =
    ((s.modStp fun t => { t with mesh := some (s.slot (u16 c.inl 0)).data, meshSlot := u16 c.inl 0 }).measureSlot 0x0804
      (u16 c.inl 0) (digest (s.slot (u16 c.inl 0)).body)).publishFor q c.no := by
  simp [State.worldLoad, hs, hm, hg, hu, hc]
end
end
end
end

theorem State.worldUnload_busy (hu : s.stp.busy = true) : s.worldUnload q c = .refuse rcPlanBusy := if_pos hu

section
variable (hu : s.stp.busy = false)
include hu

theorem State.worldUnload_mesh (hm : s.stp.mesh.isSome = true) : s.worldUnload q c =
    ((s.measureSlot 0x0805 s.stp.meshSlot (digest (s.slot s.stp.meshSlot).body)).modStp fun t =>
      { t with mesh := none, meshSlot := 0 }).publishFor q c.no := by
  simp only [State.worldUnload, hu, hm]
  rfl

theorem State.worldUnload_noMesh (hm : s.stp.mesh = none) :
    s.worldUnload q c = (s.modStp fun t => { t with mesh := none, meshSlot := 0 }).publishFor q c.no := by
  simp only [State.worldUnload, hu, hm]
  rfl
end

/-! ### plan.machine and plan.lattice (R280, R281) -/

/-- A query that is queued or running names `n` in the field `f` of its record, or none does. -/
theorem Steeple.live_any_iff {t : Steeple} {f : List Byte → Nat} {n : Nat} :
    (t.live.any fun x => f x.record == n) = true ↔ ∃ x ∈ t.live, f x.record = n := by
  simp

theorem Steeple.not_live_any {t : Steeple} {f : List Byte → Nat} {n : Nat} (h : ∀ x ∈ t.live, f x.record ≠ n) :
    ¬ (t.live.any fun x => f x.record == n) = true :=
  Steeple.live_any_iff.not.mpr fun ⟨x, hx, hn⟩ => h x hx hn

theorem State.planMachine_outOfRange (h : 7 < u8 inl 0 ∨ 32 < u8 inl 1) : s.planMachine inl blk = .refuse rcPlanMalformed := by
  obtain h | h := h <;> simp [State.planMachine, firstFail, h]

theorem State.planMachine_none (hm : u8 inl 0 ≤ 7) (hn : u8 inl 1 = 0) : s.planMachine inl blk = .refuse rcZeroSize := by
  simp [State.planMachine, firstFail, hn, Nat.not_lt.mpr hm]

section
variable (hm : u8 inl 0 ≤ 7) (hlo : 1 ≤ u8 inl 1) (hhi : u8 inl 1 ≤ 32)
  (hb : ∀ i, i < u8 inl 1 → finiteAt blk (16 * i) 4 = true ∧ above0 (u32 blk (16 * i + 12)) = true)
include hm hlo hhi hb

/-- Of sound spheres it is only asked whether a query uses the machine. -/
theorem State.planMachine_sound : s.planMachine inl blk =
    if s.stp.live.any fun x => qMachine x.record == u8 inl 0 then .refuse rcPlanBusy
    else .ok 0 (s.modStp fun t => { t with machines := Map.set [] t.machines (u8 inl 0) blk }) := by
  have hspheres : ((List.range (u8 inl 1)).any fun i => !finiteAt blk (16 * i) 4 || !above0 (u32 blk (16 * i + 12))) = false :=
    List.any_eq_false.mpr fun i hi => by simp [hb i (List.mem_range.mp hi)]
  have hzero : u8 inl 1 ≠ 0 := by omega
  simp only [State.planMachine, hspheres]
  cases s.stp.live.any fun x => qMachine x.record == u8 inl 0 <;>
    simp [firstFail, hzero, Nat.not_lt.mpr hm, Nat.not_lt.mpr hhi]
end

/-- The header of a lattice block keeps the ranges of R281. -/
structure LatticeSound (b : List Byte) : Prop where
  number : u8 b 0 ≤ 3
  headings : u8 b 1 ∈ [16, 32, 64]
  nonempty : 1 ≤ u16 b 2
  many : u16 b 2 ≤ 256
  fine : 10 ≤ u32 b 4
  coarse : u32 b 4 ≤ 10000
  origin : finiteAt b 8 2 = true
  zero : allZero b 0x10 16 = true

/-- The motion primitives of a lattice block. -/
def latticePrims (b : List Byte) : List (List Byte) := (recordsOf 256 (b.drop 32)).take (u16 b 2)

/-- The lattice that a block lays down. -/
def latticeOf (b : List Byte) : Lattice :=
  { set := true, headings := u8 b 1, res := u32 b 4, header := b.take 32, prims := latticePrims b }

/-- A header of a lattice block that breaks R281. -/
def latticeHeaderBad (b : List Byte) : Bool :=
  decide (3 < u8 b 0) || !([16, 32, 64].contains (u8 b 1)) || decide (256 < u16 b 2) || decide (u32 b 4 < 10) ||
  decide (10000 < u32 b 4) || !finiteAt b 8 2 || !allZero b 0x10 16

theorem LatticeSound.header_sound (h : LatticeSound blk) : latticeHeaderBad blk = false := by
  obtain ⟨number, headings, -, many, fine, coarse, origin, zero⟩ := h
  have hheadings : [16, 32, 64].contains (u8 blk 1) = true := List.contains_iff_mem.mpr headings
  simp only [latticeHeaderBad, hheadings, origin, zero]
  simp [number, many, fine, coarse]

/-- What plan.lattice refuses, in the order of its checks. -/
def State.latticeCheck (s : State) (b : List Byte) : Option Nat :=
  firstFail [
    (latticeHeaderBad b || (latticePrims b).any (motionBad (u8 b 1) (u32 b 4)), rcPlanMalformed), (u16 b 2 == 0, rcZeroSize),
    (s.stp.live.any fun x => qLattice x.record == u8 b 0, rcPlanBusy)]

theorem State.planLattice_eq : s.planLattice inl blk = match s.latticeCheck blk with
    | some code => .refuse code
    | none => .ok 0 (s.modStp fun t => { t with lattices := Map.set {} t.lattices (u8 blk 0) (latticeOf blk) }) := rfl

section
variable (h : LatticeSound blk)
include h

theorem LatticeSound.planLattice_badPrimitive (hp : ∃ x ∈ latticePrims blk, motionBad (u8 blk 1) (u32 blk 4) x = true) :
    s.planLattice inl blk = .refuse rcPlanMalformed := by
  have hbad : (latticePrims blk).any (motionBad (u8 blk 1) (u32 blk 4)) = true := List.any_eq_true.mpr hp
  rw [State.planLattice_eq, State.latticeCheck, h.header_sound, hbad]
  rfl

/-- Of sound primitives it is only asked whether a query uses the lattice. -/
theorem LatticeSound.planLattice_sound (hp : ∀ x ∈ latticePrims blk, motionBad (u8 blk 1) (u32 blk 4) x = false) :
    s.planLattice inl blk = if s.stp.live.any fun x => qLattice x.record == u8 blk 0 then .refuse rcPlanBusy
      else .ok 0 (s.modStp fun t => { t with lattices := Map.set {} t.lattices (u8 blk 0) (latticeOf blk) }) := by
  have hgood : (latticePrims blk).any (motionBad (u8 blk 1) (u32 blk 4)) = false :=
    List.any_eq_false.mpr fun x hx => Bool.eq_false_iff.mp (hp x hx)
  have hsome : (u16 blk 2 == 0) = false := beq_eq_false_iff_ne.mpr (Nat.one_le_iff_ne_zero.mp h.nonempty)
  rw [State.planLattice_eq, State.latticeCheck, h.header_sound, hgood, hsome]
  cases s.stp.live.any fun x => qLattice x.record == u8 blk 0 <;> rfl
end

/-! ### plan.query_window (R282) -/

theorem State.queryWindow_none (h : s.freeWindow = none) : s.queryWindow inl blk = .refuse rcWindowBudget := by
  unfold State.queryWindow
  rw [h]

theorem State.queryWindow_opens {id : Nat} (h : s.freeWindow = some id) :
    let t := ((s.queryWins (u8 inl 0)).foldl State.closeWindow s).openWindow id (queryWin (u8 inl 0))
    s.queryWindow inl blk = .ok (t.handle id).toNat t := by
  unfold State.queryWindow
  rw [h]

/-- Settles O52: each command at its turn comes to its own meaning (`State.AtTurn.exec_eq`), which the lemmas above give check by
check. -/
theorem planCommands : Obligations.PlanCommands := by
  intro s q c ht hr hc ok no runs publish op b l
  have hat : s.AtTurn q c := ⟨ht, hr, hc⟩
  refine ⟨fun ho => ?configure, fun ho hn => ?edit, fun ho => ?publish, fun ho => ?load, fun ho => ?unload, fun ho => ?machine,
    fun ho number headings nonempty many fine coarse origin zero => ?lattice, fun ho => ?window, fun ho => ?stats⟩
  case configure =>
    have configures : ∀ {d}, s.worldConfigure q c = d → exec (.worldConfigure q) s = .next (s.settle q c d) :=
      hat.exec_eq (f := fun t c => t.worldConfigure q c) rfl ho rfl
    exact ⟨fun hb => configures (State.worldConfigure_malformed hb), fun hb hu => configures (State.worldConfigure_busy hb hu),
      fun hb hu => configures (State.worldConfigure_sets hb hu)⟩
  case edit =>
    have edits : ∀ {d}, s.worldEdit q c = d → exec (.worldEdit q) s = .next (s.settle q c d) :=
      hat.exec_eq (f := fun t c => t.worldEdit q c) rfl ho rfl
    exact ⟨fun hb => edits (State.worldEdit_malformed hn hb), fun hb hp => edits (State.worldEdit_waits hn hb hp),
      fun hb hp => ⟨fun ha => edits (State.worldEdit_full hn hb hp ha), fun t ha => edits (State.worldEdit_whole hn hb hp ha)⟩⟩
  case publish => exact hat.exec_eq (f := fun t c => t.publishFor q c.no) rfl ho rfl rfl
  case load =>
    intro n d sig
    have loads : ∀ {r}, s.worldLoad q c = r → exec (.worldLoad q) s = .next (s.settle q c r) :=
      hat.exec_eq (f := fun t c => t.worldLoad q c) rfl ho rfl
    exact ⟨fun hs hm => loads (State.worldLoad_mediaError hs hm),
      fun hs hm => ⟨fun code hg => loads (State.worldLoad_badSignature hs hm hg),
        fun hg hu => loads (State.worldLoad_busy hs hm hg hu),
        fun code hg hu hk => loads (State.worldLoad_badImage hs hm hg hu hk),
        fun hg hu hk => loads (State.worldLoad_loads hs hm hg hu hk)⟩⟩
  case unload =>
    have unloads : ∀ {d}, s.worldUnload q c = d → exec (.worldUnload q) s = .next (s.settle q c d) :=
      hat.exec_eq (f := fun t c => t.worldUnload q c) rfl ho rfl
    exact ⟨fun hu => unloads (State.worldUnload_busy hu), fun hu hm => unloads (State.worldUnload_mesh hu hm),
      fun hu hm => unloads (State.worldUnload_noMesh hu hm)⟩
  case machine =>
    have plans : ∀ {d}, s.planMachine c.inl c.blk = d → exec (.planMachine q) s = .next (s.settle q c d) :=
      hat.exec_args (f := State.planMachine) rfl ho
    exact ⟨fun h => plans (State.planMachine_outOfRange h), fun hm hn => plans (State.planMachine_none hm hn),
      fun hm hlo hhi hb =>
        ⟨fun hu => plans ((State.planMachine_sound hm hlo hhi hb).trans (if_pos (Steeple.live_any_iff.mpr hu))),
          fun hu => plans ((State.planMachine_sound hm hlo hhi hb).trans
            (if_neg (Steeple.not_live_any hu)))⟩⟩
  case lattice =>
    have hsound : LatticeSound c.blk := ⟨number, headings, nonempty, many, fine, coarse, origin, zero⟩
    have plans : ∀ {d}, s.planLattice c.inl c.blk = d → exec (.planLattice q) s = .next (s.settle q c d) :=
      hat.exec_args (f := State.planLattice) rfl ho
    exact ⟨fun hp => plans (hsound.planLattice_badPrimitive hp),
      fun hp => ⟨fun hu => plans ((hsound.planLattice_sound hp).trans (if_pos (Steeple.live_any_iff.mpr hu))),
        fun hu => plans ((hsound.planLattice_sound hp).trans (if_neg (Steeple.not_live_any hu)))⟩⟩
  case window =>
    have opens : ∀ {d}, s.queryWindow c.inl c.blk = d → exec (.planQueryWindow q) s = .next (s.settle q c d) :=
      hat.exec_args (f := State.queryWindow) rfl ho
    exact ⟨fun h => opens (State.queryWindow_none h), fun id h => opens (State.queryWindow_opens h)⟩
  case stats => exact hat.exec_args (f := fun t _ _ => .data t.stp.record 0 t) rfl ho rfl

end Sys2Proof.Machine
end

section
/-! PROOF. What a step does with the queue of commands (R318, R326). -/

namespace Sys2Proof.Machine

variable {s : State}

/-- A step takes the command at the front. -/
theorem step_front {c : Instr} {rest : List Instr} (h : s.pending = c :: rest) : step s = exec c { s with pending := rest } := by
  unfold step
  rw [h]

theorem step_idle (h : s.pending = []) : step s = .next s.tick := by
  unfold step
  rw [h]

/-- Settles O1, by whether a command waits. -/
theorem stepRunsFrontCommand : Obligations.StepRunsFrontCommand :=
  ⟨fun _ _ _ h => step_front h, fun _ h => step_idle h⟩

end Sys2Proof.Machine
end

section
/-! PROOF. Reset events: what a stop of the module leaves, the events that stop and start it, and its start (R380, R390, R397,
R431 to R438, R444, R445, R457). -/

namespace Sys2Proof.Machine

variable {s t : State}

/-! ### What a stop leaves (R444) -/

/-- State `t` holds of state `s` what the matrix leaves of a module whose base dies stop, and nothing of the rest. -/
def State.Leaves (s t : State) : Prop :=
  t.host = {} ∧ t.parts = [] ∧ t.tok = [] ∧ t.tiles = [] ∧ t.fab = {} ∧ t.huv = {} ∧ t.stem = [] ∧ t.cup = {} ∧
    t.stp = {} ∧ t.cmp = {} ∧ t.arbs = [] ∧ t.sp.mem = [] ∧ t.ddr.mem = [] ∧ t.store = s.store ∧ t.engineMap = s.engineMap ∧
    t.module.fencedTiles = s.module.fencedTiles ∧ t.lan.life = s.lan.life ∧ t.lan.keys = s.lan.keys ∧ t.lan.root = s.lan.root ∧
    t.lan.policy = s.lan.policy ∧ t.lan.targets = s.lan.targets ∧ t.lan.pending = s.lan.pending ∧ t.pending = s.pending

theorem State.foldl_emit_eq {α : Type} (f : α → Output) (l : List α) (s : State) :
    l.foldl (fun t e => t.emit (f e)) s = { s with out := s.out ++ l.map f } := by
  induction l generalizing s with
  | nil => simp
  | cons e l ih =>
    rw [List.foldl_cons, ih]
    simp [State.emit]

/-- The outputs of a module that stops touch the outputs alone. -/
theorem State.outputsOff_eq (s : State) : ∃ o, s.outputsOff = { s with out := o } := by
  unfold State.outputsOff
  rw [State.foldl_emit_eq]
  split <;> exact ⟨_, rfl⟩

theorem State.stopModule_leaves (s : State) (st : ModState) (cause : StartCause) : s.Leaves (s.stopModule st cause) := by
  obtain ⟨o, ho⟩ := s.outputsOff_eq
  unfold State.stopModule
  rw [ho]
  and_intros <;> rfl

@[simp] theorem State.outputsOff_module (s : State) : s.outputsOff.module = s.module := by
  obtain ⟨o, ho⟩ := s.outputsOff_eq
  rw [ho]

/-- The module's own record keeps all but its state, the cause of the start to come, and WAKE_N. -/
@[simp] theorem State.stopModule_module (s : State) (st : ModState) (cause : StartCause) :
    (s.stopModule st cause).module = { s.module with state := st, cause := cause, wake := false } := by
  rw [← s.outputsOff_module]
  rfl

theorem State.clearAlert_leaves (h : s.Leaves t) : s.Leaves t.clearAlert := by
  simp only [State.clearAlert]
  split <;> exact h

@[simp] theorem State.clearAlert_module (t : State) : t.clearAlert.module = { t.module with alert := false } := by
  simp only [State.clearAlert]
  split
  · rfl
  next h => rw [← Bool.eq_false_iff.mpr h]

theorem State.hold_leaves (s : State) : s.Leaves s.hold := State.clearAlert_leaves (s.stopModule_leaves .held .mrst)

theorem State.hold_module (s : State) : s.hold.module =
    { s.module with state := .held, cause := .mrst, wake := false, alert := false, m1Held := false } := by
  simp [State.hold, State.freshRom]

/-! ### The events that stop the module (R431 to R435) -/

/-- Event `i` stops the module: it stands in state `st`, and its next start has the cause `cause`. -/
def State.Stops (s : State) (i : Instr) (st : ModState) (cause : StartCause) : Prop :=
  ∃ t : State, exec i s = .next t ∧ s.Leaves t ∧ t.module.state = st ∧ t.module.cause = cause

theorem exec_por_stops : s.Stops .por (if s.module.mrst then .held else .starting) .por := by
  refine ⟨_, rfl, State.clearAlert_leaves (s.stopModule_leaves _ _), ?_⟩
  simp [State.freshRom]

theorem exec_por_fresh : ∃ t : State, exec .por s = .next t ∧ t.lan.debugPort = {} ∧ t.lan.romHold = false ∧ t.lan.mrs = [] ∧
    t.module.slotId = s.module.slotPins % 4 := ⟨_, rfl, rfl, rfl, rfl, rfl⟩

theorem exec_auxLoss_stops (h : s.module.state ≠ .off) : s.Stops .auxLoss .off .por := by
  refine ⟨_, if_neg h, State.clearAlert_leaves (s.stopModule_leaves _ _), ?_⟩
  simp [State.emit]

theorem exec_mainLoss_stops (ho : s.module.state ≠ .off) (h2 : s.module.state ≠ .m2) : s.Stops .mainLoss .m2 .m2 := by
  refine ⟨_, if_neg (by simp [ho, h2]), s.stopModule_leaves _ _, ?_⟩
  simp [State.emit]

theorem exec_m1Trip_stops (h : s.module.state = .running ∨ s.module.state = .starting) : s.Stops .m1Trip .m1 .m1 ∧
    ∃ t : State, exec .m1Trip s = .next t ∧ t.module.m1Held = decide (3 ≤ s.recentExits.length) := by
  have hacts : exec .m1Trip s = _ := if_neg (by simpa using fun hr => h.resolve_left hr)
  refine ⟨⟨_, hacts, s.stopModule_leaves .m1 .m1, ?_⟩, _, hacts, rfl⟩
  simp [State.log, State.emit]

theorem exec_mrstNAssert_holds (ho : s.module.state ≠ .off) (h2 : s.module.state ≠ .m2) : exec .mrstNAssert s =
    .next ({ s with module.mrst := true } : State).hold := if_neg (by simp [ho, h2])

theorem exec_mrstNAssert_level (h : s.module.state = .off ∨ s.module.state = .m2) :
    exec .mrstNAssert s = .next { s with module.mrst := true } := if_pos (by simpa using h)

theorem exec_mrstNAssert_stops (ho : s.module.state ≠ .off) (h2 : s.module.state ≠ .m2) : s.Stops .mrstNAssert .held .mrst := by
  refine ⟨_, exec_mrstNAssert_holds ho h2, State.hold_leaves { s with module.mrst := true }, ?_⟩
  simp [State.hold_module]

/-- Whatever the module's state, the level is taken. -/
theorem exec_mrstNAssert_mrst (h : exec .mrstNAssert s = .next t) : t.module.mrst = true := by
  by_cases hlow : s.module.state = .off ∨ s.module.state = .m2
  · obtain rfl := Host.Outcome.next.inj ((exec_mrstNAssert_level hlow).symm.trans h)
    rfl
  · obtain ⟨ho, h2⟩ := not_or.mp hlow
    obtain rfl := Host.Outcome.next.inj ((exec_mrstNAssert_holds ho h2).symm.trans h)
    simp [State.hold_module]

/-! ### The events that start it (R432, R433, R435, R457) -/

section
variable (h2 : s.module.state = .m2)
include h2

theorem exec_mainReturn_level (hm : s.module.mrst = true) : s.Stops .mainReturn .held .mrst := by
  refine ⟨s.hold, ?_, s.hold_leaves, ?_⟩
  · refine (if_neg (by simp [h2])).trans (if_pos hm)
  · simp [State.hold_module]

theorem exec_mainReturn_goes (hm : s.module.mrst = false) :
    exec .mainReturn s = .next { s with module.state := if s.lan.romHold then .held else .starting } :=
  (if_neg (by simp [h2])).trans (if_neg (by simp [hm]))
end

theorem exec_mrstNRelease_eq : exec .mrstNRelease s = .next { s with module := { s.module with
    mrst := false, state := if s.module.state = .held ∧ s.lan.romHold = false then .starting else s.module.state
    slotId := s.module.slotPins % 4 } } := by
  show execMrstNRelease s = _
  simp [execMrstNRelease]

/-! ### The start (R397, R436) -/

/-- A transition completed at a start leaves the copies of the firmware, and damages no part of the store. -/
theorem State.completeTransition_keeps (s : State) : s.completeTransition.lan.targets = s.lan.targets ∧
    (s.store.mediaBad = [] → s.completeTransition.store.mediaBad = []) := by
  unfold State.completeTransition
  split
  · exact ⟨rfl, id⟩
  · exact ⟨rfl, fun _ => rfl⟩

/-- Burning the fuses leaves every active copy at its floor where it was. -/
theorem Lantern.burn_floor_le (l : Lantern) (k : Nat)
    (h : (Map.get ({} : Target) l.targets k).floor ≤ (Map.get ({} : Target) l.targets k).svn) :
    (Map.get ({} : Target) l.burn.targets k).floor ≤ (Map.get ({} : Target) l.burn.targets k).svn := by
  unfold Lantern.burn
  generalize l.targets = m at h
  induction m with
  | nil => exact h
  | cons e m ih =>
    obtain ⟨j, v⟩ := e
    simp only [List.map_cons, Map.get] at h ⊢
    split at h
    · rename_i hk
      simp only [hk, if_true]
      omega
    · rename_i hk
      simp only [hk, if_false]
      exact ih h

/-- A target whose active copy reads whole and is at its floor starts. -/
theorem State.starts_active {k : Nat} (hb : s.store.mediaBad = [])
    (h : (Map.get ({} : Target) s.lan.targets k).floor ≤ (Map.get ({} : Target) s.lan.targets k).svn) :
    (s.starts k).isSome = true := by
  simp [State.starts, State.mediaBad, hb, h]

theorem State.readVault_keeps {u : State} (h : s.readVault = some u) : u.store = s.store ∧ u.lan.targets = s.lan.targets := by
  unfold State.readVault at h
  split at h
  · obtain ⟨v, -, rfl⟩ := Option.map_eq_some_iff.mp h
    exact ⟨rfl, rfl⟩
  · obtain rfl := Option.some.inj h
    exact ⟨rfl, rfl⟩

theorem State.preBoot_canStart (hb : s.store.mediaBad = [])
    (h : ∀ k < 3, (Map.get ({} : Target) s.lan.targets k).floor ≤ (Map.get ({} : Target) s.lan.targets k).svn) :
    s.preBoot.canStart = true := by
  obtain ⟨htargets, hmedia⟩ := s.wiped.completeTransition_keeps
  have hstarts : ∀ k < 3, (s.preBoot.starts k).isSome = true := by
    intro k hk
    refine State.starts_active (hmedia hb) (Lantern.burn_floor_le s.wiped.completeTransition.lan k ?_)
    rw [htargets]
    exact h k hk
  simp [State.canStart, hstarts]

theorem State.setAlert_module (s : State) : ∃ a, s.setAlert.module = { s.module with alert := a } := by
  unfold State.setAlert
  extract_lets on
  split <;> exact ⟨_, rfl⟩

/-- ROM hold asserts ALERT_N. -/
theorem State.setAlert_romHold (h : s.lan.romHold = true) : s.setAlert.module = { s.module with alert := true } := by
  unfold State.setAlert
  rw [h, Bool.or_true]
  cases ha : s.module.alert
  · rfl
  · simp [← ha]

theorem State.holdInRom_held (s : State) : s.holdInRom.module.state = .held ∧ s.holdInRom.lan.romHold = true ∧
    s.holdInRom.module.alert = true ∧ s.holdInRom.host = {} := by
  obtain ⟨hhost, -⟩ := s.stopModule_leaves .held .por
  unfold State.holdInRom
  rw [State.setAlert_romHold rfl, State.setAlert_lan, State.setAlert_host]
  refine ⟨?_, rfl, rfl, hhost⟩
  simp [State.modLan]

section
variable (hs : s.module.state = .starting)
include hs

theorem exec_moduleStart_eq : exec .moduleStart s = match s.readVault with
    | none => .next s.holdInRom
    | some u => if u.preBoot.canStart then
        let t := u.preBoot.boot.applyDefaults
        .next ({ t with module := { t.module with state := .running, wake := true }, host.bar.cpReady := true } : State).setAlert
      else .next u.preBoot.holdInRom := by
  refine (if_neg (by simp [hs])).trans ?_
  cases s.readVault with
  | none => rfl
  | some u => cases hc : u.preBoot.canStart <;> simp [hc]

theorem exec_moduleStart_runs (hv : s.readVault.isSome = true) (hb : s.store.mediaBad = [])
    (hf : ∀ k < 3, (Map.get ({} : Target) s.lan.targets k).floor ≤ (Map.get ({} : Target) s.lan.targets k).svn) :
    ∃ t : State, exec .moduleStart s = .next t ∧ t.module.state = .running ∧ t.module.wake = true ∧ t.host.bar.cpReady = true := by
  obtain ⟨u, hu⟩ := Option.isSome_iff_exists.mp hv
  obtain ⟨hstore, htargets⟩ := State.readVault_keeps hu
  have hstart : u.preBoot.canStart = true := State.preBoot_canStart (hstore ▸ hb) (htargets ▸ hf)
  rw [exec_moduleStart_eq hs, hu]
  refine ⟨_, if_pos hstart, ?_⟩
  obtain ⟨a, ha⟩ := State.setAlert_module _
  rw [ha, State.setAlert_host]
  exact ⟨rfl, rfl, rfl⟩

theorem exec_moduleStart_held (h : s.readVault = none ∨ ∃ u, s.readVault = some u ∧ u.preBoot.canStart = false) :
    ∃ t : State, exec .moduleStart s = .next t ∧ t.module.state = .held ∧ t.lan.romHold = true ∧ t.module.alert = true ∧
      t.host = {} := by
  rw [exec_moduleStart_eq hs]
  obtain hv | ⟨u, hv, hc⟩ := h <;> rw [hv]
  · exact ⟨_, rfl, s.holdInRom_held⟩
  · exact ⟨_, if_neg (by simp [hc]), u.preBoot.holdInRom_held⟩
end

/-- Settles O60: every stop leaves what `State.stopModule_leaves` says, and a start has a copy of each target by
`State.preBoot_canStart`. -/
theorem resetEvents : Obligations.ResetEvents := by
  refine fun s => ⟨exec_por_stops, exec_por_fresh, exec_auxLoss_stops, fun h => if_pos h, exec_mainLoss_stops,
    fun h => if_pos (by simpa using h), exec_m1Trip_stops, exec_mrstNAssert_stops, exec_mrstNAssert_level,
    fun t => exec_mrstNAssert_mrst, fun h2 hm hr => ?starts, fun h2 hm hr => ?stays, exec_mainReturn_level,
    fun h => if_pos (by simpa using h), fun hs hr => ?released, fun h => ?kept, fun hs hh => if_neg (by simp [hs, hh]),
    fun hs hh => if_pos (by simp [hh]), exec_moduleStart_runs, exec_moduleStart_held, fun h => if_pos (by simpa using h)⟩
  case starts => rw [exec_mainReturn_goes h2 hm, hr]; rfl
  case stays => rw [exec_mainReturn_goes h2 hm, hr]; rfl
  case released => rw [exec_mrstNRelease_eq, if_pos ⟨hs, hr⟩]
  case kept => rw [exec_mrstNRelease_eq, if_neg (by simpa [imp_iff_not_or] using h)]

end Sys2Proof.Machine
end

section
/-! PROOF. Triggers of Campanile's loops, and the events that give them (R294, R303 to R306). -/

namespace Sys2Proof.Machine

variable {s : State} {l cycles : Nat}

/-! ### A trigger (R304, R305) -/

/-- Whether a trigger comes within 20,000 cycles of the last accepted one. -/
def CLoop.early (x : CLoop) (cycles : Nat) : Bool :=
  match x.lastTrigger with
  | some t => decide (cycles < t + 20000)
  | none => false

theorem CLoop.early_of_last {x : CLoop} {t : Nat} (hl : x.lastTrigger = some t) (ht : cycles < t + 20000) : x.early cycles = true := by
  simp [CLoop.early, hl, ht]

theorem CLoop.early_eq_false {x : CLoop} (h : ∀ t, x.lastTrigger = some t → t + 20000 ≤ cycles) : x.early cycles = false := by
  unfold CLoop.early
  split
  next t ht => exact decide_eq_false (Nat.not_lt.mpr (h t ht))
  next => rfl

/-- The sources of a loop that are read by SPI, in their order. -/
def spiSources (b : List Byte) : List Nat := (List.range 8).filter fun i => eKind (cSource b i) == 2

/-- The run that a trigger of loop `x` begins. -/
def CLoop.firstRun (x : CLoop) (cycles : Nat) : Run :=
  { trigger := cycles, number := x.counts.runs.toNat, waitingSpi := !(spiSources x.cfg).isEmpty }

/-- Loop `l` has accepted a trigger. -/
def State.beginRun (s : State) (l cycles : Nat) : State := s.modLoop l fun z => { z with
  run := some ((s.loop l).firstRun cycles), lastTrigger := some cycles, counts := { z.counts with runs := z.counts.runs + 1 } }

section
variable (hs : (s.loop l).status.started = true) (hp : (s.loop l).stopping = []) (hf : (s.loop l).status.fault = false)
include hs hp hf

theorem State.triggerLoop_started : s.triggerLoop l cycles =
    if (s.loop l).early cycles then s.modLoop l fun z => { z with counts := { z.counts with rateDrops := z.counts.rateDrops + 1 } }
    else if (s.loop l).run.isSome then (s.modLoop l fun z =>
        { z with counts := { z.counts with overruns := z.counts.overruns + 1 } }).modLoop l fun z =>
          { z with status := { z.status with overrun := true } }
    else if (spiSources (s.loop l).cfg).isEmpty then (s.beginRun l cycles).latch l ((s.loop l).firstRun cycles) []
    else (spiSources (s.loop l).cfg).foldl (fun (t : State) i =>
      let e := cSource (s.loop l).cfg i
      t.queueSpi (sPort e) ⟨l, sCs e, true, u64 (Map.get [] t.cmp.spiCs (4 * sPort e + sCs e)) 0x10⟩) (s.beginRun l cycles) :=
  if_neg (by simp [hs, hp, hf])

theorem State.triggerLoop_early {t : Nat} (hl : (s.loop l).lastTrigger = some t) (ht : cycles < t + 20000) :
    s.triggerLoop l cycles = s.modLoop l fun z => { z with counts := { z.counts with rateDrops := z.counts.rateDrops + 1 } } :=
  (State.triggerLoop_started hs hp hf).trans (if_pos (CLoop.early_of_last hl ht))

section
variable (ht : ∀ t, (s.loop l).lastTrigger = some t → t + 20000 ≤ cycles)
include ht

theorem State.triggerLoop_overruns (hr : (s.loop l).run.isSome = true) : s.triggerLoop l cycles = (s.modLoop l fun z =>
    { z with counts := { z.counts with overruns := z.counts.overruns + 1 } }).modLoop l fun z =>
      { z with status := { z.status with overrun := true } } := by
  rw [State.triggerLoop_started hs hp hf, CLoop.early_eq_false ht, hr]
  rfl

theorem State.triggerLoop_latches (hr : (s.loop l).run = none) (hn : spiSources (s.loop l).cfg = []) :
    s.triggerLoop l cycles = (s.beginRun l cycles).latch l ((s.loop l).firstRun cycles) [] := by
  rw [State.triggerLoop_started hs hp hf, CLoop.early_eq_false ht, hr, hn]
  rfl

theorem State.triggerLoop_reads (hr : (s.loop l).run = none) (hn : spiSources (s.loop l).cfg ≠ []) : s.triggerLoop l cycles =
    (spiSources (s.loop l).cfg).foldl (fun (t : State) i =>
      let e := cSource (s.loop l).cfg i
      t.queueSpi (sPort e) ⟨l, sCs e, true, u64 (Map.get [] t.cmp.spiCs (4 * sPort e + sCs e)) 0x10⟩) (s.beginRun l cycles) := by
  rw [State.triggerLoop_started hs hp hf, CLoop.early_eq_false ht, hr, List.isEmpty_eq_false_iff.mpr hn]
  rfl
end
end

/-! ### The events that trigger (R303, R306) -/

/-- The instant of an event of Campanile's domain: what CYCLES has come to (R294). -/
def State.instant (s : State) (cycles : Nat) : Nat := max s.cmp.cycles.toNat (cycles % 2 ^ 64)

/-- Such an event brings CYCLES to its instant. -/
def State.atInstant (s : State) (cycles : Nat) : State := { s with cmp.cycles := BitVec.ofNat 64 (s.instant cycles) }

theorem State.atCycles_eq (s : State) (cycles : Nat) : s.atCycles cycles = (s.instant cycles, s.atInstant cycles) := rfl

/-- An FD frame reaches only a port configured for FD (R302). -/
theorem fd_barred_eq_false {fd can : Bool} (h : fd = true → can = true) : (fd && !can) = false := by
  cases fd
  · rfl
  · simp [h rfl]

theorem execCanFrameReceive_named {port : Nat} {f : CanFrame} (hr : (s.canPort port).record ≠ [])
    (hf : f.fd = true → bitAt (u8 (s.canPort port).record 0x12) 0 = true)
    (hn : s.namesId port (f.ident % 2 ^ 29 + (if f.extended = true then 2 ^ 29 else 0)) = true) :
    let ident := f.ident % 2 ^ 29 + (if f.extended = true then 2 ^ 29 else 0)
    let t := ((s.atInstant cycles).modCan port fun x =>
      { x with latest := Map.set none x.latest ident (some (s.instant cycles, f.data)) }).countShort port ident f.data
    exec (.canFrameReceive port f cycles) s = .next (t.triggerAll (t.triggered 1 port fun b => cTrigId b == ident) (s.instant cycles)) := by
  refine if_neg ?_
  show ¬ ((s.canPort port).record.isEmpty || (f.fd && !bitAt (u8 (s.canPort port).record 0x12) 0) || !s.namesId port _) = true
  rw [List.isEmpty_eq_false_iff.mpr hr, fd_barred_eq_false hf, hn]
  decide

section
variable (hc : (s.loop l).cfg ≠ []) (hk : cTrigger (s.loop l).cfg = 0)
include hc hk

theorem execDividerExpiry_eq : exec (.dividerExpiry l cycles) s = .next (
    if (s.loop l).startedAt + u32 (s.loop l).cfg 8 ≤ s.instant cycles ∧
      (s.instant cycles - (s.loop l).startedAt) % u32 (s.loop l).cfg 8 = 0
    then (s.atInstant cycles).triggerLoop l (s.instant cycles) else s.atInstant cycles) := by
  have hload : (s.atInstant cycles).loop l = s.loop l := rfl
  show execDividerExpiry l cycles s = _
  simp [execDividerExpiry, State.atCycles_eq, hload, hc, hk]
end

theorem spi_queued_eq_false (h : ∀ e ∈ s.cmp.spi, ∀ t ∈ e.2, t.loop = l → t.read = false) :
    (s.cmp.spi.any fun e => e.2.any fun t => t.loop == l && t.read) = false := by
  simpa using fun k ts he t ht hl => h (k, ts) he t ht hl

theorem execSpiReadDone_latches {frames : List Nat} {r : Run} (hr : (s.loop l).run = some r) (hw : r.waitingSpi = true)
    (hq : ∀ e ∈ s.cmp.spi, ∀ t ∈ e.2, t.loop = l → t.read = false) :
    exec (.spiReadDone l frames cycles) s = .next ((s.atInstant cycles).latch l r ((spiSources (s.loop l).cfg).zipIdx.map fun e =>
      let src := cSource (s.loop l).cfg e.1
      (e.1, spiField src (u8 (Map.get [] s.cmp.spiCs (4 * sPort src + sCs src)) 0xA) (nth 0 frames e.2)))) := by
  have hload : (s.atInstant cycles).loop l = s.loop l := rfl
  show execSpiReadDone l frames cycles s = _
  unfold execSpiReadDone
  simp only [State.atCycles_eq, hload, hr]
  refine if_neg ?_
  show ¬ (!r.waitingSpi || s.cmp.spi.any fun e => e.2.any fun t => t.loop == l && t.read) = true
  rw [hw, spi_queued_eq_false hq]
  decide

/-- Settles O39: a trigger by the branches of `State.triggerLoop_started`, in their order; each event by its own lemma. -/
theorem loopTriggers : Obligations.LoopTriggers := by
  refine ⟨?trigger, ?event⟩
  case trigger =>
    intro s l cycles x hs hp hf
    refine ⟨fun t => State.triggerLoop_early hs hp hf, fun ht => ⟨State.triggerLoop_overruns hs hp hf ht, ?_⟩⟩
    intro hr reads r t
    exact ⟨State.triggerLoop_latches hs hp hf ht hr, State.triggerLoop_reads hs hp hf ht hr⟩
  case event =>
    intro s cycles cyc u
    refine ⟨?frame, fun pin rising => rfl, ?divider, fun l frames r => execSpiReadDone_latches⟩
    case frame =>
      intro port f ident hr hf hn
      exact execCanFrameReceive_named hr hf hn
    case divider =>
      intro l hc hk d
      have expires := execDividerExpiry_eq (cycles := cycles) hc hk
      exact ⟨fun hlo hd => expires.trans (congrArg _ (if_pos ⟨hlo, hd⟩)),
        fun hd => expires.trans (congrArg _ (if_neg fun ⟨hlo, h0⟩ => hd.elim (Nat.not_lt.mpr hlo) (· h0)))⟩

end Sys2Proof.Machine
end

section
/-! PROOF. The loop instructions: what each computes, and what a suppressed one does (R295, R297, R306 to R308). -/

namespace Sys2Proof.Machine

variable {s : State} {l op : Nat} {r : Run} {w : DWord}

/-! ### Words that wrap (R295) -/

theorem word_add (a b : Word) : a + b = BitVec.ofInt 32 (a.toInt + b.toInt) := by simp [BitVec.ofInt_add]

theorem word_sub (a b : Word) : a - b = BitVec.ofInt 32 (a.toInt - b.toInt) := by
  simp [Int.sub_eq_add_neg, BitVec.ofInt_add, BitVec.ofInt_neg, BitVec.sub_eq_add_neg]

theorem word_sshiftRight (a : Word) (n : Nat) : a.sshiftRight n = BitVec.ofInt 32 (a.toInt / (2 ^ n : Nat)) := by
  rw [← Int.shiftRight_eq_div_pow, BitVec.sshiftRight_eq]

theorem word_shiftLeft (a : Word) (n : Nat) : a <<< n = BitVec.ofInt 32 (a.toInt * (2 ^ n : Nat)) := by
  rw [BitVec.ofInt_mul, BitVec.ofInt_toInt, BitVec.ofInt_natCast, BitVec.shiftLeft_eq_mul_twoPow]
  exact congrArg (a * ·) (BitVec.eq_of_toNat_eq (by simp))

/-- MIN and MAX compare as signed. -/
theorem word_min (a b : Word) : (if a.slt b then a else b) = BitVec.ofInt 32 (min a.toInt b.toInt) := by
  simp only [BitVec.slt, decide_eq_true_eq]
  split
  next h => rw [min_eq_left h.le, BitVec.ofInt_toInt]
  next h => rw [min_eq_right (not_lt.mp h), BitVec.ofInt_toInt]

theorem word_max (a b : Word) : (if a.slt b then b else a) = BitVec.ofInt 32 (max a.toInt b.toInt) := by
  simp only [BitVec.slt, decide_eq_true_eq]
  split
  next h => rw [max_eq_right h.le, BitVec.ofInt_toInt]
  next h => rw [max_eq_left (not_lt.mp h), BitVec.ofInt_toInt]

theorem word_isZero (a : Word) : (a == 0) = decide (a.toInt = 0) := by
  rw [Bool.eq_iff_iff, beq_iff_eq, decide_eq_true_eq, ← BitVec.toInt_inj]
  exact Iff.rfl

/-! ### An instruction issues (R297) -/

/-- The run of loop `l` goes on as `r1`, behind instruction `k`. -/
def State.goOn (s : State) (l k : Nat) (r1 : Run) : State := s.modLoop l fun x => { x with run := some { r1 with index := k + 1 } }

section
variable (hn : s.nextInstr l = some (r, w)) (ho : iOp w = op)
include hn ho

theorem instr_issues {f : Run → DWord → Run} {r1 : Run} (hk : r.skip = false) (hf : f r w = r1) :
    instr op l s f = .next (s.goOn l r.index r1) := by
  simp [instr, hn, ho, hk, hf, State.goOn]

/-- Suppressed, it takes its place without effect. -/
theorem instr_suppressed {f : Run → DWord → Run} (hk : r.skip = true) :
    instr op l s f = .next (s.goOn l r.index { r with skip := false }) := by
  simp [instr, hn, ho, hk, State.goOn]
end

/-- Command `i` issues the instruction of opcode `op` of loop `l`. -/
def Issues (l op : Nat) (i : Instr) : Prop := ∃ f : State → Run → DWord → Run, ∀ s, exec i s = instr op l s (f s)

theorem issues_of_mem {i : Instr × Nat}
    (h : i ∈ ([.cNop l, .cAdd l, .cSub l, .cMul l, .mac l, .mulz l, .cSar l, .cShl l, .cMin l, .cMax l, .cAnd l,
      .ldi l, .ldsmp l, .lds l, .loopOut l, .skn l, .skz l] : List Instr).zipIdx) : Issues l i.2 i.1 := by
  revert i
  simp only [List.zipIdx_cons, List.zipIdx_nil, List.forall_mem_cons, List.not_mem_nil, false_imp_iff, implies_true, and_true]
  and_intros
  all_goals exact ⟨_, fun _ => rfl⟩

/-- Settles O40: `instr_issues` with the value of each instruction, the arithmetic being the lemmas on words above. -/
theorem loopArithmetic : Obligations.LoopArithmetic := by
  intro s l r w hn x goOn into za zb zd c sh imm
  refine ⟨fun hk => ?acts, fun hk i hi ho => ?suppressed⟩
  case suppressed =>
    obtain ⟨f, hf⟩ := issues_of_mem hi
    rw [hf, instr_suppressed hn ho hk]
    rfl
  case acts =>
    -- an instruction that puts a value in ZD
    have puts : ∀ {op : Nat} {i : Instr} {f : Run → DWord → Word} (v : Word), exec i s = instr op l s (fun r w => r.setZ w (f r w)) →
        f r w = v → iOp w = op → exec i s = into v := fun v hi hv ho =>
      hi.trans (instr_issues hn ho hk (congrArg (r.setZ w) hv))
    refine ⟨fun ho => instr_issues hn ho hk rfl, puts _ rfl (word_add za zb), puts _ rfl (word_sub za zb), puts _ rfl rfl,
      puts _ rfl ?mac, puts _ rfl rfl, puts _ rfl (word_sshiftRight za _), puts _ rfl (word_shiftLeft za _),
      puts _ rfl (word_min za zb), puts _ rfl (word_max za zb), puts _ rfl rfl, puts _ rfl rfl, puts _ rfl rfl,
      fun ho k hlat => ?lds, fun ho => instr_issues hn ho hk rfl, fun ho => instr_issues hn ho hk ?skn,
      fun ho => instr_issues hn ho hk ?skz⟩
    case mac =>
      show zd + BitVec.ofInt 32 _ = _
      rw [BitVec.ofInt_add, BitVec.ofInt_toInt]
      rfl
    case lds =>
      refine puts _ rfl ?_ ho
      show BitVec.ofNat 32 (u32 (Map.get [] (s.spSlot (bits (iImm w) 13 10)).bufs (Map.get 0 r.latched (bits (iImm w) 13 10) - 1)) _) = _
      rw [show Map.get 0 r.latched (bits (iImm w) 13 10) = k + 1 from hlat]
      rfl
    case skn => rw [← BitVec.msb_eq_toInt]; rfl
    case skz => rw [← word_isZero]; rfl

end Sys2Proof.Machine
end

section
/-! PROOF. An output value in its actuator field: CAN, SPI and PWM, and how a signed reader takes it (R296). -/

namespace Sys2Proof.Machine

/-! ### Little-endian numbers -/

theorem leBytes_leNat : ∀ (l : List Byte), leBytes l.length (leNat l.length l) = l
  | [] => rfl
  | b :: l => by
    have hlow : BitVec.ofNat 8 (b.toNat + 256 * leNat l.length l) = b := BitVec.eq_of_toNat_eq (by simp [Nat.mod_eq_of_lt b.isLt])
    have hrest : (b.toNat + 256 * leNat l.length l) / 256 = leNat l.length l := by omega
    rw [List.length_cons, leNat, leBytes, hlow, hrest, leBytes_leNat l]

theorem leNat_lt : ∀ (n : Nat) (l : List Byte), leNat n l < 256 ^ n
  | 0, _ => by simp [leNat]
  | n + 1, [] => by simp [leNat]
  | n + 1, b :: l => by
    have := leNat_lt n l
    rw [leNat, Nat.pow_succ]
    omega

/-! ### Fields of a number -/

/-- A number whose field of `w` bits at bit `b` is `g`. -/
def putField (x b w g : Nat) : Nat := x - ((x >>> b) % 2 ^ w) <<< b + g <<< b

theorem putField_field (x b w g : Nat) : (putField x b w g >>> b) % 2 ^ w = g % 2 ^ w := by
  have hkeep : x - x / 2 ^ b % 2 ^ w * 2 ^ b + g * 2 ^ b = x + g * 2 ^ b - x / 2 ^ b % 2 ^ w * 2 ^ b :=
    (Nat.sub_add_comm ((Nat.mul_le_mul_right _ (Nat.mod_le _ _)).trans (Nat.div_mul_le_self _ _))).symm
  have hmod : x / 2 ^ b - x / 2 ^ b % 2 ^ w = 2 ^ w * (x / 2 ^ b / 2 ^ w) := by
    rw [Nat.sub_eq_iff_eq_add (Nat.mod_le _ _), Nat.div_add_mod]
  simp only [putField, Nat.shiftLeft_eq, Nat.shiftRight_eq_div_pow]
  rw [hkeep, Nat.mul_comm (x / 2 ^ b % 2 ^ w), Nat.sub_mul_div, Nat.mul_comm g, Nat.add_mul_div_left _ _ (Nat.two_pow_pos b),
    Nat.sub_add_comm (Nat.mod_le _ _), hmod, Nat.mul_add_mod]

/-- What a frame of `n` bits keeps of a field that lies in it. -/
theorem field_of_frame {n b w : Nat} (x : Nat) (h : b + w ≤ n) : ((x % 2 ^ n) >>> b) % 2 ^ w = (x >>> b) % 2 ^ w := by
  refine Nat.eq_of_testBit_eq fun i => ?_
  rw [Nat.testBit_mod_two_pow, Nat.testBit_mod_two_pow, Nat.testBit_shiftRight, Nat.testBit_shiftRight, Nat.testBit_mod_two_pow]
  by_cases hi : i < w
  · simp [show b + i < n by omega]
  · simp [hi]

theorem placeCan_little {e : Nat} (payload : Nat) (v : Word) (h : eBig e = false) :
    placeCan payload e v = putField payload (eBit e) (eWidth e) (v.toNat % 2 ^ eWidth e) := by
  simp [placeCan, h, putField]

theorem placeCan_big {e : Nat} (payload : Nat) (v : Word) (h : eBig e = true) :
    placeCan payload e v = putField payload (eBit e) (eWidth e)
      (leNat (eWidth e / 8) (leBytes (eWidth e / 8) (v.toNat % 2 ^ eWidth e)).reverse) := by
  simp [placeCan, h, putField]

/-- A field of whole bytes in network order reads with its bytes reversed. -/
theorem placeCan_big_field {e : Nat} (payload : Nat) (v : Word) (h : eBig e = true) (h8 : eWidth e % 8 = 0) :
    leBytes (eWidth e / 8) ((placeCan payload e v >>> eBit e) % 2 ^ eWidth e) =
      (leBytes (eWidth e / 8) (v.toNat % 2 ^ eWidth e)).reverse := by
  have hwidth : 2 ^ eWidth e = 256 ^ (eWidth e / 8) := by
    rw [show 256 = 2 ^ 8 from rfl, ← Nat.pow_mul, Nat.mul_div_cancel' (Nat.dvd_of_mod_eq_zero h8)]
  have hbytes := leBytes_leNat (leBytes (eWidth e / 8) (v.toNat % 2 ^ eWidth e)).reverse
  rw [List.length_reverse, length_leBytes] at hbytes
  rw [placeCan_big payload v h, putField_field, Nat.mod_eq_of_lt (hwidth ▸ leNat_lt _ _), hbytes]

theorem placeSpi_field {n e : Nat} (template : Nat) (v : Word) (h : eBit e + eWidth e ≤ n) :
    (placeSpi n template e v >>> (n - (eBit e + eWidth e))) % 2 ^ eWidth e = v.toNat % 2 ^ eWidth e := by
  show ((putField template (n - (eBit e + eWidth e)) (eWidth e) (v.toNat % 2 ^ eWidth e) % 2 ^ n) >>> _) % _ = _
  rw [field_of_frame _ (by omega), putField_field, Nat.mod_mod]

/-! ### An output handed to its port (R308) -/

section
variable {s : State} {l j : Nat} {vals : Map Word}

theorem State.handOne_pwm (h : eKind (cOutput (s.loop l).cfg j) = 3) : s.handOne l vals j =
    { s with cmp.pwm := Map.modify {} s.cmp.pwm (oPort (cOutput (s.loop l).cfg j)) fun x =>
      { x with nextDuty := (Map.get 0 vals j).toNat % 2 ^ eWidth (cOutput (s.loop l).cfg j) } } :=
  (if_neg (by omega)).trans (if_pos h)

theorem State.handOne_spi (h : eKind (cOutput (s.loop l).cfg j) = 2) : s.handOne l vals j =
    let e := cOutput (s.loop l).cfg j
    let r := Map.get [] s.cmp.spiCs (4 * oPort e + oCs e)
    s.queueSpi (oPort e) ⟨l, oCs e, false, placeSpi (u8 r 0xA) (u64 r 0x18) e (Map.get 0 vals j)⟩ := if_pos h
end

/-! ### A signed reader of the field -/

theorem ofNat_field_eq_ofInt {w : Nat} (v : Word) (h : w ≤ 32) : BitVec.ofNat w (v.toNat % 2 ^ w) = BitVec.ofInt w v.toInt := by
  have hdvd : ((2 ^ w : Nat) : Int) ∣ ((2 ^ 32 : Nat) : Int) := Int.natCast_dvd_natCast.mpr (Nat.pow_dvd_pow 2 h)
  refine BitVec.eq_of_toNat_eq ?_
  rw [BitVec.toNat_ofNat, Nat.mod_mod, BitVec.toNat_ofInt, BitVec.toInt_eq_toNat_bmod, ← Int.emod_emod_of_dvd _ hdvd,
    Int.bmod_emod, Int.emod_emod_of_dvd _ hdvd]
  omega

/-- The value one above a signed field's greatest reads as its least. -/
theorem bmod_over {w : Nat} (h : 1 ≤ w) : (2 ^ (w - 1) : Int).bmod (2 ^ w : Nat) = -2 ^ (w - 1) := by
  obtain ⟨k, rfl⟩ := Nat.exists_eq_add_of_le' h
  have hpos : (0 : Int) < 2 ^ k := by positivity
  have hwidth : ((2 ^ (k + 1) : Nat) : Int) = 2 * 2 ^ k := by push_cast; ring
  rw [Int.bmod_def, hwidth, Nat.add_sub_cancel, Int.emod_eq_of_lt hpos.le (by omega), if_neg (by omega)]
  omega

/-- The value one below its least reads as its greatest. -/
theorem bmod_under {w : Nat} (h : 1 ≤ w) : (-2 ^ (w - 1) - 1 : Int).bmod (2 ^ w : Nat) = 2 ^ (w - 1) - 1 := by
  obtain ⟨k, rfl⟩ := Nat.exists_eq_add_of_le' h
  have hpos : (0 : Int) < 2 ^ k := by positivity
  have hwidth : ((2 ^ (k + 1) : Nat) : Int) = 2 * 2 ^ k := by push_cast; ring
  rw [Int.bmod_def, hwidth, Nat.add_sub_cancel, ← Int.add_emod_right, Int.emod_eq_of_lt (by omega) (by omega), if_pos (by omega)]
  omega

/-- Settles O41: every field is one `putField` (`putField_field`), and a signed reader takes `BitVec.ofInt`. -/
theorem outputField : Obligations.OutputField := by
  refine ⟨fun payload e v h => ?little, fun payload e v => placeCan_big_field payload v, fun n template e v => placeSpi_field template v,
    fun s l j vals => State.handOne_pwm, fun s l j vals => State.handOne_spi, fun w v _ => ofNat_field_eq_ofInt v,
    fun w v h1 h32 => ⟨fun h => ?above, fun h => ?below⟩⟩
  case little => rw [placeCan_little payload v h, putField_field, Nat.mod_mod]
  case above => rw [ofNat_field_eq_ofInt v h32.le, h, BitVec.toInt_ofInt, bmod_over h1]
  case below => rw [ofNat_field_eq_ofInt v h32.le, h, BitVec.toInt_ofInt, bmod_under h1]

end Sys2Proof.Machine
end

section
/-! PROOF. The end of a run, the switch of a shadow, and the fence of a loop (R305, R307 to R309, R311, R313, R415). -/

namespace Sys2Proof.Machine

variable {s : State} {l n k cycles : Nat} {r : Run}

@[simp] theorem State.atInstant_loop (s : State) (cycles l : Nat) : (s.atInstant cycles).loop l = s.loop l := rfl
@[simp] theorem State.atInstant_spSlot (s : State) (cycles n : Nat) : (s.atInstant cycles).spSlot n = s.spSlot n := rfl
@[simp] theorem State.atInstant_win (s : State) (cycles w : Nat) : (s.atInstant cycles).win w = s.win w := rfl
@[simp] theorem State.atInstant_inFlight (s : State) (cycles w : Nat) : (s.atInstant cycles).inFlight w = s.inFlight w := rfl

/-! ### Commit and deadline (R305, R308) -/

/-- What a run hands its outputs, by its course (R311): staged, else previous values; previous values; safe values. -/
def CLoop.handed (x : CLoop) (r : Run) : Map Word :=
  if r.course = 2 then safeVals x.cfg
  else if r.course = 1 then x.prev
  else (List.range 4).foldl (fun m j => match Map.get none r.staged j with
    | some v => Map.set 0 m j v
    | none => m) x.prev

/-- The registers that a run leaves: its copy after a normal course alone. -/
def CLoop.kept (x : CLoop) (r : Run) : Map Word := if r.course = 0 then r.z else x.z

theorem CLoop.kept_normal {x : CLoop} (h : r.course = 0) : x.kept r = r.z := if_pos h
theorem CLoop.kept_other {x : CLoop} (h : r.course ≠ 0) : x.kept r = x.z := if_neg h
theorem CLoop.handed_safe {x : CLoop} (h : r.course = 2) : x.handed r = safeVals x.cfg := if_pos h
theorem CLoop.handed_hold {x : CLoop} (h : r.course = 1) : x.handed r = x.prev := (if_neg (by omega)).trans (if_pos h)
theorem CLoop.handed_normal {x : CLoop} (h : r.course = 0) : x.handed r =
    (List.range 4).foldl (fun m j => match Map.get none r.staged j with
      | some v => Map.set 0 m j v
      | none => m) x.prev := (if_neg (by omega)).trans (if_neg (by omega))

/-- An update of a loop goes by what the loop is. -/
theorem State.modLoop_congr {f g : CLoop → CLoop} (h : f (s.loop l) = g (s.loop l)) : s.modLoop l f = s.modLoop l g := by
  simp only [State.modLoop, Map.modify]
  rw [show f (Map.get {} s.cmp.loops l) = g (Map.get {} s.cmp.loops l) from h]

/-- Run `r` of loop `l` has ended with the registers `z`, and its outputs are handed `vals`. -/
def State.commitRun (s : State) (l : Nat) (r : Run) (z vals : Map Word) : State :=
  ((s.modLoop l fun y => { y with z := z, sup := { y.sup with
    committed := y.sup.committed + 1, us := (Map.get 0 vals (u8 (cSup y.cfg) 2) :: y.sup.us).take 2 } }).hand l vals).endRun l r

section
variable (hr : (s.loop l).run = some r)
include hr

theorem execRunCommit_commits (hw : r.waitingSpi = false) (hp : r.course = 0 → cProgLen (s.loop l).cfg ≤ r.index)
    (hd : s.instant cycles ≤ r.trigger + cDeadline (s.loop l).cfg) : exec (.runCommit l cycles) s =
      .next ((s.atInstant cycles).commitRun l r ((s.loop l).kept r) ((s.loop l).handed r)) := by
  have hdone : (r.waitingSpi || (r.course = 0 && r.index < cProgLen (s.loop l).cfg) ||
      r.trigger + cDeadline (s.loop l).cfg < s.instant cycles : Bool) = false := by
    simpa [hw, Nat.not_lt.mpr hd] using hp
  show execRunCommit l cycles s = _
  unfold execRunCommit
  simp only [State.atCycles_eq, State.atInstant_loop, hr]
  refine (if_neg (Bool.eq_false_iff.mp hdone)).trans ?_
  exact congrArg (fun t : State => Host.Outcome.next ((t.hand l _).endRun l r)) (State.modLoop_congr rfl)

theorem execRunDeadline_misses (hd : r.trigger + cDeadline (s.loop l).cfg ≤ s.instant cycles) : exec (.runDeadline l cycles) s =
    .next (((s.atInstant cycles).modLoop l fun z => { z with
      status := { z.status with missed := true }, counts := { z.counts with misses := z.counts.misses + 1 } }).endRun l r) := by
  show execRunDeadline l cycles s = _
  unfold execRunDeadline
  simp only [State.atCycles_eq, State.atInstant_loop, hr]
  exact if_neg (Nat.not_lt.mpr hd)
end

/-! ### Shadows (R307, R415) -/

theorem execShadowSwitch_eq (hk : (s.spSlot n).copying = some k) : exec (.shadowSwitch n cycles) s =
    let u := s.atInstant cycles
    let x := s.spSlot n
    let w := s.win x.win
    let t := u.flushRun w.part (w.spAddr 0) x.len
    if s.inFlight x.win then .next (u.modSp n fun y => { y with dirty := true })
    else if x.dirty then .next (u.modSp n fun y => { y with dirty := false })
    else if t.anyPoison w.part (w.spAddr 0) x.len then .next t
    else .next (t.modSp n fun y => { y with bufs := Map.set [] y.bufs k (t.readBytes w.part (w.spAddr 0) x.len), current := some k,
                                            refresh := s.instant cycles, copying := none }) := by
  show execShadowSwitch n cycles s = _
  unfold execShadowSwitch
  simp only [State.atCycles_eq, State.atInstant_spSlot, hk]
  rfl

/-! ### The fence (R313) -/

section
variable (hl : l < 16) (hf : (s.loop l).status.fault = false)
include hl hf

theorem execLoopFence_faults : exec (.loopFence l) s =
    let lines := u8 (cSup (s.loop l).cfg) 5
    let t := (s.modLoop l fun z => { z with status := { z.status with fault := true } }).log l 0x0A01 0xFF (leBytes 1 l ++ leBytes 1 lines)
    if (s.loop l).run.isSome then .next (t.modLoop l fun z => { z with fencing := true }) else .next (t.fenceNow l) :=
  if_neg (by simp [hf, Nat.not_le.mpr hl])
end

/-- Settles O42: a commit by `execRunCommit_commits` for each course, the rest by the branches of one equation each. -/
theorem loopRunEnd : Obligations.LoopRunEnd := by
  refine ⟨?event, fun s l hl hf => ?fence⟩
  case fence =>
    exact ⟨fun hr => (execLoopFence_faults hl hf).trans (if_pos hr),
      fun hr => (execLoopFence_faults hl hf).trans (if_neg (by simp [hr]))⟩
  case event =>
    intro s cycles cyc u
    refine ⟨?commit, fun l r => execRunDeadline_misses, ?shadow⟩
    case commit =>
      intro l r x commit hr hw hd
      have commits : (r.course = 0 → cProgLen x.cfg ≤ r.index) → exec (.runCommit l cycles) s = commit (x.kept r) (x.handed r) :=
        fun hp => execRunCommit_commits hr hw hp hd
      refine ⟨fun hc hp => ?normal, fun hc => ?hold, fun hc => ?safe⟩
      case normal => exact (commits fun _ => hp).trans (congrArg₂ commit (CLoop.kept_normal hc) (CLoop.handed_normal hc))
      case hold => exact (commits (by omega)).trans (congrArg₂ commit (CLoop.kept_other (by omega)) (CLoop.handed_hold hc))
      case safe => exact (commits (by omega)).trans (congrArg₂ commit (CLoop.kept_other (by omega)) (CLoop.handed_safe hc))
    case shadow =>
      intro n k hk x w t
      have switches := execShadowSwitch_eq (cycles := cycles) hk
      refine ⟨fun hi => switches.trans (if_pos hi), fun hi hd => switches.trans ?_, fun hi hd hp => switches.trans ?_,
        fun hi hd hp => switches.trans ?_⟩
      · exact (if_neg (Bool.eq_false_iff.mp hi)).trans (if_pos hd)
      · exact (if_neg (Bool.eq_false_iff.mp hi)).trans ((if_neg (Bool.eq_false_iff.mp hd)).trans (if_pos hp))
      · exact (if_neg (Bool.eq_false_iff.mp hi)).trans ((if_neg (Bool.eq_false_iff.mp hd)).trans (if_neg (Bool.eq_false_iff.mp hp)))

end Sys2Proof.Machine
end

section
/-! PROOF. Campanile's ports: CAN frames, SPI transactions and PWM periods follow one another (R302, R308). -/

namespace Sys2Proof.Machine

variable {s : State} {p : Nat}

/-! ### CAN (R302, R308) -/

/-- One of the frames that wait is picked. -/
theorem canPick_lt {l : List CanTx} (h : l ≠ []) : canPick l < l.length := by
  have hpos : 0 < l.length := List.length_pos_of_ne_nil h
  have hpick : canPick l < max 1 l.length := Nat.mod_lt _ (by omega)
  omega

theorem State.startCan_busy (h : (s.canPort p).sending.isSome = true ∨ (s.canPort p).busOff = true) : s.startCan p = s :=
  if_pos (by simpa using h)

theorem State.startCan_none (h : (s.canPort p).waiting = []) : s.startCan p = s := by
  simp only [State.startCan, h]
  exact ite_self s

/-- A free port on the bus picks a frame, which is sent unless the errors of the bus take the port off it. -/
theorem State.startCan_free (hs : (s.canPort p).sending = none) (hb : (s.canPort p).busOff = false) (hw : (s.canPort p).waiting ≠ []) :
    ∃ f ∈ (s.canPort p).waiting, s.startCan p =
      let t : State := { s with clk.free := s.clk.free + 1 }
      if Config.freeNat s.clk.free % 2 = 1 then t.modCan p fun x => { x with busOff := true }
      else (t.modCan p fun x => { x with sending := some f, waiting := x.waiting.erase f }).emit
        (.can p f.ident f.fd (f.fd && canFast (s.canPort p).record) f.dlc f.payload) := by
  have hlt := canPick_lt hw
  refine ⟨(s.canPort p).waiting[canPick (s.canPort p).waiting], List.getElem_mem hlt, ?_⟩
  have hfree : ((s.canPort p).sending.isSome || (s.canPort p).busOff) = false := by rw [hs, hb]; rfl
  unfold State.startCan
  simp only [hfree, List.getElem?_eq_getElem hlt]
  rfl

section
variable {f : CanTx}

theorem State.sendCan_replaces (h : ∃ g ∈ (s.canPort p).waiting, g.loop = f.loop ∧ g.ident = f.ident) :
    s.sendCan p f = (s.modCan p fun x => { x with
      waiting := x.waiting.map fun g => if g.loop == f.loop && g.ident == f.ident then f else g }).modLoop f.loop fun x =>
        { x with counts := { x.counts with txReplaced := x.counts.txReplaced + 1 } } :=
  if_pos (by simpa using h)

theorem State.sendCan_joins (h : ∀ g ∈ (s.canPort p).waiting, g.loop = f.loop → g.ident ≠ f.ident) :
    s.sendCan p f = (s.modCan p fun x => { x with waiting := x.waiting ++ [f] }).startCan p :=
  if_neg (by simpa using h)
end

/-! ### SPI and PWM (R302, R308) -/

theorem execSpiTransactionDone_next {t u : SpiTx} {rest : List SpiTx} (h : Map.get [] s.cmp.spi p = t :: u :: rest) :
    exec (.spiTransactionDone p) s =
      .next (({ s with cmp.spi := Map.set [] s.cmp.spi p (u :: rest) } : State).emit (.spi p u.cs [u.bits])) := by
  show execSpiTransactionDone p s = _
  unfold execSpiTransactionDone
  rw [h]

theorem execSpiTransactionDone_last {t : SpiTx} (h : Map.get [] s.cmp.spi p = [t]) :
    exec (.spiTransactionDone p) s = .next { s with cmp.spi := Map.set [] s.cmp.spi p [] } := by
  show execSpiTransactionDone p s = _
  unfold execSpiTransactionDone
  rw [h]

/-- Settles O43: each event by its branch; a free port's choice is `State.startCan_free`. -/
theorem Campanile.loopPorts : Obligations.LoopPorts := by
  refine fun s p => ⟨fun h => if_pos h, fun h => if_pos h, ?starts, fun h => ?stays, fun f => State.sendCan_replaces,
    fun f => State.sendCan_joins, fun t u rest => execSpiTransactionDone_next, fun t => execSpiTransactionDone_last, fun h => if_neg h⟩
  case starts =>
    intro hs hb hw t
    obtain ⟨f, hf, hstart⟩ := State.startCan_free hs hb hw
    by_cases hopen : Config.freeNat s.clk.free % 2 = 1
    · exact .inl (hstart.trans (if_pos hopen))
    · exact .inr ⟨f, hf, hstart.trans (if_neg hopen)⟩
  case stays =>
    rw [← or_assoc] at h
    exact h.elim State.startCan_busy State.startCan_none

end Sys2Proof.Machine
end

section
/-! PROOF. Loop commands at their turn (R297 to R301, R307, R308, R312, R314). -/

namespace Sys2Proof.Machine

variable {s : State} {q code : Nat} {c : Cmd} {inl blk : List Byte}

/-! ### loop.configure (R300, R301) -/

/-- What loop.configure refuses, in the order of its checks. -/
def State.loopCheck (s : State) (b : List Byte) : Option Nat :=
  firstFail [
    (loopBad b, rcLoopMalformed), (cProgLen b == 0 || (cReport b != 0 && u16 b 0x16 == 0), rcZeroSize),
    ((s.loop (u8 b 0)).status.started, rcLoopBusy), (s.outputTaken (u8 b 0) b, rcLoopOutput)]

theorem State.loopConfigure_eq : s.loopConfigure inl blk = match s.loopCheck blk with
    | some code => .refuse code
    | none => .ok 0 (s.modLoop (u8 blk 0) fun x => { x with cfg := blk, dropFault := 0, status := { x.status with fault := false } }) := by
  unfold State.loopConfigure State.loopCheck
  rfl

theorem State.loopConfigure_refused (hc : s.loopCheck blk = some code) : s.loopConfigure inl blk = .refuse code := by
  rw [State.loopConfigure_eq, hc]

theorem State.loopConfigure_takes (hc : s.loopCheck blk = none) : s.loopConfigure inl blk =
    .ok 0 (s.modLoop (u8 blk 0) fun x => { x with cfg := blk, dropFault := 0, status := { x.status with fault := false } }) := by
  rw [State.loopConfigure_eq, hc]

theorem State.loopCheck_malformed (hb : loopBad blk = true) : s.loopCheck blk = some rcLoopMalformed := if_pos hb

section
variable (hb : loopBad blk = false)
include hb

theorem State.loopCheck_empty (hp : cProgLen blk = 0) : s.loopCheck blk = some rcZeroSize := by
  rw [State.loopCheck, hb, hp]
  rfl

/-- A sound descriptor is asked whether its loop is started and whether another loop has one of its outputs. -/
theorem State.loopCheck_sound (hp : cProgLen blk ≠ 0) (hr : cReport blk = 0 ∨ u16 blk 0x16 ≠ 0) :
    s.loopCheck blk = firstFail [((s.loop (u8 blk 0)).status.started, rcLoopBusy), (s.outputTaken (u8 blk 0) blk, rcLoopOutput)] := by
  have hsize : (cProgLen blk == 0 || (cReport blk != 0 && u16 blk 0x16 == 0)) = false := by
    obtain h | h := hr <;> simp [h, hp]
  rw [State.loopCheck, hb, hsize]
  rfl
end

/-! ### loop.program and loop.coeffs (R298, R299) -/

/-- The instruction words of a program block. -/
def programWords (b : List Byte) : List DWord := (List.range (b.length / 8)).map fun j => BitVec.ofNat 64 (u64 b (8 * j))

section
variable (hn : blk.length / 8 ≠ 0)
include hn

theorem State.loopProgram_unsound (h : 4096 < u16 inl 0 + blk.length / 8 ∨ ∃ w ∈ programWords blk, 0x10 < iOp w ∨ bits w.toNat 39 32 ≠ 0) :
    s.loopProgram inl blk = .refuse rcLoopProgram :=
  (if_neg hn).trans (if_pos (by simpa [programWords] using h))

theorem State.loopProgram_sound (hl : u16 inl 0 + blk.length / 8 ≤ 4096)
    (hw : ∀ w ∈ programWords blk, iOp w ≤ 0x10 ∧ bits w.toNat 39 32 = 0) : s.loopProgram inl blk =
      if s.programBusy (u16 inl 0) (blk.length / 8) then .refuse rcLoopBusy
      else .ok 0 { s with cmp.prog := Map.setList 0 s.cmp.prog (u16 inl 0) (programWords blk) } := by
  have hwords : ((programWords blk).any fun w => decide (0x10 < iOp w) || bits w.toNat 39 32 != 0) = false :=
    List.any_eq_false.mpr fun w hmem => by simp [hw w hmem]
  refine (if_neg hn).trans (if_neg ?_)
  show ¬ (decide _ || (programWords blk).any fun w => decide (0x10 < iOp w) || bits w.toNat 39 32 != 0) = true
  rw [hwords]
  simp [hl]
end

theorem State.loopCoeffs_unsound (hb : coeffsBad c.blk = true) : s.loopCoeffs q c = .refuse rcLoopMalformed := if_pos hb

section
variable (hb : coeffsBad c.blk = false)
include hb

theorem State.loopCoeffs_now (hr : (s.loop (u8 c.inl 0)).run.isNone = true) :
    s.loopCoeffs q c = .ok 0 (s.modLoop (u8 c.inl 0) fun x => x.install c.blk) := by
  simp [State.loopCoeffs, hb, hr]

/-- During a run the table waits for its end. -/
theorem State.loopCoeffs_run (hr : (s.loop (u8 c.inl 0)).run.isNone = false) : s.loopCoeffs q c =
    .runs (s.modLoop (u8 c.inl 0) fun x => { x with newTable := x.newTable ++ [(c.blk, q, c.no)] }) := by
  simp [State.loopCoeffs, hb, hr]
end

/-! ### loop.start and loop.stop (R297, R301) -/

theorem State.loopStart_busy
    (h : (s.loop (u8 inl 0)).status.started = true ∨ (s.loop (u8 inl 0)).cfg = [] ∨ (s.loop (u8 inl 0)).status.fault = true) :
    s.loopStart inl blk = .refuse rcLoopBusy := by
  have hbusy : ((s.loop (u8 inl 0)).status.started || (s.loop (u8 inl 0)).cfg.isEmpty || (s.loop (u8 inl 0)).status.fault) = true := by
    simpa [or_assoc] using h
  simp [State.loopStart, State.startCheck, firstFail, hbusy]

theorem State.loopStart_idle (hs : (s.loop (u8 inl 0)).status.started = false) (hc : (s.loop (u8 inl 0)).cfg ≠ [])
    (hf : (s.loop (u8 inl 0)).status.fault = false) (ho : s.outputTaken (u8 inl 0) (s.loop (u8 inl 0)).cfg = false) :
    s.loopStart inl blk = if s.sourceAbsent (s.loop (u8 inl 0)).cfg then .refuse rcLoopSource else .ok 0 (s.startLoop (u8 inl 0)) := by
  simp only [State.loopStart, State.startCheck, firstFail, hs, List.isEmpty_eq_false_iff.mpr hc, hf, ho]
  cases s.sourceAbsent (s.loop (u8 inl 0)).cfg <;> rfl

/-! ### Setpoint windows (R307) -/

theorem State.spOpen_refused (h : s.spCheck inl = some code) : s.spOpen none inl = .refuse code := by
  unfold State.spOpen
  rw [h]

theorem State.spOpen_opens {id : Nat} (h : s.spCheck inl = none) (hw : s.freeWindow = some id) :
    let t := (s.openWindow id { kind := .setpoint (u8 inl 0), part := u8 inl 1, ddr5 := false, region := u8 inl 2, flags := u8 inl 12
                                off := u32 inl 4, len := u32 inl 8, target := 0xFF, tokFirst := 0, tokCount := 1 }).modSp (u8 inl 0) fun x =>
      x.opened id inl
    s.spOpen none inl = .ok (t.handle id).toNat t := by
  unfold State.spOpen
  rw [h, show s.windowId none = some id from hw]

/-! ### loop.safe_release (R312) -/

theorem State.safeRelease_held (h : ∃ k, k < 16 ∧ (s.loop k).held ≠ 0) : s.safeRelease inl blk = .refuse rcLoopSafe :=
  if_pos (by simpa using h)

/-- A line that rises shows. -/
theorem State.safeRelease_raises (hk : ∀ k, k < 16 → (s.loop k).held = 0) :
    let a := s.cmp.safeA || (u8 inl 0).testBit 0
    let z := s.cmp.safeB || (u8 inl 0).testBit 1
    (a ≠ s.cmp.safeA ∨ z ≠ s.cmp.safeB) →
      s.safeRelease inl blk = .ok 0 (({ s with cmp := { s.cmp with safeA := a, safeB := z } } : State).emit (.safe a z)) := by
  intro a z hup
  have hrises : ¬ (a == s.cmp.safeA && z == s.cmp.safeB) = true := by
    simpa [imp_iff_not_or] using hup
  exact (if_neg (by simpa using hk)).trans (congrArg (Done.ok 0) (if_neg hrises))

/-- Settles O53: each command at its turn comes to its own meaning (`State.AtTurn.exec_eq`), which the lemmas above give check by
check. -/
theorem loopCommands : Obligations.LoopCommands := by
  intro s q c ht hr hc ok no runs op b i l
  have hat : s.AtTurn q c := ⟨ht, hr, hc⟩
  refine ⟨fun ho => ?configure, fun ho => ?program, fun ho => ?coeffs, fun ho => ?start, fun ho => ?stop, fun ho => ?clear,
    fun ho => ?wopen, fun ho => ?wclose, fun ho => ?release, fun ho => ?stats⟩
  case configure =>
    intro k
    have configures : ∀ {d}, s.loopConfigure c.inl c.blk = d → exec (.loopConfigure q) s = .next (s.settle q c d) :=
      hat.exec_args (f := State.loopConfigure) rfl ho
    refine ⟨fun hb => configures (State.loopConfigure_refused (State.loopCheck_malformed hb)),
      fun hb hp => configures (State.loopConfigure_refused (State.loopCheck_empty hb hp)), fun hb hp hrep => ?_⟩
    have hsound := State.loopCheck_sound (s := s) hb hp hrep
    refine ⟨fun hs => configures (State.loopConfigure_refused ?_), fun hs hx => configures (State.loopConfigure_refused ?_),
      fun hs hx => configures (State.loopConfigure_takes ?_)⟩
    · rw [hsound, hs]; rfl
    · rw [hsound, hs, hx]; rfl
    · rw [hsound, hs, hx]; rfl
  case program =>
    intro first n words hn
    have stores : ∀ {d}, s.loopProgram c.inl c.blk = d → exec (.loopProgram q) s = .next (s.settle q c d) :=
      hat.exec_args (f := State.loopProgram) rfl ho
    exact ⟨fun h => stores (State.loopProgram_unsound hn h), fun hl hw =>
      ⟨fun hb => stores ((State.loopProgram_sound hn hl hw).trans (if_pos hb)),
        fun hb => stores ((State.loopProgram_sound hn hl hw).trans (if_neg (Bool.eq_false_iff.mp hb)))⟩⟩
  case coeffs =>
    have installs : ∀ {d}, s.loopCoeffs q c = d → exec (.loopCoeffs q) s = .next (s.settle q c d) :=
      hat.exec_eq (f := fun t c => t.loopCoeffs q c) rfl ho rfl
    exact ⟨fun hb => installs (State.loopCoeffs_unsound hb), fun hb hn => installs (State.loopCoeffs_now hb hn),
      fun hb hn => installs (State.loopCoeffs_run hb hn)⟩
  case start =>
    intro x
    have starts : ∀ {d}, s.loopStart c.inl c.blk = d → exec (.loopStart q) s = .next (s.settle q c d) :=
      hat.exec_args (f := State.loopStart) rfl ho
    exact ⟨fun h => starts (State.loopStart_busy h),
      fun hs hx hf hout ha => starts ((State.loopStart_idle hs hx hf hout).trans (if_pos ha)),
      fun hs hx hf hout ha => starts ((State.loopStart_idle hs hx hf hout).trans (if_neg (Bool.eq_false_iff.mp ha)))⟩
  case stop =>
    have stops : ∀ {d}, s.loopStop q c = d → exec (.loopStop q) s = .next (s.settle q c d) :=
      hat.exec_eq (f := fun t c => t.loopStop q c) rfl ho rfl
    exact ⟨fun h => stops (if_pos h), fun h => stops (if_neg (Bool.eq_false_iff.mp h))⟩
  case clear => exact hat.exec_args (f := State.loopClear) rfl ho rfl
  case wopen =>
    have opens : ∀ {d}, s.spOpen none c.inl = d → exec (.loopWindowOpen q) s = .next (s.settle q c d) :=
      hat.exec_args (f := fun t inl _ => t.spOpen none inl) rfl ho
    exact ⟨fun code h => opens (State.spOpen_refused h), fun id h hw => opens (State.spOpen_opens h hw)⟩
  case wclose =>
    have closes : ∀ {d}, s.spClose q c = d → exec (.loopWindowClose q) s = .next (s.settle q c d) :=
      hat.exec_eq (f := fun t c => t.spClose q c) rfl ho rfl
    exact ⟨fun h => closes (if_pos (by simpa using h)), fun h => closes (if_neg (by simpa using h))⟩
  case release =>
    intro a z
    have releases : ∀ {d}, s.safeRelease c.inl c.blk = d → exec (.loopSafeRelease q) s = .next (s.settle q c d) :=
      hat.exec_args (f := State.safeRelease) rfl ho
    exact ⟨fun h => releases (State.safeRelease_held h), fun hk hup => releases (State.safeRelease_raises hk hup)⟩
  case stats => exact hat.exec_args (f := fun t inl _ => .data (t.loopRecord (u8 inl 0)) 0 t) rfl ho rfl

end Sys2Proof.Machine
end

section
/-! PROOF. LOOP_PORT_CONFIGURE: CAN ports, SPI chip selects and PWM outputs are set and released (R302, R454). -/

namespace Sys2Proof.Machine

variable {s t : State} {kind n m : Nat} {bad : Bool} {b : List Byte}

/-! ### The checks of a port record (R302) -/

theorem State.portCommand_unsound (h : portHeadBad kind b = true ∨ bad = true) :
    s.portCommand kind bad b t = .refuse rcLoopPort := if_pos (by simpa using h)

section
variable (hh : portHeadBad kind b = false) (hb : bad = false)
include hh hb

theorem State.portCommand_busy (hu : s.portUsed (kind, u8 b 2, u8 b 3) = true) :
    s.portCommand kind bad b t = .refuse rcLoopBusy := (if_neg (by simp [hh, hb])).trans (if_pos hu)

theorem State.portCommand_takes (hu : s.portUsed (kind, u8 b 2, u8 b 3) = false) :
    s.portCommand kind bad b t = .ok 0 t := (if_neg (by simp [hh, hb])).trans (if_neg (by simp [hu]))
end

/-- What a record that is set answers: reserved byte 1 and the body first, then whether a started loop uses the port. -/
theorem State.portCommand_set (s t : State) (kind : Nat) (body : Bool) (b : List Byte) :
    let d := s.portCommand kind (u8 b 1 != 0 || body) b t
    (portHeadBad kind b = true ∨ u8 b 1 ≠ 0 ∨ body = true → d = .refuse rcLoopPort) ∧
    (portHeadBad kind b = false ∧ body = false → u8 b 1 = 0 → s.portUsed (kind, u8 b 2, u8 b 3) = true → d = .refuse rcLoopBusy) ∧
    (portHeadBad kind b = false ∧ body = false → u8 b 1 = 0 → s.portUsed (kind, u8 b 2, u8 b 3) = false → d = .ok 0 t) := by
  have hbody : body = false → u8 b 1 = 0 → (u8 b 1 != 0 || body) = false := fun hb h1 => by simp [hb, h1]
  exact ⟨fun h => State.portCommand_unsound (h.imp_right (by simpa using ·)),
    fun ⟨hh, hb⟩ h1 hu => State.portCommand_busy hh (hbody hb h1) hu,
    fun ⟨hh, hb⟩ h1 hu => State.portCommand_takes hh (hbody hb h1) hu⟩

/-! ### Release (R454) -/

theorem State.portRelease_frees {k : Nat} (hk : u8 b 1 = k) (h2 : k ≤ 2) (hz : allZero b 8 56 = true)
    (hh : portHeadBad (k + 1) b = false) (hu : s.portUsed (k + 1, u8 b 2, u8 b 3) = false) :
    s.portRelease b = .ok 0 (s.freePort (k + 1) (u8 b 2) (u8 b 3)) := by
  subst hk
  exact State.portCommand_takes hh (by simp [h2, hz]) hu

/-- A PWM output with a duty shows that it is inactive. -/
theorem State.freePort_pwm (hd : (Map.get {} s.cmp.pwm n).duty ≠ 0) : s.freePort 3 n m =
    (({ s with cmp := { s.cmp with pwm := Map.set {} s.cmp.pwm n {} } } : State).emit (.pwm n 0 (Map.get {} s.cmp.pwm n).period)) :=
  if_neg hd

/-- Settles O54: each record comes to `State.portCommand` at its turn (`State.AtTurn.exec_eq`), whose checks are said once. -/
theorem loopPortCommands : Obligations.LoopPortCommands := by
  intro s q c ht hr hc ho ok no b n m sound
  have hat : s.AtTurn q c := ⟨ht, hr, hc⟩
  refine ⟨fun hk => ?can, fun hk => ?spi, fun hk => ?pwm, fun hk hz => ?release⟩
  case can =>
    have hmine : canKind c = true := by simp [canKind, portKind, show u8 c.blk 0 = 0 from hk]
    have sets : ∀ {d}, s.canConfigure c.blk = d → exec (.loopPortConfigureCan q) s = .next (s.settle q c d) := fun hd =>
      hat.exec_eq (f := fun t c => if u8 c.blk 0 = 0 then t.canConfigure c.blk else .refuse rcLoopPort) rfl ho hmine ((if_pos hk).trans hd)
    obtain ⟨unsound, busy, takes⟩ := s.portCommand_set (s.modCan n fun x => { x with record := b }) 1 (canRecordBad b) b
    exact ⟨fun h => sets (unsound h), fun h h1 hu => sets (busy h h1 hu), fun h h1 hu => sets (takes h h1 hu)⟩
  case spi =>
    have sets : ∀ {d}, s.spiConfigure c.blk = d → exec (.loopPortConfigureSpi q) s = .next (s.settle q c d) :=
      hat.exec_eq (f := fun t c => t.spiConfigure c.blk) rfl ho (beq_iff_eq.mpr hk)
    obtain ⟨unsound, busy, takes⟩ := s.portCommand_set { s with cmp.spiCs := Map.set [] s.cmp.spiCs (4 * n + m) b } 2 (spiRecordBad b) b
    exact ⟨fun h => sets (unsound h), fun h h1 hu => sets (busy h h1 hu), fun h h1 hu => sets (takes h h1 hu)⟩
  case pwm =>
    have sets : ∀ {d}, s.pwmConfigure c.blk = d → exec (.loopPortConfigurePwm q) s = .next (s.settle q c d) :=
      hat.exec_eq (f := fun t c => t.pwmConfigure c.blk) rfl ho (beq_iff_eq.mpr hk)
    obtain ⟨unsound, busy, takes⟩ := s.portCommand_set
      { s with cmp.pwm := Map.modify {} s.cmp.pwm n fun x => { x with nextPeriod := u32 b 8 } } 3 (pwmRecordBad b) b
    exact ⟨fun h => sets (unsound h), fun h h1 hu => sets (busy h h1 hu), fun h h1 hu => sets (takes h h1 hu)⟩
  case release =>
    have frees : ∀ {d}, s.portRelease c.blk = d → exec (.loopPortRelease q) s = .next (s.settle q c d) :=
      hat.exec_eq (f := fun t c => t.portRelease c.blk) rfl ho (beq_iff_eq.mpr hk)
    refine ⟨fun h1 hh hu => frees (State.portRelease_frees h1 (by decide) hz hh hu),
      fun h1 hh hu => frees (State.portRelease_frees h1 (by decide) hz hh hu), fun h1 hh hu => ?_⟩
    intro x hd
    exact frees ((State.portRelease_frees h1 (by decide) hz hh hu).trans (congrArg _ (State.freePort_pwm hd)))

end Sys2Proof.Machine
end

section
/-! PROOF. Doorbells, BAR0, the session's loss, the fetch of an entry and the posting of its completion (R315 to R326). -/

namespace Sys2Proof.Machine

variable {s : State} {q v o w : Nat}

/-! ### Doorbells (R318, R321, R322) -/

/-- A ring position other than the head is some entries ahead of it. -/
theorem ring_ahead_ne_zero {v n h : Nat} (hv : v < n) (hh : h < n) (hne : v ≠ h) : (v + n - h) % n ≠ 0 := by
  by_cases hlt : h ≤ v
  · rw [show v + n - h = v - h + n by omega, Nat.add_mod_right, Nat.mod_eq_of_lt (by omega)]
    omega
  · rw [Nat.mod_eq_of_lt (by omega)]
    omega

section
variable (hv : v < 8192) (hl : (s.queue q).live = true)
include hv hl

theorem execSqTail_live (hf : (s.queue q).faulted = false) : exec (.sqTail q v) s =
    if (s.queue q).sqSize ≤ v then
      .next ((s.setQueue q { s.queue q with faulted := true }).notice noticeQueueFaulted 0xFF [BitVec.ofNat 8 q])
    else .next (s.setQueue q { s.queue q with sqTail := v }) := by
  show execSqTail q v s = _
  simp [execSqTail, hl, hf, Nat.mod_eq_of_lt hv]

theorem execCqHead_consumes (hlt : v < (s.queue q).cqSize) (hh : (s.queue q).cqHead < (s.queue q).cqSize)
    (hne : v ≠ (s.queue q).cqHead) : exec (.cqHead q v) s = .next (s.setQueue q { s.queue q with
      cqHead := v, unconsumed := (s.queue q).unconsumed - (v + (s.queue q).cqSize - (s.queue q).cqHead) % (s.queue q).cqSize
      signalled := false }) := by
  show execCqHead q v s = _
  simp [execCqHead, hl, Nat.mod_eq_of_lt hv, Nat.not_le.mpr hlt, ring_ahead_ne_zero hlt hh hne]
end

theorem execNoticeHead_consumes (hup : s.host.bar.adminUp = true) (hlt : v < s.host.bar.noticeSize) (hv : v < 8192)
    (hh : s.host.notices.head < s.host.bar.noticeSize) (hne : v ≠ s.host.notices.head) : exec (.noticeHead v) s =
      .next (s.modHost fun x => { x with notices := { s.host.notices with
        head := v
        count := s.host.notices.count - (v + s.host.bar.noticeSize - s.host.notices.head) % s.host.bar.noticeSize } }) := by
  show execNoticeHead v s = _
  simp [execNoticeHead, hup, Nat.mod_eq_of_lt hv, Nat.not_le.mpr hlt, ring_ahead_ne_zero hlt hh hne]

/-! ### ADMIN_ENABLE and the session's loss (R317, R324, R437) -/

theorem State.queue_setQueue {x : Queue} (h : x.live = true) : (s.setQueue q x).queue q = x :=
  Map.get_set_of_ne _ q fun e => by simp [e] at h

section
variable (hup : s.host.bar.adminUp = false)
include hup

theorem execAdminEnableSet_faults (hr : s.host.bar.ringsOk = false) :
    exec .adminEnableSet s = .next (s.modBar fun b => { b with adminEnable := true, adminFault := true }) :=
  (if_neg (by simp [hup])).trans (if_pos (by simp [hr]))

theorem execAdminEnableSet_starts (hr : s.host.bar.ringsOk = true) : ∃ t, exec .adminEnableSet s = .next t ∧
    t.host.bar.adminUp = true ∧ (t.queue 0).live = true ∧ (t.queue 0).sqSize = s.host.bar.adminSize % 65536 ∧
    (t.queue 0).cqSize = s.host.bar.adminSize / 65536 ∧ t.module.wake = false := by
  let s2 := (s.modBar fun b => { b with adminEnable := true, adminFault := false, adminUp := true }).modHost fun h =>
    { h with notices := { dropped := h.notices.dropped } }
  let q0 : Queue := {
    live := true, cont := true, vector := 0, sqSize := s.host.bar.adminSize % 65536, cqSize := s.host.bar.adminSize / 65536
    sqBase := s.host.bar.adminSqBase, cqBase := s.host.bar.adminCqBase, fetched := (s.queue 0).fetched, cmds := (s.queue 0).cmds }
  have hq : (s2.setQueue 0 q0).queue 0 = q0 := State.queue_setQueue rfl
  refine ⟨{ s2.setQueue 0 q0 with module := { s.module with wake := false } }, ?_, rfl, ?_⟩
  · exact (if_neg (by simp [hup])).trans (if_neg (by simp [hr]))
  · show ((s2.setQueue 0 q0).queue 0).live = true ∧ ((s2.setQueue 0 q0).queue 0).sqSize = _ ∧ ((s2.setQueue 0 q0).queue 0).cqSize = _ ∧ _
    rw [hq]
    exact ⟨rfl, rfl, rfl, rfl⟩
end

theorem execEndpointReset_eq (k : EndpointReset) : exec (.endpointReset k) s =
    .next (s.detach.modBar fun b => { cpReady := b.cpReady, cpRestarting := b.cpRestarting }) := by
  cases k <;> rfl

theorem State.foldl_recWrite_host {α : Type} (f : α → CpRecord) (l : List α) (s : State) :
    (l.foldl (fun t e => t.recWrite (f e)) s).host = s.host :=
  List.foldlRecOn (motive := fun t : State => t.host = s.host) l _ rfl fun t ht e _ => (t.recWrite_host (f e)).trans ht

theorem State.detach_host (s : State) : s.detach.host.session = none ∧ s.detach.host.swapPaused = true ∧
    s.detach.host.detached = if s.host.session.isSome then s.host.session else s.host.detached := by
  unfold State.detach
  extract_lets attached ended qs s1
  cases hs : attached
  · exact ⟨rfl, rfl, rfl⟩
  · simp only [if_true, State.foldl_recWrite_host fun e : Nat × Nat => CpRecord.held e.1 e.2]
    exact ⟨rfl, rfl, rfl⟩

/-! ### Registers (R317) -/

/-- A 64-bit register takes a value by its halves. -/
theorem highHalf_lowHalf (old : Nat) (h : v < 2 ^ 64) : highHalf (lowHalf old v) (v / 2 ^ 32) = v := by
  unfold highHalf lowHalf
  omega

theorem lowHalf_word (old : Nat) (h : v < 2 ^ 32) : lowHalf old v = v + 2 ^ 32 * (old / 2 ^ 32) := by
  rw [lowHalf, Nat.mod_eq_of_lt h]

theorem highHalf_word (old : Nat) (h : v < 2 ^ 32) : highHalf old v = old % 2 ^ 32 + 2 ^ 32 * v := by
  rw [highHalf, Nat.mod_eq_of_lt h]

@[simp] theorem Bar0.write32_adminUp (b : Bar0) (o v : Nat) : (b.write32 o v).adminUp = b.adminUp := by
  unfold Bar0.write32
  split <;> rfl

theorem State.barWrite32_down (hup : s.host.bar.adminUp = false) (ho : o < 0x8000) :
    s.barWrite32 o v = s.modBar fun b => b.write32 o v :=
  (if_neg (by simp [Nat.not_le.mpr ho])).trans (if_neg (by simp [hup]))

theorem State.barWrite32_up (hup : s.host.bar.adminUp = true) (ho : o < 0x8000) : s.barWrite32 o v = s :=
  (if_neg (by simp [Nat.not_le.mpr ho])).trans (if_pos hup)

section
variable (hup : s.host.bar.adminUp = false)
include hup

theorem execRegisterWrite_narrow (h4 : o % 4 = 0) (ho : o < 0x8000) :
    exec (.registerWrite o ⟨false, v⟩) s = .next (s.modBar fun b => b.write32 o v) := by
  show Host.Outcome.next (if o % 4 = 0 then s.barWrite32 o v else s) = _
  rw [if_pos h4, State.barWrite32_down hup ho]

theorem execRegisterWrite_wide (h8 : o % 8 = 0) (ho : o + 4 < 0x8000) :
    exec (.registerWrite o ⟨true, v⟩) s = .next (s.modBar fun b => (b.write32 o v).write32 (o + 4) (v / 2 ^ 32)) := by
  show Host.Outcome.next (if o % 8 = 0 then (s.barWrite32 o v).barWrite32 (o + 4) (v / 2 ^ 32) else s) = _
  rw [if_pos h8, State.barWrite32_down hup (by omega),
    State.barWrite32_down (((s.host.bar.write32_adminUp o v)).trans hup) ho]
  rfl

/-- The registers of 64 bits take a value whole. -/
theorem execRegisterWrite_wide_registers (hv : v < 2 ^ 64) :
    exec (.registerWrite 0x10 ⟨true, v⟩) s = .next (s.modBar fun b => { b with adminSqBase := v }) ∧
    exec (.registerWrite 0x18 ⟨true, v⟩) s = .next (s.modBar fun b => { b with adminCqBase := v }) ∧
    exec (.registerWrite 0x20 ⟨true, v⟩) s = .next (s.modBar fun b => { b with adminSize := v % 2 ^ 32, noticeSize := v / 2 ^ 32 }) ∧
    exec (.registerWrite 0x28 ⟨true, v⟩) s = .next (s.modBar fun b => { b with noticeBase := v }) := by
  have hwhole := fun old => highHalf_lowHalf old hv
  have hhigh : v / 2 ^ 32 % 2 ^ 32 = v / 2 ^ 32 := Nat.mod_eq_of_lt (by omega)
  refine ⟨?_, ?_, ?_, ?_⟩ <;> refine (execRegisterWrite_wide hup rfl (by decide)).trans ?_ <;>
    simp only [Bar0.write32, hwhole, hhigh]

/-- A 32-bit write sets a register of 32 bits, or one half of a register of 64. -/
theorem execRegisterWrite_narrow_registers (hv : v < 2 ^ 32) :
    exec (.registerWrite 0x20 ⟨false, v⟩) s = .next (s.modBar fun b => { b with adminSize := v }) ∧
    exec (.registerWrite 0x24 ⟨false, v⟩) s = .next (s.modBar fun b => { b with noticeSize := v }) ∧
    exec (.registerWrite 0x10 ⟨false, v⟩) s =
      .next (s.modBar fun b => { b with adminSqBase := v + 2 ^ 32 * (b.adminSqBase / 2 ^ 32) }) ∧
    exec (.registerWrite 0x14 ⟨false, v⟩) s = .next (s.modBar fun b => { b with adminSqBase := b.adminSqBase % 2 ^ 32 + 2 ^ 32 * v }) := by
  refine ⟨?_, ?_, ?_, ?_⟩ <;> refine (execRegisterWrite_narrow hup rfl (by decide)).trans ?_ <;>
    simp only [Bar0.write32, Nat.mod_eq_of_lt hv, lowHalf_word _ hv, highHalf_word _ hv]
end

theorem execRegisterWrite_up {wide : Bool} (ho : o < 0x7000) (hup : s.host.bar.adminUp = true) :
    exec (.registerWrite o ⟨wide, v⟩) s = .next s := by
  show (if wide then .next (if o % 8 = 0 then (s.barWrite32 o v).barWrite32 (o + 4) (v / 2 ^ 32) else s)
    else .next (if o % 4 = 0 then s.barWrite32 o v else s) : Res) = _
  have hword : ∀ {o v}, o < 0x8000 → s.barWrite32 o v = s := fun h => State.barWrite32_up hup h
  rw [hword (by omega), hword (by omega), ite_self, ite_self, ite_self]

theorem execRegisterWrite_msix (hw : w < 256) (hv : v < 2 ^ 32) :
    exec (.registerWrite (0x8000 + 4 * w) ⟨false, v⟩) s = .next (s.msixWord w v) := by
  show Host.Outcome.next (if (0x8000 + 4 * w) % 4 = 0 then s.barWrite32 (0x8000 + 4 * w) v else s) = _
  have hword : s.barWrite32 (0x8000 + 4 * w) v = s.msixWord ((0x8000 + 4 * w - 0x8000) / 4) (v % 2 ^ 32) := if_pos (by simp; omega)
  rw [if_pos (by omega), hword, Nat.mod_eq_of_lt hv, show (0x8000 + 4 * w - 0x8000) / 4 = w by omega]

/-! ### Messages (R321) -/

theorem execMsixUnmask_pending (hv : v < 64) (hp : Map.get false s.host.bar.pba v = true) :
    ∃ t, exec (.msixUnmask v) s = .next t ∧ t.out = s.out ++ [.msix v] := by
  refine ⟨_, if_pos hv, ?_⟩
  have hcontrol : (4 * v + 3) % 4 = 3 := by omega
  have hvector : (4 * v + 3) / 4 = v := by omega
  have hunmasked : ∀ m : Map Bool, Map.get true (Map.set true m v false) v = false := fun m => Map.get_set_of_ne m v (by decide)
  simp [State.msixWord, hcontrol, hvector, hp, State.message, State.modBar, State.modHost, State.emit, hunmasked]

/-- A message is sent at once or stays pending: what was sent before stands. -/
theorem State.message_out (s : State) (v : Nat) : ∃ rest, (s.message v).out = s.out ++ rest := by
  unfold State.message
  split
  · exact ⟨[], (List.append_nil _).symm⟩
  · exact ⟨[.msix v], rfl⟩

/-! ### Fetch and completion (R318 to R320, R325, R326) -/

/-- The fetch numbers that fence command `e` of queue `q` waits behind (R328). -/
def State.fenceOf (s : State) (q : Nat) (e : Entry) : Option (Nat × Nat) :=
  if e.opcode = 0x0107 then
    some (u8 (inlOf e) 0, if u8 (inlOf e) 0 = q then (s.queue q).fetched else (s.queue (u8 (inlOf e) 0)).fetched)
  else none

/-- Entry `e` of queue `q` has been fetched. -/
def State.fetched (s : State) (q : Nat) (e : Entry) : State := s.setQueue q { s.queue q with
  sqHead := ((s.queue q).sqHead + 1) % (s.queue q).sqSize, fetched := (s.queue q).fetched + 1
  cmds := (s.queue q).cmds ++ [{ no := (s.queue q).fetched, entry := e, fence := s.fenceOf q e }] }

/-- No command fetched before still runs, those of earlier admin rings aside. -/
def Queue.drained (x : Queue) : Bool := (x.cmds.filter fun d => !d.held).all (·.phase == .done)

theorem Queue.drained_iff {x : Queue} : x.drained = true ↔ ∀ d ∈ x.cmds, d.held = false → d.phase = .done := by
  simp [Queue.drained, or_iff_not_imp_left]

section
variable {e : Entry} (hf : s.mayFetch q = true)
include hf

theorem execCommandFetch_aborts (hx : (s.queue q).stopped = true) : exec (.commandFetch q e) s =
    .next ((s.fetched q e).finish q (s.queue q).fetched stAbortedByPredecessor 0 0 0) :=
  (if_neg (by simp [hf])).trans (if_pos hx)

section
variable (hx : (s.queue q).stopped = false)
include hx

theorem execCommandFetch_passes (hc : s.common q e none = none) : exec (.commandFetch q e) s = .next (s.fetched q e) := by
  refine ((if_neg (by simp [hf])).trans (if_neg (by simp [hx]))).trans ?_
  rw [hc]
  rfl

theorem execCommandFetch_fails {code : Nat} (hc : s.common q e none = some code) : exec (.commandFetch q e) s =
    .next (if code = rcUnknownCommand || (s.queue q).drained then (s.fetched q e).refuse q (s.queue q).fetched code
      else s.fetched q e) := by
  refine ((if_neg (by simp [hf])).trans (if_neg (by simp [hx]))).trans ?_
  rw [hc]
  rfl
end
end

theorem State.common_unknown {e : Entry} {b : Option (List Byte)} (h : cmdSpec e.opcode = none) :
    s.common q e b = some rcUnknownCommand := by
  unfold State.common
  rw [h]

theorem execCompletionPost_posts {c : Cmd} (h : s.nextPost q = some c) :
    exec (.completionPost q) s = .next ((s.stopQueue q c).postEntry q c) := by
  show execCompletionPost q s = _
  unfold execCompletionPost
  rw [h]

/-- The completion entry is sent, and perhaps its message behind it. -/
theorem State.postEntry_out (s : State) (q : Nat) (c : Cmd) : ∃ rest, (s.postEntry q c).out =
    s.out ++ [.completion q c.entry.cid (s.queue q).sqHead c.status (if c.status = stRefused then c.reason else 0)
      (if c.status = stRefused then 0 else c.result) c.time c.aux (s.queue q).phase] ++ rest := by
  unfold State.postEntry
  extract_lets x s1 wraps quiet y s2
  split
  · exact ⟨[], (List.append_nil _).symm⟩
  · exact s2.message_out x.vector

/-! ### Reads from host memory (R315) -/

/-- What a command that still waits takes of a read: its block, table or tokens, the first time they come. -/
def Cmd.takeRead (r : HostRead) (d : Cmd) : Cmd := { d with
  block := if r.what = 0 ∧ d.block = none then some (fit 0 d.entry.argLen r.bytes) else d.block
  table := if r.what = 1 ∧ d.table = none then some r.bytes else d.table
  tokens := if r.what = 2 ∧ d.tokens = none then some r.bytes else d.tokens }

section
variable {r : HostRead} {c : Cmd} (hc : s.cmd r.q r.cmd = some c) (hup : s.host.bar.adminUp = true) (hp : c.phase = .waiting)
  (hk : r.what < 3)
include hc hup hp hk

theorem execHostReadReturn_waiting : exec (.hostReadReturn r) s =
    if r.poisoned then .next (s.finish r.q r.cmd stHostReadFault 0 0 0) else .next (s.modCmd r.q r.cmd (Cmd.takeRead r)) := by
  have htake : (fun d : Cmd =>
      if r.what = 0 then { d with block := if d.block.isNone then some (fit 0 d.entry.argLen r.bytes) else d.block }
      else if r.what = 1 then { d with table := if d.table.isNone then some r.bytes else d.table }
      else if r.what = 2 then { d with tokens := if d.tokens.isNone then some r.bytes else d.tokens }
      else d) = Cmd.takeRead r := by
    funext d
    obtain h | h | h : r.what = 0 ∨ r.what = 1 ∨ r.what = 2 := by omega
    all_goals simp [Cmd.takeRead, h]
  rw [← htake]
  show execHostReadReturn r s = _
  unfold execHostReadReturn
  have h3 : r.what ≠ 3 := by omega
  simp only [hc, hup, h3, hp]
  rfl
end

/-- Settles O44: each event by the branches of its one equation; a 64-bit register is written by its halves (`highHalf_lowHalf`). -/
theorem hostRings : Obligations.HostRings := by
  refine ⟨?doorbells, fun s v => ?notices, fun s hup => ⟨execAdminEnableSet_faults hup, execAdminEnableSet_starts hup⟩,
    fun s hup => if_pos hup, fun s k => execEndpointReset_eq k, fun s => ?detach, fun s v hv hup => ?registers,
    fun s o v wide => execRegisterWrite_up, fun s w v => execRegisterWrite_msix, fun s v => execMsixUnmask_pending, ?fetch,
    fun s q c => execCompletionPost_posts, State.postEntry_out, fun s r c hc hup hp hk => ?read⟩
  case doorbells =>
    intro s q v hv hl x
    exact ⟨fun hf hlt => (execSqTail_live hv hl hf).trans (if_neg (Nat.not_le.mpr hlt)),
      fun hf hle => (execSqTail_live hv hl hf).trans (if_pos hle), execCqHead_consumes hv hl⟩
  case notices =>
    intro r n hup hlt hv hh hne
    exact execNoticeHead_consumes hup hlt hv hh hne
  case detach =>
    obtain ⟨hsession, hpaused, hdetached⟩ := s.detach_host
    exact ⟨hsession, hpaused, fun n hn => by simp [hdetached, hn]⟩
  case registers =>
    obtain ⟨hsq, hcq, hsize, hnotice⟩ := execRegisterWrite_wide_registers hup hv
    exact ⟨hsq, hcq, hsize, hnotice, execRegisterWrite_narrow_registers hup⟩
  case fetch =>
    intro s q e hf x fence u
    refine ⟨fun hx => execCommandFetch_aborts hf hx, fun hx hu => ?_, fun hx hc => execCommandFetch_passes hf hx hc,
      fun code hx hc hne => ⟨fun hd => ?_, fun hd => ?_⟩⟩
    · exact (execCommandFetch_fails hf hx (State.common_unknown hu)).trans (congrArg _ (if_pos rfl))
    · have hdrained : (s.queue q).drained = true := Queue.drained_iff.mpr hd
      exact (execCommandFetch_fails hf hx hc).trans (congrArg _ (if_pos (by simp [hdrained])))
    · obtain ⟨d, hmem, hheld, hphase⟩ := hd
      have hundrained : ¬ (s.queue q).drained = true := fun h => hphase (Queue.drained_iff.mp h d hmem hheld)
      exact (execCommandFetch_fails hf hx hc).trans (congrArg _ (if_neg (by simp [hne, hundrained])))
  case read =>
    have returns := execHostReadReturn_waiting hc hup hp hk
    exact ⟨fun h => returns.trans (if_pos h), fun h => returns.trans (if_neg (Bool.eq_false_iff.mp h))⟩

end Sys2Proof.Machine
end

section
/-! PROOF. Power and store commands at their turn (R337, R347, R356, R373 to R378). -/

namespace Sys2Proof.Machine

variable {s : State} {q code : Nat} {c : Cmd} {inl blk : List Byte}

/-! ### Power (R337, R347) -/

theorem State.capSet_outOfRange (h : u16 inl 0 < 120 ∨ 450 < u16 inl 0) : s.capSet inl blk = .refuse rcPowerCap :=
  if_pos (by simpa using h)

theorem State.capSet_inRange (hlo : 120 ≤ u16 inl 0) (hhi : u16 inl 0 ≤ 450) : s.capSet inl blk =
    if u16 inl 0 < s.budgetsBut 16 then .refuse rcPowerBudget else .ok 0 { s with pwr := { s.pwr with capW := u16 inl 0 } } :=
  if_neg (by simp [Nat.not_lt.mpr hlo, Nat.not_lt.mpr hhi])

theorem State.budgetSet_outOfRange (h : 450 < u16 inl 2) : s.budgetSet inl blk = .refuse rcPowerMalformed := if_pos h

section
variable (hw : u16 inl 2 ≤ 450)
include hw

theorem State.budgetSet_over (he : (s.part (u8 inl 0)).state = .enabled) (hb : s.pwr.capW < s.budgetsBut (u8 inl 0) + u16 inl 2) :
    s.budgetSet inl blk = .refuse rcPowerBudget := (if_neg (Nat.not_lt.mpr hw)).trans (if_pos (by simp [he, hb]))

theorem State.budgetSet_within (h : (s.part (u8 inl 0)).state ≠ .enabled ∨ s.budgetsBut (u8 inl 0) + u16 inl 2 ≤ s.pwr.capW) :
    s.budgetSet inl blk = .ok 0 (s.modPart (u8 inl 0) fun x => { x with power := { x.power with budgetW := u16 inl 2 } }) :=
  (if_neg (Nat.not_lt.mpr hw)).trans (if_neg (by simpa [imp_iff_not_or] using h))
end

theorem State.paceFollow_eq : s.paceFollow inl blk = .ok 0 (s.modPart (u8 inl 0) fun x => { x with power :=
    { x.power with paceFollow := u8 inl 1 == 1, pace := if u8 inl 1 = 1 then x.power.pace else [] } }) := by
  simp [State.paceFollow]

/-! ### Slot writes (R373, R374) -/

section
variable (h : s.slotWriteCheck blk = some code)
include h

theorem State.slotWrite_refused : s.slotWrite inl blk = .refuse code := by
  unfold State.slotWrite
  rw [h]

theorem State.slotSealWrite_refused : s.slotSealWrite inl blk = .refuse code := by
  unfold State.slotSealWrite
  rw [h]
end

section
variable (h : s.slotWriteCheck blk = none)
include h

theorem State.slotWrite_passes : s.slotWrite inl blk = if u32 blk 0x10 = 0 then .empty s else .ok 0 (s.slotAppend blk) := by
  unfold State.slotWrite
  rw [h]
  rfl

/-- What refuses the seal of a slot: kinds 0 to 3 carry a signature, which damaged bytes do not bear out. -/
def State.sealCheck (s : State) (b : List Byte) : Option Nat :=
  if 4 ≤ u8 b 2 then none
  else if s.mediaBad (u16 b 0) then some rcSignature
  else (s.slotAppend b).lan.sigCheck ((s.slotAppend b).slot (u16 b 0)).data (u8 b 2) (u8 b 3)

/-- A slot whose signature is refused is erased, and the refusal logged. -/
theorem State.slotSealWrite_passes : s.slotSealWrite inl blk = match s.sealCheck blk with
    | some code => .refuseWith code ((((s.slotAppend blk).setSlot (u16 blk 0) {}).mediaDone (u16 blk 0)).logSignature code
        (u8 blk 2) (u16 blk 0) (u8 blk 3))
    | none => .ok 0 ((s.slotAppend blk).setSlot (u16 blk 0) { (s.slotAppend blk).slot (u16 blk 0) with state := 2 }) := by
  unfold State.slotSealWrite
  rw [h]
  rfl

theorem State.slotSealWrite_seals (hs : s.sealCheck blk = none) : s.slotSealWrite inl blk =
    .ok 0 ((s.slotAppend blk).setSlot (u16 blk 0) { (s.slotAppend blk).slot (u16 blk 0) with state := 2 }) := by
  rw [State.slotSealWrite_passes h, hs]

theorem State.slotSealWrite_erases (hs : s.sealCheck blk = some code) : s.slotSealWrite inl blk =
    .refuseWith code ((((s.slotAppend blk).setSlot (u16 blk 0) {}).mediaDone (u16 blk 0)).logSignature code (u8 blk 2)
      (u16 blk 0) (u8 blk 3)) := by
  rw [State.slotSealWrite_passes h, hs]
end

theorem State.sealCheck_none (h : u8 blk 2 < 4 → s.mediaBad (u16 blk 0) = false ∧
    (s.slotAppend blk).lan.sigCheck ((s.slotAppend blk).slot (u16 blk 0)).data (u8 blk 2) (u8 blk 3) = none) :
    s.sealCheck blk = none := by
  unfold State.sealCheck
  split
  · rfl
  next hk =>
    obtain ⟨hm, hg⟩ := h (Nat.not_le.mp hk)
    rw [hm, hg]
    rfl

section
variable (hk : u8 blk 2 < 4)
include hk

theorem State.sealCheck_media (hm : s.mediaBad (u16 blk 0) = true) : s.sealCheck blk = some rcSignature :=
  (if_neg (Nat.not_le.mpr hk)).trans (if_pos hm)

theorem State.sealCheck_readable (hm : s.mediaBad (u16 blk 0) = false) :
    s.sealCheck blk = (s.slotAppend blk).lan.sigCheck ((s.slotAppend blk).slot (u16 blk 0)).data (u8 blk 2) (u8 blk 3) :=
  (if_neg (Nat.not_le.mpr hk)).trans (if_neg (Bool.eq_false_iff.mp hm))
end

/-! ### store.slot_erase and store.slot_list (R374, R375) -/

theorem State.slotErase_empty (h : (s.slot (u16 inl 0)).state = 0) : s.slotErase inl blk = .empty s := if_pos h

theorem State.slotErase_filled (h : (s.slot (u16 inl 0)).state ≠ 0) : s.slotErase inl blk =
    if s.slotInUse (u16 inl 0) then .refuse rcSlotBusy
    else .ok 0 ((({ s with clk.free := s.clk.free + ((s.slot (u16 inl 0)).data.length / 2 ^ 22 + 4) } : State).modStore fun x =>
      x.eraseData (s.slot (u16 inl 0)).data.length s.clk.free).setSlot (u16 inl 0) {}) := if_neg h

/-- What store.slot_list answers. -/
def State.slotList (s : State) (c : Cmd) : Done :=
  let l := s.store.slots.map Prod.fst
  if l.isEmpty then .empty s else .data ((l.take (c.entry.dataLen / 48)).flatMap s.slotEntry) l.length s

/-! ### Owner objects (R376) -/

/-- What store.obj_put refuses, in the order of its checks; `rest` are the objects of other names. -/
def State.objCheck (s : State) (b : List Byte) (rest : List (List Byte × List Byte)) : Option Nat :=
  firstFail [
    (u32 b 0x20 == 0, rcZeroSize), (!allZero b 0x24 28 || deviceName (slice b 0 32), rcStoreMalformed),
    (decide (65536 ≤ rest.length) || decide (32 * 2 ^ 30 < sumNat (rest.map fun o => o.2.length) + u32 b 0x20) ||
      s.store.freeStripes == 0, rcStoreFull)]

/-- The objects of names other than that of a block. -/
def State.otherObjects (s : State) (b : List Byte) : List (List Byte × List Byte) := s.store.objects.filter fun o => o.1 != slice b 0 32

theorem State.objPut_eq : s.objPut inl blk = match s.objCheck blk (s.otherObjects blk) with
    | some code => .refuse code
    | none => .ok 0 (s.modStore fun x => { x.program (u32 blk 0x20) with
        objects := s.otherObjects blk ++ [(slice blk 0 32, slice blk 64 (u32 blk 0x20))] }) := by
  unfold State.objPut State.objCheck State.otherObjects
  rfl

theorem State.objPut_empty (hn : u32 blk 0x20 = 0) : s.objPut inl blk = .refuse rcZeroSize := by
  rw [State.objPut_eq, State.objCheck, hn]
  rfl

theorem State.objPut_puts (hn : u32 blk 0x20 ≠ 0) (hz : allZero blk 0x24 28 = true) (hd : deviceName (slice blk 0 32) = false)
    (hl : (s.otherObjects blk).length < 65536)
    (hh : sumNat ((s.otherObjects blk).map fun o => o.2.length) + u32 blk 0x20 ≤ 32 * 2 ^ 30) (hf : s.store.freeStripes ≠ 0) :
    s.objPut inl blk = .ok 0 (s.modStore fun x => { x.program (u32 blk 0x20) with
      objects := s.otherObjects blk ++ [(slice blk 0 32, slice blk 64 (u32 blk 0x20))] }) := by
  have hsome : (u32 blk 0x20 == 0) = false := beq_eq_false_iff_ne.mpr hn
  have hstripes : (s.store.freeStripes == 0) = false := beq_eq_false_iff_ne.mpr hf
  rw [State.objPut_eq, State.objCheck, hsome, hz, hd, decide_eq_false (Nat.not_le.mpr hl), decide_eq_false (Nat.not_lt.mpr hh), hstripes]
  rfl

/-- What store.obj_get answers. -/
def State.objGet (s : State) (c : Cmd) : Done :=
  match s.objectOf c.inl with
  | none => .refuse rcObjectAbsent
  | some b =>
    if c.entry.dataLen < b.length then .refuse rcDataShort
    else if s.mediaBad 4096 then .ends stMediaError (s.mediaDone 4096)
    else .data b 0 s

theorem State.objGet_absent (h : s.objectOf c.inl = none) : s.objGet c = .refuse rcObjectAbsent := by
  unfold State.objGet
  rw [h]

section
variable {d : List Byte} (h : s.objectOf c.inl = some d)
include h

theorem State.objGet_short (hl : c.entry.dataLen < d.length) : s.objGet c = .refuse rcDataShort := by
  unfold State.objGet
  rw [h]
  exact if_pos hl

theorem State.objGet_reads (hl : d.length ≤ c.entry.dataLen) (hm : s.mediaBad 4096 = false) : s.objGet c = .data d 0 s := by
  unfold State.objGet
  rw [h]
  exact (if_neg (Nat.not_lt.mpr hl)).trans (if_neg (Bool.eq_false_iff.mp hm))
end

theorem State.objDelete_absent (h : s.store.object inl = none) : s.objDelete inl blk = .refuse rcObjectAbsent :=
  if_pos (by simp [h])

theorem State.objDelete_deletes (hd : deviceName inl = false) (h : (s.store.object inl).isSome = true) : s.objDelete inl blk =
    .ok 0 (s.modStore fun x => { x with objects := x.objects.filter fun o => o.1 != inl }) :=
  if_neg (by simpa [hd] using Option.isSome_iff_ne_none.mp h)

/-! ### Stored defaults (R377) -/

theorem State.defaultsSet_malformed (h : 128 ≤ u64 inl 0) : s.defaultsSet inl blk = .refuse rcStoreMalformed := if_pos h

theorem State.defaultsSet_keeps (hm : u64 inl 0 < 128) (h0 : u64 inl 0 ≠ 0) (hf : s.store.freeStripes ≠ 0) : s.defaultsSet inl blk =
    .ok 0 (({ s with clk.free := s.clk.free + 1 } : State).modStore fun x => { x.program (Config.freeNat s.clk.free) with
      defaults := ((List.range 7).filter (u64 inl 0).testBit).foldl (fun m k => Map.insert m k (s.keepClass k)) [] }) := by
  refine ((if_neg (Nat.not_le.mpr hm)).trans (if_neg (by simp [hf]))).trans ?_
  simp only [h0, if_false]
  rfl

/-- Settles O55: each command at its turn comes to its own meaning (`State.AtTurn.exec_eq`), which the lemmas above give check by
check. -/
theorem powerStoreCommands : Obligations.PowerStoreCommands := by
  intro s q c ht hr hc ok no empty data op b i p
  have hat : s.AtTurn q c := ⟨ht, hr, hc⟩
  refine ⟨fun ho => ?cap, fun ho => ?budget, fun ho => ?pace, fun ho => ?read, fun ho hseal => ?write, fun ho hseal => ?sealed,
    fun ho => ?erase, fun ho => ?list, fun ho => ?put, fun ho => ?get, fun ho => ?delete, fun ho => ?defaults, fun ho => ?stats⟩
  case cap =>
    intro w
    have sets : ∀ {d}, s.capSet c.inl c.blk = d → exec (.powerCapSet q) s = .next (s.settle q c d) :=
      hat.exec_args (f := State.capSet) rfl ho
    exact ⟨fun h => sets (State.capSet_outOfRange h),
      fun hlo hhi hb => sets ((State.capSet_inRange hlo hhi).trans (if_pos hb)),
      fun hlo hhi hb => sets ((State.capSet_inRange hlo hhi).trans (if_neg (Nat.not_lt.mpr hb)))⟩
  case budget =>
    intro w
    have sets : ∀ {d}, s.budgetSet c.inl c.blk = d → exec (.powerBudgetSet q) s = .next (s.settle q c d) :=
      hat.exec_args (f := State.budgetSet) rfl ho
    exact ⟨fun h => sets (State.budgetSet_outOfRange h), fun hw he hb => sets (State.budgetSet_over hw he hb),
      fun hw h => sets (State.budgetSet_within hw h)⟩
  case pace => exact hat.exec_args (f := State.paceFollow) rfl ho State.paceFollow_eq
  case read => exact hat.exec_args (f := fun t _ _ => .data t.powerRecord 0 t) rfl ho rfl
  case write =>
    have writes : ∀ {d}, s.slotWrite c.inl c.blk = d → exec (.storeSlotWrite q) s = .next (s.settle q c d) :=
      hat.exec_eq (f := fun t c => t.slotWrite c.inl c.blk) rfl ho (by rw [hseal]; rfl)
    exact ⟨fun code h => writes (State.slotWrite_refused h), fun h h0 => writes ((State.slotWrite_passes h).trans (if_pos h0)),
      fun h h0 => writes ((State.slotWrite_passes h).trans (if_neg h0))⟩
  case sealed =>
    intro t x
    have seals : ∀ {d}, s.slotSealWrite c.inl c.blk = d → exec (.slotSeal q) s = .next (s.settle q c d) :=
      hat.exec_eq (f := fun t c => t.slotSealWrite c.inl c.blk) rfl ho hseal
    exact ⟨fun code h => seals (State.slotSealWrite_refused h),
      fun h hg => seals (State.slotSealWrite_seals h (State.sealCheck_none hg)),
      fun code h hk hm hg => seals (State.slotSealWrite_erases h ((State.sealCheck_readable hk hm).trans hg)),
      fun h hk hm => seals (State.slotSealWrite_erases h (State.sealCheck_media hk hm))⟩
  case erase =>
    have erases : ∀ {d}, s.slotErase c.inl c.blk = d → exec (.storeSlotErase q) s = .next (s.settle q c d) :=
      hat.exec_args (f := State.slotErase) rfl ho
    exact ⟨fun h => erases (State.slotErase_empty h), fun h hu => erases ((State.slotErase_filled h).trans (if_pos hu)),
      fun h hu => erases ((State.slotErase_filled h).trans (if_neg (Bool.eq_false_iff.mp hu)))⟩
  case list =>
    intro l hl
    exact hat.exec_eq (f := State.slotList) rfl ho rfl (if_neg fun h => hl (List.isEmpty_iff.mp h))
  case put =>
    have puts : ∀ {d}, s.objPut c.inl c.blk = d → exec (.storeObjPut q) s = .next (s.settle q c d) :=
      hat.exec_args (f := State.objPut) rfl ho
    exact ⟨fun hn => puts (State.objPut_empty hn), fun hn hz hd hl hh hf => puts (State.objPut_puts hn hz hd hl hh hf)⟩
  case get =>
    have gets : ∀ {d}, s.objGet c = d → exec (.storeObjGet q) s = .next (s.settle q c d) := hat.exec_eq (f := State.objGet) rfl ho rfl
    exact ⟨fun h => gets (State.objGet_absent h), fun d h hl => gets (State.objGet_short h hl),
      fun d h hl hm => gets (State.objGet_reads h hl hm)⟩
  case delete =>
    have deletes : ∀ {d}, s.objDelete c.inl c.blk = d → exec (.storeObjDelete q) s = .next (s.settle q c d) :=
      hat.exec_args (f := State.objDelete) rfl ho
    exact ⟨fun h => deletes (State.objDelete_absent h), fun hd h => deletes (State.objDelete_deletes hd h)⟩
  case defaults =>
    intro mask
    have keeps : ∀ {d}, s.defaultsSet c.inl c.blk = d → exec (.storeDefaultsSet q) s = .next (s.settle q c d) :=
      hat.exec_args (f := State.defaultsSet) rfl ho
    exact ⟨fun h => keeps (State.defaultsSet_malformed h), fun hm h0 hf => keeps (State.defaultsSet_keeps hm h0 hf)⟩
  case stats => exact hat.exec_args (f := fun t _ _ => .data t.storeRecord 0 t) rfl ho rfl

end Sys2Proof.Machine
end

section
/-! PROOF. The NAND's upkeep: bad blocks, fenced dies, wear moves, canary scans, refreshes and relocations (R363 to R370). -/

namespace Sys2Proof.Machine

variable {s : State} {d b : Nat}

/-! ### Bad blocks and dies (R365, R366) -/

/-- A grown bad block has been counted. -/
def Store.countBad (x : Store) : Store := { x with stats := { x.stats with grownBad := satAdd 0xFFFF x.stats.grownBad 1 } }

section
variable (hd : d < 16)
include hd

section
variable (hf : (s.store.die d).fenced = false)
include hf

theorem execGrownBadBlock_inService (hb : b < 2816) : exec (.grownBadBlock d b) s =
    if (s.store.die d).reserve = 0 then
      .next ((s.modStore fun y => ({ y.countBad with retiredStripes := y.retiredStripes + 1 } : Store).rewrite
        (y.diesUp * blockBytes)).log d 0x0505 0xFF (nandData b 0 0))
    else .next ((s.modStore fun y => ((y.countBad.modDie d fun z => { z with reserve := z.reserve - 1 }).modBlock d b
      fun _ => { scans := y.canaries }).rewrite blockBytes).log d 0x0504 0xFF (nandData b 0 0)) :=
  if_neg (by simp [hf, Nat.not_le.mpr hd, Nat.not_le.mpr hb])

/-- How many stripes a fence rewrites is open. -/
theorem execDieFence_inService : ∃ n, exec (.dieFence d) s = .next ((({ s with clk.free := s.clk.free + 1 } : State).modStore fun y =>
    (y.modDie d fun z => { z with fenced := true }).rewrite n).log d 0x0506 0xFF (nandData 0 0 0)) :=
  ⟨_, if_neg (by simp [hf, Nat.not_le.mpr hd])⟩

/-- Which block of a die a wear move erases is open. -/
theorem execStaticWearMove_inService : let up := (List.range 16).filter fun k => !(s.store.die k).fenced
    exec (.staticWearMove d) s = .next (({ s with clk.free := s.clk.free + 16 } : State).modStore fun y =>
      (up.foldl (fun z k => z.eraseBlock k (Config.freeNat (s.clk.free + k) % 2816)) y).rewrite (up.length * blockBytes)) :=
  if_neg (by simp [hf, Nat.not_le.mpr hd])
end

/-! ### Canary scans, refreshes and relocations (R368 to R370) -/

theorem execCanaryScan_one (hb : b < 2816) : exec (.canaryScan [{ die := d, block := b }]) s = .next (s.modStore fun y =>
    ({ y with canaries := y.canaries + 1 } : Store).modBlock d b fun z => { z with refresh := true }) := by
  show execCanaryScan [{ die := d, block := b }] s = _
  simp [execCanaryScan, hd, hb]

theorem execBlockRelocation_inRange (hb : b < 2816) : exec (.blockRelocation d b) s = .next ((s.modStore fun y =>
    let z := (y.eraseBlock d b).rewrite blockBytes
    { z with stats := { z.stats with relocations := satAdd 0xFFFFFFFF z.stats.relocations 1 } }).log d 0x0508 0xFF (nandData b 0 0)) :=
  if_neg (by simp [Nat.not_le.mpr hd, Nat.not_le.mpr hb])
end

theorem execBlockRefresh_marked (hr : (s.store.block d b).refresh = true) : exec (.blockRefresh d b) s = .next ((s.modStore fun y =>
    let z := (y.eraseBlock d b).rewrite blockBytes
    { z with stats := { z.stats with refreshes := satAdd 0xFFFFFFFF z.stats.refreshes 1 } }).log d 0x0507 0xFF (nandData b 0 0)) :=
  if_neg (by simp [hr])

/-- An erase counts, and clears the reads and the refresh mark. -/
theorem Store.block_eraseBlock (y : Store) (d b : Nat) : (y.eraseBlock d b).block d b =
    { erases := (y.block d b).erases + 1, reads := 0, scans := y.canaries, refresh := false } :=
  Map.get_set_of_ne _ _ fun h => Nat.succ_ne_zero _ (congrArg Block.erases h)

/-- Settles O58: each event by its branch, the open numbers being the free values it draws. -/
theorem nandEvents : Obligations.NandEvents := by
  intro s d b hd hb x data
  refine ⟨fun hf hr => ?bad, fun hf hr => ?retired, fun hf => execDieFence_inService hd hf, fun hf => ?wear, execCanaryScan_one hd hb, rfl,
    execBlockRefresh_marked, fun hr => if_pos (by simp [hr]), execBlockRelocation_inRange hd hb, fun y => y.block_eraseBlock d b⟩
  case bad => exact (execGrownBadBlock_inService hd hf hb).trans (if_neg (Nat.pos_iff_ne_zero.mp hr))
  case retired => exact ⟨_, (execGrownBadBlock_inService hd hf hb).trans (if_pos hr), rfl, rfl, rfl, rfl⟩
  case wear => exact ⟨fun k => Config.freeNat (s.clk.free + k) % 2816, fun k => Nat.mod_lt _ (by decide), execStaticWearMove_inService hd hf⟩

end Sys2Proof.Machine
end

section
/-! PROOF. Errors and what contains them: tile and sequencer fences, memory errors of Cupola and Steeple, CP restarts, rest (R417 to
R424, R442). -/

namespace Sys2Proof.Machine

variable {s : State} {tile cause p k i line : Nat} {lost : List Nat}

/-! ### Tile fences (R417) -/

/-- The tile has joined the fenced ones. -/
def State.fenced (s : State) (tile : Nat) : State :=
  { s with module := { s.module with fencedTiles := insertSorted tile s.module.fencedTiles } }

/-- Engine `e` of a fenced tile has no tile. -/
def State.strand (s : State) (tile e : Nat) : State := { s.fenced tile with engineMap := Map.set 0 s.engineMap e 69 }

/-- What a fence logs of the counters lost. -/
def lostMask (lost : List Nat) : List Byte := leBytes 8 (sumNat ((dedup (lost.filter (· < 64))).map (2 ^ ·)))

/-- A fence has been logged and noticed for the partition `part`, which had the engine `eng`. -/
def State.tellFence (s : State) (tile cause part : Nat) (eng : Byte) (lost : List Nat) : State :=
  (s.log tile 0x0103 part ([BitVec.ofNat 8 cause, eng] ++ lostMask lost)).notice noticeTileFenced part
    ([BitVec.ofNat 8 tile, eng] ++ zeros 14)

/-- What the fence of engine `e`'s tile does to the partition that has the engine. -/
def State.fenceOwner (s : State) (tile e : Nat) (lost : List Nat) : State :=
  match s.ownerOf e with
  | some (p, l) => (s.strand tile e).fenceJobs p l lost
  | none => s.strand tile e

section
variable (ht : tile < 68) (hf : tile ∉ s.module.fencedTiles) (hr : s.module.state = .running)
include ht hf hr

theorem execTileFence_acts : exec (.tileFence tile cause lost) s = match s.engineOn tile with
    | none => .next ((s.fenced tile).tellFence tile cause 0xFF 0xFF lost)
    | some e => .next ((s.fenceOwner tile e lost).tellFence tile cause (((s.ownerOf e).map Prod.fst).getD 0xFF) (BitVec.ofNat 8 e) lost) := by
  refine (if_neg (by simp [Nat.not_le.mpr ht, hf, hr])).trans ?_
  cases he : s.engineOn tile with
  | none => rfl
  | some e =>
    -- whose engine it is goes by the partitions alone
    have hsame : ({ s.fenced tile with engineMap := Map.set 0 (s.fenced tile).engineMap e 69 } : State).ownerOf e = s.ownerOf e := rfl
    simp only [Option.getD_some, Option.bind_some, State.fenceOwner]
    unfold State.fenced at hsame
    rw [hsame]
    cases s.ownerOf e <;> rfl

theorem execTileFence_noEngine (he : s.engineOn tile = none) :
    exec (.tileFence tile cause lost) s = .next ((s.fenced tile).tellFence tile cause 0xFF 0xFF lost) := by
  rw [execTileFence_acts ht hf hr, he]

section
variable {e : Nat} (he : s.engineOn tile = some e)
include he

theorem execTileFence_free (ho : s.ownerOf e = none) :
    exec (.tileFence tile cause lost) s = .next ((s.strand tile e).tellFence tile cause 0xFF (BitVec.ofNat 8 e) lost) := by
  simp only [execTileFence_acts ht hf hr, he, State.fenceOwner, ho]
  rfl

theorem execTileFence_owned {l : Nat} (ho : s.ownerOf e = some (p, l)) : exec (.tileFence tile cause lost) s =
    .next (((s.strand tile e).fenceJobs p l lost).tellFence tile cause p (BitVec.ofNat 8 e) lost) := by
  simp only [execTileFence_acts ht hf hr, he, State.fenceOwner, ho]
  rfl
end
end

theorem execTileFence_stopped (h : s.module.state ≠ .running) : exec (.tileFence tile cause lost) s = .next s :=
  if_pos (by simp [h])

/-! ### Sequencers (R418) -/

theorem execSequencerError_bound (h : (s.part p).sequencer = some k) :
    let t := (({ s with module := { s.module with lostSequencers := insertSorted k s.module.lostSequencers } } : State).resetPartition p).modPart p
      fun q => { q with sequencer := none }
    let u := if t.freeSequencers.isEmpty then t.enterA2 p else t.bindSequencer p
    exec (.sequencerError p) s = .next (u.log 0xFFFF 0x0201 p [BitVec.ofNat 8 k, BitVec.ofNat 8 (((u.part p).sequencer).getD 0xFF)]) := by
  show execSequencerError p s = _
  unfold execSequencerError
  rw [h]

/-! ### Memories of Cupola and Steeple (R421, R422) -/

theorem execCupolaMemoryError_ring (hi : i < 16) : exec (.cupolaMemoryError .ingestRing i line) s =
    .next ((s.modSensor i fun y => y.damageLine line).countBad 0x07) := congrArg Host.Outcome.next (if_pos hi)

theorem Sensor.damageLine_inProgress {x : Sensor} (hf : some (Map.get {} x.ring line).frame = x.seqNo) (hin : x.inImage = true) :
    x.damageLine line = { x with damaged := true } := (if_neg (by simp [hf])).trans (if_pos hin)

theorem execCupolaMemoryError_group (hi : i < 4) (hs : (s.group i).started = true) : exec (.cupolaMemoryError .groupData i line) s =
    .next ((s.clearMap i).modGroup i fun y => { y with frame := y.frame.map fun f => { f with lost := f.headerWrite.isNone } }) :=
  if_neg (by simp [Nat.not_le.mpr hi, hs])

/-! ### CP restarts (R423, R424) -/

theorem execCpRestart_ready (hr : s.host.bar.cpReady = true) :
    let n := satAdd 0xFFFFFFFF s.module.cpRestarts 1
    let again := sumNat (s.host.queues.map fun e => (e.2.cmds.filter fun c => c.phase != .done).length)
    let up := ({ s with
      module := { s.module with cpRestarts := n }
      host := { s.host with bar := { s.host.bar with cpRestarting := false } } } : State)
    let t := if cause = 3 then up else up.measure 2 0xFF02 (fit 0 64 (Map.get ({} : Target) s.lan.targets 1).digest)
    exec (.cpRestart cause) s = .next ((t.log 0xFFFF 0x0B01 0xFF (leBytes 1 cause ++ leBytes 4 again)).notice noticeCpRestarted 0xFF
      (leBytes 4 n ++ zeros 12)) := if_neg (by simp [hr])

/-! ### Rest (R442) -/

theorem execA1Entry_atRest (he : (s.part p).state = .enabled)
    (hc : ∀ e ∈ (s.part p).ctxs, e.2.state ≠ .starting ∧ e.2.state ≠ .running ∧ e.2.state ≠ .stopping) :
    exec (.a1Entry p) s = .next (s.modPart p fun x => { x with low := .a1 }) := by
  have hrest : ((s.part p).ctxs.any fun e => e.2.state == .starting || e.2.state == .running || e.2.state == .stopping) = false :=
    List.any_eq_false.mpr fun e hmem => by simp [hc e hmem]
  refine congrArg Host.Outcome.next (if_neg ?_)
  rw [hrest, he]
  decide

/-- Settles O59: each error by its branch; a fence by whether its tile carries an engine and whose (`execTileFence_acts`). -/
theorem errorContainment : Obligations.ErrorContainment := by
  refine ⟨?fence, fun s tile cause lost => execTileFence_stopped, fun s p k => execSequencerError_bound, ?cupola, ?steeple, ?restart,
    fun s p => execA1Entry_atRest⟩
  case fence =>
    intro s tile cause lost ht hf hr fenced mask
    exact ⟨fun he => execTileFence_noEngine ht hf hr he, fun e he ho => execTileFence_free ht hf hr he ho,
      fun e p l he ho => execTileFence_owned ht hf hr he ho⟩
  case cupola =>
    intro s i line x counted
    exact ⟨fun hi hf hin => ⟨execCupolaMemoryError_ring hi, Sensor.damageLine_inProgress hf hin⟩, execCupolaMemoryError_group, rfl⟩
  case steeple =>
    intro s i logged
    exact ⟨rfl, fun hi => if_neg (Nat.not_le.mpr hi), fun hm => if_neg (by simpa [Option.isSome_iff_ne_none] using hm)⟩
  case restart =>
    intro s cause hr n again
    refine ⟨congrArg Host.Outcome.next (if_pos hr), ?_⟩
    intro up told
    refine ⟨fun h => (execCpRestart_ready hr).trans ?_, fun h => (execCpRestart_ready hr).trans ?_⟩
    · simp only [if_neg h]
      rfl
    · simp only [if_pos h]
      rfl

end Sys2Proof.Machine
end

section
/-! PROOF. Lantern's commands and the log's at their turn, and the transitions that reset the module (R386, R388, R390, R395, R396,
R399, R405, R408, R429, R430). -/

namespace Sys2Proof.Machine

variable {s t : State} {q code : Nat} {c : Cmd} {inl blk : List Byte}

/-! ### sec.attest (R399) -/

/-- What sec.attest answers. -/
def State.attest (s : State) (c : Cmd) : Done :=
  if 15 < c.entry.partition && c.entry.partition != 0xFF then .refuse rcEntryMalformed
  else if !s.lan.life.isOwned then .refuse rcLifecycle
  else .data (s.attestReport c.entry.partition c.inl) 0 s

theorem State.attest_covered (h : c.entry.partition ≤ 15 ∨ c.entry.partition = 0xFF) : s.attest c =
    if s.lan.life.isOwned then .data (s.attestReport c.entry.partition c.inl) 0 s else .refuse rcLifecycle := by
  refine (if_neg (by simp only [Bool.and_eq_true, decide_eq_true_eq, bne_iff_ne]; omega)).trans ?_
  cases s.lan.life.isOwned <;> rfl

/-! ### sec.update (R405) -/

/-- The image of an update is the copy that does not run, and the update is under way. -/
def State.startUpdate (s : State) (q : Nat) (c : Cmd) : State :=
  let n := u16 c.inl 0
  let k := u8 c.inl 2
  let d := (s.slot n).data
  let g := sigBlock d
  ((s.writeCopy k ⟨u16 g 8, slice g 0x30 64⟩).modLan fun l => { l with
    update := some { slot := n, target := k, svn := u16 g 8, digest := slice g 0x30 64, queue := q, cmd := c.no }
    microcode := if k = 2 then microcodeUnits else l.microcode }).modStore fun x => x.program d.length

section
variable (hu : s.lan.update = none) (hk : u8 c.inl 2 ≤ 2) (hs : s.slotCheck (u16 c.inl 0) 3 0xFF = none)
  (hm : s.mediaBad (u16 c.inl 0) = false)
include hu hk hs hm

theorem State.secUpdate_readable : s.secUpdate q c = match s.lan.sigCheck (s.slot (u16 c.inl 0)).data 3 0xFF with
    | some code => .refuseWith code (s.logSignature code 3 (u16 c.inl 0) 0xFF)
    | none => if u8 (sigBlock (s.slot (u16 c.inl 0)).data) 7 != u8 c.inl 2 ||
        targetBytes (u8 c.inl 2) < (s.slot (u16 c.inl 0)).data.length then .refuse rcSecurityMalformed
      else .runs (s.startUpdate q c) := by
  have htarget : decide (2 < u8 c.inl 2) = false := decide_eq_false (Nat.not_lt.mpr hk)
  simp only [State.secUpdate, firstFail, hu, htarget, hs, hm]
  rfl

theorem State.secUpdate_badSignature (hg : s.lan.sigCheck (s.slot (u16 c.inl 0)).data 3 0xFF = some code) :
    s.secUpdate q c = .refuseWith code (s.logSignature code 3 (u16 c.inl 0) 0xFF) := by
  rw [State.secUpdate_readable hu hk hs hm, hg]

section
variable (hg : s.lan.sigCheck (s.slot (u16 c.inl 0)).data 3 0xFF = none)
include hg

theorem State.secUpdate_otherTarget (ht : u8 (sigBlock (s.slot (u16 c.inl 0)).data) 7 ≠ u8 c.inl 2) :
    s.secUpdate q c = .refuse rcSecurityMalformed := by
  rw [State.secUpdate_readable hu hk hs hm, hg]
  exact if_pos (by simp [ht])

theorem State.secUpdate_starts (ht : u8 (sigBlock (s.slot (u16 c.inl 0)).data) 7 = u8 c.inl 2)
    (hl : (s.slot (u16 c.inl 0)).data.length ≤ targetBytes (u8 c.inl 2)) : s.secUpdate q c = .runs (s.startUpdate q c) := by
  rw [State.secUpdate_readable hu hk hs hm, hg]
  exact if_neg (by simp [ht, Nat.not_lt.mpr hl])
end
end

/-! ### sec.key_enrol and sec.key_revoke (R395, R396) -/

/-- The root's signature of a record, which stands at byte `n` of it. -/
def State.rootSigned (s : State) (b : List Byte) (n : Nat) : Bool := signedBy s.lan.root (b.take n) (slice b n 1280)

section
variable {bad : Bool} {n seq : Nat} (hb : bad = false) (hl : s.lan.life.isOwned = true)
include hb hl

theorem State.recordCheck_unsigned (hg : s.rootSigned blk n = false) : s.recordCheck blk bad n seq = some rcSignature := by
  unfold State.rootSigned at hg
  rw [State.recordCheck, hb, hl, hg]
  rfl

theorem State.recordCheck_signed (hg : s.rootSigned blk n = true) (hq : s.lan.seq < seq) : s.recordCheck blk bad n seq = none := by
  unfold State.rootSigned at hg
  rw [State.recordCheck, hb, hl, hg, decide_eq_false (Nat.not_le.mpr hq)]
  rfl
end

/-- The secrets are sealed anew and the enrolment of record `b` logged. -/
def State.noteEnrolled (s : State) (b : List Byte) : State :=
  s.seal.log 0xFFFF 0x0C05 0xFF [BitVec.ofNat 8 (u8 b 4), BitVec.ofNat 8 (u8 b 5), 0xFF]

section
variable (hb : keyRecordBad blk = false) (hl : s.lan.life.isOwned = true) {f : Lantern → Lantern}
include hb hl

theorem State.enrol_unsigned (hg : s.rootSigned blk 0x780 = false) : s.enrol blk f = .refuse rcSignature := by
  unfold State.enrol
  rw [State.recordCheck_unsigned hb hl hg]

theorem State.enrol_signed (hg : s.rootSigned blk 0x780 = true) (hq : s.lan.seq < u32 blk 0x0C) : s.enrol blk f =
    .ok (u8 blk 5) (if u8 blk 4 = 0 then (s.modLan fun l => { f l with seq := u32 blk 0x0C }).noteEnrolled blk
      else ((s.modLan fun l => { f l with seq := u32 blk 0x0C }).noteEnrolled blk).measureLife 0x0C03) := by
  unfold State.enrol
  rw [State.recordCheck_signed hb hl hg hq]
  rfl
end

/-- What the three kinds of key record enrol: a signing key in its slot, a root, a policy. -/
def Lantern.withKey (b : List Byte) (l : Lantern) : Lantern :=
  { l with keys := Map.set {} l.keys (u8 b 5) { used := true, kinds := u8 b 6, parts := u16 b 8, key := slice b 0x40 1793 } }
def Lantern.withRoot (b : List Byte) (l : Lantern) : Lantern := { l with root := slice b 0x40 1793 }
def Lantern.withPolicy (b : List Byte) (l : Lantern) : Lantern :=
  { l with policy := { cosign := bitAt (u8 b 0x20) 0, minSvn := (List.range 3).map fun k => u16 b (0x22 + 2 * k) } }

section
variable {d : Done} (h : s.AtTurn q c) (ho : c.entry.opcode = 0x0C03)
include h ho

theorem execSecKeyEnrolSigning_eq (h4 : u8 c.blk 4 = 0) (hd : s.enrol c.blk (Lantern.withKey c.blk) = d) :
    exec (.secKeyEnrolSigning q) s = .next (s.settle q c d) :=
  h.exec_eq (mine := fun c => recordType c != 1 && recordType c != 2) (f := fun t c => t.enrol c.blk (Lantern.withKey c.blk)) rfl ho
    (by simp [recordType, h4]) hd

theorem execSecKeyEnrolRoot_eq (h4 : u8 c.blk 4 = 1) (hd : s.enrol c.blk (Lantern.withRoot c.blk) = d) :
    exec (.secKeyEnrolRoot q) s = .next (s.settle q c d) :=
  h.exec_eq (mine := fun c => recordType c == 1) (f := fun t c => t.enrol c.blk (Lantern.withRoot c.blk)) rfl ho
    (beq_iff_eq.mpr h4) hd

theorem execSecKeyEnrolPolicy_eq (h4 : u8 c.blk 4 = 2) (hd : s.enrol c.blk (Lantern.withPolicy c.blk) = d) :
    exec (.secKeyEnrolPolicy q) s = .next (s.settle q c d) :=
  h.exec_eq (mine := fun c => recordType c == 2) (f := fun t c => t.enrol c.blk (Lantern.withPolicy c.blk)) rfl ho
    (beq_iff_eq.mpr h4) hd
end

/-- A revocation record that names no slot or has a field out of range. -/
def revocationBad (b : List Byte) : Bool :=
  u32 b 0 != 0x5645524F || decide (31 < u8 b 4) || !allZero b 5 3 || !allZero b 0x0C 4 || !serialOk b || !allZero b 0x20 32

section
variable (hb : revocationBad blk = false) (hl : s.lan.life.isOwned = true)
include hb hl

theorem State.revokeKey_unsigned (hg : s.rootSigned blk 0x40 = false) : s.revokeKey inl blk = .refuse rcSignature := by
  have hcheck : s.recordCheck blk (revocationBad blk) 0x40 (u32 blk 8) = some rcSignature := State.recordCheck_unsigned hb hl hg
  unfold revocationBad at hcheck
  unfold State.revokeKey
  simp only [hcheck]

theorem State.revokeKey_signed (hg : s.rootSigned blk 0x40 = true) (hq : s.lan.seq < u32 blk 8) : s.revokeKey inl blk =
    if (Map.get ({} : KeySlot) s.lan.keys (u8 blk 4)).used then
      .ok 0 ((s.modLan fun l => { l with keys := Map.erase l.keys (u8 blk 4), seq := u32 blk 8 }).seal.log 0xFFFF 0x0C05 0xFF
        [0, BitVec.ofNat 8 (u8 blk 4), 0xFF])
    else .refuse rcKeyUnknown := by
  have hcheck : s.recordCheck blk (revocationBad blk) 0x40 (u32 blk 8) = none := State.recordCheck_signed hb hl hg hq
  unfold revocationBad at hcheck
  unfold State.revokeKey
  simp only [hcheck]
  cases (Map.get ({} : KeySlot) s.lan.keys (u8 blk 4)).used <;> rfl
end

/-! ### sec.rotate (R386) -/

section
variable {k p : Nat} (hk : u8 inl 0 = k) (hp : u8 inl 1 = p) (ho : rotateOk k p = true) (hl : s.lan.life.isOwned = true)
include hk hp ho hl

theorem State.rotate_walking (hw : ∃ w ∈ s.lan.walks, w.cls = k ∧ w.part = p) : s.rotate inl blk = .refuse rcLifecycle := by
  have hwalks : (s.lan.walks.any fun w => w.cls == k && w.part == p) = true := by simpa using hw
  subst hk hp
  simp only [State.rotate, firstFail, ho, hl, hwalks]
  rfl

theorem State.rotate_starts (hw : ∀ w ∈ s.lan.walks, w.cls ≠ k ∨ w.part ≠ p) : s.rotate inl blk =
    .ok 0 ((if k = 5 then (List.range 4).foldl State.startRekey s else s.rekeyClass k p).log 0xFFFF 0x0C05 (if p < 16 then p else 0xFF)
      [BitVec.ofNat 8 k, 0xFF, BitVec.ofNat 8 p]) := by
  have hwalks : (s.lan.walks.any fun w => w.cls == k && w.part == p) = false := by
    simpa [imp_iff_not_or] using hw
  subst hk hp
  simp only [State.rotate, firstFail, ho, hl, hwalks]
  rfl
end

/-- The device's NAND key stands in the vault. -/
theorem State.rekeyClass_nand (s : State) (p : Nat) : s.rekeyClass 4 p = (s.modLan fun l => { l with
    nextKey := l.nextKey + 1, walks := l.walks ++ [⟨4, p, s.keyRegister (.nand 0)⟩]
    storeKeys := Map.set 0 l.storeKeys 0 s.lan.nextKey }).seal := by
  have h2 : ¬ (4 : Nat) < 2 := by decide
  have h3 : (4 : Nat) ≠ 2 := by decide
  unfold State.rekeyClass
  simp only [if_neg h2, if_neg h3]
  rfl

/-! ### log.read (R429) -/

/-- The records that log.read returns. -/
def State.recordsRead (s : State) (c : Cmd) : List LogEnt :=
  (s.lan.log.ring.filter fun e => decide (u64 c.inl 0 ≤ e.number)).take (min (u32 c.inl 8) (c.entry.dataLen / 128))

/-- What log.read answers. -/
def State.logRead (s : State) (c : Cmd) : Done :=
  if (s.recordsRead c).isEmpty then .empty s else .data ((s.recordsRead c).flatMap LogEnt.bytes) (s.recordsRead c).length s

/-! ### Transitions (R388, R390, R408) -/

/-- What a reset must keep of a transition under way: what is pending, the fuses burned and the state it starts from. -/
def Lantern.transition (l : Lantern) : Option (Life × List Byte × Nat) × Nat × Life := (l.pending, l.lcCount, l.life)

theorem State.measure_transition (s : State) (i e : Nat) (d : List Byte) : (s.measure i e d).lan.transition = s.lan.transition := by
  unfold State.measure State.log State.modLan Lantern.transition
  rfl

@[simp] theorem State.accept_transition (s : State) (c : Cmd) : (s.accept c).lan.transition = s.lan.transition := by
  unfold State.accept State.measureArgs
  exact List.foldlRecOn (motive := fun t : State => t.lan.transition = s.lan.transition) _ _ rfl fun t ht i _ =>
    (t.measure_transition i _ _).trans ht

theorem State.message_lan (s : State) (v : Nat) : (s.message v).lan = s.lan := by
  unfold State.message
  split <;> rfl

theorem State.stopQueue_lan (s : State) (q : Nat) (c : Cmd) : (s.stopQueue q c).lan = s.lan := by
  unfold State.stopQueue
  extract_lets x
  split <;> rfl

theorem State.postEntry_lan (s : State) (q : Nat) (c : Cmd) : (s.postEntry q c).lan = s.lan := by
  unfold State.postEntry
  extract_lets x s1 wraps quiet y s2
  split
  · rfl
  · exact s2.message_lan x.vector

/-- Posting completions leaves Lantern alone. -/
theorem State.postAll_lan (q n : Nat) (s : State) : (State.postAll q n s).lan = s.lan := by
  induction n generalizing s with
  | zero => rfl
  | succ n ih =>
    unfold State.postAll
    split
    · rfl
    · rw [ih, State.postEntry_lan, State.stopQueue_lan]

theorem State.stopModule_transition (s : State) (st : ModState) (cause : StartCause) :
    (s.stopModule st cause).lan.transition = s.lan.transition := by
  obtain ⟨o, ho⟩ := s.outputsOff_eq
  unfold State.stopModule
  rw [ho]
  rfl

theorem State.clearAlert_transition (s : State) : s.clearAlert.lan.transition = s.lan.transition := by
  simp only [State.clearAlert]
  split <;> rfl

/-- The reset that a transition under way ends in. -/
def State.transitionReset (t : State) (q : Nat) : State :=
  (((State.postAll q (t.queue q).cmds.length t).stopModule .starting .mrst).clearAlert).freshRom

theorem State.transitionReset_keeps (t : State) (q : Nat) : (t.transitionReset q).lan.transition = t.lan.transition ∧
    (t.transitionReset q).module.state = .starting ∧ (t.transitionReset q).module.cause = .mrst := by
  refine ⟨?_, ?_⟩
  · show ((State.postAll q _ t).stopModule .starting .mrst).clearAlert.lan.transition = _
    rw [State.clearAlert_transition, State.stopModule_transition, State.postAll_lan]
  · simp [State.transitionReset, State.freshRom]

theorem State.afterPending_none (h : t.lan.pending = none) : s.afterPending t q = t := if_neg (by simp [h])

theorem State.afterPending_pending (hs : s.lan.pending = none) (ht : t.lan.pending.isSome = true) :
    s.afterPending t q = t.transitionReset q := if_pos (by simp [hs, ht])

/-- A command that leaves a transition pending resets the module, which keeps it pending. -/
theorem State.afterPending_pends {life : Life} {root : List Byte} {scope : Nat} (hs : s.lan.pending = none) :
    let u := s.afterPending (s.settle q c (.ok 0 (s.pend life root scope))) q
    u.lan.pending = some (life, root, scope) ∧ u.lan.lcCount = s.lan.lcCount + 1 ∧ u.lan.life = s.lan.life ∧
      u.module.state = .starting ∧ u.module.cause = .mrst := by
  have hpend : (s.settle q c (.ok 0 (s.pend life root scope))).lan.transition =
      (some (life, root, scope), s.lan.lcCount + 1, s.lan.life) := by
    simp only [State.settle, State.finishOk_lan, State.accept_transition]
    rfl
  obtain ⟨htransition, hmodule⟩ := (s.settle q c (.ok 0 (s.pend life root scope))).transitionReset_keeps q
  rw [hpend] at htransition
  simp only [Lantern.transition, Prod.mk.injEq] at hpend htransition
  obtain ⟨hpending, hcount, hlife⟩ := htransition
  intro u
  rw [show u = _ from State.afterPending_pending hs (by rw [hpend.1]; rfl)]
  exact ⟨hpending, hcount, hlife, hmodule⟩

/-- A refused one changes nothing that a reset follows from. -/
theorem State.afterPending_refused (hs : s.lan.pending = none) :
    s.afterPending (s.settle q c (.refuse code)) q = s.refuse q c.no code := by
  obtain ⟨h, d, he⟩ := s.refuse_eq q c.no code
  refine State.afterPending_none ?_
  show (s.refuse q c.no code).lan.pending = none
  rw [he]
  exact hs

/-- The transition of an authorisation record carries a root where a device gets its first owner. -/
def State.newRoot (s : State) (b : List Byte) : Bool := s.lan.life == .provisioned && lifeOf (u8 b 5) == .owned

/-- The checks of a sound record fail where there is no key for it, or where the key did not sign it. -/
theorem firstFail_of_key {α : Type} {bad : Bool} {a b r : Nat} {ok : α → Bool} (hb : bad = false) (key : Option α) :
    firstFail [(bad, a), (key.isNone, b), (!(key.any ok), r)] = match key with
      | none => some b
      | some k => if ok k then none else some r := by
  subst hb
  cases key with
  | none => rfl
  | some k => cases h : ok k <;> simp [firstFail, h]

section
variable (hb : authBad s.lan blk (s.newRoot blk) = false)
include hb

theorem State.lifecycle_sound : s.lifecycle inl blk = match s.lan.transitionKey (lifeOf (u8 blk 5)) blk with
    | none => .refuse rcLifecycle
    | some k => if authSigned k blk then
        .ok 0 (s.pend (lifeOf (u8 blk 5)) (if s.newRoot blk then slice blk 0x40 1793 else s.lan.root) 0)
      else .refuse rcSignature := by
  unfold State.lifecycle
  unfold State.newRoot at hb ⊢
  dsimp only
  rw [firstFail_of_key hb]
  cases s.lan.transitionKey (lifeOf (u8 blk 5)) blk with
  | none => rfl
  | some k =>
    dsimp only
    cases authSigned k blk <;> rfl

theorem State.lifecycle_noTransition (hk : s.lan.transitionKey (lifeOf (u8 blk 5)) blk = none) :
    s.lifecycle inl blk = .refuse rcLifecycle := by
  rw [State.lifecycle_sound hb, hk]

theorem State.lifecycle_keyed {k : List Byte} (hk : s.lan.transitionKey (lifeOf (u8 blk 5)) blk = some k) :
    s.lifecycle inl blk = if authSigned k blk then
      .ok 0 (s.pend (lifeOf (u8 blk 5)) (if s.newRoot blk then slice blk 0x40 1793 else s.lan.root) 0)
    else .refuse rcSignature := by
  rw [State.lifecycle_sound hb, hk]
end

section
variable (hb : authBad s.lan blk false = false)
include hb

theorem State.debugUnlock_notService (hl : s.lan.life ≠ .service) : s.debugUnlock inl blk = .refuse rcLifecycle := by
  have hlife : (s.lan.life != .service) = true := bne_iff_ne.mpr hl
  unfold State.debugUnlock
  rw [hb, hlife]
  rfl

theorem State.debugUnlock_service (hl : s.lan.life = .service) : s.debugUnlock inl blk = if authSigned (tithenKey 0xF4) blk then
    .ok 0 (s.pend .service s.lan.root (u16 blk 6 + 4)) else .refuse rcKeyUnknown := by
  have hlife : (s.lan.life != .service) = false := bne_eq_false_iff_eq.mpr hl
  unfold State.debugUnlock
  rw [hb, hlife]
  cases authSigned (tithenKey 0xF4) blk <;> rfl
end

/-- Command `i` is the turn of a transition's command: the module resets where `f` leaves one pending. -/
theorem State.AtTurn.exec_transition {op : Nat} {i : Instr} {mine : Cmd → Bool} {f : State → Cmd → Done} {d : Done} (h : s.AtTurn q c)
    (hi : exec i s = .next (s.afterPending (s.serve q op mine f) q)) (ho : c.entry.opcode = op) (hm : mine c = true) (hd : f s c = d) :
    exec i s = .next (s.afterPending (s.settle q c d) q) := by
  rw [hi, State.serve_at h.turn h.ready h.passes ho hm, hd]

/-- Settles O56: each command at its turn comes to its own meaning (`State.AtTurn.exec_eq`), which the lemmas above give check by
check; a transition's reset keeps it pending by `State.afterPending_pends`. -/
theorem securityCommands : Obligations.SecurityCommands := by
  intro s q c ht hr hc ok no data op b i seq signed note
  have hat : s.AtTurn q c := ⟨ht, hr, hc⟩
  refine ⟨fun ho => ?attest, fun ho => ?update, fun ho hb hl hg => ?unsigned, fun ho hb hl hg hq => ?enrol, fun ho => ?revoke,
    fun ho => ?rotate, fun ho => ?read, fun ho => ?stats, fun ho hs => ?transition⟩
  case attest =>
    intro p hp
    have attests : ∀ {d}, s.attest c = d → exec (.secAttest q) s = .next (s.settle q c d) := hat.exec_eq (f := State.attest) rfl ho rfl
    exact ⟨fun hl => attests ((State.attest_covered hp).trans (if_neg (Bool.eq_false_iff.mp hl))),
      fun hl => attests ((State.attest_covered hp).trans (if_pos hl))⟩
  case update =>
    intro n k d g sig hu hk hs hm
    have updates : ∀ {d}, s.secUpdate q c = d → exec (.secUpdate q) s = .next (s.settle q c d) :=
      hat.exec_eq (f := fun t c => t.secUpdate q c) rfl ho rfl
    exact ⟨fun code hg => updates (State.secUpdate_badSignature hu hk hs hm hg),
      fun hg ht => updates (State.secUpdate_otherTarget hu hk hs hm hg ht),
      fun hg ht hl => updates (State.secUpdate_starts hu hk hs hm hg ht hl)⟩
  case unsigned =>
    exact ⟨fun h4 => execSecKeyEnrolSigning_eq hat ho h4 (State.enrol_unsigned hb hl hg),
      fun h4 => execSecKeyEnrolRoot_eq hat ho h4 (State.enrol_unsigned hb hl hg),
      fun h4 => execSecKeyEnrolPolicy_eq hat ho h4 (State.enrol_unsigned hb hl hg)⟩
  case enrol =>
    have other : ∀ {n}, n ≠ 0 → u8 c.blk 4 = n → u8 c.blk 4 ≠ 0 := fun hn h => h ▸ hn
    exact ⟨fun h4 => execSecKeyEnrolSigning_eq hat ho h4 ((State.enrol_signed hb hl hg hq).trans (congrArg _ (if_pos h4))),
      fun h4 => execSecKeyEnrolRoot_eq hat ho h4
        ((State.enrol_signed hb hl hg hq).trans (congrArg _ (if_neg (other (by decide) h4)))),
      fun h4 => execSecKeyEnrolPolicy_eq hat ho h4
        ((State.enrol_signed hb hl hg hq).trans (congrArg _ (if_neg (other (by decide) h4))))⟩
  case revoke =>
    intro n bad hb hl hq
    have revokes : ∀ {d}, s.revokeKey c.inl c.blk = d → exec (.secKeyRevoke q) s = .next (s.settle q c d) :=
      hat.exec_args (f := State.revokeKey) rfl ho
    exact ⟨fun hg => revokes (State.revokeKey_unsigned hb hl hg),
      fun hg hu => revokes ((State.revokeKey_signed hb hl hg hq).trans (if_neg (Bool.eq_false_iff.mp hu))),
      fun hg hu => revokes ((State.revokeKey_signed hb hl hg hq).trans (if_pos hu))⟩
  case rotate =>
    intro k p hk hl
    have rotates : ∀ {d}, s.rotate c.inl c.blk = d → exec (.secRotate q) s = .next (s.settle q c d) :=
      hat.exec_args (f := State.rotate) rfl ho
    refine ⟨fun hw => rotates (State.rotate_walking rfl rfl hk hl hw), fun hw => rotates (State.rotate_starts rfl rfl hk hl hw), fun h4 => ?_⟩
    rw [h4]
    exact s.rekeyClass_nand p
  case read =>
    intro l
    have reads : ∀ {d}, s.logRead c = d → exec (.logRead q) s = .next (s.settle q c d) := hat.exec_eq (f := State.logRead) rfl ho rfl
    exact ⟨fun h => reads (if_pos (List.isEmpty_iff.mpr h)), fun h => reads (if_neg fun he => h (List.isEmpty_iff.mp he))⟩
  case stats => exact hat.exec_args (f := fun t _ _ => .data t.healthRecord 0 t) rfl ho rfl
  case transition =>
    intro life root pends
    have moves : u8 c.blk 4 = 0 → ∀ {d}, s.lifecycle c.inl c.blk = d →
        exec (.secLifecycle q) s = .next (s.afterPending (s.settle q c d) q) := fun h4 =>
      hat.exec_transition (f := fun t c => t.lifecycle c.inl c.blk) rfl ho (by simp [recordType, h4])
    have unlocks : u8 c.blk 4 = 1 → ∀ {d}, s.debugUnlock c.inl c.blk = d →
        exec (.secDebugUnlock q) s = .next (s.afterPending (s.settle q c d) q) := fun h4 =>
      hat.exec_transition (f := fun t c => t.debugUnlock c.inl c.blk) rfl ho (by simp [recordType, h4])
    have refused : ∀ {code}, (Host.Outcome.next (s.afterPending (s.settle q c (.refuse code)) q) : Res) = no code :=
      congrArg _ (State.afterPending_refused hs)
    refine ⟨fun k h4 hb hk => ⟨fun hg => ?_, fun hg => ?_⟩, fun h4 hb hk => ?_, fun h4 hb hl => ⟨fun hg => ?_, fun hg => ?_⟩,
      fun h4 hb hl => ?_⟩
    · exact ⟨_, _, moves h4 ((State.lifecycle_keyed hb hk).trans (if_pos hg)), State.afterPending_pends hs⟩
    · exact (moves h4 ((State.lifecycle_keyed hb hk).trans (if_neg (Bool.eq_false_iff.mp hg)))).trans refused
    · exact (moves h4 (State.lifecycle_noTransition hb hk)).trans refused
    · exact ⟨_, _, unlocks h4 ((State.debugUnlock_service hb hl).trans (if_pos hg)), State.afterPending_pends hs⟩
    · exact (unlocks h4 ((State.debugUnlock_service hb hl).trans (if_neg (Bool.eq_false_iff.mp hg)))).trans refused
    · exact (unlocks h4 (State.debugUnlock_notService hb hl)).trans refused

end Sys2Proof.Machine
end

section
/-! PROOF. Lantern's events: an update's end, microcode and walks, log writes, restarts, and the debug port (R380, R382, R386,
R397, R405 to R408, R427, R429). -/

namespace Sys2Proof.Machine

variable {s : State}

/-! ### The end of an update (R405 to R407) -/

/-- The target's copies have changed places. -/
def State.switched (s : State) (u : Update) : State :=
  s.modLan fun l => { l with
    update := none
    targets := Map.set {} l.targets u.target ((Map.get ({} : Target) l.targets u.target).switch u.svn u.digest) }

theorem exec_updateCommit_passed {u : Update} (h : s.lan.update = some u) :
    exec (.updateCommit true) s = .next (((if u.target < 2 then (s.switched u).measure (u.target + 1) 0x0C02 u.digest
      else s.switched u).log 0xFFFF 0x0C06 0xFF ([BitVec.ofNat 8 u.target] ++ leBytes 2 u.svn ++
        [BitVec.ofNat 8 ((Map.get ({} : Target) s.lan.targets u.target).switch u.svn u.digest).floor])).finishOk u.queue u.cmd) := by
  show execUpdateCommit true s = _
  unfold execUpdateCommit
  rw [h]
  rfl

/-- The update is over with the old copy standing. -/
def State.updateDropped (s : State) (u : Update) : State :=
  s.modLan fun l => { l with update := none, microcode := if u.target = 2 then [] else l.microcode }

theorem exec_updateCommit_failed {u : Update} (h : s.lan.update = some u) :
    exec (.updateCommit false) s = .next ((s.updateDropped u).refuse u.queue u.cmd rcSecurityMalformed) := by
  show execUpdateCommit false s = _
  unfold execUpdateCommit
  rw [h]
  rfl

theorem exec_microcodeSwitch_free {n : Nat} (hn : n ∈ s.lan.microcode) (hf : s.unitFree n = true) (hu : s.lan.update = none) :
    exec (.microcodeSwitch n) s = .next ((s.modLan fun l => { l with microcode := l.microcode.filter (· != n) }).measure 3 0x0C02
      (fit 0 64 (Map.get ({} : Target) s.lan.targets 2).digest)) := by
  show execMicrocodeSwitch n s = _
  have hc : (!s.lan.microcode.contains n || !s.unitFree n) = false := by simp [hn, hf]
  unfold execMicrocodeSwitch
  rw [hc, hu]
  rfl

/-! ### Walks and the log (R386, R427) -/

theorem exec_rotationWalkEnd_walking {k p : Nat} (h : ∃ w ∈ s.lan.walks, w.cls = k ∧ w.part = p) :
    exec (.rotationWalkEnd k p) s =
      .next ((s.modLan fun l => { l with walks := l.walks.filter fun w => !(w.cls == k && w.part == p) }).log 0xFFFF 0x0C05
        (if p < 16 then p else 0xFF) [BitVec.ofNat 8 k, 0xFF, BitVec.ofNat 8 p]) :=
  if_pos (by simpa using h)

/-- The ring drops no record while it is not full. -/
theorem drop_ring_append {α : Type} (l : List α) (x : α) (h : l.length < logRing) :
    (l ++ [x]).drop ((l ++ [x]).length - logRing) = l ++ [x] := by
  have h0 : (l ++ [x]).length - logRing = 0 := by
    rw [List.length_append]
    exact Nat.sub_eq_zero_of_le h
  rw [h0, List.drop_zero]

theorem exec_logRecordWrite_queued {r : LogRec} {rest : List LogRec} (hq : s.lan.log.queue = r :: rest)
    (hm : s.module.state = .running ∨ s.module.state = .starting) (hr : s.lan.log.ring.length < logRing) :
    exec .logRecordWrite s = .next (s.modLan fun l => { l with log := { s.lan.log with
      queue := rest, dropped := 0, next := s.lan.log.next + 1
      ring := s.lan.log.ring ++ [⟨s.lan.log.next, s.lan.log.dropped, r,
        digest16 ((s.lan.log.ring.getLast?.map (·.chain)).getD (zeros 16) ++ logHead s.lan.log.next s.lan.log.dropped r)⟩] } }) := by
  show execLogRecordWrite s = _
  have hs : (s.module.state != .running && s.module.state != .starting) = false := by
    rcases hm with h | h <;> simp [h]
  unfold execLogRecordWrite
  simp only [hq, hs, drop_ring_append _ _ hr, Bool.false_eq_true, if_false]

/-! ### Lantern's restarts (R380, R382, R397) -/

/-- A restart counted and logged, with the failed tests in a row that it leaves. -/
def State.restartCounted (s : State) (cause failed : Nat) : State :=
  (s.modLan fun l => { l with restarts := satAdd 0xFFFFFFFF l.restarts 1, failedTests := failed }).log 0xFFFF 0x0C01 0xFF
    [BitVec.ofNat 8 cause]

theorem State.restartLantern_eq (s : State) (cause : Nat) : s.restartLantern cause =
    let failed := if cause = 1 then s.lan.failedTests + 1 else 0
    if 3 ≤ failed then
      (if s.module.state = .running then (s.restartCounted cause failed).enterRomHold else (s.restartCounted cause failed).holdInRom)
    else (s.restartCounted cause failed).measure 1 0xFF01 (s.startDigest 0) := rfl

/-- A restart for any other cause than a failed test measures the firmware again, and none has failed in a row. -/
theorem State.restartLantern_untested {cause : Nat} (h : cause ≠ 1) :
    s.restartLantern cause = (s.restartCounted cause 0).measure 1 0xFF01 (s.startDigest 0) := by
  rw [State.restartLantern_eq]
  simp only [if_neg h]
  exact if_neg (by decide)

theorem State.restartLantern_test (h : s.lan.failedTests < 2) :
    s.restartLantern 1 = (s.restartCounted 1 (s.lan.failedTests + 1)).measure 1 0xFF01 (s.startDigest 0) :=
  (s.restartLantern_eq 1).trans (if_neg (show ¬ 3 ≤ s.lan.failedTests + 1 by omega))

/-- The third failed test in a row ends in ROM hold. -/
theorem State.restartLantern_third (h : 2 ≤ s.lan.failedTests) : s.restartLantern 1 =
    if s.module.state = .running then (s.restartCounted 1 (s.lan.failedTests + 1)).enterRomHold
    else (s.restartCounted 1 (s.lan.failedTests + 1)).holdInRom :=
  (s.restartLantern_eq 1).trans (if_pos (show 3 ≤ s.lan.failedTests + 1 by omega))

theorem State.enterRomHold_module (s : State) : s.enterRomHold.module = { s.module with alert := true } :=
  State.setAlert_romHold rfl

theorem State.enterRomHold_romHold (s : State) : s.enterRomHold.lan.romHold = true := by
  simp [State.enterRomHold]

/-- ROM hold out of a running module: the CP is in reset and the tiles are lost, and the base dies run on. -/
theorem State.enterRomHold_leaves (s : State) : s.enterRomHold.host.bar.cpReady = false ∧ s.enterRomHold.tiles = [] ∧
    s.enterRomHold.cup = s.cup ∧ s.enterRomHold.stp = s.stp ∧ s.enterRomHold.cmp = s.cmp ∧
    s.enterRomHold.fab.writes = s.fab.writes := by
  simp [State.enterRomHold]

theorem State.lanternUp_of (ho : s.module.state ≠ .off) (hh : s.module.state ≠ .held) (hr : s.lan.romHold = false) :
    s.lanternUp = true := by
  simp [State.lanternUp, ho, hh, hr]

theorem exec_lanternRestart_up (h : s.lanternUp = true) (cause : Nat) :
    exec (.lanternRestart cause) s = .next (s.restartLantern (cause % 2)) :=
  congrArg Host.Outcome.next (if_pos h)

theorem exec_lanternWatchdogExpiry_up (h : s.lanternUp = true) : exec .lanternWatchdogExpiry s = .next (s.restartLantern 3) :=
  congrArg Host.Outcome.next (if_pos h)

theorem exec_entropyTimeout_up (h : s.lanternUp = true) : exec .entropyTimeout s = .next (s.restartLantern 2) :=
  congrArg Host.Outcome.next (if_pos h)

/-- A third failed test in a row, of a running module and of any other. -/
theorem exec_lanternRestart_third (hup : s.lanternUp = true) (h : 2 ≤ s.lan.failedTests) :
    ∃ t : State, exec (.lanternRestart 1) s = .next t ∧ t.lan.romHold = true ∧ t.module.alert = true ∧
      (s.module.state = .running → t.module.state = .running ∧ t.host.bar.cpReady = false ∧ t.tiles = [] ∧ t.cup = s.cup ∧
        t.stp = s.stp ∧ t.cmp = s.cmp ∧ t.fab.writes = s.fab.writes) ∧
      (s.module.state ≠ .running → t.module.state = .held) := by
  refine ⟨_, exec_lanternRestart_up hup 1, ?_⟩
  rw [show 1 % 2 = 1 from rfl, State.restartLantern_third h]
  generalize hc : s.restartCounted 1 (s.lan.failedTests + 1) = c
  by_cases hm : s.module.state = .running
  · have hs : c.enterRomHold.module.state = .running := by
      rw [State.enterRomHold_module, ← hc]
      exact hm
    have ha : c.enterRomHold.module.alert = true := by rw [State.enterRomHold_module]
    have hl := c.enterRomHold_leaves
    rw [if_pos hm]
    subst hc
    exact ⟨State.enterRomHold_romHold _, ha, fun _ => ⟨hs, hl⟩, fun hn => absurd hm hn⟩
  · obtain ⟨hs, hr, ha, -⟩ := c.holdInRom_held
    rw [if_neg hm]
    exact ⟨hr, ha, fun hn => absurd hn hm, fun _ => hs⟩

/-! ### The debug port (R408) -/

/-- State `s` with the next `n` free values drawn. -/
def State.drawn (s : State) (n : Nat) : State := (s.take n).2

theorem exec_bypass_eq : exec .bypass s = .next (s.emit (.tdo [0])) := rfl

theorem exec_idcode_eq : exec .idcode s = .next ((s.drawn 31).emit (.tdo (1 :: openBits s.clk.free 31))) := rfl

theorem exec_samplePreload_open (h : s.jtagOpen 0 = true) :
    exec .samplePreload s = .next ((s.drawn boundaryBits).emit (.tdo (openBits s.clk.free boundaryBits))) := if_pos h

theorem exec_samplePreload_closed (h : s.jtagOpen 0 = false) : exec .samplePreload s = exec .bypass s :=
  if_neg (ne_true_of_eq_false h)

/-- EXTEST draws the boundary register's bits after those of the two SAFE lines. -/
theorem exec_extest_open (h : s.jtagOpen 0 = true) :
    exec .extest s = .next (((s.drawn (boundaryBits + 2)).emit (.safe (nth 0 (openBits s.clk.free (boundaryBits + 2)) 0 == 1)
      (nth 0 (openBits s.clk.free (boundaryBits + 2)) 1 == 1))).emit (.tdo ((openBits s.clk.free (boundaryBits + 2)).drop 2))) :=
  if_pos h

theorem exec_extest_closed (h : s.jtagOpen 0 = false) : exec .extest s = exec .bypass s := if_neg (ne_true_of_eq_false h)

theorem exec_internalScan_open (h : s.jtagOpen 1 = true) :
    exec .internalScan s = .next ((s.drawn 64).emit (.tdo (openBits s.clk.free 64))) := if_pos h

theorem exec_internalScan_closed (h : s.jtagOpen 1 = false) : exec .internalScan s = exec .bypass s :=
  if_neg (ne_true_of_eq_false h)

/-- Settles O57: each event where it acts, by its own lemma; a third failed test by the two ways into ROM hold. -/
theorem lanternEvents : Obligations.LanternEvents := by
  unfold Obligations.LanternEvents
  refine ⟨fun s u hu => ⟨exec_updateCommit_passed hu, s.updateDropped u, exec_updateCommit_failed hu, rfl, rfl, rfl⟩,
    fun s n hn hf hu => exec_microcodeSwitch_free hn hf hu, fun s k p h => exec_rotationWalkEnd_walking h,
    fun s r rest hq hm hr => exec_logRecordWrite_queued hq hm hr, fun s ho hh hr => ?_, fun s => ?_⟩
  · have hup : s.lanternUp = true := State.lanternUp_of ho hh hr
    have untested {cause : Nat} (h : cause ≠ 1) : (.next (s.restartLantern cause) : Res) = .next _ :=
      congrArg Host.Outcome.next (State.restartLantern_untested h)
    exact ⟨(exec_lanternWatchdogExpiry_up hup).trans (untested (by decide)),
      (exec_entropyTimeout_up hup).trans (untested (by decide)), (exec_lanternRestart_up hup 0).trans (untested (by decide)),
      fun h => (exec_lanternRestart_up hup 1).trans (congrArg Host.Outcome.next (State.restartLantern_test h)),
      fun h => exec_lanternRestart_third hup h⟩
  · exact ⟨exec_bypass_eq, exec_idcode_eq, fun h => ⟨exec_samplePreload_open h, exec_extest_open h⟩,
      fun h => ⟨exec_samplePreload_closed h, exec_extest_closed h⟩, exec_internalScan_open, exec_internalScan_closed⟩

end Sys2Proof.Machine
end

section
/-! PROOF. RAGGED: the length table's checks, the first item, and the body that is passed (R99, R211 to R213, R414). -/

namespace Sys2Proof.Machine

/-- The loop that a RAGGED of `t` arms, before its cursor has moved. -/
def State.raggedLoop (t : State) (i : Issue) (w : DWord) : Loop :=
  { active := true, start := (t.lane i.part i.lane).arch.pc + 1, len := bits (sImm w) 27 16 + 1, ragged := true, reg := sRd w,
    mode := bits (sImm w) 29 28, gran := bits (sImm w) 15 0, split := (t.lx i (sRs2 w)).toNat % 65536,
    parts := (t.lx i (sRs2 w)).toNat / 65536 % 65536, table := t.lx i (sRs1 w) }

/-- The part is past the parts, or the table does not lie in a region at 16 bytes (R212). -/
def State.RaggedMisplaced (t : State) (i : Issue) (w : DWord) : Prop :=
  (bits (sImm w) 29 28 = 2 ∧ (t.raggedLoop i w).parts ≤ (t.raggedLoop i w).split) ∨
    (t.part i.part).inRegion (t.lx i (sRs1 w)).toNat 16 = false ∨ (t.lx i (sRs1 w)).toNat % 16 ≠ 0

/-- The header counts past MAX_SEQ, or has a reserved byte set (R212). -/
def State.RaggedMalformed (t : State) (i : Issue) (w : DWord) (u : State) : Prop :=
  (t.part i.part).maxSeq < u.raggedCount i.part (t.raggedLoop i w) ∨
    allZero (u.readBytes i.part (t.lx i (sRs1 w)).toNat 16) 4 12 = false

/-- What the scan for the first item finds. -/
def State.raggedFound (t : State) (i : Issue) (w : DWord) (u : State) : Ragged :=
  State.raggedScan (u.raggedCount i.part (t.raggedLoop i w)) u i.part
    ((((u.onEngines i.part).image.map (·.needs.raggedMax))).getD 0) (t.raggedLoop i w)

/-- What RAGGED does from state `u` on with a table in its place. -/
def State.raggedPlaced (t : State) (i : Issue) (w : DWord) (u : State) : State :=
  if u.anyPoison i.part (t.lx i (sRs1 w)).toNat 16 then u.endResident i.part stPoisonConsumed
  else if (t.part i.part).maxSeq < u.raggedCount i.part (t.raggedLoop i w) ||
      !allZero (u.readBytes i.part (t.lx i (sRs1 w)).toNat 16) 4 12 then u.addrFault i.part i.lane
  else match t.raggedFound i w u with
    | .item lp' d0 d1 d2 => (u.setLoop i.part i.lane (bits (sImm w) 31 30) lp').modLane i.part i.lane fun x => x.putItem (sRd w) d0 d1 d2
    | .done => u.modLane i.part i.lane fun x =>
        { x with iss := { x.iss with target := some ((t.raggedLoop i w).start + (t.raggedLoop i w).len) } }
    | .fault => u.addrFault i.part i.lane
    | .poison => u.endResident i.part stPoisonConsumed
    | .overflow => u.endResident i.part stRaggedOverflow

section
variable {s t u : State} {i : Issue} {w : DWord}

theorem State.raggedMalformed_iff : (decide ((t.part i.part).maxSeq < u.raggedCount i.part (t.raggedLoop i w)) ||
    !allZero (u.readBytes i.part (t.lx i (sRs1 w)).toNat 16) 4 12) = true ↔ t.RaggedMalformed i w u := by
  simp [State.RaggedMalformed]

/-! ### The start, once the table's lines are in place -/

section
variable (hu : t.flushTable i.part (t.raggedLoop i w) = u) (hf : (u.lane i.part i.lane).iss.fetched = true)
include hu hf

/-- The start by its first two checks. -/
theorem State.raggedStart_eq : t.raggedStart i w =
    if (bits (sImm w) 29 28 = 2 && ((t.raggedLoop i w).parts = 0 || decide ((t.raggedLoop i w).parts ≤ (t.raggedLoop i w).split))) = true
      then u.addrFault i.part i.lane
    else if (!(t.part i.part).inRegion (t.lx i (sRs1 w)).toNat 16 || (t.lx i (sRs1 w)).toNat % 16 != 0) = true
      then u.addrFault i.part i.lane
    else t.raggedPlaced i w u := by
  subst hu
  dsimp only [State.raggedStart, State.ifLive, State.raggedPlaced, State.raggedFound, State.raggedLoop] at hf ⊢
  rw [if_pos hf]
  generalize State.raggedScan _ _ _ _ _ = found
  cases found <;> rfl

theorem State.raggedStart_misplaced (h : t.RaggedMisplaced i w) : t.raggedStart i w = u.addrFault i.part i.lane := by
  rw [State.raggedStart_eq hu hf]
  obtain ⟨hm, hp⟩ | hplace := h
  · exact if_pos (by simp [hm, hp])
  · have hsnd : (!(t.part i.part).inRegion (t.lx i (sRs1 w)).toNat 16 || (t.lx i (sRs1 w)).toNat % 16 != 0) = true := by
      simpa using hplace
    rw [if_pos hsnd, ite_self]

section
variable (hm : ¬ t.RaggedMisplaced i w)
include hm

theorem State.raggedStart_placed : t.raggedStart i w = t.raggedPlaced i w u := by
  obtain ⟨hpart, hplace⟩ := not_or.1 hm
  rw [State.raggedStart_eq hu hf, if_neg, if_neg (by simpa using hplace)]
  simp only [Bool.and_eq_true, Bool.or_eq_true, decide_eq_true_eq]
  exact fun ⟨h2, hp⟩ => hpart ⟨h2, hp.elim (fun h => h ▸ Nat.zero_le _) id⟩

theorem State.raggedStart_poisoned (hp : u.anyPoison i.part (t.lx i (sRs1 w)).toNat 16 = true) :
    t.raggedStart i w = u.endResident i.part stPoisonConsumed := by
  rw [State.raggedStart_placed hu hf hm, State.raggedPlaced, if_pos hp]

variable (hp : u.anyPoison i.part (t.lx i (sRs1 w)).toNat 16 = false)
include hp

theorem State.raggedStart_malformed (h : t.RaggedMalformed i w u) : t.raggedStart i w = u.addrFault i.part i.lane := by
  rw [State.raggedStart_placed hu hf hm, State.raggedPlaced, if_neg (ne_true_of_eq_false hp),
    if_pos (State.raggedMalformed_iff.2 h)]

theorem State.raggedStart_item (h : ¬ t.RaggedMalformed i w u) {lp' : Loop} {d0 d1 d2 : DWord}
    (hi : t.raggedFound i w u = .item lp' d0 d1 d2) : t.raggedStart i w =
      (u.setLoop i.part i.lane (bits (sImm w) 31 30) lp').modLane i.part i.lane fun x => x.putItem (sRd w) d0 d1 d2 := by
  rw [State.raggedStart_placed hu hf hm, State.raggedPlaced, if_neg (ne_true_of_eq_false hp),
    if_neg (mt State.raggedMalformed_iff.1 h), hi]

theorem State.raggedStart_done (h : ¬ t.RaggedMalformed i w u) (hd : t.raggedFound i w u = .done) : t.raggedStart i w =
    u.modLane i.part i.lane fun x =>
      { x with iss := { x.iss with target := some ((t.raggedLoop i w).start + (t.raggedLoop i w).len) } } := by
  rw [State.raggedStart_placed hu hf hm, State.raggedPlaced, if_neg (ne_true_of_eq_false hp),
    if_neg (mt State.raggedMalformed_iff.1 h), hd]
end
end

/-! ### The slot (R99) -/

/-- The registers of a RAGGED: the table's, the split's in MODE 2, and the three of the item. -/
def raggedRegs (w : DWord) : List Nat :=
  [sRs1 w, (if bits (sImm w) 29 28 = 2 then sRs2 w else sRs1 w), sRd w, sRd w + 1, sRd w + 2]

section
variable (hg : s.gate i 0 = .go t) (hw : sOp w = 24) (hx : t.xHeld i (raggedRegs w) = false)
include hg hw hx

/-- A RAGGED that is not held goes on while its lane is fetched. -/
theorem exec_ragged_acts : exec (.ragged i w) s = .next (if ((t.raggedStart i w).lane i.part i.lane).iss.fetched
    then (t.raggedStart i w).slotDone i 0 else t.raggedStart i w) :=
  slotRes_acts (by simp [hw]) hg hx rfl

/-- A RAGGED that leaves its lane fetched is done. -/
theorem exec_ragged_done {v : State} (hv : t.raggedStart i w = v) (hf : (v.lane i.part i.lane).iss.fetched = true) :
    exec (.ragged i w) s = .next (v.slotDone i 0) := by
  rw [exec_ragged_acts hg hw hx, hv, if_pos hf]
end

end

/-- Settles O11: on a slot that acts, RAGGED is `State.raggedStart`, told by its checks; with the gather buffers empty there is
nothing to issue first. -/
theorem raggedDispatch : Obligations.RaggedDispatch := by
  unfold Obligations.RaggedDispatch
  intro i w s t hg hw hx imm table split q lp after body
  have hbody : ∀ u, t.flushTable i.part lp = u → (u.lane i.part i.lane).iss.fetched = true → body u := by
    intro u hu hf
    have acts := exec_ragged_acts hg hw hx
    refine ⟨fun hm => ?_, fun hm hp => ?_, fun hm hp hb => ?_, fun hm hp hb => ⟨fun lp' d0 d1 d2 hi => ?_, fun hd => ?_⟩⟩
    · rw [acts, State.raggedStart_misplaced hu hf hm]
    · rw [acts, State.raggedStart_poisoned hu hf hm hp]
    · rw [acts, State.raggedStart_malformed hu hf hm hp hb]
    · exact exec_ragged_done hg hw hx (State.raggedStart_item hu hf hm hp hb hi)
        (State.fetched_modLane _ _ _ _ (State.fetched_modLane _ _ _ _ hf))
    · exact exec_ragged_done hg hw hx (State.raggedStart_done hu hf hm hp hb hd) (State.fetched_modLane _ _ _ _ hf)
  refine ⟨fun u hu hf => hbody u hu.symm hf, fun hc => hbody t ?_ (State.gate_fetched hg)⟩
  rw [State.flushTable, State.flushRun_closed hc, State.flushRun_closed hc]

end Sys2Proof.Machine
end

section
/-! PROOF. The data of a post in work, and the increment that follows it: DDR5 lines, Floam blocks, NAND codewords and lines of the
stem engine (R99, R153, R160, R162, R172 to R174, R196, R197, R363, R420, R474). -/

namespace Sys2Proof.Machine

variable {s : State} {id : Nat} {x : Post} {k : Nat} {m : Staged}

/-! ### DDR5 (R160, R162, R173, R196) -/

/-- A Floam post is none of the DMA engines'. -/
theorem Post.inWork_floam (hq : x.queue = .floam) (op : Nat) : x.inWork op = false := by simp [Post.inWork, hq]

section
variable (h : s.post id = some x)
include h

theorem exec_ddr5ReadReturn_dma (hw : x.inWork 0 = true) (ecc : Ecc) :
    let ln := s.ddrSide x (dSrc x.cur) x.moved
    let u := s.ddrEcc ln ecc
    let bad := u.ddrBad ln || u.entryLost x (dSrc x.cur) x.moved
    exec (.ddr5ReadReturn id ecc) s =
      .next ((u.landLines x.part (dDst x.cur + x.moved) (u.ddrRead ln) [bad]).dmaMoved x 64 bad) := by
  intro ln u bad
  change execDdr5ReadReturn id ecc s = _
  simp only [execDdr5ReadReturn, h]
  exact if_pos hw

theorem exec_ddr5ReadReturn_floam (hq : x.queue = .floam) (hc : x.cur ≠ []) (hb : s.boundModel x.part x.cur = some (k, m))
    (hn : m.nandDirect = false) (ecc : Ecc) : exec (.ddr5ReadReturn id ecc) s =
      .next ((s.ddrEcc (modelLine x.part k (fOffset x.cur + x.moved + 64 * x.got)) ecc).modPost id fun y =>
        { y with got := y.got + 1 }) := by
  change execDdr5ReadReturn id ecc s = _
  simp [execDdr5ReadReturn, h, x.inWork_floam hq, hq, hc, hb, hn]

theorem exec_ddr5WriteAck_dma (hw : x.inWork 1 = true) : exec (.ddr5WriteAck id) s = .next (s.dmaLineOut x) := by
  change execDdr5WriteAck id s = _
  simp [execDdr5WriteAck, h, hw]
end

theorem exec_ddr5WriteAck_write (h : s.post id = none) {w : Write} (hw : s.write id = some w) (hp : w.phase = .accepted)
    (hd : s.toDdr w = true) : exec (.ddr5WriteAck id) s = .next ((s.landDdrLine w).modWrite id fun y =>
      { y with acked := w.acked + 1,
               phase := if w.data.length ≤ 64 * (w.acked + 1) && w.missing == 0 then .landed else .accepted }) := by
  change execDdr5WriteAck id s = _
  simp [execDdr5WriteAck, h, hw, hp, hd]

/-! ### The increment of a drained post (R163, R172) -/

/-- A drained post has nothing left for the host. -/
theorem State.hostOut_drained (h : s.post id = some x) (hd : x.drained = true) (fuel : Nat) : State.hostOut fuel s id = s := by
  cases fuel with
  | zero => rfl
  | succ n => simp [State.hostOut, h, hd]

theorem exec_dmaPostComplete_drained (h : s.post id = some x) (hd : x.drained = true) (hw : x.write = none)
    (hq : x.queue = .l0 ∨ x.queue = .l1) : exec (.dmaPostComplete id) s = .next (s.postDone x) := by
  have hq : (x.queue == .l0 || x.queue == .l1) = true := by simpa using hq
  change execDmaPostComplete id s = _
  simp [execDmaPostComplete, State.hostOut_drained h hd, h, hd, hw, hq]

/-! ### Floam (R172, R174) -/

theorem exec_floamBlockExpand_granted (h : s.post id = some x) (hq : x.queue = .floam) (hc : x.cur ≠ [])
    (hb : s.boundModel x.part x.cur = some (k, m)) (ha : (s.arb 6 x.sel).holder = some x.part) :
    exec (.floamBlockExpand id) s = .next ((s.arbDone 6 x.sel).expandNext x k m) := by
  change execFloamBlockExpand id s = _
  simp [execFloamBlockExpand, h, hq, hc, hb, State.arbHolds, ha]

theorem exec_floamEntryComplete_drained (h : s.post id = some x) (hq : x.queue = .floam) (hd : x.drained = true) :
    exec (.floamEntryComplete id) s = .next (s.postDone x) := by
  change execFloamEntryComplete id s = _
  simp [execFloamEntryComplete, h, hq, hd]

/-! ### NAND (R363, R474) -/

theorem exec_nandRead_dma {step : Nat} (hi : id < 2 ^ 40) (h : (s.nandStep step).post id = some x) (hw : x.inWork 2 = true) :
    exec (.nandRead id step) s = .next ((s.nandStep step).nandIn x (decide (7 ≤ step))) := by
  change execNandRead id step s = _
  unfold execNandRead
  simp only [if_neg (Nat.not_le.2 hi), h]
  exact if_pos hw

/-! ### The stem engine (R153, R197, R420) -/

section
variable {c : StemCmd}

/-- With the gather buffers empty, a command's inputs are in place. -/
theorem State.flushInputs_closed (h : ∀ g, s.gathered g = []) (c : StemCmd) : s.flushInputs c = s := by
  unfold State.flushInputs
  dsimp only
  rw [List.foldl_fixed' fun k => ?_, ite_self, State.flushRun_closed h, State.flushRun_closed h]
  rw [State.flushRun_closed h, ite_self]

/-- A command for a camera that is not there to be read. -/
def State.StemAbsent (s : State) (c : StemCmd) : Prop := sMode c.record = 0 ∧ (s.sensor (u8 c.record 1)).stemOk c.record = false

section
variable (h : s.stem.find? (·.post == id) = some c)
include h

theorem exec_stemLineStart_empty (he : sEmpty c.record = true) : exec (.stemLineStart id) s = .next (s.endStem c stOkEmpty) := by
  change execStemLineStart id s = _
  simp only [execStemLineStart, h, if_pos he]

section
variable (he : sEmpty c.record = false)
include he

theorem exec_stemLineStart_absent (ha : s.StemAbsent c) : exec (.stemLineStart id) s = .next (s.endStem c stSensorAbsent) := by
  have ha : (sMode c.record = 0 && !(s.sensor (u8 c.record 1)).stemOk c.record) = true := by simpa [State.StemAbsent] using ha
  change execStemLineStart id s = _
  simp only [execStemLineStart, h, if_neg (ne_true_of_eq_false he), if_pos ha]

/-- A command that goes on takes its next line from the state in which its inputs' lines have issued. -/
theorem exec_stemLineStart_next (ha : ¬ s.StemAbsent c) (hc : (s.flushInputs c).stem.any (·.post == id) = true) :
    exec (.stemLineStart id) s = .next ((s.flushInputs c).stemNext c) := by
  have ha : ¬ (sMode c.record = 0 && !(s.sensor (u8 c.record 1)).stemOk c.record) = true := by simpa [State.StemAbsent] using ha
  change execStemLineStart id s = _
  simp only [execStemLineStart, h, if_neg (ne_true_of_eq_false he), if_neg ha, if_pos hc]
end
end

theorem State.stemNext_gone (h : s.stemInputs c = none) : s.stemNext c = s.endStem c stFrameOverrun := by
  simp only [State.stemNext, h]

theorem State.stemNext_awaited (h : s.stemInputs c = some none) : s.stemNext c = s := by simp only [State.stemNext, h]

theorem State.stemNext_granted {ls : List StemLine} (h : s.stemInputs c = some (some ls)) (ha : (s.arb 7 0).holder = some c.part) :
    s.stemNext c = (s.arbDone 7 0).stemWrite c ls := by
  simp [State.stemNext, h, State.arbHolds, ha]

theorem State.stemNext_waits {ls : List StemLine} (h : s.stemInputs c = some (some ls)) (ha : (s.arb 7 0).holder ≠ some c.part) :
    s.stemNext c = s := by
  simp [State.stemNext, h, State.arbHolds, ha]
end

/-- Settles O20: each event by the branch it takes of the post, write or command it finds; a line of the stem engine by what
`State.stemNext` makes of its inputs and its grant. -/
theorem postedDataMove : Obligations.PostedDataMove := by
  unfold Obligations.PostedDataMove
  refine fun s id => ⟨fun x ecc h hw => exec_ddr5ReadReturn_dma h hw ecc,
    fun x ecc k m h hq hc hb hn => exec_ddr5ReadReturn_floam h hq hc hb hn ecc,
    fun x h hw => exec_ddr5WriteAck_dma h hw, fun w h hw hp hd => exec_ddr5WriteAck_write h hw hp hd,
    fun x h hd hw hq => exec_dmaPostComplete_drained h hd hw hq, fun x m k h hq hc hb ha => exec_floamBlockExpand_granted h hq hc hb ha,
    fun x h hq hd => exec_floamEntryComplete_drained h hq hd, fun x step hi h hw => exec_nandRead_dma hi h hw, fun c h => ?stem⟩
  case stem =>
    intro absent u
    refine ⟨exec_stemLineStart_empty h, exec_stemLineStart_absent h, fun he ha hc => ?_, fun hg => State.flushInputs_closed hg c⟩
    rw [exec_stemLineStart_next h he ha hc]
    exact ⟨fun hi => congrArg Host.Outcome.next (State.stemNext_gone hi), fun hi => congrArg Host.Outcome.next (State.stemNext_awaited hi),
      fun ls hi => ⟨fun hh => congrArg Host.Outcome.next (State.stemNext_granted hi hh),
        fun hh => congrArg Host.Outcome.next (State.stemNext_waits hi hh)⟩⟩

end Sys2Proof.Machine
end

section
/-! PROOF. A tracked write on its way: the home checks, landing, the increment, the completion and what ends it early (R97, R119,
R120, R122 to R125, R128, R264). -/

namespace Sys2Proof.Machine

variable {s : State} {id : Nat} {w : Write}

/-! ### The home checks (R119) -/

/-- The window is closed, or the handle is of an earlier opening. -/
def State.HomeClosed (s : State) (w : Write) : Prop :=
  (s.win (hWindow w.handle)).isOpen = false ∨ hGen w.handle ≠ (s.win (hWindow w.handle)).gen

/-- The handle's flags are not the window's, or they do not allow what the write asks. -/
def State.HomeDenied (s : State) (w : Write) : Prop :=
  hFlags w.handle ≠ (s.win (hWindow w.handle)).hFlags ∨
    (s.win (hWindow w.handle)).flags.testBit (if w.op = .signal then 1 else 0) = false ∨
    (w.src.foreign (s.win (hWindow w.handle)).part = true ∧ (s.win (hWindow w.handle)).flags.testBit 2 = false)

/-- The write reaches past the window. -/
def State.HomeLong (s : State) (w : Write) : Prop := (s.win (hWindow w.handle)).len < w.off + (w.data.length + 64 * w.missing)

/-- The increment is past the window's counters. -/
def State.HomePast (s : State) (w : Write) : Prop := w.multi = false ∧ w.tamt ≠ 0 ∧ (s.win (hWindow w.handle)).tokCount ≤ w.tctr

section
variable (s : State) (w : Write)

theorem State.homeClosed_iff : (!(s.win (hWindow w.handle)).isOpen || hGen w.handle != (s.win (hWindow w.handle)).gen) = true ↔
    s.HomeClosed w := by
  simp [State.HomeClosed]

theorem State.homeDenied_iff : (hFlags w.handle != (s.win (hWindow w.handle)).hFlags ||
    !((s.win (hWindow w.handle)).flags.testBit (if w.op == .signal then 1 else 0)) ||
      (w.src.foreign (s.win (hWindow w.handle)).part && !(s.win (hWindow w.handle)).flags.testBit 2)) = true ↔ s.HomeDenied w := by
  simp [State.HomeDenied, or_assoc]

theorem State.homeLong_iff : decide ((s.win (hWindow w.handle)).len < w.off + (w.data.length + 64 * w.missing)) = true ↔
    s.HomeLong w := decide_eq_true_iff

theorem State.homePast_iff : (!w.multi && w.tamt != 0 && decide ((s.win (hWindow w.handle)).tokCount ≤ w.tctr)) = true ↔
    s.HomePast w := by
  simp [State.HomePast, and_assoc]
end

/-- The first check that fails gives the write's status. -/
theorem State.homeCheck_cases (s : State) (w : Write) :
    (s.HomeClosed w → s.homeCheck w = some stWindowClosed) ∧
    (¬ s.HomeClosed w → s.HomeDenied w → s.homeCheck w = some stWindowDenied) ∧
    (¬ s.HomeClosed w → ¬ s.HomeDenied w → s.HomeLong w → s.homeCheck w = some stWindowRange) ∧
    (¬ s.HomeClosed w → ¬ s.HomeDenied w → ¬ s.HomeLong w → s.HomePast w → s.homeCheck w = some stTokenRange) ∧
    (¬ s.HomeClosed w → ¬ s.HomeDenied w → ¬ s.HomeLong w → ¬ s.HomePast w → s.homeCheck w = none) := by
  rw [← s.homeClosed_iff w, ← s.homeDenied_iff w, ← s.homeLong_iff w, ← s.homePast_iff w]
  simp only [State.homeCheck, firstFail]
  refine ⟨fun hc => ?_, fun hc hd => ?_, fun hc hd hl => ?_, fun hc hd hl hp => ?_, fun hc hd hl hp => ?_⟩
  · rw [if_pos hc]
  · rw [if_neg hc, if_pos hd]
  · rw [if_neg hc, if_neg hd, if_pos hl]
  · rw [if_neg hc, if_neg hd, if_neg hl, if_pos hp]
  · rw [if_neg hc, if_neg hd, if_neg hl, if_neg hp]

section
variable (h : s.write id = some w)
include h

section
variable (hi : w.phase = .issued) (hw : w.windowed = true) (ho : s.isOwn (hDevice w.handle) = true)
include hi hw ho

theorem exec_windowWriteArrival_ends {st : Nat} (hc : s.homeCheck w = some st) :
    exec (.windowWriteArrival id) s = .next ((s.failWrite id st).lateArrival w.handle st) := by
  change execWindowWriteArrival id s = _
  simp [execWindowWriteArrival, h, hi, hw, ho, hc]

theorem exec_windowWriteArrival_accepts (hc : s.homeCheck w = none) :
    exec (.windowWriteArrival id) s = .next ((s.noteAccept w).modWrite id fun y => { y with phase := .accepted }) := by
  change execWindowWriteArrival id s = _
  simp [execWindowWriteArrival, h, hi, hw, ho, hc]
end

/-! ### Landing (R97, R122) -/

/-- A write that is its unit's own and that nothing it reads holds, or one that was accepted whole and is not for DDR5. -/
def State.CanLand (s : State) (w : Write) : Prop :=
  w.windowed = false ∧ w.phase = .issued ∧
      (w.op = .halo → meet (run w.off (w.data.length / 64)) (s.tileAt w.part w.dst).unitsRead = false) ∨
    w.windowed = true ∧ w.phase = .accepted ∧ w.missing = 0 ∧ (s.toDdr w = false ∨ w.data = [])

theorem exec_scratchpadWriteComplete_lands (hc : s.CanLand w) (ht : s.writeTurn w = true) : exec (.scratchpadWriteComplete id) s =
    .next ((if w.data.isEmpty then s else s.landWrite w).modWrite id fun y => { y with phase := .landed }) := by
  change execScratchpadWriteComplete id s = _
  obtain ⟨hw, hp, hr⟩ | ⟨hw, hp, hm, hd⟩ := hc
  · have hheld : s.haloHeld w = false := by simpa [State.haloHeld] using hr
    simp [execScratchpadWriteComplete, h, hw, hp, ht, hheld]
  · have hd : (!s.toDdr w || w.data.isEmpty) = true := by simpa using hd
    simp [execScratchpadWriteComplete, h, hw, hp, hm, ht, hd]

theorem exec_scratchpadWriteComplete_waits (ht : s.writeTurn w = false) : exec (.scratchpadWriteComplete id) s = .next s := by
  change execScratchpadWriteComplete id s = _
  simp [execScratchpadWriteComplete, h, ht]

/-! ### The increment (R97, R124, R264) -/

section
variable (hp : w.phase = .landed)
include hp

theorem exec_incrementApply_none (ht : w.tamt = 0) : exec (.incrementApply id) s =
    .next (if w.windowed then (s.modWrite id fun y => { y with phase := .applied }).freeClosed (hWindow w.handle)
      else s.modWrite id fun y => { y with phase := .applied }) := by
  change execIncrementApply id s = _
  simp [execIncrementApply, h, hp, ht]

theorem exec_incrementApply_some (ht : w.tamt ≠ 0) : exec (.incrementApply id) s =
    .next (if w.windowed then (s.applyIncrement w).freeClosed (hWindow w.handle) else s.applyIncrement w) := by
  change execIncrementApply id s = _
  simp [execIncrementApply, h, hp, ht]
end

/-! ### The end (R123, R125, R128) -/

theorem exec_writeCompletion_ended (hp : w.phase = .applied ∨ w.phase = .faulted) :
    exec (.writeCompletion id) s = .next ((s.dropWrite id).answer w).sendWaiting.kickDma := by
  change execWriteCompletion id s = _
  obtain hp | hp := hp
  · simp [execWriteCompletion, h, hp]
  · simp [execWriteCompletion, h, hp]

theorem exec_writeTrackerTimeout_sent (hp : w.phase = .sent) :
    exec (.writeTrackerTimeout id) s = .next (s.failWrite id stLinkDown) := by
  change execWriteTrackerTimeout id s = _
  simp [execWriteTrackerTimeout, h, hp]

/-- State `u` with write `id` ended because frames of it are missing. -/
def State.abandoned (u : State) (id window : Nat) : State :=
  (((u.failWrite id stLinkDown).modWrite id fun y => { y with missing := 0 }).countLate window stWindowClosed).freeClosed window

section
variable (hm : w.missing ≠ 0)
include hm

theorem exec_remoteWriteAbandon_issued (hp : w.phase = .issued) :
    exec (.remoteWriteAbandon id) s = .next (s.abandoned id (hWindow w.handle)) := by
  change execRemoteWriteAbandon id s = _
  simp [execRemoteWriteAbandon, h, hm, hp, State.abandoned]

theorem exec_remoteWriteAbandon_accepted (hp : w.phase = .accepted) : exec (.remoteWriteAbandon id) s =
    .next ((if s.toDdr w then (List.range (w.data.length / 64)).foldl (fun (u : State) (k : Nat) =>
        if k < w.acked then u else u.landDdrLine { w with acked := k }) s
      else s.landWrite w).abandoned id (hWindow w.handle)) := by
  change execRemoteWriteAbandon id s = _
  simp [execRemoteWriteAbandon, h, hm, hp, State.abandoned]
end
end

/-! ### Whose counter an increment goes to (R97, R124) -/

theorem Write.windowed_iff (w : Write) : w.windowed = true ↔ w.op ≠ .halo ∧ w.op ≠ .wb := by simp [Write.windowed]

theorem State.applyIncrement_halo (ho : w.op = .halo) : s.applyIncrement w =
    (s.modWrite w.id fun y => { y with phase := .applied }).increment w.part w.dst w.tctr w.tamt := by
  simp [State.applyIncrement, ho]

theorem State.applyIncrement_wb (ho : w.op = .wb) {p l : Nat} (hs : w.src = .lane p l) : s.applyIncrement w =
    (s.modWrite w.id fun y => { y with phase := .applied }).increment w.part l w.tctr w.tamt := by
  simp [State.applyIncrement, ho, hs]

theorem State.applyIncrement_past (hw : w.windowed = true) (hp : (s.win (hWindow w.handle)).tokCount ≤ w.tctr) :
    s.applyIncrement w = s.failWrite w.id stTokenRange := by
  obtain ⟨hh, hb⟩ := w.windowed_iff.1 hw
  simp [State.applyIncrement, hh, hb, hp]

theorem State.applyIncrement_partition (hw : w.windowed = true) (hp : w.tctr < (s.win (hWindow w.handle)).tokCount)
    (hk : (s.win (hWindow w.handle)).kind = .partition) : s.applyIncrement w =
      (s.modWrite w.id fun y => { y with phase := .applied }).increment (s.win (hWindow w.handle)).part (s.win (hWindow w.handle)).target
        ((s.win (hWindow w.handle)).tokFirst + w.tctr) w.tamt := by
  obtain ⟨hh, hb⟩ := w.windowed_iff.1 hw
  simp [State.applyIncrement, hh, hb, Nat.not_le.2 hp, hk]

theorem exec_releaseSignal_found {g n : Nat} (hn : n ≠ 0) (hf : s.fab.writes.find? (fun y =>
    y.phase == .landed && y.windowed && (s.win (hWindow y.handle)).kind == .release g && y.tamt == n) = some w) :
    exec (.releaseSignal g n) s = .next ((s.applyIncrement w).freeClosed (hWindow w.handle)) := by
  change execReleaseSignal g n s = _
  simp only [execReleaseSignal, hf, if_neg hn]

/-- Settles O21: each event by the branch it takes of the write it finds; the home checks in order are `State.homeCheck_cases`, and
whose counter is incremented says `State.applyIncrement`'s case for the kind of write. -/
theorem trackedWrites : Obligations.TrackedWrites := by
  unfold Obligations.TrackedWrites
  intro s id w h x faulted closed denied long past
  refine ⟨fun hi hw ho => ?arrives, fun hc => ?lands, fun hp hid => ?increments, exec_writeCompletion_ended h,
    exec_writeTrackerTimeout_sent h, fun hm => ?abandons, fun g n hn hf => exec_releaseSignal_found hn hf⟩
  case arrives =>
    intro ends
    obtain ⟨hclosed, hdenied, hlong, hpast, hnone⟩ := s.homeCheck_cases w
    have fails : ∀ st, s.homeCheck w = some st → ends st := fun st hc => exec_windowWriteArrival_ends h hi hw ho hc
    exact ⟨fun hc => fails _ (hclosed hc), fun hc hd => fails _ (hdenied hc hd), fun hc hd hl => fails _ (hlong hc hd hl),
      fun hc hd hl hp => fails _ (hpast hc hd hl hp),
      fun hc hd hl hp => exec_windowWriteArrival_accepts h hi hw ho (hnone hc hd hl hp)⟩
  case lands =>
    intro landed
    refine ⟨fun ht hd => ?_, fun ht hd => ?_, exec_scratchpadWriteComplete_waits h⟩
    · rw [exec_scratchpadWriteComplete_lands h hc ht, if_neg (by simpa using hd)]
    · rw [exec_scratchpadWriteComplete_lands h hc ht, if_pos (by simpa using hd)]
  case increments =>
    intro done
    subst hid
    have own : w.op = .halo ∨ w.op = .wb → w.windowed = false := fun ho =>
      eq_false_of_ne_true fun hw => ho.elim (w.windowed_iff.1 hw).1 (w.windowed_iff.1 hw).2
    refine ⟨fun ht hw => ?_, fun ht hw => ?_, fun ht ho => ?_, fun p l ht ho hs => ?_, fun ht hw hr hk => ?_, fun ht hw hr => ?_⟩
    · rw [exec_incrementApply_none h hp ht, if_pos hw]
    · rw [exec_incrementApply_none h hp ht, if_neg (ne_true_of_eq_false hw)]
    · rw [exec_incrementApply_some h hp ht, if_neg (ne_true_of_eq_false (own (.inl ho))), State.applyIncrement_halo ho]
    · rw [exec_incrementApply_some h hp ht, if_neg (ne_true_of_eq_false (own (.inr ho))), State.applyIncrement_wb ho hs]
    · rw [exec_incrementApply_some h hp ht, if_pos hw, State.applyIncrement_partition hw hr hk]
    · rw [exec_incrementApply_some h hp ht, if_pos hw, State.applyIncrement_past hw hr]
      rfl
  case abandons =>
    intro ended
    refine ⟨exec_remoteWriteAbandon_issued h hm, fun hp hd => ?_, fun hp hd => ?_⟩
    · rw [exec_remoteWriteAbandon_accepted h hm hp, if_neg (ne_true_of_eq_false hd)]
      rfl
    · rw [exec_remoteWriteAbandon_accepted h hm hp, if_pos hd]
      rfl

end Sys2Proof.Machine
end

section
/-! PROOF. An arbiter's grant, the starvation guard and the sideband mask (R100, R101, R157, R234 to R238, R443). -/

namespace Sys2Proof.Machine

/-! ### Lists of requesters -/

theorem mem_insertSorted (x k : Nat) (l : List Nat) : k ∈ insertSorted x l ↔ k = x ∨ k ∈ l := by
  induction l with
  | nil => simp [insertSorted]
  | cons y ys ih =>
    unfold insertSorted
    split
    · exact List.mem_cons
    · rw [List.mem_cons, ih, List.mem_cons, or_left_comm]

theorem mem_sortNat (k : Nat) (l : List Nat) : k ∈ sortNat l ↔ k ∈ l := by
  induction l with
  | nil => exact Iff.rfl
  | cons x xs ih => rw [sortNat, mem_insertSorted, ih, List.mem_cons]

/-- The choice in turn is one of those among which it is made. -/
theorem mem_of_roundRobin {l : List Nat} {last : Option Nat} {w : Nat} (h : roundRobin l last = some w) : w ∈ l := by
  have first : (sortNat l).head? = some w → w ∈ l := fun h => (mem_sortNat w l).1 (List.mem_of_mem_head? h)
  cases last with
  | none => exact first h
  | some k =>
    simp only [roundRobin] at h
    split at h
    · next r _ heq =>
      obtain rfl := Option.some.inj h
      have hr : r ∈ sortNat (l.filter (k < ·)) := by simp [heq]
      exact List.mem_of_mem_filter ((mem_sortNat r _).1 hr)
    · exact first h

theorem roundRobin_nil (last : Option Nat) : roundRobin [] last = none := by
  cases last with
  | none => rfl
  | some k => rfl

/-- No value of a list is above the greatest one. -/
theorem le_foldl_max_of_mem (f : Nat → Nat) {l : List Nat} {r : Nat} (h : r ∈ l) : f r ≤ l.foldl (fun m k => max m (f k)) 0 := by
  obtain ⟨-, hle, -⟩ := foldl_max_spec (l.map fun k => (f k, k)) 0
  have := hle _ (List.mem_map_of_mem h)
  rwa [List.foldl_map] at this

/-! ### The choice in class mode (R100, R234) -/

/-- A bank's gap-fill port that has not been promoted. -/
def Arbiter.gap (a : Arbiter) (ty r : Nat) : Prop := ty = 0 ∧ r = 4 ∧ Map.get 0 a.promo 4 = 0

theorem mem_of_mem_arbGapFill {ty : Nat} {a : Arbiter} {l : List Nat} {r : Nat} (h : r ∈ arbGapFill ty a l) : r ∈ l := by
  unfold arbGapFill at h
  split at h
  · exact List.mem_of_mem_filter h
  · exact h

/-- Where a requester other than such a gap-fill port is pending, the gap-fill port is left out and that requester kept. -/
theorem arbGapFill_of_not_gap {ty : Nat} {a : Arbiter} {l : List Nat} {r : Nat} (hr : r ∈ l) (hg : ¬ a.gap ty r) :
    r ∈ arbGapFill ty a l ∧ ∀ w ∈ arbGapFill ty a l, ¬ a.gap ty w := by
  unfold arbGapFill
  split
  · next hc =>
    simp only [Bool.and_eq_true, decide_eq_true_eq, beq_iff_eq] at hc
    obtain ⟨⟨ht, -⟩, hp⟩ := hc
    exact ⟨List.mem_filter.2 ⟨hr, by simpa using fun e => hg ⟨ht, e, hp⟩⟩, fun w hw hgw => by simp [hgw.2.1] at hw⟩
  · next hc =>
    refine ⟨hr, fun w _ ⟨ht, _, hp⟩ => hc ?_⟩
    have hne : r ≠ 4 := fun e => hg ⟨ht, e, hp⟩
    simpa [ht, hp] using ⟨r, hr, hne⟩

variable {s : State} {ty inst req : Nat} {l : List Nat}

theorem State.arbChoose_rotating (h : (s.arb ty inst).rotating ty = true) :
    s.arbChoose ty inst l = ((s.arb ty inst).ranking ty).find? l.contains := by
  simp [State.arbChoose, h]

/-- In class mode the choice is of those that no other exceeds, the gap-fill port left out where another is pending. -/
theorem State.arbChoose_class (h : (s.arb ty inst).rotating ty = false) {w : Nat} (hw : s.arbChoose ty inst l = some w) :
    w ∈ arbGapFill ty (s.arb ty inst) l ∧ ∀ r ∈ arbGapFill ty (s.arb ty inst) l, s.effClass ty inst r ≤ s.effClass ty inst w := by
  simp only [State.arbChoose, h, Bool.false_eq_true, if_false] at hw
  obtain ⟨hm, he⟩ := List.mem_filter.1 (mem_of_roundRobin hw)
  rw [beq_iff_eq] at he
  exact ⟨hm, fun r hr => he ▸ le_foldl_max_of_mem (s.effClass ty inst) hr⟩

theorem State.mem_of_arbChoose {w : Nat} (hw : s.arbChoose ty inst l = some w) : w ∈ l := by
  by_cases h : (s.arb ty inst).rotating ty = true
  · rw [State.arbChoose_rotating h] at hw
    simpa using List.find?_some hw
  · exact mem_of_mem_arbGapFill (State.arbChoose_class (eq_false_of_ne_true h) hw).1

theorem State.arbChoose_nil : s.arbChoose ty inst [] = none := by
  unfold State.arbChoose
  dsimp only
  split
  · simp
  · rw [show arbGapFill ty (s.arb ty inst) [] = [] by simp [arbGapFill], List.filter_nil, roundRobin_nil]

/-! ### The grant (R101, R157, R236, R237) -/

/-- The requesters among which a grant is decided. -/
def State.grantable (s : State) (ty inst : Nat) (pending : List Nat) : List Nat :=
  (dedup pending).filter fun r => decide (r < arbRequesters ty) && !(s.arb ty inst).masked.contains r && !s.portOff ty inst r

/-- The emergency requester takes the port. -/
def State.urgent (s : State) (ty inst : Nat) (em : Bool) (w : Nat) : Prop :=
  em = true ∧ arbEmergency ty = some w ∧ (s.arb ty inst).masked.contains w = false ∧
    (ty = 1 → 5 ≤ (Map.get {} s.ddr.subs inst).owed)

variable {em : Bool} {pending : List Nat}

theorem State.urgent_iff {w : Nat} : s.urgent ty inst em w ↔ em = true ∧ arbEmergency ty = some w ∧ s.arbIsUrgent ty inst w = true := by
  simp [State.urgent, State.arbIsUrgent, Decidable.imp_iff_not_or]

theorem exec_arbiterGrant_urgent (ht : ty < 8) (hi : inst < arbInstances ty) {w : Nat} (h : s.urgent ty inst em w) :
    exec (.arbiterGrant ty inst pending em) s = .next (s.arbUrgent ty inst w (s.grantable ty inst pending)) := by
  obtain ⟨he, hw, hu⟩ := State.urgent_iff.1 h
  change execArbiterGrant ty inst pending em s = _
  simp [execArbiterGrant, Nat.not_le.2 ht, Nat.not_le.2 hi, he, hw, hu, State.grantable]

/-- With no emergency, an interrupted holder comes first, then the choice. -/
theorem exec_arbiterGrant_calm (ht : ty < 8) (hi : inst < arbInstances ty) (h : ∀ w, ¬ s.urgent ty inst em w) :
    exec (.arbiterGrant ty inst pending em) s = match (s.arb ty inst).interrupted with
      | some k => .next (s.setArb ty inst { s.arb ty inst with interrupted := none, holder := some k })
      | none => match s.arbChoose ty inst (s.grantable ty inst pending) with
        | some w => .next (s.arbGive ty inst (s.grantable ty inst pending) w none)
        | none => .next (s.setArb ty inst { s.arb ty inst with holder := none }) := by
  have hcalm : (em && (arbEmergency ty).any (s.arbIsUrgent ty inst)) = false := by
    by_contra hc
    simp only [Bool.not_eq_false, Bool.and_eq_true, Option.any_eq_true] at hc
    obtain ⟨he, w, hw, hu⟩ := hc
    exact h w (State.urgent_iff.2 ⟨he, hw, hu⟩)
  have hex : (decide (8 ≤ ty) || decide (arbInstances ty ≤ inst)) = false := by simp [ht, hi]
  change execArbiterGrant ty inst pending em s = _
  unfold execArbiterGrant
  dsimp only
  rw [hex, hcalm, if_neg Bool.false_ne_true, if_neg Bool.false_ne_true]
  rfl

theorem exec_arbiterGrant_resumed (ht : ty < 8) (hi : inst < arbInstances ty) (h : ∀ w, ¬ s.urgent ty inst em w) {k : Nat}
    (hk : (s.arb ty inst).interrupted = some k) : exec (.arbiterGrant ty inst pending em) s =
      .next (s.setArb ty inst { s.arb ty inst with interrupted := none, holder := some k }) := by
  rw [exec_arbiterGrant_calm ht hi h, hk]

theorem exec_arbiterGrant_chosen (ht : ty < 8) (hi : inst < arbInstances ty) (h : ∀ w, ¬ s.urgent ty inst em w)
    (hn : (s.arb ty inst).interrupted = none) {w : Nat} (hw : s.arbChoose ty inst (s.grantable ty inst pending) = some w) :
    exec (.arbiterGrant ty inst pending em) s = .next (s.arbGive ty inst (s.grantable ty inst pending) w none) := by
  rw [exec_arbiterGrant_calm ht hi h, hn, hw]

theorem exec_arbiterGrant_nobody (ht : ty < 8) (hi : inst < arbInstances ty) (h : ∀ w, ¬ s.urgent ty inst em w)
    (hn : (s.arb ty inst).interrupted = none) (hl : s.grantable ty inst pending = []) :
    exec (.arbiterGrant ty inst pending em) s = .next (s.setArb ty inst { s.arb ty inst with holder := none }) := by
  rw [exec_arbiterGrant_calm ht hi h, hn, hl, State.arbChoose_nil]

/-! ### The mask (R238) -/

theorem exec_sidebandMask (ht : ty < 8) (hi : inst < arbInstances ty) (hr : req < arbRequesters ty ∨ arbEmergency ty = some req)
    (on : Bool) : exec (.sidebandMask ty inst req on) s = .next (s.setArb ty inst ((s.arb ty inst).mask ty req on)) :=
  if_pos (by simpa [ht, hi] using hr)

/-- A masked requester neither waits nor holds, and has lost its promotions. -/
theorem Arbiter.mask_on (a : Arbiter) (ty r : Nat) : let b := a.mask ty r true
    b.masked.contains r = true ∧ b.waits = Map.erase a.waits r ∧ b.promo = Map.erase a.promo r ∧ b.holder ≠ some r ∧
      b.interrupted ≠ some r := by
  refine ⟨?_, rfl, rfl, ?_, ?_⟩
  · rw [List.contains_iff_mem]
    simp only [Arbiter.mask, if_true]
    split
    · next h => exact List.contains_iff_mem.1 h
    · exact (mem_insertSorted r r a.masked).2 (.inl rfl)
  · simp only [Arbiter.mask, if_true, beq_iff_eq]
    split <;> simp_all
  · simp only [Arbiter.mask, if_true, beq_iff_eq]
    split <;> simp_all

theorem Arbiter.mask_off (a : Arbiter) (ty r : Nat) : (a.mask ty r false).masked.contains r = false := by
  simp [Arbiter.mask]

/-- Settles O25: a grant goes to the emergency requester, to an interrupted holder or to the choice (`exec_arbiterGrant_calm`), which
is the highest class or rank among the pending. -/
theorem arbiterDecisions : Obligations.ArbiterDecisions := by
  unfold Obligations.ArbiterDecisions
  refine ⟨fun s ty inst pending em ht hi => ⟨fun hu hn => ⟨fun w hw => ⟨exec_arbiterGrant_chosen ht hi hu hn hw, ?pending, ?ranked,
      ?classed⟩, fun he => exec_arbiterGrant_nobody ht hi hu hn he⟩,
    fun w hu => exec_arbiterGrant_urgent ht hi hu, fun k hu hk => exec_arbiterGrant_resumed ht hi hu hk⟩,
    fun s ty inst req ht hi => ⟨fun hr hw hc => ?promoted, fun hr => ⟨fun on => exec_sidebandMask ht hi hr on, ?masked⟩⟩⟩
  case pending => exact State.mem_of_arbChoose hw
  case ranked => exact fun hr => (State.arbChoose_rotating hr).symm.trans hw
  case classed =>
    intro hr r hmem hg
    obtain ⟨hwm, hle⟩ := State.arbChoose_class hr hw
    obtain ⟨hkept, hnone⟩ := arbGapFill_of_not_gap hmem hg
    exact ⟨hle r hkept, hnone w hwm⟩
  case promoted => exact if_pos (by simp [ht, hi, hr, hw, hc])
  case masked =>
    obtain ⟨hm, hw, hp, hh, hint⟩ := (s.arb ty inst).mask_on ty req
    exact ⟨hm, hw, hp, hh, hint, (s.arb ty inst).mask_off ty req⟩

end Sys2Proof.Machine
end

section
/-! PROOF. Scratchpad banks: scrub, retirement and fence, hot windows, retention (R105 to R107, R109, R110, R443). -/

namespace Sys2Proof.Machine

variable {s : State} {b line g : Nat}

/-! ### Reading a bank back -/

/-- A bank in any but the reset condition is read back as it was set. -/
theorem State.bank_setBank_self {v : Bank} (hv : v ≠ {}) : (s.setBank b v).bank b = v := Map.get_set_of_ne s.sp.banks b hv

/-- A bank that has ended a hot window is not in its reset condition. -/
theorem Bank.ne_of_windows {v : Bank} (h : v.windows ≠ 0) : v ≠ {} := fun e => h (by rw [e])

/-- Neither is one that awaits its retirement. -/
theorem Bank.ne_of_ueTrigger {v : Bank} (h : v.ueTrigger = true) : v ≠ {} := fun e => by simp [e] at h

/-! ### Scrub (R105) -/

theorem exec_patrolScrub_inService (hb : b < 544) (hl : line < 8192) (hg : g < 8) (hs : (s.bank b).state = .inService) (ecc : Ecc) :
    exec (.patrolScrub b line g ecc) s = .next (s.bankEcc b line g ecc) := if_pos (by simp [hb, hl, hg, hs])

/-- An uncorrectable error poisons the line, counts at the bank and sets its trigger; every byte stays. -/
theorem State.bankEcc_uncorrectable (s : State) (b line g : Nat) :
    let t := s.bankEcc b line g .uncorrectable
    Map.get false t.sp.poison (8192 * b + line) = true ∧ t.sp.mem = s.sp.mem ∧ (t.bank b).ueTrigger = true ∧
      (t.bank b).uncorrectable = satAdd 0xFFFF (s.bank b).uncorrectable 1 ∧
      t.lan.log = (s.log b 0x0302 0xFF (leBytes 2 line ++ leBytes 4 1 ++ leBytes 2 0)).lan.log := by
  intro t
  have hne : true ≠ false := by decide
  have hbank : t.bank b = { s.bank b with uncorrectable := satAdd 0xFFFF (s.bank b).uncorrectable 1, ueTrigger := true } :=
    State.bank_setBank_self (Bank.ne_of_ueTrigger rfl)
  exact ⟨Map.get_set_of_ne _ _ hne, rfl, by rw [hbank], by rw [hbank], rfl⟩

/-! ### Retirement and fence (R105 to R107) -/

theorem exec_bankRetirement_spare (hb : b < 544) (hs : (s.bank b).state = .inService)
    (ht : (s.bank b).ceTrigger = true ∨ (s.bank b).ueTrigger = true) {y : Nat} (hy : s.spareFor b = some y) :
    exec (.bankRetirement b) s = .next (s.retireBank b y) := by
  change execBankRetirement b s = _
  simp [execBankRetirement, hb, hs, ht, hy]

theorem exec_bankRetirement_fenced (hb : b < 544) (hs : (s.bank b).state = .inService) (hu : (s.bank b).ueTrigger = true)
    (hn : s.spareFor b = none) : exec (.bankRetirement b) s =
      .next ((s.modBank b fun x => { x with state := .fenced, ueTrigger := false, ceTrigger := false }).log b 0x0304 0xFF
        (leBytes 2 0 ++ leBytes 4 (s.bank b).uncorrectable ++ leBytes 2 0xFFFF)) := by
  change execBankRetirement b s = _
  simp [execBankRetirement, hb, hs, hu, hn]

theorem exec_bankRetirement_logged (hb : b < 544) (hs : (s.bank b).state = .inService) (hu : (s.bank b).ueTrigger = false)
    (hc : (s.bank b).ceTrigger = true) (hn : s.spareFor b = none) : exec (.bankRetirement b) s =
      .next ((s.modBank b fun x => { x with ceTrigger := false }).log b 0x0301 0xFF
        (leBytes 2 0 ++ leBytes 4 (s.bank b).corrected ++ leBytes 2 0xFFFF)) := by
  change execBankRetirement b s = _
  simp [execBankRetirement, hb, hs, hu, hc, hn]

/-- The spare taken is a spare, on the bank's own base die unless that has none left. -/
theorem State.spareFor_spec {y : Nat} (h : s.spareFor b = some y) : (s.bank y).state = .spare ∧ y < 544 ∧
    (baseOfBank y = baseOfBank b ∨ ∀ k, k < 544 → (s.bank k).state = .spare → baseOfBank k ≠ baseOfBank b) := by
  have hr : ∀ k, k ∈ List.range 544 ↔ k < 544 := fun _ => List.mem_range
  unfold State.spareFor at h
  generalize List.range 544 = l at h hr
  dsimp only at h
  split at h
  · next k hk =>
    obtain rfl := Option.some.inj h
    have hp := List.find?_some hk
    simp only [Bool.and_eq_true, beq_iff_eq] at hp
    exact ⟨hp.2, (hr _).1 (List.mem_of_find?_eq_some hk), .inl hp.1⟩
  · next hn =>
    have hp := List.find?_some h
    refine ⟨by simpa using hp, (hr _).1 (List.mem_of_find?_eq_some h), .inr fun k hk hs he => ?_⟩
    simpa [hs, he] using List.find?_eq_none.1 hn k ((hr k).2 hk)

/-! ### Hot windows (R109, R110) -/

/-- State `s` once bank `b` has ended its window, `grants` and `waits` being those of no command. -/
def State.windowEnded (s : State) (b grants waits : Nat) : State := s.setBank b ((s.bank b).endWindow grants waits)

variable {grants waits : Nat}

theorem State.bank_windowEnded : (s.windowEnded b grants waits).bank b = (s.bank b).endWindow grants waits :=
  State.bank_setBank_self (Bank.ne_of_windows (Nat.succ_ne_zero _))

theorem exec_hotWindowEnd_unowned (hb : b < 544) (ho : s.bankOwner b = none) : exec (.hotWindowEnd b grants waits) s =
    .next ((s.windowEnded b grants waits).setBank b { (s.bank b).endWindow grants waits with hot := false }) := by
  have ho' : (s.windowEnded b grants waits).bankOwner b = none := ho
  change execHotWindowEnd b grants waits s = _
  rw [← State.bank_windowEnded]
  unfold execHotWindowEnd
  rw [if_neg (Nat.not_le.2 hb)]
  change (match (s.windowEnded b grants waits).bankOwner b with | none => _ | some (p, r) => _) = _
  rw [ho']
  rfl

theorem exec_hotWindowEnd_owned (hb : b < 544) {p r : Nat} (ho : s.bankOwner b = some (p, r)) :
    let u := s.windowEnded b grants waits
    let bs := ((s.part p).region r).banks
    exec (.hotWindowEnd b grants waits) s =
      if ∀ k ∈ bs, (u.bank k).windows = ((s.bank b).endWindow grants waits).windows
        then .next (bs.foldl (fun t k => u.judgeHot t p r k) u) else .next u := by
  intro u bs
  have ho' : u.bankOwner b = some (p, r) := ho
  change execHotWindowEnd b grants waits s = _
  rw [← State.bank_windowEnded]
  unfold execHotWindowEnd
  rw [if_neg (Nat.not_le.2 hb)]
  change (match u.bankOwner b with | none => _ | some (p, r) => _) = _
  rw [ho']
  change (if (bs.all fun k => (u.bank k).windows == (u.bank b).windows) = true then _ else _) = _
  simp only [List.all_eq_true, beq_iff_eq]
  rfl

/-- Judging a bank leaves it HOT just when the window says so. -/
theorem State.bank_judgeHot_hot (u t : State) (p r : Nat) (ht : (t.bank b).windows ≠ 0) :
    ((u.judgeHot t p r b).bank b).hot = u.isHot ((u.part p).region r).banks b := by
  have hset : ((t.modBank b fun x => { x with hot := u.isHot ((u.part p).region r).banks b }).bank b).hot = _ :=
    congrArg Bank.hot (State.bank_setBank_self (Bank.ne_of_windows ht))
  unfold State.judgeHot
  dsimp only
  split
  · obtain ⟨h, o, he⟩ := State.notice_eq _ _ _ _
    rw [he]
    exact hset
  · exact hset

theorem State.isHot_iff (s : State) (bs : List Nat) (b : Nat) : s.isHot bs b = true ↔
    1 < bs.length ∧ 786432 ≤ (s.bank b).windowGrants ∧
      8 * sumNat (bs.map fun k => (s.bank k).windowGrants) ≤ (s.bank b).windowGrants * bs.length := by
  simp [State.isHot, and_assoc]

/-! ### Retention (R443) -/

theorem exec_retentionWake (hb : b < 544) (hr : (s.bank b).retention = true) :
    exec (.retentionWake b) s = .next (s.setBank b { s.bank b with awake := true }) :=
  congrArg Host.Outcome.next (if_pos (by simp [hb, hr]))

theorem exec_retentionReturn (hb : b < 544) (hr : (s.bank b).retention = true) :
    exec (.retentionReturn b) s = .next (s.setBank b { s.bank b with awake := false }) :=
  congrArg Host.Outcome.next (if_pos (by simp [hb, hr]))

/-- Settles O26: each event by the branch it takes; a bank that was set is read back, as a window ended or a trigger set tells it
from a bank at reset. -/
theorem scratchpadBanks : Obligations.ScratchpadBanks := by
  unfold Obligations.ScratchpadBanks
  intro s b hb
  refine ⟨fun line g hl hg hs => ⟨?clean, ?corrected, ?uncorrectable⟩, fun y hs ht hy => exec_bankRetirement_spare hb hs ht hy,
    fun hs hu hn => exec_bankRetirement_fenced hb hs hu hn, fun hs hu hc hn => exec_bankRetirement_logged hb hs hu hc hn,
    fun y hy => State.spareFor_spec hy,
    fun grants waits => ⟨fun ho => exec_hotWindowEnd_unowned hb ho, fun p r ho => ⟨?judged, ?waits, ?hot⟩⟩,
    fun hr => ⟨exec_retentionWake hb hr, exec_retentionReturn hb hr⟩⟩
  case clean => exact exec_patrolScrub_inService hb hl hg hs .clean
  case corrected => exact exec_patrolScrub_inService hb hl hg hs .corrected
  case uncorrectable => exact ⟨_, exec_patrolScrub_inService hb hl hg hs _, s.bankEcc_uncorrectable b line g⟩
  case judged => exact fun ha => (exec_hotWindowEnd_owned hb ho).trans (if_pos ha)
  case waits => exact fun ha => (exec_hotWindowEnd_owned hb ho).trans (if_neg ha)
  case hot =>
    intro t ht
    have h := (s.windowEnded b grants waits).isHot_iff ((s.part p).region r).banks b
    rw [State.bank_windowEnded] at h
    exact (State.bank_judgeHot_hot (s.windowEnded b grants waits) t p r ht) ▸ h

end Sys2Proof.Machine
end

section
/-! PROOF. Region, memory, window and fabric commands at their turn (R91, R92, R95, R103, R109, R114, R117, R133, R135, R137, R140,
R218). -/

namespace Sys2Proof.Machine

variable {s : State} {inl blk : List Byte}

/-! ### Regions (R91, R92, R95) -/

theorem State.defineRegion_refused {code : Nat} (h : s.defineCheck blk = some code) : s.defineRegion inl blk = .refuse code := by
  unfold State.defineRegion
  rw [h]

/-- The region that a descriptor asks for. -/
def descriptorRegion (b : List Byte) : Region :=
  { defined := true, mode := u8 b 2, nearWidth := u8 b 3, seed := u32 b 4, banks := namedBanks b }

theorem State.defineRegion_sound (h : s.defineCheck blk = none) : s.defineRegion inl blk =
    .ok 0 (((namedBanks blk).foldl (fun t k => t.modBank k fun y => { y with retention := true, awake := false })
      (s.zeroBanks (namedBanks blk))).modPart (u8 blk 0) fun y =>
        { y with regions := Map.set {} y.regions (u8 blk 1) (descriptorRegion blk) }) := by
  unfold State.defineRegion
  rw [h]
  rfl

section
variable {p i : Nat} (hp : u8 inl 0 = p) (hi : u8 inl 1 = i) (hd : ((s.part p).region i).defined = true)
include hp hi hd

theorem State.releaseRegion_free (he : (s.part p).state ≠ .enabled) : s.releaseRegion inl blk =
    .ok 0 ((((s.part p).region i).banks.foldl (fun t k => t.modBank k fun y => { y with retention := false, awake := true, hot := false })
      ((s.zeroBanks ((s.part p).region i).banks).dropCached p (2 ^ 28 * i) (2 ^ 28))).modPart p fun y =>
        { y with regions := Map.erase y.regions i }) := by
  subst hp hi
  simp [State.releaseRegion, hd, he]

theorem State.reseedRegion_free (hm : ((s.part p).region i).mode ≠ 0) (hr : (s.part p).running = none)
    (hl : ∀ e ∈ (s.part p).ctxs, e.2.liveIn i = false) : s.reseedRegion inl blk =
      .ok 0 (((s.zeroBanks ((s.part p).region i).banks).dropCached p (2 ^ 28 * i) (2 ^ 28)).modPart p fun y =>
        { y with regions := Map.set {} y.regions i { (s.part p).region i with seed := u32 inl 4 } }) := by
  subst hp hi
  have hlive : ((s.part (u8 inl 0)).ctxs.any fun e => e.2.liveIn (u8 inl 1)) = false :=
    List.any_eq_false.mpr fun e he => ne_true_of_eq_false (hl e he)
  simp only [State.reseedRegion, hd, hr, hlive, if_neg hm]
  rfl

/-! ### Fill and copy (R103) -/

section
variable (hr : (s.part p).running = none)
include hr

theorem State.memFill_lines (hn : u32 inl 8 ≠ 0) (hl : ((s.part p).region i).lines (u32 inl 4) (u32 inl 8) = true) :
    s.memFill inl blk = .ok 0 (((s.flushRun p (2 ^ 28 * i + u32 inl 4) (u32 inl 8)).writeLines p (2 ^ 28 * i + u32 inl 4)
      (List.replicate (u32 inl 8 / 64) ((List.replicate 16 (slice inl 12 4)).flatten, false))).dropCached p (2 ^ 28 * i + u32 inl 4)
        (u32 inl 8)) := by
  subst hp hi
  simp only [State.memFill, firstFail, hd, hl, hr, if_neg hn]
  rfl

theorem State.memCopy_lines {j : Nat} (hj : u8 inl 2 = j) (hdj : ((s.part p).region j).defined = true) (hij : i ≠ j)
    (hn : u32 inl 12 ≠ 0) (hl : ((s.part p).region i).lines (u32 inl 4) (u32 inl 12) = true)
    (hlj : ((s.part p).region j).lines (u32 inl 8) (u32 inl 12) = true) :
    let n := u32 inl 12
    let src := 2 ^ 28 * i + u32 inl 4
    let dst := 2 ^ 28 * j + u32 inl 8
    let u := (s.flushRun p src n).flushRun p dst n
    s.memCopy inl blk = .ok 0 ((u.writeLines p dst (u.readLines p src (n / 64))).dropCached p dst n) := by
  subst hp hi hj
  have hij : (u8 inl 1 == u8 inl 2) = false := beq_false_of_ne hij
  simp only [State.memCopy, firstFail, hd, hdj, hl, hlj, hij, hr, if_neg hn]
  rfl
end
end

/-! ### The host swap area (R218) -/

theorem State.hostRegister_first {p : Nat} (hp : u8 inl 0 = p) (hn : u64 inl 16 ≠ 0) (hb : u64 inl 8 % 8192 = 0)
    (hm : u64 inl 16 % 8192 = 0) (ho : s.hostOverlap (u64 inl 8) (u64 inl 16) = false)
    (hq : u64 inl 16 ≤ (s.part p).cfg.quota 5 (s.part p).cfg.hostSwapBytes) (hu : s.hostUnits p + u64 inl 16 / 8192 ≤ 2 ^ 25)
    (hunits : (s.part p).host.units = []) : s.hostRegister inl blk =
      .ok 0 (s.modPart p fun y => { y with host := { y.host with base := u64 inl 8, bytes := u64 inl 16, units := [] } }) := by
  subst hp
  have hover : ¬ 33554432 < s.hostUnits (u8 inl 0) + u64 inl 16 / 8192 := Nat.not_lt.2 hu
  simp [State.hostRegister, firstFail, hn, hb, hm, ho, Nat.not_lt.2 hq, hover, State.modPart, hunits]

/-! ### Windows (R114, R117) -/

theorem State.windowOpen_refused {code : Nat} (h : s.openCheck blk = some code) : s.windowOpen none blk = .refuse code := by
  unfold State.windowOpen
  rw [h]

theorem State.windowOpen_free {id : Nat} (h : s.openCheck blk = none) (hf : s.freeWindow = some id) :
    let u := s.openWindow id { kind := .partition, part := u8 blk 0, ddr5 := u8 blk 1 == 1, region := u8 blk 2, flags := u8 blk 3,
                               off := u64 blk 8, len := u64 blk 0x10, target := u8 blk 0x18, tokFirst := u8 blk 0x19,
                               tokCount := u16 blk 0x1A }
    s.windowOpen none blk = .ok (u.handle id).toNat u := by
  unfold State.windowOpen State.windowId
  rw [h]
  dsimp only
  rw [hf]

section
variable {q : Nat} {c : Cmd} {h : DWord} (hh : BitVec.ofNat 64 (u64 c.inl 0) = h)
include hh

theorem State.windowClose_stale (ho : s.handleOpen h = false) : s.windowClose q c = .refuse rcWindowStale := by
  subst hh
  simp [State.windowClose, ho]

theorem State.windowClose_open (ho : s.handleOpen h = true) (hq : q = 0 ∨ s.bound q (s.win (hWindow h)).part = true) :
    s.windowClose q c =
      .runs (((s.closeUnit (hWindow h)).setWin (hWindow h) { s.win (hWindow h) with closer := some (q, c.no) }).closeWindow
        (hWindow h)) := by
  subst hh
  have hbound : ¬ (q != 0 && !s.bound q (s.win (hWindow (BitVec.ofNat 64 (u64 c.inl 0)))).part) = true := by
    simpa [or_iff_not_imp_left] using hq
  simp only [State.windowClose, ho, if_neg hbound]
  rfl
end

/-! ### The fabric (R133, R135, R137, R140) -/

section
variable {id : Nat}

theorem State.setId_refused (h : id = 0xFFFF ∨ ∃ k, k < 4 ∧ (s.port k).isUp = true) : s.setId id = .refuse rcDeviceId :=
  if_pos (by simpa using h)

theorem State.setId_free (hi : id ≠ 0xFFFF) (h : ∀ k, k < 4 → (s.port k).isUp = false) : s.setId id =
    .ok 0 ((List.range 4).foldl (fun (t : State) k => t.modPort k fun y =>
      if y.state = .attesting then { y with state := .training, session := {} } else y) { s with huv.devId := id }) := by
  have hfree : ¬ (id = 0xFFFF || (List.range 4).any fun k => (s.port k).isUp) = true := by simpa [hi] using h
  unfold State.setId
  rw [if_neg hfree]
  simp only [beq_iff_eq]

end

/-- The list of held routes with those of a route list. -/
def State.holdRoutes (s : State) (l : List (Nat × Nat × Nat)) : List (Nat × Nat) :=
  l.foldl (fun m e => (m.filter fun r => r.1 != 65536 * e.1 + e.2.2) ++ [(65536 * e.1 + e.2.2, e.2.1)]) s.huv.heldRoutes

section
variable (hl : routeList blk ≠ [])
include hl

theorem State.setRoutes_malformed (h : ∃ e ∈ routeList blk, routeBad e = true) : s.setRoutes inl blk = .refuse rcRouteMalformed := by
  have hbad : (routeList blk).any routeBad = true := List.any_eq_true.2 h
  simp [State.setRoutes, hl, hbad]

theorem State.setRoutes_sound (h : ∀ e ∈ routeList blk, routeBad e = false) : s.setRoutes inl blk =
    .ok 0 (State.applyRoutes (s.holdRoutes (routeList blk)).length { s with huv.heldRoutes := s.holdRoutes (routeList blk) }) := by
  have hgood : (routeList blk).any routeBad = false := List.any_eq_false.2 (by simpa using h)
  simp only [State.setRoutes, hgood, List.isEmpty_eq_false_iff.2 hl]
  rfl
end

/-- What fabric.retrain makes of a port: one that is up retrains, any other starts at step 1. -/
def Port.retrained (x : Port) : Port :=
  if x.state == .up || x.state == .retraining then { x with state := .retraining, lanes := 8, laneMask := 0xFF, usable := 0xFF }
  else { x with state := .training, laneMask := 0xFF, usable := 0xFF, session := {}, failedRetrains := 0 }

theorem Port.retrained_up {x : Port} (h : x.state = .up ∨ x.state = .retraining) :
    x.retrained = { x with state := .retraining, lanes := 8, laneMask := 0xFF, usable := 0xFF } := if_pos (by simpa using h)

theorem Port.retrained_down {x : Port} (hu : x.state ≠ .up) (hr : x.state ≠ .retraining) :
    x.retrained = { x with state := .training, laneMask := 0xFF, usable := 0xFF, session := {}, failedRetrains := 0 } :=
  if_neg (by simp [hu, hr])

/-- Settles O49: each command at its turn comes to its own meaning (`State.AtTurn.exec_eq`), which the lemmas above give check by
check. -/
theorem memoryFabricCommands : Obligations.MemoryFabricCommands := by
  unfold Obligations.MemoryFabricCommands
  intro s q c ht hr hc ok no gives op b p i x
  have hat : s.AtTurn q c := ⟨ht, hr, hc⟩
  have close : ∀ {d}, op = 0x060B → s.windowClose q c = d → exec (.windowClose q) s = .next (s.settle q c d) := fun ho =>
    hat.exec_eq (f := fun t c => t.windowClose q c) rfl ho rfl
  have opens : ∀ {d}, op = 0x060A → s.windowOpen none b = d → exec (.windowOpen q) s = .next (s.settle q c d) := fun ho =>
    hat.exec_args (f := fun t _ b => t.windowOpen none b) rfl ho
  have defines : ∀ {d}, op = 0x0601 → s.defineRegion c.inl b = d → exec (.regionDefine q) s = .next (s.settle q c d) :=
    hat.exec_args (f := State.defineRegion) rfl
  have names : ∀ {d}, op = 0x060C → s.setId (u16 c.inl 0) = d → exec (.fabricSetId q) s = .next (s.settle q c d) := fun ho =>
    hat.exec_args (f := fun t inl _ => t.setId (u16 inl 0)) rfl ho
  have routes : ∀ {d}, op = 0x060D → s.setRoutes c.inl b = d → exec (.fabricRoute q) s = .next (s.settle q c d) :=
    hat.exec_args (f := State.setRoutes) rfl
  have retrains : op = 0x060E → exec (.fabricRetrain q) s = ok (s.setPort p (s.port p).retrained) 0 := fun ho =>
    hat.exec_args (f := fun t inl _ => .ok 0 (t.modPort (u8 inl 0) Port.retrained)) rfl ho rfl
  refine ⟨fun ho => ⟨fun code h => defines ho (State.defineRegion_refused h), fun h => defines ho (State.defineRegion_sound h)⟩,
    fun ho hd he => hat.exec_args (f := State.releaseRegion) rfl ho (State.releaseRegion_free rfl rfl hd he),
    fun ho hd hm hn hl => hat.exec_args (f := State.reseedRegion) rfl ho (State.reseedRegion_free rfl rfl hd hm hn hl),
    fun ho => ?fill, fun ho => ?copy, fun ho => hat.exec_args (f := fun t inl _ => .data (t.bankRecord (u16 inl 0)) 0 t) rfl ho rfl,
    fun ho => hat.exec_args (f := fun t inl _ => .data ((List.range 16).flatMap fun k =>
      leBytes 8 (Map.get 0 (Map.get {} t.ddr.subs (u8 inl 0) : SubChannel).grants k).toNat) 0 t) rfl ho rfl,
    fun ho => hat.exec_args (f := fun t inl _ => .data (t.part (u8 inl 0)).models.cacheRecord 0 t) rfl ho rfl,
    fun ho => ?register, fun ho => ⟨fun code h => opens ho (State.windowOpen_refused h),
      fun id h hf => opens ho (State.windowOpen_free h hf)⟩,
    fun ho => ⟨fun h => close ho (State.windowClose_stale rfl h), fun h hq => close ho (State.windowClose_open rfl h hq)⟩,
    fun ho => ⟨fun h => names ho (State.setId_refused (.inl h)), fun h => names ho (State.setId_refused (.inr h)),
      fun hi h => names ho (State.setId_free hi h)⟩,
    fun ho hl => ⟨fun h => routes ho (State.setRoutes_malformed hl h), fun h => routes ho (State.setRoutes_sound hl h)⟩,
    fun ho => ⟨fun h => ?up, fun hu hn => ?down⟩,
    fun ho => hat.exec_args (f := fun t inl _ => .data (t.portRecord (u8 inl 0)) 0 t) rfl ho rfl⟩
  case fill =>
    intro off n hd hl hn h0
    exact hat.exec_args (f := State.memFill) rfl ho (State.memFill_lines rfl rfl hd hn h0 hl)
  case copy =>
    intro j n src dst hd hdj hl hlj hij hn h0 u
    exact hat.exec_args (f := State.memCopy) rfl ho (State.memCopy_lines rfl rfl hd hn rfl hdj hij h0 hl hlj)
  case register =>
    intro base n h0 hb hn hov hq hu hunits
    exact hat.exec_args (f := State.hostRegister) rfl ho (State.hostRegister_first rfl h0 hb hn hov hq hu hunits)
  case up => rw [retrains ho, Port.retrained_up h]
  case down => rw [retrains ho, Port.retrained_down hu hn]

end Sys2Proof.Machine
end

section
/-! PROOF. The canonical form of the addressed memories (`State.memWf`, R87, R154) as a fact that passes through updates, branches
and folds; and the same fact of whatever an operation answers. -/

namespace Sys2Proof.Machine

/-! ### What an operation answers -/

/-- The state that a meaning answers has its memories in canonical form. -/
def Res.memWf : Res → Bool
  | .next t => t.memWf
  | _ => true

/-- So has the state that a host command's own meaning comes to, if it comes to one. -/
def Done.memWf : Done → Bool
  | .refuse _ | .stay => true
  | .refuseWith _ t | .ok _ t | .empty t | .data _ _ t | .ends _ t | .runs t | .waits t => t.memWf

/-- So has the state in which a slot finds its lane. -/
def Gate.memWf : Gate → Bool
  | .idle => true
  | .held t | .go t => t.memWf

/-- So has the state after a frame is received. -/
def Received.memWf : Received → Bool
  | .spent t | .accepted t => t.memWf

section
variable (t : State) (n : Nat) (b : List Byte)
@[simp] theorem Res.memWf_next : Res.memWf (.next t) = t.memWf := (rfl)
@[simp] theorem Res.memWf_refused (r : Refusal) : Res.memWf (.refused r) = true := (rfl)
@[simp] theorem Done.memWf_refuse : (Done.refuse n).memWf = true := (rfl)
@[simp] theorem Done.memWf_stay : Done.stay.memWf = true := (rfl)
@[simp] theorem Done.memWf_refuseWith : (Done.refuseWith n t).memWf = t.memWf := (rfl)
@[simp] theorem Done.memWf_ok : (Done.ok n t).memWf = t.memWf := (rfl)
@[simp] theorem Done.memWf_empty : (Done.empty t).memWf = t.memWf := (rfl)
@[simp] theorem Done.memWf_data : (Done.data b n t).memWf = t.memWf := (rfl)
@[simp] theorem Done.memWf_ends : (Done.ends n t).memWf = t.memWf := (rfl)
@[simp] theorem Done.memWf_runs : (Done.runs t).memWf = t.memWf := (rfl)
@[simp] theorem Done.memWf_waits : (Done.waits t).memWf = t.memWf := (rfl)
@[simp] theorem Received.memWf_spent : (Received.spent t).memWf = t.memWf := (rfl)
@[simp] theorem Received.memWf_accepted : (Received.accepted t).memWf = t.memWf := (rfl)
@[simp] theorem Gate.memWf_idle : Gate.idle.memWf = true := (rfl)
@[simp] theorem Gate.memWf_held : (Gate.held t).memWf = t.memWf := (rfl)
@[simp] theorem Gate.memWf_go : (Gate.go t).memWf = t.memWf := (rfl)
end

/-! ### Updates of the state

The equations below are proved by `(rfl)`, in parentheses: `simp` then rewrites by a proof and not by computation, which it could
not redo inside the hypothesis of `State.memWf_foldl`. -/

@[simp] theorem State.memWf_mk (pending out clk module host parts engineMap tok tokBad tiles sp fab ddr huv stem cup stp cmp pwr
    store lan arbs) :
    (State.mk pending out clk module host parts engineMap tok tokBad tiles sp fab ddr huv stem cup stp cmp pwr store lan arbs).memWf =
      (sp.wf && ddr.wf) := (rfl)

@[simp] theorem Scratch.wf_mk (mem poison banks gather ceRetire hotNotice) :
    (Scratch.mk mem poison banks gather ceRetire hotNotice).wf = (Map.wf 0#8 mem && Map.wf false poison) := (rfl)

@[simp] theorem Ddr.wf_mk (mem poison subs chans pages sparesUsed withdrawn keyGen nextKey pairs) :
    (Ddr.mk mem poison subs chans pages sparesUsed withdrawn keyGen nextKey pairs).wf = (Map.wf none mem && Map.wf false poison) := (rfl)

@[simp] theorem State.wf_and (s : State) : (s.sp.wf && s.ddr.wf) = s.memWf := (rfl)
@[simp] theorem Ddr.wf_and (x : Ddr) : (Map.wf none x.mem && Map.wf false x.poison) = x.wf := (rfl)

section
variable {s : State} (h : s.memWf = true)
include h
@[simp] theorem State.wf_sp : s.sp.wf = true := (Bool.and_eq_true_iff.1 h).1
@[simp] theorem State.wf_ddr : s.ddr.wf = true := (Bool.and_eq_true_iff.1 h).2
@[simp] theorem State.wf_sp_mem : Map.wf 0#8 s.sp.mem = true := (Bool.and_eq_true_iff.1 (State.wf_sp h)).1
@[simp] theorem State.wf_sp_poison : Map.wf false s.sp.poison = true := (Bool.and_eq_true_iff.1 (State.wf_sp h)).2
@[simp] theorem State.wf_ddr_mem : Map.wf none s.ddr.mem = true := (Bool.and_eq_true_iff.1 (State.wf_ddr h)).1
@[simp] theorem State.wf_ddr_poison : Map.wf false s.ddr.poison = true := (Bool.and_eq_true_iff.1 (State.wf_ddr h)).2
end

/-! ### Branches, folds and pairs -/

section
variable {c : Prop} {_ : Decidable c}
@[simp] theorem State.memWf_ite (s t : State) : (if c then s else t).memWf = if c then s.memWf else t.memWf :=
  apply_ite State.memWf c s t
@[simp] theorem Done.memWf_ite (s t : Done) : (if c then s else t).memWf = if c then s.memWf else t.memWf :=
  apply_ite Done.memWf c s t
@[simp] theorem Res.memWf_ite (s t : Res) : Res.memWf (if c then s else t) = if c then s.memWf else t.memWf :=
  apply_ite Res.memWf c s t
end

/-- A fold of steps that keep the canonical form keeps it. -/
@[simp] theorem State.memWf_foldl {α : Type} {f : State → α → State} (l : List α) : ∀ {s : State}, s.memWf = true →
    (∀ t a, t.memWf = true → (f t a).memWf = true) → (l.foldl f s).memWf = true := by
  induction l with
  | nil => exact fun h _ => h
  | cons a l ih => exact fun h hf => ih (hf _ a h) hf

/-- A fold of steps that leave the memories alone leaves them alone. -/
@[simp] theorem State.memWf_foldl_eq {α : Type} {f : State → α → State} (s : State) (l : List α)
    (hf : ∀ t a, (f t a).memWf = t.memWf) : (l.foldl f s).memWf = s.memWf := by
  induction l generalizing s with
  | nil => rfl
  | cons a l ih => rw [List.foldl_cons, ih, hf]

/-- The same of a fold that carries a value beside the state. -/
theorem State.memWf_foldl_snd {α β : Type} {f : α × State → β → α × State} (l : List β)
    (hf : ∀ a b, a.2.memWf = true → (f a b).2.memWf = true) : ∀ a : α × State, a.2.memWf = true → (l.foldl f a).2.memWf = true := by
  induction l with
  | nil => exact fun _ h => h
  | cons b l ih => exact fun a ha => ih _ (hf a b ha)

theorem State.memWf_snd {α : Type} {r : α × State} {a : α} {t : State} (e : r = (a, t)) (h : r.2.memWf = true) : t.memWf = true := by
  rwa [e] at h

end Sys2Proof.Machine
end

section
/-! PROOF. What an operation writes to the addressed memories it writes in canonical form: one lemma per operation, in the order of
the model. An operation that leaves the memories alone keeps `State.memWf` as it is; one that writes them keeps it true. -/

namespace Sys2Proof.Machine

/-! ### Ops -/

@[simp] theorem State.memWf_setPart (s : State) (p : Nat) (v : Part) : (s.setPart p v).memWf = s.memWf := (rfl)
@[simp] theorem State.memWf_modPart (s : State) (p : Nat) (f : Part → Part) : (s.modPart p f).memWf = s.memWf := (rfl)
@[simp] theorem State.memWf_setTile (s : State) (t : Nat) (v : Tile) : (s.setTile t v).memWf = s.memWf := (rfl)
@[simp] theorem State.memWf_setCtx (s : State) (p c : Nat) (v : Ctx) : (s.setCtx p c v).memWf = s.memWf := (rfl)
@[simp] theorem State.memWf_modCtx (s : State) (p c : Nat) (f : Ctx → Ctx) : (s.modCtx p c f).memWf = s.memWf := (rfl)
@[simp] theorem State.memWf_setLane (s : State) (p l : Nat) (v : Lane) : (s.setLane p l v).memWf = s.memWf := (rfl)
@[simp] theorem State.memWf_modLane (s : State) (p l : Nat) (f : Lane → Lane) : (s.modLane p l f).memWf = s.memWf := (rfl)
@[simp] theorem State.memWf_setQueue (s : State) (q : Nat) (v : Queue) : (s.setQueue q v).memWf = s.memWf := (rfl)
@[simp] theorem State.memWf_setWin (s : State) (w : Nat) (v : Win) : (s.setWin w v).memWf = s.memWf := (rfl)
@[simp] theorem State.memWf_setPort (s : State) (h : Nat) (v : Port) : (s.setPort h v).memWf = s.memWf := (rfl)
@[simp] theorem State.memWf_take (s : State) (n : Nat) : (s.take n).2.memWf = s.memWf := (rfl)
@[simp] theorem State.memWf_emit (s : State) (o : Output) : (s.emit o).memWf = s.memWf := (rfl)
@[simp] theorem State.memWf_tick (s : State) : s.tick.memWf = s.memWf := by simp [State.tick, State.take]
@[simp] theorem State.memWf_atCycles (s : State) (cycles : Nat) : (s.atCycles cycles).2.memWf = s.memWf := (rfl)
@[simp] theorem State.memWf_setCounter (s : State) (p lane c : Nat) (v : Word) : (s.setCounter p lane c v).memWf = s.memWf := (rfl)

@[simp] theorem State.memWf_increment (s : State) (p lane c amt : Nat) : (s.increment p lane c amt).memWf = s.memWf := by
  unfold State.increment
  split <;> simp

@[simp] theorem State.memWf_markPoison (s : State) (p : Nat) : (s.markPoison p).memWf = s.memWf := by
  unfold State.markPoison
  split <;> simp

/-! ### DdrLines -/

@[simp] theorem State.memWf_ddrFill (s : State) (line : Nat) (b : List Byte) (hm : s.memWf = true) :
    (s.ddrFill line b).memWf = true := by simp +contextual [State.ddrFill, hm, State.memWf_ddrWrite]

@[simp] theorem State.memWf_recPoison (s : State) (r : CpRecord) (hm : s.memWf = true) : (s.recPoison r).memWf = true := by
  simp [State.recPoison, hm, Map.wf_set]

@[simp] theorem State.memWf_recWrite (s : State) (r : CpRecord) (hm : s.memWf = true) : (s.recWrite r).memWf = true := by
  unfold State.recWrite
  split <;> simp [hm, Map.wf_set]

/-! ### Complete -/

@[simp] theorem State.memWf_modCmd (s : State) (q no : Nat) (f : Cmd → Cmd) : (s.modCmd q no f).memWf = s.memWf := (rfl)

@[simp] theorem State.memWf_holdRecord (s : State) (q no : Nat) (hm : s.memWf = true) : (s.holdRecord q no).memWf = true := by
  unfold State.holdRecord
  split <;> simp [hm]

@[simp] theorem State.memWf_finish (s : State) (q no status reason result aux : Nat) (hm : s.memWf = true) :
    (s.finish q no status reason result aux).memWf = true := by simp [State.finish, hm]

@[simp] theorem State.memWf_finishOk (s : State) (q no result : Nat) (hm : s.memWf = true) :
    (s.finishOk q no result).memWf = true := by simp [State.finishOk, hm]

@[simp] theorem State.memWf_finishAll (s : State) (l : List (Nat × Nat)) (result : Nat) (hm : s.memWf = true) :
    (s.finishAll l result).memWf = true := by simp +contextual [State.finishAll, hm]

@[simp] theorem State.memWf_finishAwait (s : State) (p c status : Nat) (hm : s.memWf = true) :
    (s.finishAwait p c status).memWf = true := 
  State.memWf_foldl _ hm fun t q ht => State.memWf_foldl _ (by simp [ht]) fun u x hu => by simp [hu]

@[simp] theorem State.memWf_hostWrite (s : State) (addr : Nat) (b : List Byte) : (s.hostWrite addr b).memWf = s.memWf := by
  simp [State.hostWrite]

/-! ### Kv -/

theorem State.memWf_drawPage {s t : State} {p g : Nat} (hm : s.memWf = true) (h : s.drawPage p = some (g, t)) : t.memWf = true := by
  have hz (q : Part) (k : Nat) : ((s.setPart p q).zeroPage p k).memWf = true := State.memWf_zeroPage (by simp [hm]) _ _
  revert h
  fun_cases State.drawPage s p <;> simp only [reduceCtorEq, Option.some.injEq, Prod.mk.injEq, false_implies, and_imp] <;>
    exact fun _ h => h ▸ hz _ _

theorem State.memWf_drawPageFuel (n : Nat) : ∀ {s t : State} {p g : Nat}, s.memWf = true → State.drawPageFuel n s p = some (g, t) →
    t.memWf = true := by
  induction n with
  | zero => exact fun hm h => State.memWf_drawPage hm h
  | succ n ih =>
    intro s t p g hm h
    unfold State.drawPageFuel at h
    split at h
    · next r hr =>
      cases h
      exact State.memWf_drawPage hm hr
    · split at h
      · exact ih (by simp [hm]) h
      · cases h

theorem State.memWf_allocPage {s t : State} {p g : Nat} (hm : s.memWf = true) (h : s.allocPage p = some (g, t)) : t.memWf = true :=
  State.memWf_drawPageFuel _ hm h

@[simp] theorem State.memWf_entriesWritten (s : State) (p q : Nat) (keys : List Nat) (hm : s.memWf = true) :
    (s.entriesWritten p q keys).memWf = true := by simp +contextual [State.entriesWritten, hm]

theorem State.memWf_allocKeys (l : List Nat) : ∀ {s t : State} {p q : Nat}, s.memWf = true → s.allocKeys p q l = some t →
    t.memWf = true := by
  induction l with
  | nil => intro s t p q hm h; cases h; exact hm
  | cons k l ih =>
    intro s t p q hm h
    unfold State.allocKeys at h
    split at h
    · cases h
    · next g u hu =>
      have hu := State.memWf_allocPage hm hu
      exact ih (by simp [hu]) h

theorem State.memWf_allocAll {p : Nat} (l : List (Nat × List Nat)) : ∀ {o : Option State} {t : State},
    (∀ s, o = some s → s.memWf = true) → l.foldl (fun (t : Option State) e => t.bind fun u => u.allocKeys p e.1 e.2) o = some t →
    t.memWf = true := by
  induction l with
  | nil => exact fun h e => h _ e
  | cons a l ih =>
    intro o t h e
    refine ih (fun s hs => ?_) e
    obtain ⟨u, hu, hk⟩ := Option.bind_eq_some_iff.1 hs
    exact State.memWf_allocKeys _ (h u hu) hk

@[simp] theorem State.memWf_unitOut (s : State) (p u addr : Nat) (b : List Byte) (bad : Bool) :
    (s.unitOut p u addr b bad).memWf = s.memWf := (rfl)

@[simp] theorem State.memWf_copyPage (s : State) (p src dst keep : Nat) (hm : s.memWf = true) :
    (s.copyPage p src dst keep).memWf = true := by simp +contextual [State.copyPage, hm, State.memWf_ddrWrite]

@[simp] theorem State.memWf_trimSeq (s : State) (p q : Nat) (hm : s.memWf = true) : (s.trimSeq p q).memWf = true := by
  unfold State.trimSeq
  refine State.memWf_foldl _ hm fun t e ht => ?_
  split <;> simp [ht]

theorem State.memWf_swapOut {s t : State} {p q : Nat} (hm : s.memWf = true) (h : s.swapOut p q = some t) : t.memWf = true := by
  unfold State.swapOut at h
  dsimp only at h
  split at h
  · cases h
  · cases h
    exact State.memWf_foldl _ hm fun t e ht => by simp [ht]

@[simp] theorem State.memWf_pageEvent (s : State) (p need : Nat) (victim : Option Nat) (hm : s.memWf = true) :
    (s.pageEvent p need victim).memWf = true := by simp [State.pageEvent, hm, State.memWf_notice]

/-! ### Jobs -/

@[simp] theorem State.memWf_release (s : State) (p c : Nat) (hm : s.memWf = true) : (s.release p c).memWf = true := by
  simp +contextual [State.release, hm, State.memWf_writeLine]

@[simp] theorem State.memWf_issueStores (s : State) (e : GEntry) (hm : s.memWf = true) : (s.issueStores e).memWf = true := by
  unfold State.issueStores
  refine State.memWf_foldl _ hm fun t a ht => ?_
  split <;> simp [ht, State.memWf_writeLine]

@[simp] theorem State.memWf_clearEngines (s : State) (p : Nat) (hm : s.memWf = true) : (s.clearEngines p).memWf = true := by
  have h1 : ((s.sp.entriesOf p).foldl State.issueStores s).memWf = true := State.memWf_foldl _ hm State.memWf_issueStores
  dsimp only [State.clearEngines]
  simp [h1]

@[simp] theorem State.memWf_contain (s : State) (p st : Nat) (j : Job) (hm : s.memWf = true) : (s.contain p st j).memWf = true := by
  simp [State.contain, hm]

@[simp] theorem State.memWf_closeJob (s : State) (p c status : Nat) (hm : s.memWf = true) : (s.closeJob p c status).memWf = true := by
  have trim (t : State) (ht : t.memWf = true) (l : List Nat) : (l.foldl (fun (u : State) (n : Nat) => u.trimSeq p n) t).memWf = true :=
    State.memWf_foldl _ ht fun u n hu => State.memWf_trimSeq u p n hu
  fun_cases State.closeJob s p c status
  · next x j im _ _ st lanes s0 s1 s2 s3 s4 s5 =>
    have h1 : s1.memWf = true := by simp [s1, s0, hm]
    have h2 : s2.memWf = true := by
      dsimp only [s2]
      split <;> simp [h1]
    have h4 : s4.memWf = true := by simp [s4, s3, h2]
    exact State.memWf_finishAwait _ _ _ _ (by simp [s5, h4, trim])
  · exact hm

@[simp] theorem State.memWf_scheduleFuel (fuel : Nat) :
    ∀ (s : State) (p : Nat), s.memWf = true → (State.scheduleFuel fuel s p).memWf = true := by
  induction fuel with
  | zero => exact fun _ _ h => h
  | succ n ih =>
    intro s p hm
    unfold State.scheduleFuel
    dsimp only
    split
    · split
      · split <;> simp [hm, ih]
      · exact hm
    · exact hm

@[simp] theorem State.memWf_schedule (s : State) (p : Nat) (hm : s.memWf = true) : (s.schedule p).memWf = true := by
  simp [State.schedule, hm]

@[simp] theorem State.memWf_endJob (s : State) (p c status : Nat) (hm : s.memWf = true) : (s.endJob p c status).memWf = true := by
  simp [State.endJob, hm]

@[simp] theorem State.memWf_endResident (s : State) (p status : Nat) (hm : s.memWf = true) :
    (s.endResident p status).memWf = true := by
  unfold State.endResident
  split <;> simp [hm]

@[simp] theorem State.memWf_endWaiting (s : State) (p c status : Nat) (hm : s.memWf = true) :
    (s.endWaiting p c status).memWf = true := by simp +contextual [State.endWaiting, hm]

@[simp] theorem State.memWf_endAll (s : State) (p c status : Nat) (hm : s.memWf = true) : (s.endAll p c status).memWf = true := by
  simp [State.endAll, hm]

/-! ### Lane -/

@[simp] theorem State.memWf_passWait (s : State) (i : Issue) : (s.passWait i).memWf = s.memWf := by simp [State.passWait]
@[simp] theorem State.memWf_countWait (s : State) (p l : Nat) : (s.countWait p l).memWf = s.memWf := (rfl)
@[simp] theorem State.memWf_countInterlock (s : State) (p l : Nat) : (s.countInterlock p l).memWf = s.memWf := (rfl)
@[simp] theorem State.memWf_countFetch (s : State) (p l : Nat) : (s.countFetch p l).memWf = s.memWf := (rfl)
@[simp] theorem State.memWf_countXfence (s : State) (p l : Nat) : (s.countXfence p l).memWf = s.memWf := (rfl)

@[simp] theorem Gate.memWf_openStep (s : State) (i : Issue) : (s.openStep i).memWf = s.memWf := by
  unfold State.openStep
  split <;> simp

@[simp] theorem State.memWf_holdWait (s : State) (i : Issue) : (s.holdWait i).memWf = s.memWf := by simp [State.holdWait]

@[simp] theorem Gate.memWf_boundary (s : State) (i : Issue) (isEnd : Bool) (hm : s.memWf = true) :
    (s.boundary i isEnd).memWf = true := by fun_cases State.boundary s i isEnd <;> simp +zetaDelta [*]

@[simp] theorem Gate.memWf_gate (s : State) (i : Issue) (slot : Nat) (isEnd : Bool) (hm : s.memWf = true) :
    (s.gate i slot isEnd).memWf = true := by fun_cases State.gate s i slot isEnd <;> simp +zetaDelta [*]

@[simp] theorem State.memWf_setX (s : State) (i : Issue) (r : Nat) (v : DWord) : (s.setX i r v).memWf = s.memWf := (rfl)
@[simp] theorem State.memWf_setAsw (s : State) (p l flags : Nat) : (s.setAsw p l flags).memWf = s.memWf := by simp [State.setAsw]

@[simp] theorem State.memWf_addrFault (s : State) (p l : Nat) (hm : s.memWf = true) : (s.addrFault p l).memWf = true := by
  simp [State.addrFault, hm]

@[simp] theorem State.memWf_access (s : State) (ln : Nat) (g : GAccess) (hm : s.memWf = true) : (s.access ln g).memWf = true := by
  simp [State.access, hm, State.memWf_writeLine]

@[simp] theorem State.memWf_setGathered (s : State) (g : Nat) (l : List GEntry) : (s.setGathered g l).memWf = s.memWf := (rfl)

@[simp] theorem State.memWf_flush (s : State) (ln : Nat) (hm : s.memWf = true) : (s.flush ln).memWf = true := by
  fun_cases State.flush s ln <;> simp +contextual +zetaDelta [*]

@[simp] theorem State.memWf_gather (s : State) (ln : Nat) (a : GAccess) (hm : s.memWf = true) : (s.gather ln a).memWf = true := by
  unfold State.gather
  dsimp only
  split
  · simp [hm]
  · rw [State.memWf_setGathered]
    split
    · exact hm
    · split <;> simp [hm]

@[simp] theorem State.memWf_flushRun (s : State) (p addr n : Nat) (hm : s.memWf = true) : (s.flushRun p addr n).memWf = true := by
  simp +contextual [State.flushRun, hm]

@[simp] theorem State.memWf_wideWrite (s : State) (p addr : Nat) (b : List Byte) (poison : Bool) (hm : s.memWf = true) :
    (s.wideWrite p addr b poison).memWf = true := by simp [State.wideWrite, hm, State.memWf_writeBytes]

@[simp] theorem State.memWf_flushTable (s : State) (p : Nat) (lp : Loop) (hm : s.memWf = true) :
    (s.flushTable p lp).memWf = true := by simp [State.flushTable, hm]

@[simp] theorem State.memWf_refetch (s : State) (p l : Nat) : (s.refetch p l).memWf = s.memWf := (rfl)
@[simp] theorem State.memWf_setLoop (s : State) (p l k : Nat) (v : Loop) : (s.setLoop p l k v).memWf = s.memWf := (rfl)
@[simp] theorem State.memWf_setPc (s : State) (p l pc : Nat) : (s.setPc p l pc).memWf = s.memWf := (rfl)

@[simp] theorem State.memWf_fallThrough (fuel : Nat) : ∀ (s : State) (p l pc : Nat), s.memWf = true →
    (State.fallThrough fuel s p l pc).memWf = true := by
  induction fuel with
  | zero => intros; simpa [State.fallThrough]
  | succ n ih =>
    intro s p l pc hm
    unfold State.fallThrough
    split
    · simp [hm]
    · split
      · dsimp only
        split <;> simp [hm, ih]
      · split <;> simp [hm, ih]

@[simp] theorem State.memWf_armEntered (s : State) (p l from_ dest : Nat) (hm : s.memWf = true) :
    (s.armEntered p l from_ dest).memWf = true := by
  unfold State.armEntered
  split <;> simp +contextual [hm]

@[simp] theorem State.memWf_endIssue (s : State) (i : Issue) (hm : s.memWf = true) : (s.endIssue i).memWf = true := by
  fun_cases State.endIssue s i <;> simp +zetaDelta [*]

@[simp] theorem State.memWf_slotDone (s : State) (i : Issue) (slot : Nat) (hm : s.memWf = true) :
    (s.slotDone i slot).memWf = true := by simp [State.slotDone, hm]

@[simp] theorem State.memWf_onSlot (s : State) (i : Issue) (slot : Nat) (rs : List Nat) (busy : State → Bool) (f : State → State)
    (isEnd : Bool) (hm : s.memWf = true) (hf : ∀ t, t.memWf = true → (f t).memWf = true) :
    (s.onSlot i slot rs busy f isEnd).memWf = true := by
  have hg := Gate.memWf_gate s i slot isEnd hm
  unfold State.onSlot
  split
  · exact hm
  · simp_all
  · simp_all

@[simp] theorem State.memWf_ifLive (s : State) (i : Issue) (f : State → State) (hm : s.memWf = true) (hf : (f s).memWf = true) :
    (s.ifLive i f).memWf = true := by
  unfold State.ifLive
  split <;> assumption

/-! ### DdrOps -/

@[simp] theorem State.memWf_ddrKey (s : State) (p : Nat) : (s.ddrKey p).memWf = s.memWf := by simp [State.ddrKey]

/-! ### HuvOps -/

@[simp] theorem State.memWf_transmit (s : State) (h : Nat) (f : TxFrame) : (s.transmit h f).memWf = s.memWf := (rfl)

@[simp] theorem State.memWf_sendFrame (s : State) (h ty : Nat) (f : RxFrame) : (s.sendFrame h ty f).memWf = s.memWf := by
  simp [State.sendFrame]

@[simp] theorem State.memWf_returnCredits (s : State) (h : Nat) : (s.returnCredits h).memWf = s.memWf := by simp [State.returnCredits]
@[simp] theorem State.memWf_owe (s : State) (h ty vc : Nat) : (s.owe h ty vc).memWf = s.memWf := by simp [State.owe]

@[simp] theorem State.memWf_relay (s : State) (h : Nat) (t : TxFrame) : (s.relay h t).memWf = s.memWf := by
  unfold State.relay
  split <;> simp

@[simp] theorem State.memWf_drainWaiting (s : State) (h : Nat) : (s.drainWaiting h).memWf = s.memWf := by simp [State.drainWaiting]

@[simp] theorem State.memWf_sendCompletion (s : State) (dst wtag status : Nat) :
    (s.sendCompletion dst wtag status).memWf = s.memWf := by fun_cases State.sendCompletion s dst wtag status <;> simp

/-! ### TileOps -/

@[simp] theorem State.memWf_modTileAt (s : State) (p l : Nat) (f : Tile → Tile) : (s.modTileAt p l f).memWf = s.memWf := (rfl)
@[simp] theorem State.memWf_supersede (s : State) (p l : Nat) (regs : List Nat) : (s.supersede p l regs).memWf = s.memWf := (rfl)

/-! ### Fabric -/

@[simp] theorem State.memWf_openWindow (s : State) (id : Nat) (w : Win) : (s.openWindow id w).memWf = s.memWf := (rfl)

@[simp] theorem State.memWf_freeClosed (s : State) (id : Nat) (hm : s.memWf = true) : (s.freeClosed id).memWf = true := by
  simp [State.freeClosed, hm]

@[simp] theorem State.memWf_closeWindow (s : State) (id : Nat) (hm : s.memWf = true) : (s.closeWindow id).memWf = true := by
  simp [State.closeWindow, hm]

@[simp] theorem State.memWf_modWrite (s : State) (id : Nat) (f : Write → Write) : (s.modWrite id f).memWf = s.memWf := (rfl)
@[simp] theorem State.memWf_dropWrite (s : State) (id : Nat) : (s.dropWrite id).memWf = s.memWf := (rfl)
@[simp] theorem State.memWf_addWrite (s : State) (w : Write) : (s.addWrite w).memWf = s.memWf := (rfl)
@[simp] theorem State.memWf_failWrite (s : State) (id status : Nat) : (s.failWrite id status).memWf = s.memWf := (rfl)

@[simp] theorem State.memWf_sendRemote (s : State) (id : Nat) (w : Write) (hm : s.memWf = true) :
    (s.sendRemote id w).memWf = true := by fun_cases State.sendRemote s id w <;> simp +zetaDelta [*, State.memWf_log]

@[simp] theorem State.memWf_issueWrite (s : State) (w : Write) (hm : s.memWf = true) : (s.issueWrite w).2.memWf = true := by
  simp [State.issueWrite, State.newId, hm]

@[simp] theorem State.memWf_countLate (s : State) (id status : Nat) (hm : s.memWf = true) :
    (s.countLate id status).memWf = true := by simp [State.countLate, hm, State.memWf_log]

@[simp] theorem State.memWf_lateArrival (s : State) (h : DWord) (status : Nat) (hm : s.memWf = true) :
    (s.lateArrival h status).memWf = true := by simp [State.lateArrival, hm]

@[simp] theorem State.memWf_landLines (s : State) (p addr : Nat) (b : List Byte) (poison : List Bool) (hm : s.memWf = true) :
    (s.landLines p addr b poison).memWf = true := by simp [State.landLines, hm, State.memWf_writeLines]

@[simp] theorem State.memWf_landWrite (s : State) (w : Write) (hm : s.memWf = true) : (s.landWrite w).memWf = true := by
  fun_cases State.landWrite s w <;> simp +zetaDelta [*]

@[simp] theorem State.memWf_landDdrLine (s : State) (w : Write) (hm : s.memWf = true) : (s.landDdrLine w).memWf = true := by
  simp [State.landDdrLine, hm, State.memWf_ddrWrite]

/-! ### SSlot -/

@[simp] theorem Res.memWf_slotRes (ok : Bool) (mn : String) (s : State) : Res.memWf (slotRes ok mn s) = (!ok || s.memWf) := by
  cases ok <;> rfl

theorem Res.memWf_slotRes_of {ok : Bool} {mn : String} {s : State} (hm : s.memWf = true) : Res.memWf (slotRes ok mn s) = true := by
  simp [hm]

@[simp] theorem State.memWf_sBinary (s : State) (i : Issue) (w : DWord) (hm : s.memWf = true) : (s.sBinary i w).memWf = true := by
  simp +contextual [State.sBinary, hm]

@[simp] theorem State.memWf_emptyStep (s : State) (i : Issue) (hm : s.memWf = true) : (s.emptyStep i).memWf = true := by
  have hb := Gate.memWf_boundary s i false hm
  unfold State.emptyStep
  dsimp only
  split
  · exact hm
  · split
    · simp [hm]
    · split <;> simp_all

@[simp] theorem State.memWf_narrow (s : State) (i : Issue) (addr : Nat) (a : GAccess) (hm : s.memWf = true) :
    (s.narrow i addr a).memWf = true := by simp [State.narrow, hm]

@[simp] theorem State.memWf_scalarLoad (s : State) (i : Issue) (w : DWord) (hm : s.memWf = true) :
    (s.scalarLoad i w).memWf = true := by simp [State.scalarLoad, hm]

@[simp] theorem State.memWf_scalarStore (s : State) (i : Issue) (w : DWord) (hm : s.memWf = true) :
    (s.scalarStore i w).memWf = true := by simp [State.scalarStore, hm]

@[simp] theorem State.memWf_branchTo (s : State) (i : Issue) (w : DWord) : (s.branchTo i w).memWf = s.memWf := (rfl)

@[simp] theorem State.memWf_raggedStart (s : State) (i : Issue) (w : DWord) (hm : s.memWf = true) : (s.raggedStart i w).memWf = true := by
  have h0 (lp : Loop) : (s.flushTable i.part lp).memWf = true := by simp [hm]
  unfold State.raggedStart
  refine State.memWf_ifLive _ _ _ (h0 _) ?_
  dsimp only
  split
  · simp [h0]
  split
  · simp [h0]
  split
  · simp [h0]
  split
  · simp [h0]
  split <;> simp [h0]

/-! ### Posts -/

@[simp] theorem State.memWf_modPost (s : State) (id : Nat) (f : Post → Post) : (s.modPost id f).memWf = s.memWf := (rfl)
@[simp] theorem State.memWf_dropPost (s : State) (id : Nat) : (s.dropPost id).memWf = s.memWf := (rfl)
@[simp] theorem State.memWf_postDone (s : State) (x : Post) : (s.postDone x).memWf = s.memWf := by simp [State.postDone]

@[simp] theorem State.memWf_loadDesc (size : Nat) (ok : State → Post → List Byte → Bool) (zero last : List Byte → Bool) (fuel : Nat) :
    ∀ (s : State) (x : Post), s.memWf = true → (State.loadDesc size ok zero last fuel s x).memWf = true := by
  induction fuel with
  | zero => intro s x hm; simp [State.loadDesc, hm]
  | succ n ih => intro s x hm; simp [State.loadDesc, hm, ih]

@[simp] theorem State.memWf_loadDma (s : State) (x : Post) (hm : s.memWf = true) : (s.loadDma x).memWf = true := by
  simp [State.loadDma, hm]

@[simp] theorem State.memWf_sendDma (s : State) (x : Post) (hm : s.memWf = true) : (s.sendDma x).memWf = true := by
  unfold State.sendDma
  dsimp only
  split
  · exact hm
  · rw [State.memWf_modPost]
    exact State.memWf_issueWrite _ _ (by simp [hm])

@[simp] theorem State.memWf_kickDma (s : State) (hm : s.memWf = true) : s.kickDma.memWf = true := 
  State.memWf_foldl _ hm fun t x ht => by split <;> simp [ht]

@[simp] theorem State.memWf_nextDesc (s : State) (id : Nat) (load : State → Post → State) (hm : s.memWf = true)
    (hl : ∀ x, (load s x).memWf = true) : (s.nextDesc id load).memWf = true := by
  unfold State.nextDesc
  split
  · exact hm
  · split <;> simp [hm, hl]

@[simp] theorem State.memWf_dmaMoved (s : State) (x : Post) (n : Nat) (poison : Bool) (hm : s.memWf = true) :
    (s.dmaMoved x n poison).memWf = true := by simp [State.dmaMoved, hm]

@[simp] theorem State.memWf_hostUnitOut (s : State) (x : Post) (hm : s.memWf = true) : (s.hostUnitOut x).memWf = true := by
  simp [State.hostUnitOut, hm]

@[simp] theorem State.memWf_hostOut (fuel : Nat) : ∀ (s : State) (id : Nat), s.memWf = true → (State.hostOut fuel s id).memWf = true := by
  induction fuel with
  | zero => exact fun _ _ h => h
  | succ n ih =>
    intro s id hm
    unfold State.hostOut
    split
    · exact hm
    · split
      · exact hm
      · exact ih _ _ (by simp [hm])

@[simp] theorem State.memWf_newPost (s : State) (i : Issue) (q : PQueue) (w : Nat) : (s.newPost i q w).2.memWf = s.memWf := (rfl)

@[simp] theorem State.memWf_issueDma (s : State) (i : Issue) (second : Bool) (w : DWord) (hm : s.memWf = true) :
    (s.issueDma i second w).memWf = true := by simp [State.issueDma, hm]

@[simp] theorem Res.memWf_dmaSlot (op : Nat) (mn : String) (i : Issue) (second : Bool) (w : DWord) (s : State) (hm : s.memWf = true) :
    Res.memWf (dmaSlot op mn i second w s) = true := by simp +contextual [dmaSlot, hm]

@[simp] theorem State.memWf_dmaLineOut (s : State) (x : Post) (hm : s.memWf = true) : (s.dmaLineOut x).memWf = true := by
  fun_cases State.dmaLineOut s x
  next s1 _ _ =>
  have h1 : s1.memWf = true := by simp [s1, hm]
  simp [h1, State.memWf_ddrWrite]

@[simp] theorem State.memWf_hostUnitIn (s : State) (x : Post) (data : List Byte) (bad : Bool) (hm : s.memWf = true) :
    (s.hostUnitIn x data bad).memWf = true := by simp [State.hostUnitIn, hm]

@[simp] theorem State.memWf_nandIn (s : State) (x : Post) (bad : Bool) (hm : s.memWf = true) : (s.nandIn x bad).memWf = true := by
  simp [State.nandIn, hm]

/-! ### Arbiters -/

@[simp] theorem State.memWf_setArb (s : State) (ty inst : Nat) (a : Arbiter) : (s.setArb ty inst a).memWf = s.memWf := (rfl)
@[simp] theorem State.memWf_bankGrant (s : State) (bank cycles others : Nat) : (s.bankGrant bank cycles others).memWf = s.memWf := (rfl)

@[simp] theorem State.memWf_arbGive (s : State) (ty inst : Nat) (l : List Nat) (w : Nat) (keep : Option Nat) :
    (s.arbGive ty inst l w keep).memWf = s.memWf := by simp [State.arbGive]

@[simp] theorem State.memWf_urgentRefresh (s : State) (ty inst : Nat) : (s.urgentRefresh ty inst).memWf = s.memWf := by
  simp [State.urgentRefresh]

@[simp] theorem State.memWf_arbUrgent (s0 : State) (ty inst w : Nat) (l : List Nat) :
    (s0.arbUrgent ty inst w l).memWf = s0.memWf := by simp [State.arbUrgent]

@[simp] theorem State.memWf_arbDone (s : State) (ty inst : Nat) : (s.arbDone ty inst).memWf = s.memWf := (rfl)

/-! ### Dst -/

@[simp] theorem State.memWf_unloadImage (s : State) (p c : Nat) (hm : s.memWf = true) : (s.unloadImage p c).memWf = true := by
  unfold State.unloadImage
  split <;> simp +contextual [hm]

@[simp] theorem State.memWf_recheck (s : State) (p : Nat) (hm : s.memWf = true) : (s.recheck p).memWf = true := by
  refine State.memWf_foldl _ hm fun t c ht => ?_
  split
  · exact ht
  · split <;> simp [ht]

@[simp] theorem State.memWf_bindSpare (s : State) (p e : Nat) (hm : s.memWf = true) : (s.bindSpare p e).memWf = true := by
  simp [State.bindSpare, hm, State.memWf_log]

@[simp] theorem State.memWf_rebind (s : State) (p : Nat) (hm : s.memWf = true) : (s.rebind p).memWf = true := by
  fun_cases State.rebind s p
  next s1 s2 =>
  have h1 : s1.memWf = true := State.memWf_foldl _ hm fun t e ht => by simp [ht]
  have h2 : s2.memWf = true := by
    dsimp only [s2]
    split
    · exact h1
    · exact State.memWf_foldl _ h1 fun t c ht => by simp [ht]
  simp [h2]

/-! ### Banks -/

@[simp] theorem State.memWf_closeArbiter (s : State) (bank : Nat) : (s.closeArbiter bank).memWf = s.memWf := (rfl)

@[simp] theorem State.memWf_retireBank (s : State) (x y : Nat) (hm : s.memWf = true) : (s.retireBank x y).memWf = true := by
  have h0 (l : List Nat) : (l.foldl State.flush s).memWf = true := State.memWf_foldl _ hm fun t l ht => by simp [ht]
  have h5 (t : State) (ht : t.memWf = true) (f g : Bank → Bank) (d e : List Byte) :
      (((((t.modBank x f).modBank y g).closeArbiter x).log x 0x0303 0xFF d).notice noticeBankRetired 0xFF e).memWf = true :=
    State.memWf_notice (State.memWf_log (by simp [ht, State.memWf_modBank]) _ _ _ _ _) _ _ _
  have h1 (l : List Nat) : ({ l.foldl State.flush s with sp := { (l.foldl State.flush s).sp with
      mem := moveBlock 0 (l.foldl State.flush s).sp.mem 524288 x y
      poison := moveBlock false (l.foldl State.flush s).sp.poison 8192 x y } } : State).memWf = true := by
    simp [h0, wf_moveBlock]
  unfold State.retireBank
  dsimp only
  split
  · refine State.memWf_recheck _ _ (h5 _ ?_ _ _ _ _)
    split <;> simp only [State.memWf_modPart, h1]
  · refine h5 _ ?_ _ _ _ _
    split <;> simp only [State.memWf_modPart, h1]

@[simp] theorem State.memWf_judgeHot (s0 s : State) (p r bank : Nat) (hm : s.memWf = true) :
    (State.judgeHot s0 s p r bank).memWf = true := by
  unfold State.judgeHot
  dsimp only
  split
  · exact State.memWf_notice (by simp [hm, State.memWf_modBank]) _ _ _
  · exact State.memWf_modBank hm _ _

/-! ### CupOps -/

@[simp] theorem State.memWf_modSensor (s : State) (i : Nat) (f : Sensor → Sensor) : (s.modSensor i f).memWf = s.memWf := (rfl)
@[simp] theorem State.memWf_modGroup (s : State) (g : Nat) (f : Group → Group) : (s.modGroup g f).memWf = s.memWf := (rfl)
@[simp] theorem State.memWf_noteReady (s : State) : s.noteReady.memWf = s.memWf := by simp [State.noteReady]

/-! ### Stem -/

@[simp] theorem State.memWf_queueStem (s : State) (x : Post) (b : List Byte) : (s.queueStem x b).memWf = s.memWf := (rfl)

@[simp] theorem State.memWf_issueStem (s : State) (i : Issue) (w : Nat) (hm : s.memWf = true) : (s.issueStem i w).memWf = true := by
  have h1 : (s.newPost i .stem w).2.memWf = true := by simp [hm]
  have h2 (a n) : ((s.newPost i .stem w).2.flushRun i.part a n).memWf = true := by simp [hm]
  unfold State.issueStem
  dsimp only
  split
  · simp [h1]
  · refine State.memWf_ifLive _ _ _ (h2 _ _) ?_
    simp [h2]

@[simp] theorem State.memWf_endStem (s : State) (c : StemCmd) (status : Nat) (hm : s.memWf = true) :
    (s.endStem c status).memWf = true := by
  unfold State.endStem
  dsimp only
  split <;> simp [hm]

@[simp] theorem State.memWf_flushInputs (s : State) (c : StemCmd) (hm : s.memWf = true) : (s.flushInputs c).memWf = true := by
  fun_cases State.flushInputs s c
  next b y0 s1 =>
  have h1 : s1.memWf = true := by
    dsimp only [s1]
    split
    · exact hm
    · refine State.memWf_foldl _ hm fun t k ht => ?_
      split <;> simp [ht]
  simp [h1]

@[simp] theorem State.memWf_stemWrite (s : State) (c : StemCmd) (ls : List StemLine) (hm : s.memWf = true) :
    (s.stemWrite c ls).memWf = true := by simp [State.stemWrite, hm, State.take]

@[simp] theorem State.memWf_stemNext (s : State) (c : StemCmd) (hm : s.memWf = true) : (s.stemNext c).memWf = true := by
  unfold State.stemNext
  split <;> simp [hm]

/-! ### Cupola -/

@[simp] theorem State.memWf_anchorLost (s : State) (i : Nat) : (s.anchorLost i).memWf = s.memWf := by
  unfold State.anchorLost
  split <;> simp

@[simp] theorem State.memWf_strobeOne (s : State) (latches : List (Nat × Nat)) (i : Nat) (hm : s.memWf = true) :
    (s.strobeOne latches i).memWf = true := by
  unfold State.strobeOne
  dsimp only
  split
  · simp [hm]
  · split <;> simp [hm]

@[simp] theorem State.memWf_anchorEvent (s : State) (i : Nat) (t : Int) : (s.anchorEvent i t).memWf = s.memWf := by
  unfold State.anchorEvent
  split <;> simp

@[simp] theorem State.memWf_storeLine (s : State) (i y : Nat) (comps : List (Nat × List Nat)) (needed : Nat) :
    (s.storeLine i y comps needed).memWf = s.memWf := by simp [State.storeLine, State.take]

@[simp] theorem State.memWf_bayerLine (s : State) (i y : Nat) (above : List Nat) (line : Bool × List Nat) (below : List Nat) :
    (s.bayerLine i y above line below).memWf = s.memWf := by simp [State.bayerLine]

@[simp] theorem State.memWf_takeLine (s : State) (i gate y : Nat) (crcOk : Bool) (pixels : List Nat) :
    (s.takeLine i gate y crcOk pixels).memWf = s.memWf := by
  unfold State.takeLine
  dsimp only [State.take]
  repeat' split
  all_goals simp

@[simp] theorem State.memWf_joinImage (s : State) (i : Nat) : (s.joinImage i).memWf = s.memWf := by
  unfold State.joinImage
  split <;> simp

@[simp] theorem State.memWf_joinReturns (s : State) (i stamp : Nat) (first : Int) (l : List Ret) :
    (s.joinReturns i stamp first l).memWf = s.memWf := by
  unfold State.joinReturns
  split <;> simp

/-! ### Floam -/

@[simp] theorem State.memWf_cacheRead (s : State) (p : Nat) (hm : s.memWf = true) : (s.cacheRead p).memWf = true := by
  simp [State.cacheRead, hm]

@[simp] theorem State.memWf_loadFloam (fuel : Nat) : ∀ (s : State) (x : Post), s.memWf = true →
    (State.loadFloam fuel s x).memWf = true := by
  induction fuel with
  | zero => exact fun _ _ h => h
  | succ n ih =>
    intro s x hm
    have h1 (l) : (State.cacheRead (State.loadDesc 32 State.entryOk (fun b => fBytes b == 0) fLast 4097 s x) l).memWf = true := by
      simp [hm]
    unfold State.loadFloam
    dsimp only
    split
    · exact h1 _
    · split
      · exact h1 _
      · split
        · exact h1 _
        · simp [h1, ih]

@[simp] theorem State.memWf_writeTiles (x : Post) (l : List (List Byte × Bool)) : ∀ (s : State) (k : Nat), s.memWf = true →
    (s.writeTiles x k l).memWf = true := by
  induction l with
  | nil => exact fun _ _ h => h
  | cons e l ih =>
    intro s k hm
    unfold State.writeTiles
    split
    · exact ih _ _ (by simp [hm])
    · exact hm

@[simp] theorem State.memWf_poisonTiles (s : State) (x : Post) (k n : Nat) (hm : s.memWf = true) :
    (s.poisonTiles x k n).memWf = true := by simp [State.poisonTiles, hm]

@[simp] theorem State.memWf_logBlock (s : State) (x : Post) (hm : s.memWf = true) : (s.logBlock x).memWf = true := by
  simp [State.logBlock, hm, State.memWf_log]

@[simp] theorem State.memWf_endEntry (s : State) (x : Post) (hm : s.memWf = true) : (s.endEntry x).memWf = true := by
  fun_cases State.endEntry s x <;> next s1 bad s2 _ =>
    have h1 : s1.memWf = true := by simp [s1, hm]
    have h2 : s2.memWf = true := by
      dsimp only [s2]
      split
      · split <;> simp [h1]
      · exact h1
    simp [h2]

@[simp] theorem State.memWf_expandNext (s : State) (x : Post) (k : Nat) (m : Staged) (hm : s.memWf = true) :
    (s.expandNext x k m).memWf = true := by
  fun_cases State.expandNext s x k m <;> next s1 s2 y s3 _ =>
    have h1 : s1.memWf = true := by simp [s1, hm]
    have h2 : s2.memWf = true := by simp [s2, h1]
    simp [s3, h2]

/-! ### Loops -/

@[simp] theorem State.memWf_modLoop (s : State) (l : Nat) (f : CLoop → CLoop) : (s.modLoop l f).memWf = s.memWf := (rfl)
@[simp] theorem State.memWf_modSp (s : State) (n : Nat) (f : SpSlot → SpSlot) : (s.modSp n f).memWf = s.memWf := (rfl)
@[simp] theorem State.memWf_modCan (s : State) (n : Nat) (f : CanPort → CanPort) : (s.modCan n f).memWf = s.memWf := (rfl)

@[simp] theorem State.memWf_dropLines (s : State) (l mask : Nat) (hm : s.memWf = true) : (s.dropLines l mask).memWf = true := by
  simp [State.dropLines, hm, State.memWf_log]

@[simp] theorem State.memWf_startCan (s : State) (p : Nat) : (s.startCan p).memWf = s.memWf := by
  unfold State.startCan
  dsimp only [State.take]
  split
  · rfl
  · split
    · rfl
    · split <;> simp

@[simp] theorem State.memWf_sendCan (s : State) (p : Nat) (f : CanTx) (hm : s.memWf = true) : (s.sendCan p f).memWf = true := by
  simp [State.sendCan, hm]

@[simp] theorem State.memWf_queueSpi (s : State) (m : Nat) (t : SpiTx) : (s.queueSpi m t).memWf = s.memWf := by simp [State.queueSpi]

@[simp] theorem State.memWf_handOne (s : State) (l : Nat) (vals : Map Word) (j : Nat) : (s.handOne l vals j).memWf = s.memWf := by
  simp [State.handOne]

@[simp] theorem State.memWf_hand (s : State) (l : Nat) (vals : Map Word) (hm : s.memWf = true) : (s.hand l vals).memWf = true := by
  simp +contextual [State.hand, hm]

@[simp] theorem State.memWf_startCopy (s : State) (n : Nat) : (s.startCopy n).memWf = s.memWf := by
  unfold State.startCopy
  split <;> simp

@[simp] theorem State.memWf_retryCopies (s : State) : s.retryCopies.memWf = s.memWf := by simp [State.retryCopies]
@[simp] theorem State.memWf_spoilCopy (s : State) (n : Nat) : (s.spoilCopy n).memWf = s.memWf := (rfl)

@[simp] theorem State.memWf_supervise (s1 : State) (l : Nat) (y : Word) (hm : s1.memWf = true) :
    (s1.supervise l y).memWf = true := by simp [State.supervise, hm, State.memWf_log]

@[simp] theorem State.memWf_latch (s : State) (l : Nat) (r : Run) (spi : List (Nat × Word)) (hm : s.memWf = true) :
    (s.latch l r spi).memWf = true := by
  fun_cases State.latch s l r spi
  next s1 _ _ _ _ _ _ _ =>
  have h1 : s1.memWf = true := by
    dsimp only [s1]
    split <;> simp [hm]
  simp [h1]

@[simp] theorem State.memWf_triggerLoop (s : State) (l cycles : Nat) (hm : s.memWf = true) :
    (s.triggerLoop l cycles).memWf = true := by simp [State.triggerLoop, hm]

@[simp] theorem State.memWf_triggerAll (s : State) (ls : List Nat) (cycles : Nat) (hm : s.memWf = true) :
    (s.triggerAll ls cycles).memWf = true := by simp +contextual [State.triggerAll, hm]

@[simp] theorem State.memWf_pruneCan (s : State) : s.pruneCan.memWf = s.memWf := by simp [State.pruneCan]

@[simp] theorem State.memWf_countShort (s : State) (port ident : Nat) (p : List Byte) :
    (s.countShort port ident p).memWf = s.memWf := by simp [State.countShort]

@[simp] theorem Res.memWf_instr (op l : Nat) (s : State) (f : Run → DWord → Run) : Res.memWf (instr op l s f) = s.memWf := by
  unfold instr
  split <;> simp

@[simp] theorem State.memWf_report (s : State) (l : Nat) (r : Run) (hm : s.memWf = true) : (s.report l r).memWf = true := by
  simp [State.report, hm]

@[simp] theorem State.memWf_fenceNow (s : State) (l : Nat) (hm : s.memWf = true) : (s.fenceNow l).memWf = true := by
  simp [State.fenceNow, hm]

@[simp] theorem State.memWf_stopNow (s : State) (l : Nat) (hm : s.memWf = true) : (s.stopNow l).memWf = true := by
  simp [State.stopNow, hm]

@[simp] theorem State.memWf_endRun (s : State) (l : Nat) (r : Run) (hm : s.memWf = true) : (s.endRun l r).memWf = true := by
  fun_cases State.endRun s l r
  next s1 s2 s3 s4 =>
  have h1 : s1.memWf = true := by simp [s1, hm]
  have h2 : s2.memWf = true := State.memWf_foldl _ h1 fun t e ht => by simp [ht]
  have h4 : s4.memWf = true := by simp [s4, s3, h2]
  simp [h4]

/-! ### Sign -/

@[simp] theorem State.memWf_modLan (s : State) (f : Lantern → Lantern) : (s.modLan f).memWf = s.memWf := (rfl)
@[simp] theorem State.memWf_seal (s : State) : s.seal.memWf = s.memWf := (rfl)

@[simp] theorem State.memWf_measure (s : State) (i e : Nat) (d : List Byte) (hm : s.memWf = true) :
    (s.measure i e d).memWf = true := by simp [State.measure, hm, State.memWf_log]

@[simp] theorem State.memWf_measureSlot (s : State) (op slot : Nat) (d : List Byte) (hm : s.memWf = true) :
    (s.measureSlot op slot d).memWf = true := by simp [State.measureSlot, hm]

@[simp] theorem State.memWf_measureLife (s : State) (e : Nat) (hm : s.memWf = true) : (s.measureLife e).memWf = true := by
  simp [State.measureLife, hm]

@[simp] theorem State.memWf_setSlot (s : State) (n : Nat) (v : Slot) : (s.setSlot n v).memWf = s.memWf := (rfl)
@[simp] theorem State.memWf_mediaDone (s : State) (n : Nat) : (s.mediaDone n).memWf = s.memWf := (rfl)

@[simp] theorem State.memWf_logSignature (s : State) (code kind slot part : Nat) (hm : s.memWf = true) :
    (s.logSignature code kind slot part).memWf = true := by simp [State.logSignature, hm, State.memWf_log]

/-! ### Huveip -/

@[simp] theorem State.memWf_modPort (s : State) (h : Nat) (f : Port → Port) : (s.modPort h f).memWf = s.memWf := (rfl)

@[simp] theorem State.memWf_portNotice (s : State) (h : Nat) (hm : s.memWf = true) : (s.portNotice h).memWf = true := by
  simp [State.portNotice, hm, State.memWf_notice]

@[simp] theorem State.memWf_portLog (s : State) (h event reason : Nat) (hm : s.memWf = true) :
    (s.portLog h event reason).memWf = true := by simp [State.portLog, hm, State.memWf_log]

@[simp] theorem State.memWf_takeFrame (s : State) (ty : Nat) (rx : RxFrame) (hm : s.memWf = true) :
    (s.takeFrame ty rx).memWf = true := by
  unfold State.takeFrame
  dsimp only
  split
  · simp [hm, State.newId]
  · split <;> simp [hm]

@[simp] theorem State.memWf_countDrop (s : State) (h ty vc : Nat) : (s.countDrop h ty vc).memWf = s.memWf := by simp [State.countDrop]

@[simp] theorem State.memWf_dropFrame (s : State) (h ty status : Nat) (rx : RxFrame) :
    (s.dropFrame h ty status rx).memWf = s.memWf := by simp [State.dropFrame]

@[simp] theorem State.memWf_forwardFrame (s : State) (h k ty : Nat) (dateline : Bool) (rx : RxFrame) :
    (s.forwardFrame h k ty dateline rx).memWf = s.memWf := by simp [State.forwardFrame]

@[simp] theorem State.memWf_routeFrame (s : State) (h ty : Nat) (rx : RxFrame) (hm : s.memWf = true) :
    (s.routeFrame h ty rx).memWf = true := by
  unfold State.routeFrame
  split <;> simp [hm]

@[simp] theorem State.memWf_applyRoutes (fuel : Nat) : ∀ s : State, s.memWf = true → (State.applyRoutes fuel s).memWf = true := by
  induction fuel with
  | zero => exact fun _ h => h
  | succ n ih =>
    intro s hm
    unfold State.applyRoutes
    split
    · exact hm
    · exact ih _ (State.memWf_foldl _ (by simp [hm]) fun t f ht => by simp [ht])

@[simp] theorem State.memWf_loseSession (s : State) (h : Nat) (hm : s.memWf = true) : (s.loseSession h).memWf = true := by
  fun_cases State.loseSession s h
  next s1 s2 s3 s4 s5 s6 s7 s8 =>
  have h3 : s3.memWf = true := by simp [s3, s2, s1, hm]
  have h4 : s4.memWf = true := by
    refine State.memWf_foldl _ h3 fun t f ht => ?_
    split
    · split <;> simp [ht]
    · exact ht
  have h5 : s5.memWf = true := State.memWf_foldl _ h4 fun t f ht => by simp [ht]
  have h7 : s7.memWf = true := State.memWf_notice (State.memWf_log h5 _ _ _ _ _) _ _ _
  have h8 : s8.memWf = true := by
    dsimp only [s8]
    split
    · refine State.memWf_foldl _ h7 fun t p ht => ?_
      split
      · exact State.memWf_foldl _ ht fun u c hu => by simp [hu]
      · exact ht
    · exact h7
  simp [h8]

@[simp] theorem State.memWf_replay (s : State) (h : Nat) : (s.replay h).memWf = s.memWf := by simp [State.replay]

@[simp] theorem State.memWf_cutShort (s : State) (h ty : Nat) (rx : RxFrame) : (s.cutShort h ty rx).memWf = s.memWf := by
  unfold State.cutShort
  split <;> simp

@[simp] theorem State.memWf_crcFailed (s : State) (h : Nat) : (s.crcFailed h).memWf = s.memWf := (rfl)

@[simp] theorem Received.memWf_receive (s : State) (h ty : Nat) (rx : RxFrame) (hm : s.memWf = true) :
    (s.receive h ty rx).memWf = true := by
  fun_cases State.receive s h ty rx
  · exact hm
  · next nak _ _ => simp [nak, hm]
  · next nak _ _ _ n s1 =>
    have h1 : s1.memWf = true := by simp [s1, hm]
    simp [nak, h1]
  · next nak _ _ _ s1 s2 _ _ =>
    have h1 : s1.memWf = true := by simp [s1, hm]
    have h2 : s2.memWf = true := by simp [s2, h1]
    simp [nak, h2]
  · next s1 s2 _ s3 =>
    have h1 : s1.memWf = true := by simp [s1, hm]
    have h2 : s2.memWf = true := by simp [s2, h1]
    simp [s3, h2]

@[simp] theorem State.memWf_writeFrame (s : State) (h ty : Nat) (rx : RxFrame) (hm : s.memWf = true) :
    (s.writeFrame h ty rx).memWf = true := by
  have hr := Received.memWf_receive s h ty rx hm
  unfold State.writeFrame
  split <;> simp_all

@[simp] theorem State.memWf_modSession (s : State) (h : Nat) (f : Session → Session) : (s.modSession h f).memWf = s.memWf := (rfl)
@[simp] theorem State.memWf_abortBringup (s : State) (h reason : Nat) : (s.abortBringup h reason).memWf = s.memWf := (rfl)

@[simp] theorem State.memWf_linkMessage (s : State) (h kind : Nat) (msg : List Byte) :
    (s.linkMessage h kind msg).memWf = s.memWf := by simp [State.linkMessage]

@[simp] theorem State.memWf_sendReport (s : State) (h : Nat) : (s.sendReport h).memWf = s.memWf := by simp [State.sendReport]
@[simp] theorem State.memWf_startRekey (s : State) (h : Nat) : (s.startRekey h).memWf = s.memWf := by simp [State.startRekey, State.take]

@[simp] theorem State.memWf_rekeyed (s : State) (h : Nat) (secret : List Byte) (switchTx switchRx : Nat) :
    (s.rekeyed h secret switchTx switchRx).memWf = s.memWf := (rfl)

@[simp] theorem State.memWf_degrade (s : State) (h lane : Nat) (hm : s.memWf = true) : (s.degrade h lane).memWf = true := by
  fun_cases State.degrade s h lane
  · next s1 =>
    have h1 : s1.memWf = true := by simp [s1, hm]
    simp [h1]
  · simp [hm]

@[simp] theorem State.memWf_floodPace (s : State) (but : Nat) (payload : List Byte) : (s.floodPace but payload).memWf = s.memWf := by
  simp [State.floodPace]

@[simp] theorem State.memWf_setPace (s : State) (p source : Nat) (v : Option Nat) (hm : s.memWf = true) :
    (s.setPace p source v).memWf = true := by simp [State.setPace, hm, State.memWf_notice]

@[simp] theorem State.memWf_liftPace (s : State) (p source : Nat) (hm : s.memWf = true) : (s.liftPace p source).memWf = true := by
  simp [State.liftPace, hm]

@[simp] theorem State.memWf_takePace (s : State) (h : Nat) (b : List Byte) (hm : s.memWf = true) :
    (s.takePace h b).memWf = true := by simp +contextual [State.takePace, hm]

/-! ### JobEvents -/

@[simp] theorem State.memWf_fetchReturn (s : State) (p l : Nat) (hm : s.memWf = true) : (s.fetchReturn p l).memWf = true := by
  simp [State.fetchReturn, hm]

@[simp] theorem State.memWf_clearCounters (s : State) (p : Nat) (x : Ctx) (im : Image) : (s.clearCounters p x im).memWf = s.memWf := by
  dsimp only [State.clearCounters]
  simp

@[simp] theorem State.memWf_shortOfPages (s : State) (p need : Nat) (named : List Nat) (hm : s.memWf = true) :
    (s.shortOfPages p need named).1.memWf = true := by
  unfold State.shortOfPages
  dsimp only
  split <;> simp [hm]

@[simp] theorem State.memWf_startJob (s : State) (p c : Nat) (hm : s.memWf = true) : (s.startJob p c).memWf = true := by
  unfold State.startJob
  dsimp only
  split
  · split
    · exact hm
    · split
      · simp [hm]
      · split
        · split <;> simp [hm]
        · next t ht =>
          have ht : t.memWf = true := State.memWf_allocAll _ (fun u hu => by cases hu; exact hm) ht
          have write (u : State) (hu : u.memWf = true) (b : Prop) [Decidable b] (a : Nat) (l : List Byte) :
              (if b then u else u.writeBytes p a l).memWf = true := by
            split
            · exact hu
            · exact State.memWf_writeBytes hu _ _ _ _
          split
          · exact ht
          · refine State.memWf_schedule _ _ ?_
            rw [State.memWf_modCtx]
            refine write _ ?_ _ _ _
            split
            · exact State.memWf_writeBytes (by simp [ht]) _ _ _ _
            · simp [ht]
  · exact hm

@[simp] theorem State.memWf_retryStarts (s : State) (p : Nat) (hm : s.memWf = true) : (s.retryStarts p).memWf = true := by
  simp +contextual [State.retryStarts, hm]

@[simp] theorem State.memWf_swapFault (s : State) (p unit : Nat) (carried : Bool) (hm : s.memWf = true) :
    (s.swapFault p unit carried).memWf = true := by simp [State.swapFault, hm, State.memWf_log]

@[simp] theorem State.memWf_kvUnitIn (s : State) (p unit : Nat) (r : SwapUnit) (data : List Byte) (bad : Bool) (hm : s.memWf = true) :
    (s.kvUnitIn p unit r data bad).memWf = true := by
  fun_cases State.kvUnitIn s p unit r data bad
  · simp [hm]
  · next g t ht n a begun b t1 t2 =>
    have h1 : t1.memWf = true := State.memWf_foldl _ (State.memWf_allocPage hm ht) fun u i hu => State.memWf_ddrWrite hu _ _ _
    have h2 : t2.memWf = true := by simp [t2, h1]
    exact State.memWf_schedule _ _ (by simp [h2])

@[simp] theorem State.memWf_preempt (s : State) (p : Nat) : (s.preempt p).memWf = s.memWf := by
  unfold State.preempt
  split <;> simp

/-! ### VSlot -/

@[simp] theorem State.memWf_vToReg (s : State) (i : Issue) (o : VOp) (words : List Word) (flags : Nat) (poison : Bool) :
    (s.vToReg i o words flags poison).memWf = s.memWf := by simp [State.vToReg]

@[simp] theorem State.memWf_vToMem (s : State) (i : Issue) (o : VOp) (pieces : List (Nat × List Byte)) (flags : Nat) (poison : Bool) :
    (s.vToMem i o pieces flags poison).memWf = s.memWf := by simp [State.vToMem]

@[simp] theorem State.memWf_vMap (s : State) (i : Issue) (o : VOp) (n : Nat) (f : Nat → Word → Word → Word → Word × Nat)
    (hm : s.memWf = true) :
    (s.vMap i o n f).memWf = true := by simp [State.vMap, hm, State.take]

@[simp] theorem State.memWf_vReduce (s : State) (i : Issue) (w : BitVec 96) (f : VOp → Nat → List Word → Nat × Nat) (hm : s.memWf = true) :
    (s.vReduce i w f).memWf = true := by simp [State.vReduce, hm, State.take]

/-! ### XSlot -/

@[simp] theorem State.memWf_xFlush (s : State) (i : Issue) (w : DWord) (hm : s.memWf = true) : (s.xFlush i w).memWf = true := by
  simp [State.xFlush, hm]

@[simp] theorem State.memWf_sawPoison (s : State) (i : Issue) (poison : List Bool) : (s.sawPoison i poison).memWf = s.memWf := by
  simp [State.sawPoison]

@[simp] theorem State.memWf_issuePut (s : State) (i : Issue) (w : DWord) (hm : s.memWf = true) : (s.issuePut i w).memWf = true := by
  have hx : (s.xFlush i w).memWf = true := by simp [hm]
  unfold State.issuePut
  refine State.memWf_ifLive _ _ _ hx ?_
  dsimp only
  split
  · simp [hx]
  · split <;> simp [hx]

@[simp] theorem State.memWf_issueHalo (s : State) (i : Issue) (w : DWord) (hm : s.memWf = true) : (s.issueHalo i w).memWf = true := by
  have hx : (s.xFlush i w).memWf = true := by simp [hm]
  unfold State.issueHalo
  refine State.memWf_ifLive _ _ _ hx ?_
  dsimp only
  split
  · simp [hx]
  · split <;> simp [hx, State.newId]

/-! ### WSlot -/

@[simp] theorem State.memWf_wData (s : State) (i : Issue) (o : WOpd) : (s.wData i o).2.2.memWf = s.memWf := by
  unfold State.wData
  split <;> simp [State.take]

@[simp] theorem State.memWf_issueWb (s : State) (i : Issue) (o : WOpd) (hm : s.memWf = true) : (s.issueWb i o).memWf = true := by
  have hd : (s.wData i o).2.2.memWf = true := by simp [hm]
  unfold State.issueWb
  dsimp only
  split <;> simp_all [State.newId]

@[simp] theorem State.memWf_issueWbw (s : State) (i : Issue) (o : WOpd) (hm : s.memWf = true) : (s.issueWbw i o).memWf = true := by
  have hd : (s.wData i o).2.2.memWf = true := by simp [hm]
  unfold State.issueWbw
  dsimp only
  split <;> simp_all

@[simp] theorem State.memWf_issueRecord (s : State) (i : Issue) (w : DWord) (hm : s.memWf = true) : (s.issueRecord i w).memWf = true := by
  have h1 (a n) : (s.flushRun i.part a n).memWf = true := by simp [hm]
  unfold State.issueRecord
  refine State.memWf_ifLive _ _ _ (h1 _ _) ?_
  simp [h1, State.newId]

/-! ### Cmds -/

@[simp] theorem State.memWf_refuse (s : State) (q no code : Nat) (hm : s.memWf = true) : (s.refuse q no code).memWf = true := by
  simp [State.refuse, hm]

@[simp] theorem State.memWf_settle (s : State) (q : Nat) (c : Cmd) (d : Done) (hm : s.memWf = true) (hd : d.memWf = true) :
    (s.settle q c d).memWf = true := by cases d <;> simp_all [State.settle, State.memWf_accept]

@[simp] theorem State.memWf_serve (s : State) (q op : Nat) (mine : Cmd → Bool) (f : State → Cmd → Done) (hm : s.memWf = true)
    (hf : ∀ c, (f s c).memWf = true) : (s.serve q op mine f).memWf = true := by
  obtain h | ⟨c, -, -, -, -, ⟨code, -, h⟩ | ⟨-, h⟩⟩ := s.serve_cases q op mine f
  · rw [h, hm]
  · rw [h]; simp [hm]
  · rw [h]; simp [hm, hf]

@[simp] theorem State.memWf_serveArgs (s : State) (q op : Nat) (f : State → List Byte → List Byte → Done) (hm : s.memWf = true)
    (hf : ∀ a b, (f s a b).memWf = true) : (s.serveArgs q op f).memWf = true := by
  simp [State.serveArgs, hm, hf]

/-! ### HostEvents -/

@[simp] theorem State.memWf_modHost (s : State) (f : HostIf → HostIf) : (s.modHost f).memWf = s.memWf := (rfl)
@[simp] theorem State.memWf_modBar (s : State) (f : Bar0 → Bar0) : (s.modBar f).memWf = s.memWf := (rfl)
@[simp] theorem State.memWf_message (s : State) (v : Nat) : (s.message v).memWf = s.memWf := by simp [State.message]
@[simp] theorem State.memWf_detach (s : State) (hm : s.memWf = true) : s.detach.memWf = true := by simp +contextual [State.detach, hm]
@[simp] theorem State.memWf_msixWord (s : State) (w v : Nat) : (s.msixWord w v).memWf = s.memWf := by simp [State.msixWord]

@[simp] theorem State.memWf_barWrite32 (s : State) (offset v : Nat) : (s.barWrite32 offset v).memWf = s.memWf := by
  simp [State.barWrite32]

@[simp] theorem State.memWf_postEntry (s : State) (q : Nat) (c : Cmd) : (s.postEntry q c).memWf = s.memWf := by simp [State.postEntry]
@[simp] theorem State.memWf_stopQueue (s : State) (q : Nat) (c : Cmd) : (s.stopQueue q c).memWf = s.memWf := by simp [State.stopQueue]

/-! ### SessionCmds -/

@[simp] theorem State.memWf_discard (s : State) (hm : s.memWf = true) : (s.discard).memWf = true := by
  fun_cases State.discard s
  next drop s1 =>
  have hd (t : State) (p c : Nat) (ht : t.memWf = true) : (drop t p c).memWf = true := by simp [drop, ht]
  have h1 : s1.memWf = true := State.memWf_foldl _ hm fun t p ht => State.memWf_foldl _ ht fun u c hu => hd u p c hu
  simp [h1]

@[simp] theorem Done.memWf_openSession (s : State) (inl x2 : List Byte) (hm : s.memWf = true) :
    (s.openSession inl x2).memWf = true := by simp [State.openSession, hm, State.take]

@[simp] theorem State.memWf_postHeld (fuel : Nat) : ∀ (s : State) (q : Nat), s.memWf = true → (State.postHeld fuel s q).2.memWf = true := by
  induction fuel with
  | zero => exact fun _ _ h => h
  | succ n ih =>
    intro s q hm
    unfold State.postHeld
    split
    · exact hm
    · split
      · exact hm
      · exact ih _ _ (by simp [hm])

@[simp] theorem Done.memWf_resumeSession (s : State) (inl blk : List Byte) (hm : s.memWf = true) :
    (s.resumeSession inl blk).memWf = true := by
  unfold State.resumeSession
  split
  · rfl
  · dsimp only
    rw [Done.memWf_ok]
    refine State.memWf_foldl_snd _ (fun a q ha => ?_) _ ?_
    · exact State.memWf_postHeld (a.2.queue q).cmds.length a.2 q ha
    · rw [State.memWf_modHost]; exact hm

@[simp] theorem Done.memWf_createQueue (s : State) (x1 blk : List Byte) (hm : s.memWf = true) :
    (s.createQueue x1 blk).memWf = true := by
  unfold State.createQueue
  dsimp only
  split <;> simp [hm]

@[simp] theorem Done.memWf_destroyQueue (s : State) (inl x2 : List Byte) (hm : s.memWf = true) :
    (s.destroyQueue inl x2).memWf = true := by simp [State.destroyQueue, hm]

@[simp] theorem Done.memWf_restartStopped (s : State) (inl x2 : List Byte) (hm : s.memWf = true) :
    (s.restartStopped inl x2).memWf = true := by simp [State.restartStopped, hm]

@[simp] theorem Done.memWf_configureArbiter (s : State) (inl x2 : List Byte) (hm : s.memWf = true) :
    (s.configureArbiter inl x2).memWf = true := by simp [State.configureArbiter, hm]

/-! ### Frames -/

@[simp] theorem State.memWf_stopGroup (s : State) (g : Nat) (hm : s.memWf = true) : (s.stopGroup g).memWf = true := by
  simp +contextual [State.stopGroup, hm]

@[simp] theorem State.memWf_frameDone (s : State) (g : Nat) (hm : s.memWf = true) : (s.frameDone g).memWf = true := by
  unfold State.frameDone
  split <;> simp [hm]

@[simp] theorem State.memWf_outputFault (s : State) (g : Nat) (hm : s.memWf = true) : (s.outputFault g).memWf = true := by
  simp [State.outputFault, hm, State.memWf_log]

@[simp] theorem State.memWf_outWrite (s : State) (g k : Nat) (f : Frame) (data : List Byte) (tctr tamt : Nat) (hm : s.memWf = true) :
    (s.outWrite g k f data tctr tamt).2.memWf = true := State.memWf_issueWrite _ _ hm

@[simp] theorem State.memWf_frameWrite (s : State) (g k : Nat) (data : List Byte) (hm : s.memWf = true) :
    (s.frameWrite g k data).memWf = true := by
  unfold State.frameWrite
  split
  · exact hm
  · split <;> simp [hm]

@[simp] theorem State.memWf_headerWrite (s : State) (g : Nat) (f : Frame) (hm : s.memWf = true) : (s.headerWrite g f).memWf = true := by
  simp [State.headerWrite, hm]

@[simp] theorem State.memWf_clearMap (s : State) (g : Nat) : (s.clearMap g).memWf = s.memWf := (rfl)

@[simp] theorem State.memWf_issueFrame (s : State) (g : Nat) (h : Head) (lost : Bool) (points grid depth : List Byte)
    (hm : s.memWf = true) :
    (s.issueFrame g h lost points grid depth).memWf = true := by
  have hw (t : State) (k : Nat) (d : List Byte) (ht : t.memWf = true) : (t.frameWrite g k d).memWf = true := by simp [ht]
  unfold State.issueFrame
  dsimp only
  split
  · exact hw _ _ _ (hw _ _ _ (hw _ _ _ (by simp [hm])))
  · simp [hm]

@[simp] theorem State.memWf_judged (s : State) (g i : Nat) (v : Option Bool) (hm : s.memWf = true) :
    (s.judged g i v).memWf = true := by
  unfold State.judged
  split <;> simp [hm, State.memWf_log]

@[simp] theorem State.memWf_closeMember (s : State) (g i : Nat) (t : Int) (j : Joined) (verdict : Option Verdict) (rejected : Nat)
    (hm : s.memWf = true) :
    (s.closeMember g i t j verdict rejected).memWf = true := by simp [State.closeMember, hm]

@[simp] theorem State.memWf_assemble (s : State) (g : Nat) (f : Frame) (hm : s.memWf = true) : (s.assemble g f).memWf = true := by
  fun_cases State.assemble s g f
  rename_i s1 head s2 s3 depth
  have h0 := State.memWf_snd ‹s.take (2 ^ 32) = _› ((State.memWf_take s _).trans hm)
  have h1 : s1.memWf = true := State.memWf_foldl _ h0 fun t e ht => by simp [ht]
  have h3 : s3.memWf = true := by simp [s3, s2, h1]
  simp [h3]

@[simp] theorem State.memWf_cupolaDone (s : State) (g id status : Nat) (hm : s.memWf = true) :
    (s.cupolaDone g id status).memWf = true := by
  unfold State.cupolaDone
  split <;> simp [hm]

@[simp] theorem State.memWf_releaseSlots (s : State) (g amount : Nat) : (s.releaseSlots g amount).memWf = s.memWf := (rfl)

/-! ### Steeple -/

@[simp] theorem State.memWf_modStp (s : State) (f : Steeple → Steeple) : (s.modStp f).memWf = s.memWf := (rfl)

@[simp] theorem State.memWf_placeBoxes (s : State) (g : Nat) (set : List GBox) (motion : Option (V3 × V3)) (time : Int) (urgent : Bool) :
    (s.placeBoxes g set motion time urgent).memWf = s.memWf := (rfl)

@[simp] theorem State.memWf_boxTrigger (s : State) (g : Nat) (urgent : Bool) : (s.boxTrigger g urgent).memWf = s.memWf := by
  simp [State.boxTrigger]

@[simp] theorem State.memWf_editWorld (s : State) (q n : Nat) (rs : List (List Byte)) (hm : s.memWf = true) :
    (s.editWorld q n rs).memWf = true := by
  unfold State.editWorld
  split <;> simp [hm]

@[simp] theorem State.memWf_buildOp (s : State) (x1 : BuildOp) (hm : s.memWf = true) : (s.buildOp x1).memWf = true := by
  unfold State.buildOp
  split <;> simp [hm]

@[simp] theorem State.memWf_takeQuery (s : State) (w : Write) (p : Nat) : (s.takeQuery w p).memWf = s.memWf := by
  simp [State.takeQuery, State.take]

@[simp] theorem State.memWf_countTests (s : State) (n : Nat) : (s.countTests n).memWf = s.memWf := (rfl)

@[simp] theorem State.memWf_endQuery (s : State) (r : Running) (status : Nat) (elapsed node : Option Nat) (hit : Nat) :
    (s.endQuery r status elapsed node hit).memWf = s.memWf := (rfl)

@[simp] theorem State.memWf_startQuery (s : State) (q : Query) (hm : s.memWf = true) : (s.startQuery q).memWf = true := by
  unfold State.startQuery
  dsimp only [State.take]
  split
  · simp [hm]
  · split
    · simp [hm]
    · split <;> simp [hm]

@[simp] theorem State.memWf_checkBudgets (s : State) (r : Running) (elapsed : Nat) : (s.checkBudgets r elapsed).memWf = s.memWf := by
  unfold State.checkBudgets
  split <;> simp

@[simp] theorem State.memWf_expand (fuel : Nat) : ∀ (s : State) (r : Running) (elapsed seed : Nat), s.memWf = true →
    (State.expand fuel s r elapsed seed).memWf = true := by
  induction fuel with
  | zero => intro s r elapsed seed hm; simp [State.expand, hm]
  | succ n ih =>
    intro s r elapsed seed hm
    unfold State.expand
    split
    · simp [hm]
    · dsimp only
      split
      · exact ih _ _ _ _ hm
      · split <;> simp [hm]

@[simp] theorem State.memWf_modEnded (s : State) (e f : Ended) : (s.modEnded e f).memWf = s.memWf := (rfl)

@[simp] theorem State.memWf_finishQuery (s : State) (e : Ended) (outcome : Nat) (hm : s.memWf = true) :
    (s.finishQuery e outcome).memWf = true := by fun_cases State.finishQuery s e outcome <;> simp +zetaDelta [*]

@[simp] theorem State.memWf_writeResult (s : State) (e : Ended) (hm : s.memWf = true) : (s.writeResult e).memWf = true := by
  unfold State.writeResult
  simp [hm]

@[simp] theorem State.memWf_forward (s : State) (e : Ended) (hm : s.memWf = true) : (s.forward e).memWf = true := by
  simp [State.forward, hm, State.take]

@[simp] theorem State.memWf_steepleDone (s : State) (id status : Nat) (hm : s.memWf = true) :
    (s.steepleDone id status).memWf = true := by
  unfold State.steepleDone
  split <;> simp [hm]

@[simp] theorem State.memWf_dropQueries (s : State) (p : Nat) : (s.dropQueries p).memWf = s.memWf := (rfl)

/-! ### WriteEvents -/

@[simp] theorem State.memWf_noteAccept (s : State) (w : Write) : (s.noteAccept w).memWf = s.memWf := by
  unfold State.noteAccept
  split <;> simp

@[simp] theorem State.memWf_applyIncrement (s : State) (w : Write) (hm : s.memWf = true) : (s.applyIncrement w).memWf = true := by
  fun_cases State.applyIncrement s w <;> simp +zetaDelta [*]

@[simp] theorem State.memWf_dmaDone (s : State) (x : Post) (status : Nat) (hm : s.memWf = true) :
    (s.dmaDone x status).memWf = true := by simp [State.dmaDone, hm]

@[simp] theorem State.memWf_answer (s : State) (w : Write) (hm : s.memWf = true) : (s.answer w).memWf = true := by
  fun_cases State.answer s w <;> simp +zetaDelta [*]

@[simp] theorem State.memWf_sendWaiting (s : State) (hm : s.memWf = true) : s.sendWaiting.memWf = true := by
  unfold State.sendWaiting
  split <;> simp [hm]

/-! ### PartCmds -/

@[simp] theorem State.memWf_keyPair (s : State) (p : Nat) (hm : s.memWf = true) : (s.keyPair p).memWf = true := by
  simp [State.keyPair, hm, State.memWf_ddrForget]

@[simp] theorem Done.memWf_configurePartition (s : State) (x1 blk : List Byte) (hm : s.memWf = true) :
    (s.configurePartition x1 blk).memWf = true := by
  unfold State.configurePartition
  dsimp only
  split <;> simp [hm]

@[simp] theorem State.memWf_bindSequencer (s : State) (p : Nat) : (s.bindSequencer p).memWf = s.memWf := (rfl)

@[simp] theorem State.memWf_bindSpares (s : State) (p : Nat) (hm : s.memWf = true) : (s.bindSpares p).memWf = true :=
  State.memWf_foldl _ hm fun t e ht => by simp [ht]

@[simp] theorem State.memWf_retainBanks (s : State) (p : Nat) (on : Bool) (hm : s.memWf = true) :
    (s.retainBanks p on).memWf = true := by simp +contextual [State.retainBanks, hm, State.memWf_modBank]

@[simp] theorem Done.memWf_enablePartition (s : State) (inl blk : List Byte) (hm : s.memWf = true) :
    (s.enablePartition inl blk).memWf = true := by
  have h1 (p : Nat) : ((((s.bindSpares p).retainBanks p false).bindSequencer p).recheck p).memWf = true :=
    State.memWf_recheck _ _ (by simp [hm])
  unfold State.enablePartition
  dsimp only
  split
  · rfl
  · simp [h1]

@[simp] theorem State.memWf_loseTiles (s : State) (p : Nat) : (s.loseTiles p).memWf = s.memWf := by simp [State.loseTiles, State.take]

@[simp] theorem State.memWf_enterA2 (s : State) (p : Nat) (hm : s.memWf = true) : (s.enterA2 p).memWf = true := by
  simp [State.enterA2, hm]

@[simp] theorem Done.memWf_disablePartition (s : State) (inl x2 : List Byte) (hm : s.memWf = true) :
    (s.disablePartition inl x2).memWf = true := by
  unfold State.disablePartition
  dsimp only
  split <;> simp [hm]

@[simp] theorem State.memWf_settleWrite (s : State) (w : Write) (hm : s.memWf = true) : (s.settleWrite w).memWf = true := by
  simp +contextual [State.settleWrite, hm]

@[simp] theorem State.memWf_closeSp (s : State) (n : Nat) : (s.closeSp n).memWf = s.memWf := (rfl)

@[simp] theorem State.memWf_shutWindows (s : State) (p : Nat) (hm : s.memWf = true) : (s.shutWindows p).memWf = true := by
  fun_cases State.shutWindows s p
  next ids ws s1 s2 =>
  have h1 : s1.memWf = true := State.memWf_foldl _ hm fun t w ht => by simp [ht]
  have h2 : s2.memWf = true := by
    refine State.memWf_foldl _ h1 fun t k ht => ?_
    split <;> simp [ht]
  rw [State.memWf_dropQueries]
  exact State.memWf_foldl _ h2 fun t k ht => by simp [ht]

@[simp] theorem State.memWf_resetTiles (s : State) (p : Nat) (hm : s.memWf = true) : (s.resetTiles p).memWf = true := by
  simp [State.resetTiles, hm]

@[simp] theorem State.memWf_endJobs (s : State) (p : Nat) (hm : s.memWf = true) : (s.endJobs p).memWf = true := by
  unfold State.endJobs
  rw [State.memWf_modPart]
  exact State.memWf_foldl _ hm fun t c ht => by simp [ht]

@[simp] theorem State.memWf_resetPartition (s : State) (p : Nat) (hm : s.memWf = true) : (s.resetPartition p).memWf = true := by
  fun_cases State.resetPartition s p
  next stopped was s1 s2 s3 =>
  have h1 : s1.memWf = true := by simp [s1, hm]
  have h2 : s2.memWf = true := by simp [s2, h1]
  have h3 : s3.memWf = true := State.memWf_zeroBanks _ h2
  simp [h3]

/-! ### ProgCmds -/

@[simp] theorem State.memWf_openAll (l : List Win) : ∀ s : State, s.memWf = true → (s.openAll l).1.memWf = true := by
  induction l with
  | nil => exact fun _ h => h
  | cons w l ih =>
    intro s hm
    dsimp only [State.openAll]
    cases s.freeWindow with
    | none => exact hm
    | some id => exact ih (s.openWindow id w) (by rw [State.memWf_openWindow, hm])

@[simp] theorem State.memWf_install (s : State) (p c slot : Nat) (b : List Byte) (hm : s.memWf = true) :
    (s.install p c slot b).memWf = true := by
  fun_cases State.install s p c slot b
  next im q bases base ws r hs s1 s2 im' =>
  have hr : r.1.memWf = true := State.memWf_openAll ws s hm
  have h1 : s1.memWf = true := by simp [s1, hr]
  have h2 : s2.memWf = true := by simp [s2, h1]
  simp [h2]

@[simp] theorem Done.memWf_programLoad (s : State) (inl x2 : List Byte) (hm : s.memWf = true) :
    (s.programLoad inl x2).memWf = true := by fun_cases State.programLoad s inl x2 <;> simp +zetaDelta [*]

@[simp] theorem Done.memWf_programUnload (s : State) (inl x2 : List Byte) (hm : s.memWf = true) :
    (s.programUnload inl x2).memWf = true := by
  unfold State.programUnload
  dsimp only
  split <;> simp [hm]

@[simp] theorem Done.memWf_stageModel (s : State) (inl : List Byte) (mode : Nat) (f : State → Nat → Staged → Done) (hm : s.memWf = true)
    (hf : ∀ t p m, t.memWf = true → (f t p m).memWf = true) : (s.stageModel inl mode f).memWf = true := by
  unfold State.stageModel
  dsimp only
  split
  · rfl
  · split
    · simp [hm]
    · split
      · simp [hm]
      · split
        · rfl
        · exact hf _ _ _ (by simp [hm])

@[simp] theorem State.memWf_putModel (s : State) (p : Nat) (m : Staged) : (s.putModel p m).memWf = s.memWf := (rfl)

@[simp] theorem Done.memWf_modelUnstage (s : State) (inl x2 : List Byte) (hm : s.memWf = true) :
    (s.modelUnstage inl x2).memWf = true := by
  unfold State.modelUnstage
  dsimp only
  split <;> simp [hm]

@[simp] theorem Done.memWf_modelEvict (s : State) (inl x2 : List Byte) (hm : s.memWf = true) :
    (s.modelEvict inl x2).memWf = true := by
  unfold State.modelEvict
  dsimp only
  split
  · simp [hm]
  · split <;> simp [hm]

@[simp] theorem Done.memWf_jobSubmit (s : State) (q : Nat) (c : Cmd) (hm : s.memWf = true) : (s.jobSubmit q c).memWf = true := by
  fun_cases State.jobSubmit s q c <;> simp +zetaDelta [*]

@[simp] theorem Done.memWf_jobPreempt (s : State) (q : Nat) (c : Cmd) (hm : s.memWf = true) : (s.jobPreempt q c).memWf = true := by
  simp [State.jobPreempt, hm]

@[simp] theorem Done.memWf_jobAbort (s : State) (inl x2 : List Byte) (hm : s.memWf = true) : (s.jobAbort inl x2).memWf = true := by
  simp [State.jobAbort, hm]

/-! ### MemCmds -/

@[simp] theorem Done.memWf_defineRegion (s : State) (x1 b : List Byte) (hm : s.memWf = true) :
    (s.defineRegion x1 b).memWf = true := by
  unfold State.defineRegion
  split <;> simp +contextual [hm, State.memWf_zeroBanks, State.memWf_modBank]

@[simp] theorem State.memWf_dropCached (s : State) (p addr n : Nat) : (s.dropCached p addr n).memWf = s.memWf := (rfl)

@[simp] theorem Done.memWf_releaseRegion (s : State) (inl x2 : List Byte) (hm : s.memWf = true) :
    (s.releaseRegion inl x2).memWf = true := by simp +contextual [State.releaseRegion, hm, State.memWf_zeroBanks, State.memWf_modBank]

@[simp] theorem Done.memWf_reseedRegion (s : State) (inl x2 : List Byte) (hm : s.memWf = true) :
    (s.reseedRegion inl x2).memWf = true := by simp [State.reseedRegion, hm, State.memWf_zeroBanks]

@[simp] theorem Done.memWf_memFill (s : State) (inl x2 : List Byte) (hm : s.memWf = true) : (s.memFill inl x2).memWf = true := by
  unfold State.memFill
  dsimp only
  split <;> simp [hm, State.memWf_writeLines]

@[simp] theorem Done.memWf_memCopy (s : State) (inl b : List Byte) (hm : s.memWf = true) : (s.memCopy inl b).memWf = true := by
  have h1 (p x y n : Nat) : ((s.flushRun p x n).flushRun p y n).memWf = true := by simp [hm]
  have h2 (p x y n z : Nat) (l) : ((((s.flushRun p x n).flushRun p y n).writeLines p z l).dropCached p z n).memWf = true := by
    rw [State.memWf_dropCached]
    exact State.memWf_writeLines _ (h1 _ _ _ _) _ _
  unfold State.memCopy
  dsimp only
  split
  · rfl
  · split
    · exact hm
    · exact h2 _ _ _ _ _ _

@[simp] theorem Done.memWf_hostRegister (s : State) (inl x2 : List Byte) (hm : s.memWf = true) :
    (s.hostRegister inl x2).memWf = true := by
  unfold State.hostRegister
  dsimp only
  split <;> simp [hm]

@[simp] theorem Done.memWf_windowOpen (s : State) (want : Option Nat) (b : List Byte) (hm : s.memWf = true) :
    (s.windowOpen want b).memWf = true := by
  unfold State.windowOpen
  dsimp only
  split
  · simp
  · split <;> simp [hm]

@[simp] theorem State.memWf_closeUnit (s : State) (id : Nat) : (s.closeUnit id).memWf = s.memWf := by
  unfold State.closeUnit
  split <;> simp

@[simp] theorem Done.memWf_windowClose (s : State) (q : Nat) (c : Cmd) (hm : s.memWf = true) : (s.windowClose q c).memWf = true := by
  simp [State.windowClose, hm]

@[simp] theorem Done.memWf_setId (s : State) (id : Nat) (hm : s.memWf = true) : (s.setId id).memWf = true := by simp [State.setId, hm]

@[simp] theorem Done.memWf_setRoutes (s : State) (x1 b : List Byte) (hm : s.memWf = true) : (s.setRoutes x1 b).memWf = true := by
  simp [State.setRoutes, hm]

/-! ### KvCmds -/

@[simp] theorem State.memWf_modKv (s : State) (p : Nat) (f : Kv → Kv) : (s.modKv p f).memWf = s.memWf := (rfl)

@[simp] theorem Done.memWf_poolConfigure (s : State) (x1 b : List Byte) (hm : s.memWf = true) :
    (s.poolConfigure x1 b).memWf = true := by
  unfold State.poolConfigure
  dsimp only
  split <;> simp [hm]

@[simp] theorem Done.memWf_seqOpen (s : State) (c : Cmd) (hm : s.memWf = true) : (s.seqOpen c).memWf = true := by simp [State.seqOpen, hm]

@[simp] theorem Done.memWf_seqExtend (s : State) (c : Cmd) (hm : s.memWf = true) : (s.seqExtend c).memWf = true := by
  simp [State.seqExtend, hm]

@[simp] theorem Done.memWf_shortCommand (s : State) (p need : Nat) (named : List Nat) (hm : s.memWf = true) :
    (s.shortCommand p need named).memWf = true := by simp [State.shortCommand, hm]

@[simp] theorem Done.memWf_recallSeq (s : State) (p q : Nat) (hm : s.memWf = true) : (s.recallSeq p q).memWf = true := by
  simp [State.recallSeq, hm]

@[simp] theorem Done.memWf_seqFork (s : State) (inl b : List Byte) (hm : s.memWf = true) : (s.seqFork inl b).memWf = true := by
  fun_cases State.seqFork s inl b
  · rfl
  · rfl
  · simp [hm]
  · exact hm
  · simp [hm]
  · next child s1 t ht t1 =>
    have h1 : s1.memWf = true := by simp [s1, hm]
    have ht : t.memWf = true := State.memWf_allocKeys _ h1 ht
    have h1 : t1.memWf = true := by
      refine State.memWf_foldl _ ht fun u e hu => ?_
      split <;> simp [hu]
    exact State.memWf_foldl _ h1 fun u e hu => by simp [hu]

@[simp] theorem Done.memWf_seqTruncate (s : State) (inl b : List Byte) (hm : s.memWf = true) : (s.seqTruncate inl b).memWf = true := by
  fun_cases State.seqTruncate s inl b
  · rfl
  · exact hm
  · exact hm
  · next s1 _ => simp [s1, hm]
  · simp [hm]
  · next s1 _ x tail shared alone s2 t ht =>
    have h1 : s1.memWf = true := by simp [s1, hm]
    have h2 : s2.memWf = true := State.memWf_foldl _ h1 fun u e hu => by simp [hu]
    refine State.memWf_foldl _ (State.memWf_allocKeys _ h2 ht) fun u e hu => ?_
    split <;> simp [hu]

@[simp] theorem Done.memWf_seqClose (s : State) (inl x2 : List Byte) (hm : s.memWf = true) : (s.seqClose inl x2).memWf = true := by
  simp [State.seqClose, hm]

@[simp] theorem Done.memWf_seqSwapOut (s : State) (inl b : List Byte) (hm : s.memWf = true) : (s.seqSwapOut inl b).memWf = true := by
  fun_cases State.seqSwapOut s inl b
  · rfl
  · exact hm
  · rfl
  · next t ht => simp [State.memWf_swapOut hm ht]

@[simp] theorem Done.memWf_domainCreate (s : State) (inl x2 : List Byte) (hm : s.memWf = true) :
    (s.domainCreate inl x2).memWf = true := by simp [State.domainCreate, hm]

@[simp] theorem Done.memWf_domainDestroy (s : State) (inl x2 : List Byte) (hm : s.memWf = true) :
    (s.domainDestroy inl x2).memWf = true := by simp [State.domainDestroy, hm]

/-! ### SenseCmds -/

@[simp] theorem Done.memWf_sensorConfigure (s : State) (x1 b : List Byte) (hm : s.memWf = true) :
    (s.sensorConfigure x1 b).memWf = true := by
  unfold State.sensorConfigure
  dsimp only
  split <;> simp [hm]

@[simp] theorem Done.memWf_sensorRelease (s : State) (b : List Byte) (hm : s.memWf = true) : (s.sensorRelease b).memWf = true := by
  simp [State.sensorRelease, hm]

@[simp] theorem Done.memWf_sensorCalibrate (s : State) (x1 b : List Byte) (hm : s.memWf = true) :
    (s.sensorCalibrate x1 b).memWf = true := by simp [State.sensorCalibrate, hm]

@[simp] theorem Done.memWf_parseTable (s : State) (x1 b : List Byte) (hm : s.memWf = true) : (s.parseTable x1 b).memWf = true := by
  simp [State.parseTable, hm]

@[simp] theorem Done.memWf_sensorTrigger (s : State) (x1 b : List Byte) (hm : s.memWf = true) :
    (s.sensorTrigger x1 b).memWf = true := by simp [State.sensorTrigger, hm]

@[simp] theorem Done.memWf_ethSend (s : State) (inl b : List Byte) (hm : s.memWf = true) : (s.ethSend inl b).memWf = true := by
  simp [State.ethSend, hm]

@[simp] theorem State.memWf_dropRelease (s : State) (g : Nat) (hm : s.memWf = true) : (s.dropRelease g).memWf = true := by
  simp [State.dropRelease, hm]

@[simp] theorem Done.memWf_groupConfigure (s : State) (want : Option Nat) (b : List Byte) (hm : s.memWf = true) :
    (s.groupConfigure want b).memWf = true := by
  unfold State.groupConfigure
  dsimp only
  split
  · simp
  · split <;> simp [hm]

@[simp] theorem State.memWf_startGroup (s : State) (g : Nat) : (s.startGroup g).memWf = s.memWf := by simp [State.startGroup]

@[simp] theorem Done.memWf_groupStart (s : State) (inl x2 : List Byte) (hm : s.memWf = true) :
    (s.groupStart inl x2).memWf = true := by simp [State.groupStart, hm]

@[simp] theorem Done.memWf_groupStop (s : State) (q : Nat) (c : Cmd) (hm : s.memWf = true) : (s.groupStop q c).memWf = true := by
  simp [State.groupStop, hm]

/-! ### PlanCmds -/

@[simp] theorem Done.memWf_publishFor (s : State) (q no : Nat) : (s.publishFor q no).memWf = s.memWf := (rfl)

@[simp] theorem Done.memWf_worldConfigure (s : State) (q : Nat) (c : Cmd) (hm : s.memWf = true) :
    (s.worldConfigure q c).memWf = true := by simp [State.worldConfigure, hm]

@[simp] theorem Done.memWf_worldEdit (s : State) (q : Nat) (c : Cmd) (hm : s.memWf = true) : (s.worldEdit q c).memWf = true := by
  fun_cases State.worldEdit s q c <;> simp +zetaDelta [*]

@[simp] theorem Done.memWf_worldLoad (s : State) (q : Nat) (c : Cmd) (hm : s.memWf = true) : (s.worldLoad q c).memWf = true := by
  fun_cases State.worldLoad s q c <;> simp +zetaDelta [*]

@[simp] theorem Done.memWf_worldUnload (s : State) (q : Nat) (c : Cmd) (hm : s.memWf = true) : (s.worldUnload q c).memWf = true := by
  simp [State.worldUnload, hm]

@[simp] theorem Done.memWf_planMachine (s : State) (inl b : List Byte) (hm : s.memWf = true) :
    (s.planMachine inl b).memWf = true := by
  unfold State.planMachine
  dsimp only
  split <;> simp [hm]

@[simp] theorem Done.memWf_planLattice (s : State) (x1 b : List Byte) (hm : s.memWf = true) : (s.planLattice x1 b).memWf = true := by
  unfold State.planLattice
  dsimp only
  split <;> simp [hm]

@[simp] theorem Done.memWf_queryWindow (s : State) (inl x2 : List Byte) (hm : s.memWf = true) :
    (s.queryWindow inl x2).memWf = true := by
  unfold State.queryWindow
  split <;> simp +contextual [hm]

/-! ### LoopCmds -/

@[simp] theorem Done.memWf_loopConfigure (s : State) (x1 b : List Byte) (hm : s.memWf = true) :
    (s.loopConfigure x1 b).memWf = true := by
  unfold State.loopConfigure
  dsimp only
  split <;> simp [hm]

@[simp] theorem Done.memWf_loopProgram (s : State) (inl b : List Byte) (hm : s.memWf = true) :
    (s.loopProgram inl b).memWf = true := by simp [State.loopProgram, hm]

@[simp] theorem Done.memWf_loopCoeffs (s : State) (q : Nat) (c : Cmd) (hm : s.memWf = true) : (s.loopCoeffs q c).memWf = true := by
  simp [State.loopCoeffs, hm]

@[simp] theorem State.memWf_startLoop (s : State) (l : Nat) : (s.startLoop l).memWf = s.memWf := (rfl)

@[simp] theorem Done.memWf_loopStart (s : State) (inl x2 : List Byte) (hm : s.memWf = true) : (s.loopStart inl x2).memWf = true := by
  unfold State.loopStart
  split <;> simp [hm]

@[simp] theorem Done.memWf_loopStop (s : State) (q : Nat) (c : Cmd) (hm : s.memWf = true) : (s.loopStop q c).memWf = true := by
  simp [State.loopStop, hm]

@[simp] theorem Done.memWf_loopClear (s : State) (inl x2 : List Byte) : (s.loopClear inl x2).memWf = s.memWf := (rfl)

@[simp] theorem Done.memWf_spOpen (s : State) (want : Option Nat) (inl : List Byte) (hm : s.memWf = true) :
    (s.spOpen want inl).memWf = true := by
  unfold State.spOpen
  dsimp only
  split
  · simp
  · split <;> simp [hm]

@[simp] theorem Done.memWf_spClose (s : State) (q : Nat) (c : Cmd) (hm : s.memWf = true) : (s.spClose q c).memWf = true := by
  simp [State.spClose, hm]

@[simp] theorem Done.memWf_safeRelease (s : State) (inl x2 : List Byte) (hm : s.memWf = true) :
    (s.safeRelease inl x2).memWf = true := by simp [State.safeRelease, hm]

@[simp] theorem Done.memWf_portCommand (s : State) (kind : Nat) (bad : Bool) (b : List Byte) (t : State) (ht : t.memWf = true) :
    (s.portCommand kind bad b t).memWf = true := by
  unfold State.portCommand
  split
  · rfl
  · split <;> simp [ht]

@[simp] theorem Done.memWf_canConfigure (s : State) (b : List Byte) (hm : s.memWf = true) : (s.canConfigure b).memWf = true := by
  simp [State.canConfigure, hm]

@[simp] theorem Done.memWf_spiConfigure (s : State) (b : List Byte) (hm : s.memWf = true) : (s.spiConfigure b).memWf = true := by
  simp [State.spiConfigure, hm]

@[simp] theorem Done.memWf_pwmConfigure (s : State) (b : List Byte) (hm : s.memWf = true) : (s.pwmConfigure b).memWf = true := by
  simp [State.pwmConfigure, hm]

@[simp] theorem State.memWf_freePort (s : State) (kind port cs : Nat) : (s.freePort kind port cs).memWf = s.memWf := by
  simp [State.freePort]

@[simp] theorem Done.memWf_portRelease (s : State) (b : List Byte) (hm : s.memWf = true) : (s.portRelease b).memWf = true := by
  simp [State.portRelease, hm]

/-! ### Power -/

@[simp] theorem State.memWf_modDie (s : State) (d : Nat) (f : DiePower → DiePower) : (s.modDie d f).memWf = s.memWf := (rfl)

@[simp] theorem State.memWf_powerEvent (s : State) (event source value : Nat) (hm : s.memWf = true) :
    (s.powerEvent event source value).memWf = true := by simp [State.powerEvent, hm, State.memWf_log, State.memWf_notice]

@[simp] theorem State.memWf_setAlert (s : State) : s.setAlert.memWf = s.memWf := by simp [State.setAlert]
@[simp] theorem State.memWf_sendPace (s : State) (cause : Nat) : (s.sendPace cause).memWf = s.memWf := by simp [State.sendPace]
@[simp] theorem State.memWf_paceRelease (s : State) : s.paceRelease.memWf = s.memWf := by simp [State.paceRelease]
@[simp] theorem State.memWf_paceChange (s : State) : s.paceChange.memWf = s.memWf := by simp [State.paceChange]
@[simp] theorem State.memWf_ceilingsSet (s : State) : s.ceilingsSet.memWf = s.memWf := by simp [State.ceilingsSet]

@[simp] theorem State.memWf_inputReport (s : State) (mv mw : Nat) : (s.inputReport mv mw).memWf = s.memWf := by
  unfold State.inputReport
  split <;> simp

@[simp] theorem State.memWf_capLower (s : State) (mw : Nat) (hm : s.memWf = true) : (s.capLower mw).memWf = true := by
  unfold State.capLower
  dsimp only
  split
  · simp [hm]
  · split <;> simp [hm]

@[simp] theorem State.memWf_capRaise (s : State) (meanMw : Nat) : (s.capRaise meanMw).memWf = s.memWf := by
  unfold State.capRaise
  split <;> simp

@[simp] theorem State.memWf_bill (s : State) (p share : Nat) (hm : s.memWf = true) : (s.bill p share).memWf = true := by
  unfold State.bill
  dsimp only
  split
  · simp [hm]
  · split <;> simp [hm]

@[simp] theorem State.memWf_heatEvents (s old : State) (hottest : List Int) (hm : s.memWf = true) :
    (s.heatEvents old hottest).memWf = true := by
  have h1 : ((List.range 4).foldl (fun (t : State) d =>
      if (old.die d).thermal = 0 && 0 < (t.die d).thermal then t.powerEvent 0x01 d (nth 0 hottest d).toNat else t) s).memWf = true :=
    State.memWf_foldl _ hm fun t d ht => by simp [ht]
  exact State.memWf_foldl _ h1 fun t k ht => by simp [ht]

/-! ### PowerCmds -/

@[simp] theorem Done.memWf_capSet (s : State) (inl x2 : List Byte) (hm : s.memWf = true) : (s.capSet inl x2).memWf = true := by
  simp [State.capSet, hm]

@[simp] theorem Done.memWf_budgetSet (s : State) (inl x2 : List Byte) (hm : s.memWf = true) : (s.budgetSet inl x2).memWf = true := by
  simp [State.budgetSet, hm]

@[simp] theorem Done.memWf_paceFollow (s : State) (inl x2 : List Byte) : (s.paceFollow inl x2).memWf = s.memWf := (rfl)

/-! ### StoreCmds -/

@[simp] theorem State.memWf_modStore (s : State) (f : Store → Store) : (s.modStore f).memWf = s.memWf := (rfl)
@[simp] theorem State.memWf_slotAppend (s : State) (b : List Byte) : (s.slotAppend b).memWf = s.memWf := (rfl)

@[simp] theorem Done.memWf_slotWrite (s : State) (x1 blk : List Byte) (hm : s.memWf = true) : (s.slotWrite x1 blk).memWf = true := by
  unfold State.slotWrite
  split <;> simp [hm]

@[simp] theorem Done.memWf_slotSealWrite (s : State) (x1 blk : List Byte) (hm : s.memWf = true) :
    (s.slotSealWrite x1 blk).memWf = true := by
  unfold State.slotSealWrite
  dsimp only
  split
  · simp
  · split <;> simp [hm]

@[simp] theorem Done.memWf_slotErase (s : State) (inl x2 : List Byte) (hm : s.memWf = true) : (s.slotErase inl x2).memWf = true := by
  simp [State.slotErase, hm, State.take]

@[simp] theorem Done.memWf_objPut (s : State) (x1 blk : List Byte) (hm : s.memWf = true) : (s.objPut x1 blk).memWf = true := by
  unfold State.objPut
  dsimp only
  split <;> simp [hm]

@[simp] theorem Done.memWf_objDelete (s : State) (inl x2 : List Byte) (hm : s.memWf = true) : (s.objDelete inl x2).memWf = true := by
  simp [State.objDelete, hm]

/-! ### SecCmds -/

@[simp] theorem State.memWf_writeCopy (s : State) (k : Nat) (c : FwCopy) : (s.writeCopy k c).memWf = s.memWf := (rfl)

@[simp] theorem Done.memWf_secUpdate (s : State) (q : Nat) (c : Cmd) (hm : s.memWf = true) : (s.secUpdate q c).memWf = true := by
  fun_cases State.secUpdate s q c <;> simp +zetaDelta [*]

@[simp] theorem Done.memWf_enrol (s : State) (b : List Byte) (f : Lantern → Lantern) (hm : s.memWf = true) :
    (s.enrol b f).memWf = true := by
  unfold State.enrol
  split <;> simp [hm, State.memWf_log]

@[simp] theorem Done.memWf_revokeKey (s : State) (x1 b : List Byte) (hm : s.memWf = true) : (s.revokeKey x1 b).memWf = true := by
  unfold State.revokeKey
  dsimp only
  split <;> simp [hm, State.memWf_log]

@[simp] theorem State.memWf_rekeyClass (s : State) (k p : Nat) : (s.rekeyClass k p).memWf = s.memWf := by simp [State.rekeyClass]

@[simp] theorem Done.memWf_rotate (s : State) (inl x2 : List Byte) (hm : s.memWf = true) : (s.rotate inl x2).memWf = true := by
  unfold State.rotate
  dsimp only
  split <;> simp [hm, State.memWf_log]

@[simp] theorem State.memWf_jtagBypass (s : State) : s.jtagBypass.memWf = s.memWf := (rfl)

/-! ### NandEvents -/

@[simp] theorem State.memWf_nandStep (s : State) (step : Nat) (hm : s.memWf = true) : (s.nandStep step).memWf = true := by
  simp [State.nandStep, hm, State.memWf_logCorrected, State.memWf_log, State.take]

/-! ### Errors -/

@[simp] theorem State.memWf_dropIssued (s : State) (p l : Nat) : (s.dropIssued p l).memWf = s.memWf := (rfl)

@[simp] theorem State.memWf_fenceJobs (s : State) (p l : Nat) (lost : List Nat) (hm : s.memWf = true) :
    (s.fenceJobs p l lost).memWf = true := by
  unfold State.fenceJobs
  dsimp only
  split <;> simp +contextual [hm, State.take]

@[simp] theorem State.memWf_countBad (s : State) (domain : Nat) : (s.countBad domain).memWf = s.memWf := (rfl)

@[simp] theorem State.memWf_reloadMesh (s : State) (hm : s.memWf = true) : s.reloadMesh.memWf = true := by
  simp [State.reloadMesh, hm, State.memWf_log]

/-! ### Defaults -/

@[simp] theorem Done.memWf_defaultsSet (s : State) (inl x2 : List Byte) (hm : s.memWf = true) :
    (s.defaultsSet inl x2).memWf = true := by simp [State.defaultsSet, hm, State.take]

@[simp] theorem State.memWf_kept (d : Done) (s : State) (hm : s.memWf = true) (hd : d.memWf = true) : (d.kept s).memWf = true := by
  cases d <;> first | exact hm | exact hd

@[simp] theorem State.memWf_restoreRegion (s : State) (b : List Byte) (hm : s.memWf = true) : (s.restoreRegion b).memWf = true := by
  simp +contextual [State.restoreRegion, hm, State.memWf_modBank]

@[simp] theorem State.memWf_restartGroup (s : State) (g : Nat) : (s.restartGroup g).memWf = s.memWf := by simp [State.restartGroup]
@[simp] theorem State.memWf_restartLoop (s : State) (l : Nat) : (s.restartLoop l).memWf = s.memWf := by simp [State.restartLoop]
@[simp] theorem State.memWf_restoreWorld (s : State) (l : List Byte) : (s.restoreWorld l).memWf = s.memWf := by simp [State.restoreWorld]

@[simp] theorem State.memWf_restorePort (s : State) (b : List Byte) (hm : s.memWf = true) : (s.restorePort b).memWf = true := by
  refine State.memWf_kept _ _ hm ?_
  split
  · simp [hm]
  · split <;> simp [hm]

@[simp] theorem State.memWf_setDroop (s : State) (mv : Nat) : (s.setDroop mv).memWf = s.memWf := (rfl)

@[simp] theorem State.memWf_applyDefault (s : State) (d : DefaultCmd) (hm : s.memWf = true) : (s.applyDefault d).memWf = true := by
  unfold State.applyDefault
  split <;> simp [hm]

@[simp] theorem State.memWf_applyDefaults (s : State) (hm : s.memWf = true) : s.applyDefaults.memWf = true :=
  State.memWf_foldl _ hm fun _ _ ht => State.memWf_foldl _ ht fun u d hu => State.memWf_applyDefault u d hu

/-! ### LSlot -/

@[simp] theorem State.memWf_addRead (s : State) (r : Read) : (s.addRead r).memWf = s.memWf := (rfl)

@[simp] theorem State.memWf_issueRead (s : State) (i : Issue) (k : RKind) (w : DWord) (hm : s.memWf = true) :
    (s.issueRead i k w).memWf = true := by cases k <;> simp [State.issueRead, State.newId, hm]

@[simp] theorem State.memWf_loadSlot (s : State) (i : Issue) (second : Bool) (k : RKind) (w : DWord) (hm : s.memWf = true) :
    (s.loadSlot i second k w).memWf = true := by simp +contextual [State.loadSlot, hm]

@[simp] theorem State.memWf_moveSlots (s : State) (i : Issue) (w : DWord) : (s.moveSlots i w).memWf = s.memWf := by simp [State.moveSlots]

@[simp] theorem State.memWf_landUnit (s : State) (r : Read) (k : Nat) : (s.landUnit r k).memWf = s.memWf := by
  unfold State.landUnit
  split <;> simp

/-! ### MSlot -/

@[simp] theorem State.memWf_issueMatrix (s : State) (i : Issue) (reads : List Nat × List Nat) (f : Tile → Nat → MRes) (free : Nat) :
    (s.issueMatrix i reads f free).memWf = s.memWf := by simp [State.issueMatrix, State.take]

/-! ### Resets -/

@[simp] theorem State.memWf_clearAlert (s : State) : s.clearAlert.memWf = s.memWf := by simp [State.clearAlert]
@[simp] theorem State.memWf_freshRom (s : State) : s.freshRom.memWf = s.memWf := (rfl)

@[simp] theorem State.memWf_hold (s : State) : s.hold.memWf = true := by
  simp [State.hold, State.memWf_stopModule]

@[simp] theorem State.memWf_pend (s : State) (life : Life) (root : List Byte) (scope : Nat) :
    (s.pend life root scope).memWf = s.memWf := by simp [State.pend]

@[simp] theorem Done.memWf_lifecycle (s : State) (x1 b : List Byte) (hm : s.memWf = true) : (s.lifecycle x1 b).memWf = true := by
  unfold State.lifecycle
  dsimp only
  split <;> simp [hm]

@[simp] theorem Done.memWf_debugUnlock (s : State) (x1 b : List Byte) (hm : s.memWf = true) : (s.debugUnlock x1 b).memWf = true := by
  unfold State.debugUnlock
  split <;> simp [hm]

@[simp] theorem State.memWf_afterPending (s t : State) (q : Nat) (ht : t.memWf = true) : (State.afterPending s t q).memWf = true := by
  unfold State.afterPending
  split
  · simp [State.memWf_stopModule]
  · exact ht

@[simp] theorem State.memWf_completeTransition (s : State) (hm : s.memWf = true) : s.completeTransition.memWf = true := by
  unfold State.completeTransition
  split <;> simp [hm, State.memWf_log]

@[simp] theorem State.memWf_measureBoot (s : State) (hm : s.memWf = true) : s.measureBoot.memWf = true := by
  fun_cases State.measureBoot s
  next s1 =>
  have h1 : s1.memWf = true := by simp [s1, hm]
  have h2 : (s1.measure 2 0xFF02 (s.startDigest 1)).memWf = true := by simp [h1]
  simp [h2]

@[simp] theorem State.memWf_preBoot (s : State) : s.preBoot.memWf = true := by
  simp [State.preBoot, State.memWf_wiped]

@[simp] theorem State.memWf_boot (s : State) (hm : s.memWf = true) : s.boot.memWf = true := by
  unfold State.boot
  split <;> simp [hm]

@[simp] theorem State.memWf_holdInRom (s : State) : s.holdInRom.memWf = true := by
  simp [State.holdInRom, State.memWf_stopModule]

@[simp] theorem State.memWf_enterRomHold (s : State) : s.enterRomHold.memWf = s.memWf := by simp [State.enterRomHold]

@[simp] theorem State.memWf_restartLantern (s : State) (cause : Nat) (hm : s.memWf = true) :
    (s.restartLantern cause).memWf = true := by simp [State.restartLantern, hm, State.memWf_log]

end Sys2Proof.Machine
end

section
/-! PROOF. The commands with branches of their own keep the addressed memories in canonical form. -/

namespace Sys2Proof.Machine

/-! ### Posts -/

@[simp] theorem Res.memWf_execDdr5ReadReturn (id : Nat) (ecc : Ecc) (s : State) (hm : s.memWf = true) :
    Res.memWf (execDdr5ReadReturn id ecc s) = true := by
  fun_cases execDdr5ReadReturn id ecc s
  · exact hm
  · next s1 _ =>
    have h1 : s1.memWf = true := State.memWf_ddrEcc hm _ _
    simp [h1]
  all_goals simp [hm, State.memWf_ddrEcc]

@[simp] theorem Res.memWf_execDdr5WriteAck (id : Nat) (s : State) (hm : s.memWf = true) :
    Res.memWf (execDdr5WriteAck id s) = true := by
  unfold execDdr5WriteAck
  dsimp only
  split
  · simp [hm]
  · split <;> simp [hm]

@[simp] theorem Res.memWf_execDmaPostComplete (id : Nat) (s : State) (hm : s.memWf = true) :
    Res.memWf (execDmaPostComplete id s) = true := by
  unfold execDmaPostComplete
  dsimp only
  split <;> simp [hm]

/-! ### Arbiters -/

@[simp] theorem Res.memWf_execArbiterGrant (ty inst : Nat) (pending : List Nat) (emergency : Bool) (s : State) :
    Res.memWf (execArbiterGrant ty inst pending emergency s) = s.memWf := by
  fun_cases execArbiterGrant ty inst pending emergency s <;> simp

/-! ### Banks -/

@[simp] theorem Res.memWf_execBankRetirement (bank : Nat) (s : State) (hm : s.memWf = true) :
    Res.memWf (execBankRetirement bank s) = true := by
  unfold execBankRetirement
  split <;> simp [hm, State.memWf_log, State.memWf_modBank]

@[simp] theorem Res.memWf_execHotWindowEnd (bank grants waits : Nat) (s : State) (hm : s.memWf = true) :
    Res.memWf (execHotWindowEnd bank grants waits s) = true := by
  unfold execHotWindowEnd
  dsimp only
  split
  · simp [hm]
  · split <;> simp +contextual [hm, State.memWf_modBank]

/-! ### Stem -/

@[simp] theorem Res.memWf_execStemLineStart (id : Nat) (s : State) (hm : s.memWf = true) :
    Res.memWf (execStemLineStart id s) = true := by
  unfold execStemLineStart
  split <;> simp [hm]

/-! ### Cupola -/

@[simp] theorem Res.memWf_execCsiFrameStart (port vc frame : Nat) (s : State) :
    Res.memWf (execCsiFrameStart port vc frame s) = s.memWf := by
  unfold execCsiFrameStart
  split <;> simp

@[simp] theorem Res.memWf_execCsiLongPacket (port vc dataType headerErrors : Nat) (crcOk : Bool) (pixels : List Nat) (s : State)
    (hm : s.memWf = true) :
    Res.memWf (execCsiLongPacket port vc dataType headerErrors crcOk pixels s) = true := by
  unfold execCsiLongPacket
  dsimp only
  split
  · simp [hm]
  · split <;> simp [hm]

@[simp] theorem Res.memWf_execCsiFrameEnd (port vc : Nat) (s : State) (hm : s.memWf = true) :
    Res.memWf (execCsiFrameEnd port vc s) = true := by
  unfold execCsiFrameEnd
  dsimp only
  split
  · split
    · exact hm
    · split
      · simp [hm]
      · simp only [Res.memWf_next, State.memWf_noteReady, State.memWf_modSensor, State.memWf_joinImage]
        split <;> simp [hm]
  · exact hm

@[simp] theorem Res.memWf_execEthFrameReceive (port : Nat) (f : EthFrame) (s : State) (hm : s.memWf = true) :
    Res.memWf (execEthFrameReceive port f s) = true := by fun_cases execEthFrameReceive port f s <;> simp +zetaDelta [*]

@[simp] theorem Res.memWf_execLidarPacketParse (port : Nat) (s : State) (hm : s.memWf = true) :
    Res.memWf (execLidarPacketParse port s) = true := by
  unfold execLidarPacketParse
  split
  · exact hm
  · dsimp only [State.take]
    split
    · simp [hm]
    · split
      · simp [hm]
      · split <;> simp [hm]

@[simp] theorem Res.memWf_execTriggerPulse (t : Nat) (s : State) : Res.memWf (execTriggerPulse t s) = s.memWf := by
  fun_cases execTriggerPulse t s <;> simp

/-! ### Floam -/

@[simp] theorem Res.memWf_execFloamPost (i : Issue) (w : BitVec 96) (s : State) (hm : s.memWf = true) :
    Res.memWf (execFloamPost i w s) = true := by simp +contextual [execFloamPost, hm]

@[simp] theorem Res.memWf_execFloamBlockExpand (id : Nat) (s : State) (hm : s.memWf = true) :
    Res.memWf (execFloamBlockExpand id s) = true := by fun_cases execFloamBlockExpand id s <;> simp +zetaDelta [*]

@[simp] theorem Res.memWf_execFloamEntryComplete (id : Nat) (s : State) : Res.memWf (execFloamEntryComplete id s) = s.memWf := by
  unfold execFloamEntryComplete
  split <;> simp

/-! ### Loops -/

@[simp] theorem Res.memWf_execShadowSwitch (n cycles : Nat) (s : State) (hm : s.memWf = true) :
    Res.memWf (execShadowSwitch n cycles s) = true := by
  have h0 : (s.atCycles cycles).2.memWf = true := by simp [hm]
  unfold execShadowSwitch
  generalize s.atCycles cycles = r at h0 ⊢
  dsimp only
  split
  · exact h0
  · split
    · simp [h0]
    · split
      · simp [h0]
      · split <;> simp [h0]

@[simp] theorem Res.memWf_execStbEdge (stb : Nat) (rising : Bool) (cycles : Nat) (latches : List (Nat × Nat)) (s : State)
    (hm : s.memWf = true) :
    Res.memWf (execStbEdge stb rising cycles latches s) = true := by
  have h1 (l : List Nat) (t : State) (ht : t.memWf = true) : (l.foldl (fun t i => t.strobeOne latches i) t).memWf = true :=
    State.memWf_foldl _ ht fun u i hu => by simp [hu]
  simp [execStbEdge, State.atCycles, h1, hm]

@[simp] theorem Res.memWf_execSpiReadDone (l : Nat) (frames : List Nat) (cycles : Nat) (s0 : State) (hm : s0.memWf = true) :
    Res.memWf (execSpiReadDone l frames cycles s0) = true := by
  fun_cases execSpiReadDone l frames cycles s0 <;> simp +zetaDelta [*, State.atCycles]

@[simp] theorem Res.memWf_execRunCommit (l cycles : Nat) (s0 : State) (hm : s0.memWf = true) :
    Res.memWf (execRunCommit l cycles s0) = true := by
  unfold execRunCommit
  dsimp only
  split <;> simp [hm, State.atCycles]

@[simp] theorem Res.memWf_execRunDeadline (l cycles : Nat) (s0 : State) (hm : s0.memWf = true) :
    Res.memWf (execRunDeadline l cycles s0) = true := by
  unfold execRunDeadline
  dsimp only
  split <;> simp [hm, State.atCycles]

@[simp] theorem Res.memWf_execSpiTransactionDone (m : Nat) (s : State) (hm : s.memWf = true) :
    Res.memWf (execSpiTransactionDone m s) = true := by
  unfold execSpiTransactionDone
  dsimp only
  split
  · simp [hm]
  · split <;> simp [hm]

/-! ### Huveip -/

@[simp] theorem Res.memWf_execLinkCredits (h : Nat) (rx : RxFrame) (s : State) (hm : s.memWf = true) :
    Res.memWf (execLinkCredits h rx s) = true := by
  have hr := Received.memWf_receive s h tyLink rx hm
  unfold execLinkCredits
  split <;> simp_all

@[simp] theorem Res.memWf_execCompletionFrame (h : Nat) (rx : RxFrame) (s : State) (hm : s.memWf = true) :
    Res.memWf (execCompletionFrame h rx s) = true := by
  have hr := Received.memWf_receive s h tyCompletion rx hm
  unfold execCompletionFrame
  split
  · simp_all
  · next t ht =>
    have ht : t.memWf = true := by simpa [ht] using hr
    rw [Res.memWf_next]
    split <;> simp [ht]

@[simp] theorem Res.memWf_execPaceNoticeReceive (h : Nat) (rx : RxFrame) (s : State) (hm : s.memWf = true) :
    Res.memWf (execPaceNoticeReceive h rx s) = true := by
  have hr := Received.memWf_receive s h tyPace rx hm
  unfold execPaceNoticeReceive
  split <;> simp_all

/-! ### JobEvents -/

@[simp] theorem Res.memWf_execJobStart (p c : Nat) (s : State) (hm : s.memWf = true) : Res.memWf (execJobStart p c s) = true := by
  fun_cases execJobStart p c s <;> simp +zetaDelta [*]

@[simp] theorem Res.memWf_execSwapOutComplete (p slot : Nat) (s : State) (hm : s.memWf = true) :
    Res.memWf (execSwapOutComplete p slot s) = true := by
  fun_cases execSwapOutComplete p slot s
  · exact hm
  · exact hm
  · next t ht => simp [State.memWf_swapOut hm ht]

@[simp] theorem Res.memWf_execSwapInComplete (p unit : Nat) (tag : TagCheck) (data : List Byte) (s : State) (hm : s.memWf = true) :
    Res.memWf (execSwapInComplete p unit tag data s) = true := by
  fun_cases execSwapInComplete p unit tag data s
  · exact hm
  · next r post _ _ _ _ _ s1 =>
    have h1 : s1.memWf = true := by simp [s1, hm]
    clear_value post
    cases post <;> simp [h1]

@[simp] theorem Res.memWf_execPreemptRequest (p : Nat) (s : State) : Res.memWf (execPreemptRequest p s) = s.memWf := by
  fun_cases execPreemptRequest p s <;> simp

@[simp] theorem Res.memWf_execQuantumExpiry (p : Nat) (s : State) : Res.memWf (execQuantumExpiry p s) = s.memWf := by
  fun_cases execQuantumExpiry p s <;> simp

@[simp] theorem Res.memWf_execWaitSwitchExpiry (p : Nat) (s : State) : Res.memWf (execWaitSwitchExpiry p s) = s.memWf := by
  fun_cases execWaitSwitchExpiry p s <;> simp

@[simp] theorem Res.memWf_execContextSave (p : Nat) (s : State) (hm : s.memWf = true) : Res.memWf (execContextSave p s) = true := by
  fun_cases execContextSave p s
  · exact hm
  · exact hm
  · exact hm
  · exact State.memWf_schedule _ _ (State.memWf_finishAwait _ _ _ _ (by simp [hm]))

@[simp] theorem Res.memWf_execPreemptTimeout (p : Nat) (s : State) (hm : s.memWf = true) :
    Res.memWf (execPreemptTimeout p s) = true := by
  unfold execPreemptTimeout
  split <;> simp [hm]

/-! ### VSlot -/

@[simp] theorem Res.memWf_execVectorResultReady (part lane : Nat) (s : State) :
    Res.memWf (execVectorResultReady part lane s) = s.memWf := by
  rw [execVectorResultReady, Res.memWf_next]
  split
  · rfl
  · dsimp only
    split <;> simp

/-! ### XSlot -/

@[simp] theorem Res.memWf_execPut (i : Issue) (w : DWord) (s : State) (hm : s.memWf = true) : Res.memWf (execPut i w s) = true := 
  Res.memWf_slotRes_of (State.memWf_onSlot _ _ _ _ _ _ _ hm fun t ht => State.memWf_issuePut t i w ht)

@[simp] theorem Res.memWf_execSignal (i : Issue) (w : DWord) (s : State) (hm : s.memWf = true) : Res.memWf (execSignal i w s) = true := by
  simp +contextual [execSignal, xRes, hm]

@[simp] theorem Res.memWf_execHalo (i : Issue) (w : DWord) (s : State) (hm : s.memWf = true) :
    Res.memWf (execHalo i w s) = true := 
  Res.memWf_slotRes_of (State.memWf_onSlot _ _ _ _ _ _ _ hm fun t ht => State.memWf_issueHalo t i w ht)

@[simp] theorem Res.memWf_execXfence (i : Issue) (w : DWord) (s : State) (hm : s.memWf = true) : Res.memWf (execXfence i w s) = true := by
  have hg := Gate.memWf_gate s i 5 false hm
  rw [execXfence, Res.memWf_slotRes]
  split <;> simp_all

/-! ### HostEvents -/

@[simp] theorem Res.memWf_execEndpointReset (kind : EndpointReset) (s : State) (hm : s.memWf = true) :
    Res.memWf (execEndpointReset kind s) = true := by
  unfold execEndpointReset
  split <;> simp [hm]

@[simp] theorem Res.memWf_execCommandFetch (q : Nat) (e : Entry) (s : State) (hm : s.memWf = true) :
    Res.memWf (execCommandFetch q e s) = true := by fun_cases execCommandFetch q e s <;> simp +zetaDelta [*]

@[simp] theorem Res.memWf_execCompletionPost (q : Nat) (s : State) : Res.memWf (execCompletionPost q s) = s.memWf := by
  unfold execCompletionPost
  split <;> simp

@[simp] theorem Res.memWf_execHostReadReturn (r : HostRead) (s : State) (hm : s.memWf = true) :
    Res.memWf (execHostReadReturn r s) = true := by
  fun_cases execHostReadReturn r s
  · exact hm
  · exact hm
  · exact State.memWf_foldl _ hm fun t p ht => State.memWf_foldl _ ht fun u k hu => by simp [hu]
  all_goals simp [hm]

/-! ### Frames -/

@[simp] theorem Res.memWf_execFrameInstant (g t : Nat) (s : State) (hm : s.memWf = true) :
    Res.memWf (execFrameInstant g t s) = true := by
  unfold execFrameInstant
  dsimp only
  split <;> simp [hm]

@[simp] theorem Res.memWf_execFrameDeadline (g : Nat) (s : State) : Res.memWf (execFrameDeadline g s) = s.memWf := by
  unfold execFrameDeadline
  split <;> simp

@[simp] theorem Res.memWf_execFrameAssembly (g : Nat) (s0 : State) (hm : s0.memWf = true) :
    Res.memWf (execFrameAssembly g s0) = true := by
  unfold execFrameAssembly
  dsimp only
  split <;> simp [hm]

@[simp] theorem Res.memWf_execFrameHeaderWrite (g : Nat) (s : State) (hm : s.memWf = true) :
    Res.memWf (execFrameHeaderWrite g s) = true := by
  unfold execFrameHeaderWrite
  split <;> simp [hm]

/-! ### Steeple -/

@[simp] theorem Res.memWf_execBuildingCopyDone (s : State) (hm : s.memWf = true) : Res.memWf (execBuildingCopyDone s) = true := by
  fun_cases execBuildingCopyDone s
  · exact hm
  · next s1 =>
    have h1 : s1.memWf = true := by simp [s1, hm]
    exact State.memWf_finishAll _ _ _ (State.memWf_foldl _ h1 fun t o ht => by simp [ht])

@[simp] theorem Res.memWf_execQueryPost (id : Nat) (s : State) : Res.memWf (execQueryPost id s) = s.memWf := by
  fun_cases execQueryPost id s <;> simp

@[simp] theorem Res.memWf_execQueryStart (s : State) (hm : s.memWf = true) : Res.memWf (execQueryStart s) = true := by
  fun_cases execQueryStart s <;> simp +zetaDelta [*]

@[simp] theorem Res.memWf_execQueryExpansion (elapsedUs : Nat) (s : State) (hm : s.memWf = true) :
    Res.memWf (execQueryExpansion elapsedUs s) = true := by
  unfold execQueryExpansion
  dsimp only
  split
  · simp [hm]
  · split <;> simp [hm, State.take]

@[simp] theorem Res.memWf_execQueryBudgetExpiry (elapsedUs : Nat) (s : State) :
    Res.memWf (execQueryBudgetExpiry elapsedUs s) = s.memWf := by fun_cases execQueryBudgetExpiry elapsedUs s <;> simp

@[simp] theorem Res.memWf_execQueryResultWrite (s : State) (hm : s.memWf = true) : Res.memWf (execQueryResultWrite s) = true := by
  unfold execQueryResultWrite
  split <;> simp [hm]

/-! ### WriteEvents -/

@[simp] theorem Res.memWf_execWindowWriteArrival (id : Nat) (s : State) (hm : s.memWf = true) :
    Res.memWf (execWindowWriteArrival id s) = true := by fun_cases execWindowWriteArrival id s <;> simp +zetaDelta [*]

@[simp] theorem Res.memWf_execScratchpadWriteComplete (id : Nat) (s : State) (hm : s.memWf = true) :
    Res.memWf (execScratchpadWriteComplete id s) = true := by
  unfold execScratchpadWriteComplete
  split <;> simp [hm]

@[simp] theorem Res.memWf_execIncrementApply (id : Nat) (s : State) (hm : s.memWf = true) :
    Res.memWf (execIncrementApply id s) = true := by
  unfold execIncrementApply
  split <;> simp [hm]

@[simp] theorem Res.memWf_execReleaseSignal (g amount : Nat) (s : State) (hm : s.memWf = true) :
    Res.memWf (execReleaseSignal g amount s) = true := by
  unfold execReleaseSignal
  split <;> simp [hm]

@[simp] theorem Res.memWf_execWriteCompletion (id : Nat) (s : State) (hm : s.memWf = true) :
    Res.memWf (execWriteCompletion id s) = true := by
  unfold execWriteCompletion
  split
  · exact hm
  · have h1 (w) : ((s.dropWrite id).answer w).memWf = true := by simp [hm]
    split <;> simp [hm, h1]

@[simp] theorem Res.memWf_execWriteTrackerTimeout (id : Nat) (s : State) : Res.memWf (execWriteTrackerTimeout id s) = s.memWf := by
  unfold execWriteTrackerTimeout
  split <;> simp

@[simp] theorem Res.memWf_execRemoteWriteAbandon (id : Nat) (s : State) (hm : s.memWf = true) :
    Res.memWf (execRemoteWriteAbandon id s) = true := by
  fun_cases execRemoteWriteAbandon id s
  · exact hm
  · exact hm
  · next w _ _ s1 =>
    have hf : ((List.range (w.data.length / 64)).foldl
        (fun t k => if k < w.acked then t else t.landDdrLine { w with acked := k }) s).memWf = true :=
      State.memWf_foldl _ hm fun t k ht => by simp [ht]
    have h1 : s1.memWf = true := by
      dsimp only [s1]
      split
      · exact hm
      · split <;> simp [hf, hm]
    simp [h1]

/-! ### ProgCmds -/

@[simp] theorem Res.memWf_execModelStageDdr5 (q : Nat) (s : State) (hm : s.memWf = true) : Res.memWf (execModelStageDdr5 q s) = true :=
  State.memWf_serve _ _ _ _ _ hm fun c => Done.memWf_stageModel _ _ _ _ hm fun t p m ht => by simp [ht]

@[simp] theorem Res.memWf_execModelStageNandDirect (q : Nat) (s : State) (hm : s.memWf = true) :
    Res.memWf (execModelStageNandDirect q s) = true :=
  State.memWf_serve _ _ _ _ _ hm fun c => Done.memWf_stageModel _ _ _ _ hm fun t p m ht => by simp [ht]

@[simp] theorem Res.memWf_execModelStageCopyDone (p modelId : Nat) (s : State) (hm : s.memWf = true) :
    Res.memWf (execModelStageCopyDone p modelId s) = true := by
  unfold execModelStageCopyDone
  split <;> simp [hm]

/-! ### Power -/

@[simp] theorem Res.memWf_execCoolantRead (inlet outlet : Int) (humidity : Nat) (s : State) (hm : s.memWf = true) :
    Res.memWf (execCoolantRead inlet outlet humidity s) = true := by
  fun_cases execCoolantRead inlet outlet humidity s
  next s1 s2 s3 =>
  have h2 : s2.memWf = true := by simp [s2, s1, hm]
  have h3 : s3.memWf = true := by simp [s3, h2]
  simp [h3]

/-! ### StoreCmds -/

@[simp] theorem Res.memWf_execStoreObjGet (q : Nat) (s : State) (hm : s.memWf = true) : Res.memWf (execStoreObjGet q s) = true := by
  refine State.memWf_serve _ _ _ _ _ hm fun c => ?_
  split
  · rfl
  · split
    · rfl
    · split <;> simp [hm]

/-! ### SecCmds -/

@[simp] theorem Res.memWf_execUpdateCommit (passed : Bool) (s : State) (hm : s.memWf = true) :
    Res.memWf (execUpdateCommit passed s) = true := by
  fun_cases execUpdateCommit passed s
  · exact hm
  · next s1 _ => simp [s1, hm]
  · next s1 _ _ s2 s3 =>
    have h3 : s3.memWf = true := by simp [s3, s2, s1, hm]
    exact State.memWf_finishOk _ _ _ _ (State.memWf_log h3 _ _ _ _ _)

@[simp] theorem Res.memWf_execLogRecordWrite (s : State) : Res.memWf (execLogRecordWrite s) = s.memWf := by
  fun_cases execLogRecordWrite s <;> simp

/-! ### NandEvents -/

@[simp] theorem Res.memWf_execNandRead (id stepReached : Nat) (s : State) (hm : s.memWf = true) :
    Res.memWf (execNandRead id stepReached s) = true := by
  unfold execNandRead
  dsimp only
  split
  · simp [hm]
  · split <;> simp [hm]

/-! ### Errors -/

@[simp] theorem Res.memWf_execTileFence (tile cause : Nat) (lost : List Nat) (s : State) (hm : s.memWf = true) :
    Res.memWf (execTileFence tile cause lost s) = true := by
  have hn (t : State) (ht : t.memWf = true) (p : Nat) (d e : List Byte) :
      ((t.log tile 0x0103 p d).notice noticeTileFenced p e).memWf = true := State.memWf_notice (State.memWf_log ht _ _ _ _ _) _ _ _
  unfold execTileFence
  dsimp only
  split
  · exact hm
  · refine hn _ ?_ _ _ _
    split
    · simp [hm]
    · split <;> simp [hm]

@[simp] theorem Res.memWf_execSequencerError (part : Nat) (s : State) (hm : s.memWf = true) :
    Res.memWf (execSequencerError part s) = true := by
  fun_cases execSequencerError part s
  · exact hm
  · next s1 s2 s3 _ =>
    have h2 : s2.memWf = true := by simp [s2, s1, hm]
    have h3 : s3.memWf = true := by simp [s3, h2]
    exact State.memWf_log h3 _ _ _ _ _

@[simp] theorem Res.memWf_execCupolaMemoryError (part : CupolaPart) (index line : Nat) (s : State) :
    Res.memWf (execCupolaMemoryError part index line s) = s.memWf := by
  unfold execCupolaMemoryError
  split <;> simp

@[simp] theorem Res.memWf_execSteepleMemoryError (part : SteeplePart) (index : Nat) (s : State) (hm : s.memWf = true) :
    Res.memWf (execSteepleMemoryError part index s) = true := by
  unfold execSteepleMemoryError
  split <;> simp [hm, State.memWf_log]

@[simp] theorem Res.memWf_execCpRestart (cause : Nat) (s : State) (hm : s.memWf = true) : Res.memWf (execCpRestart cause s) = true := by
  fun_cases execCpRestart cause s
  · exact hm
  · next s1 s2 =>
    have h2 : s2.memWf = true := by simp [s2, s1, hm]
    exact State.memWf_notice (State.memWf_log h2 _ _ _ _ _) _ _ _

/-! ### LSlot -/

@[simp] theorem Res.memWf_execScratchpadReadReturn (id : Nat) (s : State) (hm : s.memWf = true) :
    Res.memWf (execScratchpadReadReturn id s) = true := by
  unfold execScratchpadReadReturn
  split <;> simp [hm]

/-! ### Resets -/

@[simp] theorem Res.memWf_execSecLifecycle (q : Nat) (s : State) (hm : s.memWf = true) : Res.memWf (execSecLifecycle q s) = true :=
  State.memWf_afterPending _ _ _ (State.memWf_serve _ _ _ _ _ hm fun c => by simp [hm])

@[simp] theorem Res.memWf_execSecDebugUnlock (q : Nat) (s : State) (hm : s.memWf = true) : Res.memWf (execSecDebugUnlock q s) = true :=
  State.memWf_afterPending _ _ _ (State.memWf_serve _ _ _ _ _ hm fun c => by simp [hm])

@[simp] theorem Res.memWf_execModuleStart (s : State) (hm : s.memWf = true) : Res.memWf (execModuleStart s) = true := by
  fun_cases execModuleStart s
  · exact hm
  · simp
  · simp
  · next u _ v =>
    have hu : u.memWf = true := by simp [u]
    have hv : v.memWf = true := State.memWf_applyDefaults _ (by simp [hu])
    simp [hv]

end Sys2Proof.Machine
end

section
/-! PROOF. Every step keeps the addressed memories in canonical form (R87, R92, R97, R154), by the meaning of its command. -/

namespace Sys2Proof.Machine

/-- A command keeps the canonical form: by its own lemma where its meaning branches on what it finds, else by the lemmas about the
operations that its meaning is made of. -/
theorem exec_memWf (c : Instr) {s : State} (hm : s.memWf = true) : Res.memWf (exec c s) = true := by
  cases c with
  | put | signal | halo | xfence | floamPost | scratchpadReadReturn | scratchpadWriteComplete | vectorResultReady | incrementApply
  | writeCompletion | writeTrackerTimeout | remoteWriteAbandon | windowWriteArrival | jobStart | swapOutComplete | swapInComplete
  | preemptRequest | quantumExpiry | waitSwitchExpiry | contextSave | preemptTimeout | arbiterGrant | bankRetirement | hotWindowEnd
  | completionFrame | paceNoticeReceive | linkCredits | ddr5WriteAck | ddr5ReadReturn | dmaPostComplete | floamBlockExpand
  | floamEntryComplete | modelStageCopyDone | stemLineStart | csiFrameStart | csiFrameEnd | csiLongPacket | ethFrameReceive
  | lidarPacketParse | triggerPulse | stbEdge | frameInstant | frameDeadline | frameAssembly | frameHeaderWrite | releaseSignal
  | queryPost | queryStart | queryExpansion | queryBudgetExpiry | queryResultWrite | spiReadDone | runCommit | runDeadline
  | shadowSwitch | spiTransactionDone | endpointReset | commandFetch | completionPost | modelStageDdr5 | modelStageNandDirect
  | storeObjGet | updateCommit | secLifecycle | secDebugUnlock | logRecordWrite | coolantRead | nandRead | tileFence | sequencerError
  | cupolaMemoryError | steepleMemoryError | cpRestart | moduleStart | buildingCopyDone | hostReadReturn =>
    simp [exec, hm]
  | sNop | sAlu | sShift | sMul | sCompare | movi | movhi | setstr | sld | sst | br | brzBrnz | loopArm | rdst | clrst | ragged
  | laneEnd | ldt | ldl | ldv | mvt | matmul | winoOut | vNop | vFma | vAdd | vSub | vMul | vMax | vMin | cmplt | cmpeq | sel | vLogic
  | vShl | vShr | exp2 | log2 | rcp | rsq | cvt | qblk | rsum | rmax | vMov | vst | tinc | tset | wb | wbw | stemCommandPost
  | unitRecordPost =>
    refine Res.memWf_slotRes_of ?_
    simp +contextual [hm, State.take]
  | dmaDdr5ToScratchpad | dmaScratchpadToDdr5 | dmaNandToScratchpad | dmaHostToScratchpad | dmaScratchpadToHost | huveipDma
  | waitSatisfied | jobComplete | yieldStop | jobTimeout | gatherEntryIssue | starvationPromotion | sidebandMask | patrolScrub
  | linkBringup | linkHello | linkEncap | linkReport | linkFinish | linkRekey | linkAbort | fecRateCheck | portRetrain | bringupRetry
  | refreshDue | ddr5TempRead | ddr5PageRetirement | subchannelRetrain | strobeMissed | timeBreak | portLockRegain | boxSetTake
  | publication | canFrameReceive | cNop | cAdd | cSub | cMul | mac | mulz | cSar | cShl | cMin | cMax | cAnd | ldi | ldsmp | lds
  | loopOut | skn | skz | canTransmitDone | canBusOffRecovery | pwmPeriodBoundary | loopFence | sqTail | cqHead | noticeHead
  | adminEnableSet | adminEnableClear | registerWrite | msixUnmask | microcodeSwitch | rotationWalkEnd | samplePreload | extest
  | internalScan | railReport | stepChange | droopTrip | m1Trip | flowLoss | grownBadBlock | dieFence | staticWearMove | blockRefresh
  | blockRelocation | auxLoss | mainLoss | mainReturn | m1Exit | mrstNAssert | sensorPortLockLoss | huveipTrainingDone =>
    simp [exec, execDmaDdr5ToScratchpad, execDmaScratchpadToDdr5, execDmaNandToScratchpad, execDmaHostToScratchpad,
      execDmaScratchpadToHost, execHuveipDma, execWaitSatisfied, execJobComplete, execYieldStop, execJobTimeout, execGatherEntryIssue,
      execStarvationPromotion, execSidebandMask, execPatrolScrub, execLinkBringup, execLinkHello, execLinkEncap, execLinkReport,
      execLinkFinish, execLinkRekey, execLinkAbort, execFecRateCheck, execPortRetrain, execBringupRetry, execRefreshDue,
      execDdr5TempRead, execDdr5PageRetirement, execSubchannelRetrain, execStrobeMissed, execTimeBreak, execPortLockRegain,
      execBoxSetTake, execPublication, execCanFrameReceive, execCNop, execCAdd, execCSub, execCMul, execMac, execMulz, execCSar,
      execCShl, execCMin, execCMax, execCAnd, execLdi, execLdsmp, execLds, execLoopOut, execSkn, execSkz, execCanTransmitDone,
      execCanBusOffRecovery, execPwmPeriodBoundary, execLoopFence, execSqTail, execCqHead, execNoticeHead, execAdminEnableSet,
      execAdminEnableClear, execRegisterWrite, execMsixUnmask, execMicrocodeSwitch, execRotationWalkEnd, execSamplePreload, execExtest,
      execInternalScan, execRailReport, execStepChange, execDroopTrip, execM1Trip, execFlowLoss, execGrownBadBlock, execDieFence,
      execStaticWearMove, execBlockRefresh, execBlockRelocation, execAuxLoss, execMainLoss, execMainReturn, execM1Exit, execMrstNAssert,
      execSensorPortLockLoss, execHuveipTrainingDone, hm, State.take, State.atCycles, State.memWf_log, State.memWf_notice,
      State.memWf_stopModule, State.memWf_bankEcc]
  | paceHoldExpiry | estimateInterval =>
    change State.memWf _ = true
    simp +contextual [hm]
  | _ =>
    change State.memWf _ = true
    simp [hm, State.take, State.memWf_stopModule, State.memWf_modBank, State.memWf_ddrEcc]

/-- Settles O5: every table is empty at reset. -/
theorem memoryCanonicalAtReset : Obligations.MemoryCanonicalAtReset := State.memWf_reset

/-- Settles O6: an idle step leaves the memories alone, and any other is that of its command. -/
theorem memoryCanonicalKept : Obligations.MemoryCanonicalKept := by
  unfold Obligations.MemoryCanonicalKept
  intro s t hm h
  have hr : Res.memWf (step s) = true := by
    unfold step
    split
    · exact (State.memWf_tick s).trans hm
    · exact exec_memWf _ hm
  rwa [h] at hr

end Sys2Proof.Machine
end
